-- ==== Sys2Proof/Word.lean ====
section
/-!
DEFINITION. The widths the manual uses: the 72-bit native word (R8), the 32-bit register word, bytes,
array time (R4), and the sparse map in which the model keeps everything that is indexed.
-/

namespace Sys2Proof

/-- A 32-bit register word (chapter "Scope and conventions", Register tables). -/
abbrev Word := BitVec 32
/-- The native data word, bits [71:0] (R8). -/
abbrev Word72 := BitVec 72
/-- One byte of a byte-serial path (R9). -/
abbrev Byte := BitVec 8
/-- Array time: an unsigned 64-bit count of ticks, which wraps (R4). -/
abbrev Time := BitVec 64
/-- A sparse table: pairs of index and entry, indices strictly rising, no entry equal to its default. -/
abbrev Sparse (α : Type) := List (Nat × α)

end Sys2Proof
end

