-- ==== Sys2Proof/Syntax.lean ====
section
/-!
DEFINITION. The commands and events of the module: one constructor of Instr for each row of
spec/opcode_table.json, with the operands the row's rule gives it.

Every constructor begins with dt, the ticks that have passed since the command before it (log entry 2).
A quantity that the module measures or meets in the outside world (a raw code, a peak charge, the level
of a pin, whether a word read back was damaged) is an operand (log entry 3).
-/

namespace Sys2Proof

/-- The two concentrator sides (R18, R25). -/
inductive Side | a | b
deriving DecidableEq, Repr

/-- The transport that carries a command packet: the service SPI, or a port of a side (R440, R441), or the
inner packet of an ARRAY_BROADCAST (R427). -/
inductive Via
  | spi
  | port (x : Side) (p : Fin 16)
  | inner
deriving DecidableEq, Repr

/-- The control-class queue whose two pointer copies disagree at an access of a command (R489): none, the command queue, the SPI reply
buffer, the event queue, or the Welt transmit queue. -/
inductive Pointers | agree | commands | replies | events | welt
deriving DecidableEq, Repr

/-- The header of a command packet (R436), less OPCODE, N and P1, and its CRC word (R438); and what the accesses that the command makes to
the control-class queues find of their pointers (R489). -/
structure Ctx where
  via    : Via
  tag    : BitVec 8
  target : BitVec 8
  bcast  : Bool
  sched  : Bool
  sel    : BitVec 2
  crc    : Word
  ptr    : Pointers
deriving DecidableEq, Repr

/-- A frame as a port's receiver meets it: the SOF and EOF blocks, the words between them, and whether
exactly the data blocks that LEN announces stood between the two (R368). -/
structure RxFrame where
  sof    : BitVec 64
  words  : List Word72
  eof    : BitVec 64
  closed : Bool
deriving DecidableEq, Repr

/-- How a protected word reads: sound, corrected, or uncorrectable (R190, R490). -/
inductive Upset | sound | corrected | uncorrectable
deriving DecidableEq, Repr

/-- What a read of a unit's words finds: nothing wrong, word i of them uncorrectable in its SRAM (R266, R286), or the storage word i
of its item read with the bits of mask changed (R302, R344). -/
inductive InputFault
  | none
  | sram (i : Nat)
  | store (i : Nat) (mask : BitVec 120)
deriving DecidableEq, Repr

/-- A store access of a management controller (R303, R329): a granule read, or the byte fields of word w of a granule that mask names
written (bit b: payload byte b). -/
inductive MgtAccess
  | read (granule : Fin 134217728)
  | write (granule : Fin 134217728) (w : Fin 8) (mask : BitVec 9) (data : Word72)
deriving DecidableEq, Repr

/-- What a side's SRAM scrub access found (R335, R559): a word sound or corrected; word i of a unit in staging memory or in the assembly
buffer uncorrectable (R266, R286); a word uncorrectable whose value is then open, the bits of mask changed: word w of the kth write that waits on
a channel, or word i of the kth block of the egress buffer; a line of the instruction memory of
an engine, or of the management controller, uncorrectable (R345); or a word of an engine's local SRAM uncorrectable (R264). -/
inductive SideFind
  | sound
  | corrected
  | staging (unit : BitVec 48) (i : Nat)
  | assembly (unit : BitVec 48) (i : Nat)
  | queued (ch : Fin 16) (k : Nat) (w : Fin 8) (mask : BitVec 120)
  | egress (k i : Nat) (mask : Word72)
  | code (e : Option (Fin 48)) (line : Nat)
  | engine (e : Fin 48)
  | other
deriving DecidableEq, Repr

/-- The three frame trigger sources (R143); an edge of an MP pin comes with its pin and its direction. -/
inductive FrameSource
  | periodic
  | ext (i : Fin 12) (rising : Bool)
  | bus
deriving DecidableEq, Repr

/-- What FA_CAL measured of one ADC in an attempt: means in 1/16 code (R150). -/
structure AdcMeas where
  gs        : Fin 65536
  converged : Bool
  m0        : Int
  m1        : Int
deriving DecidableEq, Repr

/-- One pixel's sample: the largest charge that its integration reached of what the sensor gave, in electrons, positive electrons and
negative holes (R32, R35), and the 14-bit code that its frame ADC converted (R154). -/
structure Sample where
  lp     : Fin 16384
  charge : Int
  code   : BitVec 14
deriving DecidableEq, Repr

/-- Edges that a random-edge generator delivered to an ETD in one tick of the running count, all of one raw code (R110, R136); the
hardware delivers no two in one tick. -/
structure CalEdge where
  tick  : Nat
  n     : Fin 64
  ovr   : Bool
  count : Nat
deriving DecidableEq, Repr

/-- A latch of a pixel that an upset has changed, with the value it now holds (R61). -/
structure Flip where
  p   : Fin 1048576
  val : BitVec 10
deriving DecidableEq, Repr

/-- What a base-tier SRAM scrub access found (R64, R65, R165, R190, R559). -/
inductive SramFind
  | sound
  | corrected
  | shadow (p : Fin 1048576)
  | image (p : Fin 1048576)
  | chain (t : Fin 64) (lp : Fin 16384)
  | other
deriving DecidableEq, Repr

/-- The measured factors of one housekeeping path (R506). -/
structure PathFactor where
  offset : Word
  gain   : BitVec 16
deriving DecidableEq, Repr

/-- The commands and events, in the order of the table. -/
inductive Instr
  | nop (dt : Nat) (c : Ctx)
  | getStatus (dt : Nat) (c : Ctx)
  | readReg (dt : Nat) (c : Ctx) (addr : Word) (bad : Bool)
  | writeReg (dt : Nat) (c : Ctx) (addr value : Word)
  | readBlock (dt : Nat) (c : Ctx) (addr : Word) (count : BitVec 8) (bad : List (Fin 60))
  | writeBlock (dt : Nat) (c : Ctx) (addr : Word) (count : BitVec 8) (data : List Word)
  | modifyReg (dt : Nat) (c : Ctx) (addr mask value : Word) (bad : Bool)
  | cmdFrameReceived (dt : Nat) (x : Side) (p : Fin 16) (f : RxFrame) (mismatch : Bool)
  | spiWrite (dt : Nat) (bytes : List Byte) (mismatch : Bool)
  | spiRead (dt : Nat) (clocked : Nat) (mismatch : Bool)
  | peerTimeout (dt : Nat) (x : Side)
  | runArm (dt : Nat) (c : Ctx)
  | runStart (dt : Nat) (c : Ctx) (t : Option Time)
  | runStartEffect (dt : Nat)
  | runStop (dt : Nat) (c : Ctx) (t : Option Time)
  | runStopEffect (dt : Nat)
  | runStoppingComplete (dt : Nat)
  | flush (dt : Nat) (c : Ctx) (t : Option Time)
  | flushCut (dt : Nat)
  | triggerSw (dt : Nat) (c : Ctx) (number : Word) (t : Option Time)
  | trigCommit (dt : Nat) (c : Ctx)
  | configApply (dt : Nat) (c : Ctx) (maskLo maskHi : Word) (bad : List (Fin 1048576))
  | configStagingDone (dt : Nat)
  | configCommit (dt : Nat)
  | lastLoad (dt : Nat) (c : Ctx) (slot : Word)
  | lastStore (dt : Nat) (c : Ctx) (p1 : Word) (verified cut : Bool) (bad : List (Fin 1048576))
  | modeSet (dt : Nat) (c : Ctx) (mode : Word)
  | faCal (dt : Nat) (c : Ctx) (maskLo maskHi : Word)
  | faCalPhaseStart (dt : Nat)
  | faCalAttemptEnd (dt : Nat) (meas : List AdcMeas)
  | tdcCal (dt : Nat) (c : Ctx) (maskLo maskHi ext : Word)
  | tdcInitAttemptStart (dt : Nat)
  | tdcInitPassEnd (dt : Nat)
  | initFillTimeout (dt : Nat) (d : Fin 65540)
  | hkCal (dt : Nat) (c : Ctx)
  | hkCalDone (dt : Nat) (factors : List PathFactor)
  | threshScan (dt : Nat) (c : Ctx) (maskLo maskHi points pulses : Word)
  | threshScanDone (dt : Nat) (bad : List (Fin 1048576))
  | retire (dt : Nat) (c : Ctx) (kind index : Word)
  | retireListRead (dt : Nat) (c : Ctx) (kind from_ : Word)
  | retireListRemove (dt : Nat) (c : Ctx) (kind index : Word)
  | resumeDrain (dt : Nat) (c : Ctx) (p1 : Word)
  | decompressJob (dt : Nat) (c : Ctx) (p1 p2 p3 : Word)
  | jobResume (dt : Nat) (c : Ctx) (p1 : Word)
  | getMeasurement (dt : Nat) (c : Ctx) (part : Word) (n : Option Word)
  | attest (dt : Nat) (c : Ctx) (nonce : BitVec 256)
  | getIdentity (dt : Nat) (c : Ctx) (offset : Word)
  | patchLoad (dt : Nat) (c : Ctx) (p1 offset length : Word) (crc : Option Word)
  | eventSubscribe (dt : Nat) (c : Ctx) (p1 : Word)
  | eventAck (dt : Nat) (c : Ctx) (seq : Option Word) (mismatch : Bool)
  | firstFailureClear (dt : Nat) (c : Ctx)
  | arrayBroadcast (dt : Nat) (c : Ctx) (inner : List Word72)
  | arrayBarrier (dt : Nat) (c : Ctx)
  | arraySnapshot (dt : Nat) (c : Ctx) (t : Time)
  | snapshotAtT (dt : Nat)
  | arrayReset (dt : Nat) (c : Ctx) (t : Time)
  | arrayResetAtT (dt : Nat)
  | timeSet (dt : Nat) (c : Ctx) (v : Time) (p3 : Word)
  | sideReset (dt : Nat) (c : Ctx) (side : Word)
  | moduleReset (dt : Nat) (c : Ctx)
  | awlFire (dt : Nat) (c : Ctx)
  | awlAbort (dt : Nat) (c : Ctx)
  | awlPulse (dt : Nat)
  | readyFlush (dt : Nat) (c : Ctx) (x : Side)
  | delayFlush (dt : Nat) (c : Ctx) (x : Side)
  | retrain (dt : Nat) (c : Ctx) (x : Side) (p : Fin 16)
  | portCtrlWrite (dt : Nat) (c : Ctx) (x : Side) (p : Fin 16) (value : Word)
  | wltResync (dt : Nat) (c : Ctx) (x : Side)
  | srcClear (dt : Nat) (c : Ctx) (x : Side)
  | qflushStore (dt : Nat) (c : Ctx) (x : Side)
  | qflushLace (dt : Nat) (c : Ctx) (x : Side)
  | qflushEgress (dt : Nat) (c : Ctx) (x : Side)
  | qflushStaging (dt : Nat) (c : Ctx) (x : Side)
  | qflushWelt (dt : Nat) (c : Ctx) (x : Side)
  | qflushCmd (dt : Nat) (c : Ctx) (x : Side)
  | qflushEvents (dt : Nat) (c : Ctx) (x : Side)
  | logClear (dt : Nat) (c : Ctx) (x : Side) (ch : Fin 16)
  | injStart (dt : Nat) (c : Ctx)
  | standbyEntry (dt : Nat) (c : Ctx)
  | standbyExit (dt : Nat) (c : Ctx)
  | mpSwitch (dt : Nat) (c : Ctx) (i : Fin 12) (value : Word)
  | keeperRelease (dt : Nat) (i : Fin 12)
  | ignoreWindowEnd (dt : Nat) (i : Fin 12)
  | tdcCalPauseWrite (dt : Nat) (c : Ctx) (t : Fin 64) (value : Word)
  | tdcTableWrite (dt : Nat) (c : Ctx) (addr value : Word)
  | pixScrubPass (dt : Nat) (flips : List Flip) (bad : List (Fin 1048576))
  | driftMeasure (dt : Nat) (t : Fin 64) (dac : BitVec 10)
  | pixelLeadingEdge (dt : Nat) (p : Fin 1048576) (fu : Fin 1024) (n : Fin 64) (ovr : Bool) (charge : Int) (awl : Bool)
  | pixelTrailingEdge (dt : Nat) (p : Fin 1048576) (fu : Fin 1024) (n : Fin 64) (ovr : Bool) (charge : Int)
  | vernierConversionEnd (dt : Nat) (gs : Fin 65536)
  | clusterWindowEnd (dt : Nat) (gs : Fin 65536)
  | digitizerReady (dt : Nat) (gs : Fin 65536)
  | clusterAssembled (dt : Nat) (gs : Fin 65536)
  | calEdgeDelivered (dt : Nat) (gs : Fin 65536) (n : Fin 64) (ovr : Bool)
  | calConversionEnd (dt : Nat) (gs : Fin 65536)
  | fillAbandoned (dt : Nat) (t : Fin 64)
  | rotationGapEnd (dt : Nat) (t : Fin 64)
  | calTableTakesEffect (dt : Nat) (d : Fin 65540)
  | etdEdge (dt : Nat) (i : Fin 4) (rising : Bool) (fu : Fin 1024) (n : Fin 64)
  | etdStampArrives (dt : Nat) (i : Fin 4)
  | etdCalFill (dt : Nat) (i : Fin 4) (edges : List CalEdge)
  | frameTrigger (dt : Nat) (src : FrameSource)
  | frameConversionEnd (dt : Nat) (t : Fin 64) (samples : List Sample) (bad : List (Fin 16384))
  | tileLinkWord (dt : Nat) (t : Fin 64) (fifo linkA linkB : Upset) (moved : List Upset)
  | tilePllRelockTimeout (dt : Nat) (t : Fin 64)
  | unitClose (dt : Nat) (t : Fin 64) (moved : List Upset)
  | epochWrite (dt : Nat)
  | occupancySummary (dt : Nat)
  | occSummaryArrives (dt : Nat)
  | tileClockGate (dt : Nat) (t : Fin 64)
  | squallWindowEval (dt : Nat)
  | squallDeclaration (dt : Nat)
  | squallEnd (dt : Nat)
  | tilePllLockLost (dt : Nat) (t : Fin 64)
  | tilePllRelock (dt : Nat) (t : Fin 64)
  | sequencerStep (dt : Nat)
  | sequencerEntry (dt : Nat)
  | timerExpiry (dt : Nat) (i : Fin 8)
  | mpPulseEnd (dt : Nat) (i : Fin 12)
  | unitDecided (dt : Nat) (x : Side) (unit : BitVec 48)
  | unitArrival (dt : Nat) (x : Side) (t : Fin 64)
  | dispatchCycle (dt : Nat) (x : Side) (mismatch : Bool)
  | delayItemDue (dt : Nat) (x : Side) (mismatch : Bool)
  | sliceSort (dt : Nat) (x : Side) (e : Fin 48) (bad : InputFault)
  | cluster (dt : Nat) (x : Side) (e : Fin 48) (bad : InputFault)
  | recordBuild (dt : Nat) (x : Side) (e : Fin 48)
  | laceMerge (dt : Nat) (x : Side) (e : Fin 48)
  | verify (dt : Nat) (x : Side) (e : Fin 48)
  | telemetry (dt : Nat) (x : Side) (e : Fin 48)
  | calReduce (dt : Nat) (x : Side) (e : Fin 48)
  | engineTrap (dt : Nat) (x : Side) (e : Fin 48)
  | compressorTakesBlock (dt : Nat) (x : Side) (unit : BitVec 48) (bad : InputFault)
  | blockCompressed (dt : Nat) (x : Side) (e : Fin 32) (flip : Option (Fin 72))
  | activateTableClear (dt : Nat) (x : Side)
  | drainRead (dt : Nat) (x : Side) (r : Fin 8) (bad : Option (Nat × BitVec 120))
  | refreshDue (dt : Nat) (x : Side) (ch : Fin 16)
  | refreshEnd (dt : Nat) (x : Side) (ch : Fin 16)
  | ingestQuiet (dt : Nat) (x : Side) (ch : Fin 16)
  | imbalanceInterval (dt : Nat) (x : Side)
  | patrolScrubAccess (dt : Nat) (x : Side) (raw : List (BitVec 120)) (mgt : List MgtAccess)
  | blockAssign (dt : Nat) (x : Side)
  | dataFrameSent (dt : Nat) (x : Side) (p : Fin 16)
  | eventFrameSend (dt : Nat) (x : Side) (p : Fin 16) (mismatch : Bool)
  | laneSignalLost (dt : Nat) (x : Side) (p : Fin 16) (l : Fin 8)
  | laneLockLost (dt : Nat) (x : Side) (p : Fin 16) (l : Fin 8)
  | blockLockGained (dt : Nat) (x : Side) (p : Fin 16) (l : Fin 8)
  | blockLockLost (dt : Nat) (x : Side) (p : Fin 16) (l : Fin 8)
  | alignSlot (dt : Nat) (x : Side) (p : Fin 16)
  | alignReceived (dt : Nat) (x : Side) (p : Fin 16) (l : Fin 8) (blk : BitVec 56) (bip : Byte)
  | trainingLaneTimeout (dt : Nat) (x : Side) (p : Fin 16) (l : Fin 8)
  | pause (dt : Nat) (x : Side) (p : Fin 16) (f : RxFrame)
  | pauseExpiry (dt : Nat) (x : Side) (p : Fin 16) (i : Fin 4)
  | laceFrameReceived (dt : Nat) (x : Side) (p : Fin 16) (f : RxFrame)
  | creditReceived (dt : Nat) (x : Side) (p : Fin 16) (blk : BitVec 56)
  | creditSend (dt : Nat) (x : Side) (p : Fin 16)
  | creditStall (dt : Nat) (x : Side) (p : Fin 16)
  | weltHeartbeat (dt : Nat) (x : Side) (delivered mismatch : Bool)
  | weltRetransmit (dt : Nat) (x : Side)
  | weltSilence (dt : Nat) (x : Side)
  | signatureReceived (dt : Nat) (x : Side)
  | signatureOrphan (dt : Nat) (x : Side)
  | recomputeDone (dt : Nat) (x : Side) (flip : Option (Fin 72))
  | sideBootDone (dt : Nat) (x : Side) (pass listBad : Bool) (bad : List (Fin 16))
  | resyncTransferEnd (dt : Nat) (x : Side)
  | resyncPoint (dt : Nat) (x : Side)
  | twinTakeover (dt : Nat)
  | laceExchangeStart (dt : Nat) (x : Side) (p : Fin 16)
  | probeReceived (dt : Nat) (x : Side) (blk : BitVec 56) (fu : Fin 1024)
  | echoReceived (dt : Nat) (x : Side) (p : Fin 16) (blk : BitVec 56) (fu : Fin 1024)
  | followReceived (dt : Nat) (x : Side) (blk : BitVec 56)
  | rttReceived (dt : Nat) (x : Side) (blk : BitVec 56) (far : Option (Fin 9 × Nat))
  | exchangeTimeout (dt : Nat) (x : Side) (p : Fin 16)
  | reachReceived (dt : Nat) (x : Side) (p : Fin 16) (blk : BitVec 56)
  | rosterReceived (dt : Nat) (x : Side) (p : Fin 16) (blk : BitVec 56)
  | busBlockReceived (dt : Nat) (x : Side) (p : Fin 16) (blk : BitVec 56)
  | busAssertionDelivered (dt : Nat)
  | refinLost (dt : Nat)
  | refinLock (dt : Nat)
  | ppsEdge (dt : Nat)
  | telemetryCapture (dt : Nat) (x : Side)
  | mpPinEdge (dt : Nat) (i : Fin 12) (level : Bool)
  | hkInjectPinEdge (dt : Nat) (i : Fin 12)
  | hkConversionDone (dt : Nat) (code : Int) (ovr : Bool)
  | hkInjectedConversionDone (dt : Nat) (code : Int) (ovr : Bool)
  | overcurrentTrip (dt : Nat) (current : Nat)
  | overcurrentRearm (dt : Nat) (below : Nat)
  | loopUpdate (dt : Nat)
  | loopOpenDetect (dt : Nat) (current held : Nat)
  | doseSecond (dt : Nat) (charges : List Nat)
  | doseSave (dt : Nat)
  | retirementListUpdate (dt : Nat)
  | baseSramScrub (dt : Nat) (found : SramFind)
  | sideSramScrub (dt : Nat) (x : Side) (found : SideFind)
  | mgtFetchFail (dt : Nat) (x : Side) (line : Nat)
  | vinValid (dt : Nat) (x : Side)
  | vinLost (dt : Nat) (x : Side)
  | vaonValid (dt : Nat)
  | vaonLost (dt : Nat)
  | resetN (dt : Nat)
  | sideResetPin (dt : Nat) (x : Side)
  | startupStep (dt : Nat) (straps : BitVec 8) (master : Bool)
  | wakeStep (dt : Nat) (inLimits : Bool) (bad : List (Fin 1048576))
  | basePllLockLost (dt : Nat)
  | basePllRelock (dt : Nat)
  | resetNRelease (dt : Nat)
  | sideResetPinRelease (dt : Nat) (x : Side)
  | laneSignalReturn (dt : Nat) (x : Side) (p : Fin 16) (l : Fin 8)
  | loopOpenClear (dt : Nat) (current : Nat)
  | laceBatchEnd (dt : Nat) (x : Side) (p : Fin 16)
  | frameNotAccepted (dt : Nat) (x : Side) (p : Fin 16) (f : RxFrame)
  | invalidControlBlock (dt : Nat) (x : Side) (p : Fin 16) (typ : Byte) (blk : BitVec 56)
deriving DecidableEq, Repr

end Sys2Proof
end

