-- ==== Sys2Proof/Decode.lean ====
section
/-!
DEFINITION. The commands that a word spells by the table's bits. No row of spec/opcode_table.json gives bits: the packets of
R436 come in through CMD_FRAME_RECEIVED and SPI_WRITE, and the other rows are events that no word spells.
-/

namespace Sys2Proof

/-- The command that a word spells: none, since no row of the table gives bits. -/
def decodeTableWord (_nbits _w : Nat) : Option Instr := none

end Sys2Proof
end

