-- ==== Sys2Proof/Machine/Sparse.lean ====
section
/-!
DEFINITION. Sparse tables in canonical form (indices strictly rising, no entry equal to its default), and the
bit-field arithmetic that every block uses.
-/

namespace Sys2Proof.Machine

/-- The entry at index k; d when none is listed. -/
def Sparse.get {α : Type} (m : Sparse α) (k : Nat) (d : α) : α :=
  match m with
  | [] => d
  | (j, v) :: r => if j = k then v else Sparse.get r k d

/-- Entry k removed. -/
def Sparse.del {α : Type} (m : Sparse α) (k : Nat) : Sparse α :=
  match m with
  | [] => []
  | (j, v) :: r => if j = k then Sparse.del r k else (j, v) :: Sparse.del r k

/-- Entry k set to v, in its place by index. -/
def Sparse.ins {α : Type} (m : Sparse α) (k : Nat) (v : α) : Sparse α :=
  match m with
  | [] => [(k, v)]
  | (j, w) :: r =>
    if k < j then (k, v) :: (j, w) :: r
    else if k = j then (k, v) :: r
    else (j, w) :: Sparse.ins r k v

/-- Entry k set to v, keeping the canonical form for the default d. -/
def Sparse.set {α : Type} [DecidableEq α] (m : Sparse α) (k : Nat) (v d : α) : Sparse α :=
  if v = d then Sparse.del m k else Sparse.ins m k v

/-- Indices strictly rising, from lo on. -/
def Sparse.sorted {α : Type} (m : Sparse α) (lo : Nat) : Bool :=
  match m with
  | [] => true
  | (j, _) :: r => decide (lo ≤ j) && Sparse.sorted r (j + 1)

/-- Entry k changed by f. -/
def Sparse.upd {α : Type} [DecidableEq α] (m : Sparse α) (k : Nat) (d : α) (f : α → α) : Sparse α :=
  Sparse.set m k (f (Sparse.get m k d)) d

/-- Bits [hi:lo] of a word, as a number. -/
def bits (w : Nat) (hi lo : Nat) : Nat := (w >>> lo) % 2 ^ (hi + 1 - lo)

/-- Bit i of a word. -/
def bit (w : Nat) (i : Nat) : Bool := w.testBit i

/-- A truth value as a bit. -/
def b2n (b : Bool) : Nat := if b then 1 else 0

/-- A word with its bits [hi:lo] replaced by the low bits of v. -/
def setBits (w : Nat) (hi lo v : Nat) : Nat :=
  w - bits w hi lo * 2 ^ lo + (v % 2 ^ (hi + 1 - lo)) * 2 ^ lo

/-- A two's-complement number of n bits, as an integer. -/
def signed (n w : Nat) : Int :=
  let v := w % 2 ^ n
  if v < 2 ^ (n - 1) then (v : Int) else (v : Int) - (2 ^ n : Nat)

/-- The n-bit two's-complement pattern of an integer. -/
def unsigned (n : Nat) (v : Int) : Nat := (v % ((2 ^ n : Nat) : Int)).toNat

/-- An integer held between two bounds. -/
def clampI (lo hi v : Int) : Int := if v < lo then lo else if hi < v then hi else v

/-- Whether time t has been reached: now is at or after it, in the wrapping order of array time (R4). -/
def reached (now t : Time) : Bool := (now - t).toNat < 2 ^ 63

/-- Ticks of array time from t to now, in the wrapping order (R4). -/
def since (now t : Time) : Nat := (now - t).toNat

/-- The first multiple of m ticks at or after t. -/
def alignUp (m t : Nat) : Nat := (t + m - 1) / m * m


/-- The entry at index i of a list of numbers, 0 beyond its end. -/
def nth (l : List Nat) (i : Nat) : Nat := l.getD i 0

/-- An element put into a rising list of numbers, once. -/
def insertNat (k : Nat) (l : List Nat) : List Nat :=
  match l with
  | [] => [k]
  | j :: r => if k < j then k :: j :: r else if k = j then j :: r else j :: insertNat k r

end Sys2Proof.Machine
end

