-- ==== Sys2Proof/Machine/Crc.lean ====
section
/-!
DEFINITION. Byte orders (R9) and the check codes: CRC-32 (R363), CRC-32C (R283), CRC-8 (R301), and the
SHA-384 of FIPS 180-4 (R463).
-/

namespace Sys2Proof.Machine

/-- The n bytes of a number, most significant first. -/
def bytesBE (n v : Nat) : List Nat :=
  match n with
  | 0 => []
  | k + 1 => (v >>> (8 * k)) % 256 :: bytesBE k v

/-- The number whose bytes, most significant first, are given. -/
def ofBytesBE (l : List Nat) : Nat := l.foldl (fun a b => a * 256 + b % 256) 0

/-- The 9 bytes of a word (R9). -/
def wordBytes (w : Word72) : List Nat := bytesBE 9 w.toNat

/-- The bytes of a run of words (R9, R10). -/
def wordsBytes (l : List Word72) : List Nat := l.flatMap wordBytes

/-- One bit of a reflected CRC. -/
def crcBit (poly c : Nat) : Nat := if c % 2 = 1 then (c >>> 1) ^^^ poly else c >>> 1

/-- One byte of a reflected CRC. -/
def crcByte (poly c b : Nat) : Nat :=
  let c0 := c ^^^ b
  crcBit poly (crcBit poly (crcBit poly (crcBit poly
    (crcBit poly (crcBit poly (crcBit poly (crcBit poly c0)))))))

/-- A reflected CRC with initial value and final XOR of all ones. -/
def crcRefl (poly : Nat) (l : List Nat) : Nat :=
  (l.foldl (crcByte poly) 0xFFFFFFFF) ^^^ 0xFFFFFFFF

/-- The CRC-32 of IEEE 802.3 (R363). -/
def crc32 (l : List Nat) : Nat := crcRefl 0xEDB88320 l

/-- The CRC-32C (R283). -/
def crc32c (l : List Nat) : Nat := crcRefl 0x82F63B78 l

/-- One bit of the CRC-8 of R301. -/
def crc8Bit (c : Nat) : Nat := if c ≥ 128 then ((c * 2) ^^^ 0x07) % 256 else c * 2

/-- The CRC-8 of R301. -/
def crc8 (l : List Nat) : Nat :=
  l.foldl (fun c b => crc8Bit (crc8Bit (crc8Bit (crc8Bit
    (crc8Bit (crc8Bit (crc8Bit (crc8Bit (c ^^^ b))))))))) 0

/-- The CRC field of an EOF block: the CRC-32 with its least significant byte first (R363). -/
def swap32 (c : Nat) : Nat :=
  (c % 256) * 2 ^ 24 + (c / 256 % 256) * 2 ^ 16 + (c / 65536 % 256) * 256 + c / 2 ^ 24 % 256

/-- The round constants of SHA-384 (FIPS 180-4). -/
def shaK : List Nat := [
  0x428A2F98D728AE22, 0x7137449123EF65CD, 0xB5C0FBCFEC4D3B2F, 0xE9B5DBA58189DBBC,
  0x3956C25BF348B538, 0x59F111F1B605D019, 0x923F82A4AF194F9B, 0xAB1C5ED5DA6D8118,
  0xD807AA98A3030242, 0x12835B0145706FBE, 0x243185BE4EE4B28C, 0x550C7DC3D5FFB4E2,
  0x72BE5D74F27B896F, 0x80DEB1FE3B1696B1, 0x9BDC06A725C71235, 0xC19BF174CF692694,
  0xE49B69C19EF14AD2, 0xEFBE4786384F25E3, 0x0FC19DC68B8CD5B5, 0x240CA1CC77AC9C65,
  0x2DE92C6F592B0275, 0x4A7484AA6EA6E483, 0x5CB0A9DCBD41FBD4, 0x76F988DA831153B5,
  0x983E5152EE66DFAB, 0xA831C66D2DB43210, 0xB00327C898FB213F, 0xBF597FC7BEEF0EE4,
  0xC6E00BF33DA88FC2, 0xD5A79147930AA725, 0x06CA6351E003826F, 0x142929670A0E6E70,
  0x27B70A8546D22FFC, 0x2E1B21385C26C926, 0x4D2C6DFC5AC42AED, 0x53380D139D95B3DF,
  0x650A73548BAF63DE, 0x766A0ABB3C77B2A8, 0x81C2C92E47EDAEE6, 0x92722C851482353B,
  0xA2BFE8A14CF10364, 0xA81A664BBC423001, 0xC24B8B70D0F89791, 0xC76C51A30654BE30,
  0xD192E819D6EF5218, 0xD69906245565A910, 0xF40E35855771202A, 0x106AA07032BBD1B8,
  0x19A4C116B8D2D0C8, 0x1E376C085141AB53, 0x2748774CDF8EEB99, 0x34B0BCB5E19B48A8,
  0x391C0CB3C5C95A63, 0x4ED8AA4AE3418ACB, 0x5B9CCA4F7763E373, 0x682E6FF3D6B2B8A3,
  0x748F82EE5DEFB2FC, 0x78A5636F43172F60, 0x84C87814A1F0AB72, 0x8CC702081A6439EC,
  0x90BEFFFA23631E28, 0xA4506CEBDE82BDE9, 0xBEF9A3F7B2C67915, 0xC67178F2E372532B,
  0xCA273ECEEA26619C, 0xD186B8C721C0C207, 0xEADA7DD6CDE0EB1E, 0xF57D4F7FEE6ED178,
  0x06F067AA72176FBA, 0x0A637DC5A2C898A6, 0x113F9804BEF90DAE, 0x1B710B35131C471B,
  0x28DB77F523047D84, 0x32CAAB7B40C72493, 0x3C9EBE0A15C9BEBC, 0x431D67C49C100D4C,
  0x4CC5D4BECB3E42B6, 0x597F299CFC657E2A, 0x5FCB6FAB3AD6FAEC, 0x6C44198C4A475817]

/-- A 64-bit word rotated right. -/
def rotr64 (x n : Nat) : Nat := (x >>> n) ||| ((x <<< (64 - n)) % 2 ^ 64)

/-- The message schedule, newest word first, continued by n words (FIPS 180-4). -/
def shaSched (n : Nat) (w : List Nat) : List Nat :=
  match n with
  | 0 => w
  | k + 1 =>
    let w2 := nth w 1
    let w15 := nth w 14
    let s1 := rotr64 w2 19 ^^^ rotr64 w2 61 ^^^ (w2 >>> 6)
    let s0 := rotr64 w15 1 ^^^ rotr64 w15 8 ^^^ (w15 >>> 7)
    shaSched k ((s1 + nth w 6 + s0 + nth w 15) % 2 ^ 64 :: w)

/-- One round of SHA-384 on the eight working variables. -/
def shaRound (v : List Nat) (kw : Nat × Nat) : List Nat :=
  match v with
  | [a, b, c, d, e, f, g, h] =>
    let s1 := rotr64 e 14 ^^^ rotr64 e 18 ^^^ rotr64 e 41
    let ch := (e &&& f) ^^^ ((e ^^^ 0xFFFFFFFFFFFFFFFF) &&& g)
    let t1 := h + s1 + ch + kw.1 + kw.2
    let s0 := rotr64 a 28 ^^^ rotr64 a 34 ^^^ rotr64 a 39
    let mj := (a &&& b) ^^^ (a &&& c) ^^^ (b &&& c)
    [(t1 + s0 + mj) % 2 ^ 64, a, b, c, (d + t1) % 2 ^ 64, e, f, g]
  | _ => v

/-- One block of 16 words of SHA-384. -/
def shaBlock (hs : List Nat) (w : List Nat) : List Nat :=
  let sched := (shaSched 64 w.reverse).reverse
  let v := (shaK.zip sched).foldl shaRound hs
  (hs.zip v).map (fun p => (p.1 + p.2) % 2 ^ 64)

/-- A list cut into n-element pieces, k of them. -/
def pieces {α : Type} (n k : Nat) (l : List α) : List (List α) :=
  match k with
  | 0 => []
  | j + 1 => l.take n :: pieces n j (l.drop n)

/-- SHA-384 of a byte string (FIPS 180-4). -/
def sha384 (m : List Nat) : BitVec 384 :=
  let n := m.length
  let zeros := (239 - n % 128) % 128
  let padded := m ++ [0x80] ++ List.replicate zeros 0 ++ bytesBE 16 (8 * n)
  let blocks := pieces 128 (padded.length / 128) padded
  let h0 := [0xCBBB9D5DC1059ED8, 0x629A292A367CD507, 0x9159015A3070DD17, 0x152FECD8F70E5939, 0x67332667FFC00B31, 0x8EB44A8768581511, 0xDB0C2E0D64F98FA7, 0x47B5481DBEFA4FA4]
  let hs := blocks.foldl (fun h b => shaBlock h ((pieces 8 16 b).map ofBytesBE)) h0
  BitVec.ofNat 384 (ofBytesBE ((hs.take 6).flatMap (bytesBE 8)))

end Sys2Proof.Machine
end

