-- ==== Sys2Proof/Config.lean ====
section
/-!
DEFINITION. What an implementation of the module fixes and the spec leaves open: constants without a body, so
that no proof can rest on a value of them. Each is applied to the operands it depends on, or to the count of
free values taken so far (State.freeCount).
-/

namespace Sys2Proof.Config

/-- A free 64-bit value (log entry 4): the nth that the machine has taken. -/
opaque freeWord : Nat → BitVec 64

/-- A free 384-bit digest: the SHA-384 of content whose bytes the spec does not give (log entry 5). -/
opaque freeDigest : Nat → BitVec 384

/-- The delay of external-trigger digitizer i above its least value of 1 536 FU, modulo 4 609 (R133). -/
opaque extDelay : Nat → Nat

/-- The sensitivity of dosimeter d, in 2^-16 Gy per code (R568). -/
opaque doseK : Nat → BitVec 16

/-- The SHA-384 of the mask ROM of a module (R463). -/
opaque romDigest : BitVec 384

/-- The SHA-384 of the factory microcode (R463). -/
opaque microDigest : BitVec 384

/-- The SHA-384 of the factory Last (R463). -/
opaque factoryLastDigest : BitVec 384

/-- The certificate chain of a side, as bytes, but for its ordering code: side, then index (R466; log entry 114). -/
opaque chainByte : Nat → Nat → BitVec 8

/-- The length of the certificate chain of a side, less 1, modulo 65 536 (R466), where that holds the ordering code whole (log entry
114). -/
opaque chainLength : Nat → BitVec 16

/-- Whether the module is a KVD-M20-Q0, and not a KVD-M20-A0 (R1). -/
opaque extendedGrade : Bool

/-- The state of a lane's scrambler as the nth thing put on its port begins: lane, then n (R350; log entry 119). -/
opaque scrambler : Nat → Nat → BitVec 58

/-- The place of the lane on which the nth thing put on a port begins: side and port, then n (chapter "Lanes", Striping; log entry
119). -/
opaque startLane : Nat → Nat → Nat

/-- The BIP of a lane as its nth ALIGN is sent: lane, then n (R357; log entry 119). -/
opaque sentBip : Nat → Nat → BitVec 8

/-- The place of the ordering code in the certificate chain of a side (R2, R466; log entry 114). -/
opaque codePlace : Nat → BitVec 16

/-- The ECDSA P-384 signature of a digest under the device key of a side, made for the nth time: r and s
(R465). -/
opaque ecdsa : Nat → BitVec 384 → Nat → BitVec 384 × BitVec 384

/-- The patch version that a firmware patch reports, by its SHA-384 (R469). -/
opaque patchVersion : BitVec 384 → BitVec 16

/-- Whether a code of a supply monitor shows its internal rail out of limits: HK channel, code (R472, R497; log entry 147). -/
opaque railOut : Nat → Int → Bool

/-- Whether the boot ROM takes an image into use: target 0 firmware patch, 1 microcode, and its SHA-384 (R462). -/
opaque imageTaken : Nat → BitVec 384 → Bool

end Sys2Proof.Config
end

