-- ==== Sys2Proof/Machine/Regs.lean ====
section
/-!
DEFINITION. The register map (chapter "Register map" and the Registers section of every chapter):
every register's address, its fields, each with its access type (R12), its view (R15) and its reset
value, and the words a read of it captures (R11). The address functions carry the manual's own names.
-/

namespace Sys2Proof.Machine

/-- The access types of R12. -/
inductive Access | ro | rw | wc | wo | rc
deriving DecidableEq, Repr

/-- One field of a register: its name, bits [hi:lo], type, whether its view is P, its reset value, and what that
value grows by with each index of the register. -/
structure Field where
  name : String
  hi : Nat
  lo : Nat
  ty : Access
  priv : Bool
  reset : Nat
  inc : Nat
deriving DecidableEq, Repr

/-- One line of the register tables: name, first address or offset, the (count, stride) of each index,
how many following words a read captures (R11), and the fields. A bit that no field names is reserved. -/
structure RegSpec where
  name : String
  off : Nat
  dims : List (Nat × Nat)
  cap : Nat
  fields : List Field
deriving DecidableEq, Repr

/-- Registers of base control, by address (R589) (part 1). -/
def baseRegs0 : List RegSpec := [
  ⟨"PIX_MODE", 0x40000, [], 0, [⟨"POLARITY", 0, 0, .rw, true, 0, 0⟩]⟩,
  ⟨"PIX_MODE_APPLIED", 0x40004, [], 0, [⟨"POLARITY", 0, 0, .ro, false, 0, 0⟩]⟩,
  ⟨"PIX_APPLY_STATUS", 0x40008, [], 0, [⟨"COUNT", 31, 16, .ro, false, 0, 0⟩, ⟨"BUSY", 0, 0, .ro, false, 0, 0⟩]⟩,
  ⟨"PIX_APPLY_TIME", 0x40010, [], 1, [⟨"TIME", 31, 0, .ro, false, 0, 0⟩]⟩,
  ⟨"PIX_APPLY_TIME", 0x40014, [], 0, [⟨"TIME", 31, 0, .ro, false, 0, 0⟩]⟩,
  ⟨"PIX_AWL_CTRL", 0x40020, [], 0, [⟨"COUNT", 31, 16, .rw, true, 0, 0⟩, ⟨"TIMED", 9, 9, .rw, true, 0, 0⟩, ⟨"SCALE", 8, 8, .rw, true, 0, 0⟩, ⟨"DAC", 7, 0, .rw, true, 0, 0⟩]⟩,
  ⟨"PIX_AWL_PERIOD", 0x40024, [], 0, [⟨"PERIOD", 23, 0, .rw, true, 3000, 0⟩]⟩,
  ⟨"PIX_AWL_FIRE", 0x40028, [], 0, [⟨"ABORT", 1, 1, .wo, true, 0, 0⟩, ⟨"FIRE", 0, 0, .wo, true, 0, 0⟩]⟩,
  ⟨"PIX_AWL_TIME", 0x40030, [], 1, [⟨"TIME", 31, 0, .rw, true, 0, 0⟩]⟩,
  ⟨"PIX_AWL_TIME", 0x40034, [], 0, [⟨"TIME", 31, 0, .rw, true, 0, 0⟩]⟩,
  ⟨"PIX_AWL_STATUS", 0x40038, [], 0, [⟨"REMAINING", 31, 16, .ro, false, 0, 0⟩, ⟨"LATE", 2, 2, .wc, false, 0, 0⟩, ⟨"CLAMPED", 1, 1, .wc, false, 0, 0⟩, ⟨"ACTIVE", 0, 0, .ro, false, 0, 0⟩]⟩,
  ⟨"PIX_SCRUB_CTRL", 0x40040, [], 0, [⟨"PERIOD", 3, 1, .rw, true, 0, 0⟩, ⟨"PAUSE", 0, 0, .rw, true, 0, 0⟩]⟩,
  ⟨"PIX_SCRUB_STATUS", 0x40044, [], 0, [⟨"UNCORR", 23, 16, .rc, false, 0, 0⟩, ⟨"FIXES", 15, 0, .rc, false, 0, 0⟩]⟩,
  ⟨"PIX_DRIFT_CTRL", 0x40048, [], 0, [⟨"LIMIT", 15, 8, .rw, true, 8, 0⟩, ⟨"ENABLE", 0, 0, .rw, true, 1, 0⟩]⟩,
  ⟨"PIX_SCAN_STATUS", 0x4004C, [], 0, [⟨"BUSY", 0, 0, .ro, false, 0, 0⟩]⟩,
  ⟨"TDC_INIT_STATUS", 0x50000, [], 0, [⟨"RETIRED", 31, 16, .ro, false, 0, 0⟩, ⟨"DONE", 1, 1, .ro, false, 0, 0⟩, ⟨"BUSY", 0, 0, .ro, false, 0, 0⟩]⟩,
  ⟨"TDC_EXT_CTRL", 0x50010, [(4, 4)], 0, [⟨"PAUSE", 6, 6, .rw, true, 0, 0⟩, ⟨"EDGE", 5, 4, .rw, true, 0, 0⟩, ⟨"SRC", 3, 0, .rw, true, 0, 0⟩]⟩,
  ⟨"TDC_EXT_LAST", 0x50040, [(4, 16)], 1, [⟨"TIME", 31, 0, .ro, false, 0, 0⟩]⟩,
  ⟨"TDC_EXT_LAST", 0x50044, [(4, 16)], 0, [⟨"TIME", 31, 0, .ro, false, 0, 0⟩]⟩,
  ⟨"TDC_EXT_LAST", 0x50048, [(4, 16)], 0, [⟨"POL", 16, 16, .ro, false, 0, 0⟩, ⟨"FINE", 9, 0, .ro, false, 0, 0⟩]⟩,
  ⟨"TDC_EXT_STATUS", 0x50080, [(4, 4)], 0, [⟨"MISSED", 31, 16, .rc, false, 0, 0⟩, ⟨"ACCEPTED", 15, 0, .rc, false, 0, 0⟩]⟩,
  ⟨"TDC_EXT_DELAY", 0x50090, [(4, 4)], 0, [⟨"DELAY", 15, 0, .ro, false, 0, 0⟩]⟩,
  ⟨"FRM_CTRL", 0x60000, [], 0, [⟨"EDGE", 9, 9, .rw, true, 0, 0⟩, ⟨"LINE", 8, 6, .rw, true, 0, 0⟩, ⟨"PIN", 5, 2, .rw, true, 0, 0⟩, ⟨"SRC", 1, 0, .rw, true, 0, 0⟩]⟩,
  ⟨"FRM_PERIOD", 0x60004, [], 0, [⟨"PERIOD", 31, 0, .rw, true, 93750, 0⟩]⟩]

/-- Registers of base control, by address (R589) (part 2). -/
def baseRegs1 : List RegSpec := [
  ⟨"FRM_ORIGIN", 0x60008, [], 1, [⟨"ORIGIN", 31, 0, .rw, true, 0, 0⟩]⟩,
  ⟨"FRM_ORIGIN", 0x6000C, [], 0, [⟨"ORIGIN", 31, 0, .rw, true, 0, 0⟩]⟩,
  ⟨"FRM_STATUS", 0x60010, [], 0, [⟨"TRIG_IGNORED", 31, 16, .rc, false, 0, 0⟩, ⟨"CLAMPED", 2, 2, .wc, false, 0, 0⟩, ⟨"FA_DONE", 1, 1, .ro, false, 0, 0⟩, ⟨"FA_BUSY", 0, 0, .ro, false, 0, 0⟩]⟩,
  ⟨"FRM_NUMBER", 0x60014, [], 0, [⟨"INPUT", 31, 0, .ro, false, 0, 0⟩]⟩,
  ⟨"FRM_LAST_TIME", 0x60018, [], 1, [⟨"TIME", 31, 0, .ro, false, 0, 0⟩]⟩,
  ⟨"FRM_LAST_TIME", 0x6001C, [], 0, [⟨"TIME", 31, 0, .ro, false, 0, 0⟩]⟩,
  ⟨"FRM_FA_STATUS", 0x60020, [], 0, [⟨"RETIRED", 31, 16, .ro, false, 0, 0⟩, ⟨"FAILS", 15, 0, .ro, false, 0, 0⟩]⟩,
  ⟨"TIL_SQ_CTRL", 0x70000, [], 0, [⟨"POLICY", 1, 0, .rw, true, 1, 0⟩]⟩,
  ⟨"TIL_SQ_STATUS", 0x70004, [], 0, [⟨"COUNT", 31, 16, .ro, false, 0, 0⟩, ⟨"POLICY", 2, 1, .ro, false, 0, 0⟩, ⟨"ACTIVE", 0, 0, .ro, false, 0, 0⟩]⟩,
  ⟨"TIL_SQ_BEGIN", 0x70008, [], 1, [⟨"TIME", 31, 0, .ro, false, 0, 0⟩]⟩,
  ⟨"TIL_SQ_BEGIN", 0x7000C, [], 0, [⟨"TIME", 31, 0, .ro, false, 0, 0⟩]⟩,
  ⟨"TIL_SQ_END", 0x70010, [], 1, [⟨"TIME", 31, 0, .ro, false, 0, 0⟩]⟩,
  ⟨"TIL_SQ_END", 0x70014, [], 0, [⟨"TIME", 31, 0, .ro, false, 0, 0⟩]⟩,
  ⟨"TIL_SQ_TILES", 0x70018, [], 1, [⟨"MASK", 31, 0, .ro, false, 0, 0⟩]⟩,
  ⟨"TIL_SQ_TILES", 0x7001C, [], 0, [⟨"MASK", 31, 0, .ro, false, 0, 0⟩]⟩,
  ⟨"TIL_SQ_UNFLAGGED", 0x70020, [], 0, [⟨"COUNT", 31, 0, .rc, false, 0, 0⟩]⟩,
  ⟨"TIL_SLICE", 0x70030, [], 0, [⟨"S", 4, 0, .rw, true, 14, 0⟩]⟩,
  ⟨"HK_CTRL", 0x20000, [], 0, [⟨"NOTCH", 2, 1, .rw, true, 2, 0⟩, ⟨"PAUSE", 0, 0, .rw, true, 0, 0⟩]⟩,
  ⟨"HK_STATUS", 0x20004, [], 0, [⟨"CYCLES", 31, 16, .ro, false, 0, 0⟩, ⟨"OC", 3, 3, .wc, false, 0, 0⟩, ⟨"CAL_BUSY", 2, 2, .ro, false, 0, 0⟩, ⟨"INJ_BUSY", 1, 1, .ro, false, 0, 0⟩, ⟨"CAL_DONE", 0, 0, .ro, false, 0, 0⟩]⟩,
  ⟨"HK_SEQ_LEN", 0x20008, [], 0, [⟨"LEN", 6, 0, .rw, true, 60, 0⟩]⟩,
  ⟨"HK_INJ_CTRL", 0x2000C, [], 0, [⟨"START", 31, 31, .wo, true, 0, 0⟩, ⟨"LEN", 11, 8, .rw, true, 2, 0⟩, ⟨"MP_EN", 2, 2, .rw, true, 0, 0⟩, ⟨"TEMP_EN", 1, 1, .rw, true, 1, 0⟩, ⟨"OC_EN", 0, 0, .rw, true, 1, 0⟩]⟩,
  ⟨"HK_INJ_STATUS", 0x20010, [], 0, [⟨"MISSED", 31, 16, .rc, false, 0, 0⟩, ⟨"RUNS", 15, 0, .ro, false, 0, 0⟩]⟩,
  ⟨"HK_ALARM", 0x20014, [], 1, [⟨"MASK", 31, 0, .ro, false, 0, 0⟩]⟩,
  ⟨"HK_ALARM", 0x20018, [], 0, [⟨"MASK", 31, 0, .ro, false, 0, 0⟩]⟩]

/-- Registers of base control, by address (R589) (part 3). -/
def baseRegs2 : List RegSpec := [
  ⟨"HK_BIAS_CTRL", 0x20020, [], 0, [⟨"FORCE", 11, 11, .rw, true, 0, 0⟩, ⟨"RANGE", 10, 8, .rw, true, 5, 0⟩, ⟨"OC_THR", 7, 0, .rw, true, 0, 0⟩]⟩,
  ⟨"HK_CAL_OFS", 0x20040, [(7, 8)], 0, [⟨"OFFSET", 31, 0, .ro, false, 0, 0⟩]⟩,
  ⟨"HK_CAL_GAIN", 0x20044, [(7, 8)], 0, [⟨"VALID", 31, 31, .ro, false, 0, 0⟩, ⟨"GAIN", 15, 0, .ro, false, 32768, 0⟩]⟩,
  ⟨"HK_LOOP_CTRL", 0x20080, [], 0, [⟨"EN", 9, 9, .rw, true, 0, 0⟩, ⟨"FAULT_HI", 8, 8, .rw, true, 0, 0⟩, ⟨"CHAN", 5, 0, .rw, true, 0, 0⟩]⟩,
  ⟨"HK_LOOP_ZERO", 0x20084, [], 0, [⟨"CODE", 31, 0, .rw, true, 0, 0⟩]⟩,
  ⟨"HK_LOOP_SPAN", 0x20088, [], 0, [⟨"CODE", 31, 0, .rw, true, 8388607, 0⟩]⟩,
  ⟨"HK_LOOP_STATUS", 0x2008C, [], 0, [⟨"CURRENT", 31, 16, .ro, false, 0, 0⟩, ⟨"OPEN", 2, 2, .ro, false, 0, 0⟩, ⟨"FAULT", 1, 1, .ro, false, 1, 0⟩]⟩,
  ⟨"HK_SEQ", 0x20100, [(64, 4)], 0, [⟨"CHAN", 5, 0, .rw, true, 0, 1⟩]⟩,
  ⟨"HK_INJ", 0x20200, [], 0, [⟨"CHAN", 5, 0, .rw, true, 48, 0⟩]⟩,
  ⟨"HK_INJ", 0x20204, [], 0, [⟨"CHAN", 5, 0, .rw, true, 49, 0⟩]⟩,
  ⟨"HK_INJ", 0x20208, [(6, 4)], 0, [⟨"CHAN", 5, 0, .rw, true, 0, 0⟩]⟩,
  ⟨"HK_RESULT", 0x20400, [(64, 4)], 0, [⟨"RANGE", 31, 29, .ro, false, 0, 0⟩, ⟨"INJECTED", 28, 28, .ro, false, 0, 0⟩, ⟨"OVER", 27, 27, .ro, false, 0, 0⟩, ⟨"AGE", 26, 24, .ro, false, 0, 0⟩, ⟨"CODE", 23, 0, .ro, false, 0, 0⟩]⟩,
  ⟨"HK_LIM_CTRL", 0x20800, [(64, 16)], 0, [⟨"RANGE", 6, 4, .rw, true, 0, 0⟩, ⟨"ALARM_OUT", 3, 3, .rw, true, 0, 0⟩, ⟨"TEMP", 2, 2, .rw, true, 0, 0⟩, ⟨"EN", 0, 0, .rw, true, 0, 0⟩]⟩,
  ⟨"HK_LIM_LO", 0x20804, [(64, 16)], 0, [⟨"CODE", 31, 0, .rw, true, 4286578688, 0⟩]⟩,
  ⟨"HK_LIM_HI", 0x20808, [(64, 16)], 0, [⟨"CODE", 31, 0, .rw, true, 8388607, 0⟩]⟩,
  ⟨"MP_BANK", 0x30000, [], 0, [⟨"V33_1", 1, 1, .rw, true, 0, 0⟩, ⟨"V33_0", 0, 0, .rw, true, 0, 0⟩]⟩,
  ⟨"MP_CTRL", 0x30010, [(12, 4)], 0, [⟨"INV", 5, 5, .rw, true, 0, 0⟩, ⟨"FUNC", 3, 0, .rw, true, 0, 0⟩]⟩,
  ⟨"MP_OUT", 0x30040, [], 0, [⟨"LEVEL", 11, 0, .rw, true, 0, 0⟩]⟩,
  ⟨"MP_IN", 0x30044, [], 0, [⟨"SWITCHING", 27, 16, .ro, false, 0, 0⟩, ⟨"LEVEL", 11, 0, .ro, false, 0, 0⟩]⟩,
  ⟨"AON_RESET_CAUSE", 0x0, [], 0, [⟨"SIDE_B", 23, 16, .ro, false, 0, 0⟩, ⟨"SIDE_A", 15, 8, .ro, false, 0, 0⟩, ⟨"MODULE", 7, 0, .ro, false, 1, 0⟩]⟩,
  ⟨"AON_COUNTS", 0x4, [], 0, [⟨"STARTS", 31, 16, .ro, false, 0, 0⟩, ⟨"RESETS", 15, 0, .ro, false, 0, 0⟩]⟩,
  ⟨"AON_SECONDS", 0x8, [], 0, [⟨"SECONDS", 31, 0, .ro, false, 0, 0⟩]⟩,
  ⟨"AON_SCRATCH", 0x10, [(4, 4)], 0, [⟨"DATA", 31, 0, .rw, true, 0, 0⟩]⟩,
  ⟨"PWR_CTRL", 0x10000, [], 0, [⟨"TARGET", 1, 0, .rw, true, 0, 0⟩]⟩]

/-- Registers of base control, by address (R589) (part 4). -/
def baseRegs3 : List RegSpec := [
  ⟨"PWR_STATUS", 0x10004, [], 0, [⟨"STEP", 31, 28, .ro, false, 0, 0⟩, ⟨"READY", 9, 9, .ro, false, 0, 0⟩, ⟨"FEED_B", 5, 5, .ro, false, 0, 0⟩, ⟨"FEED_A", 4, 4, .ro, false, 0, 0⟩, ⟨"STATE", 1, 0, .ro, false, 0, 0⟩]⟩,
  ⟨"PWR_WAKE_STATUS", 0x10008, [], 0, [⟨"MAX", 22, 16, .rc, false, 0, 0⟩, ⟨"QUEUE", 6, 0, .ro, false, 0, 0⟩]⟩,
  ⟨"PWR_WAKE_WAIT", 0x1000C, [], 0, [⟨"MICROSECONDS", 31, 0, .rc, false, 0, 0⟩]⟩,
  ⟨"PWR_CLK_STATUS", 0x10010, [], 0, [⟨"BASE_LOCK", 0, 0, .ro, false, 0, 0⟩]⟩,
  ⟨"PWR_TILE_LOCK_LO", 0x10014, [], 1, [⟨"MASK", 31, 0, .ro, false, 0, 0⟩]⟩,
  ⟨"PWR_TILE_LOCK_HI", 0x10018, [], 0, [⟨"MASK", 31, 0, .ro, false, 0, 0⟩]⟩,
  ⟨"PWR_CLK_LOSS", 0x1001C, [], 0, [⟨"BASE", 31, 16, .rc, false, 0, 0⟩, ⟨"TILE", 15, 0, .rc, false, 0, 0⟩]⟩,
  ⟨"PWR_FEED", 0x10020, [], 0, [⟨"LOSS_B", 31, 16, .rc, false, 0, 0⟩, ⟨"LOSS_A", 15, 0, .rc, false, 0, 0⟩]⟩,
  ⟨"TIL_SRAM_SCRUB", 0x70040, [], 0, [⟨"PAUSE", 16, 16, .rw, true, 0, 0⟩, ⟨"PERIOD", 15, 0, .rw, true, 60, 0⟩]⟩,
  ⟨"TIL_SRAM_STATUS", 0x70044, [], 0, [⟨"PASSES", 31, 16, .ro, false, 0, 0⟩, ⟨"UNCORR", 15, 0, .rc, false, 0, 0⟩]⟩,
  ⟨"HK_DOSE_CTRL", 0x20C00, [], 0, [⟨"PAUSE", 16, 16, .rw, true, 0, 0⟩, ⟨"SAVE", 15, 0, .rw, true, 60, 0⟩]⟩,
  ⟨"HK_DOSE_CAL", 0x20C10, [(4, 4)], 0, [⟨"K", 15, 0, .ro, false, 0, 0⟩]⟩,
  ⟨"HK_DOSE_DET", 0x20C20, [(4, 4)], 0, [⟨"DOSE", 31, 0, .ro, false, 0, 0⟩]⟩,
  ⟨"HK_DOSE_STATUS", 0x20C30, [], 0, [⟨"RATED", 5, 3, .ro, false, 0, 0⟩, ⟨"WARN", 2, 0, .ro, false, 0, 0⟩]⟩,
  ⟨"HK_DOSE", 0x20D00, [(64, 4)], 0, [⟨"DOSE", 31, 0, .ro, false, 0, 0⟩]⟩]

/-- Registers of base control, by address (R589). -/
def baseRegs : List RegSpec := baseRegs0 ++ baseRegs1 ++ baseRegs2 ++ baseRegs3

/-- Registers of a tile block, by offset (R590) (part 1). -/
def tileRegs0 : List RegSpec := [
  ⟨"PIX_THR", 0xC000, [], 0, [⟨"DAC", 9, 0, .rw, true, 120, 0⟩]⟩,
  ⟨"PIX_THR_APPLIED", 0xC004, [], 0, [⟨"DAC", 9, 0, .ro, false, 120, 0⟩]⟩,
  ⟨"PIX_SCAN_RESULT", 0xC008, [], 0, [⟨"UNTRIMMABLE", 30, 16, .ro, false, 0, 0⟩, ⟨"UNFOUND", 14, 0, .ro, false, 0, 0⟩]⟩,
  ⟨"PIX_SCAN_MEAN", 0xC00C, [], 0, [⟨"RMS", 25, 16, .ro, false, 0, 0⟩, ⟨"MEAN", 9, 0, .ro, false, 0, 0⟩]⟩,
  ⟨"PIX_DRIFT", 0xC010, [], 0, [⟨"DRIFT", 10, 0, .ro, false, 0, 0⟩]⟩,
  ⟨"TDC_CTRL", 0xD000, [], 0, [⟨"WINDOW", 7, 0, .rw, true, 255, 0⟩]⟩,
  ⟨"TDC_CAL_CTRL", 0xD004, [], 0, [⟨"GAP", 3, 1, .rw, true, 0, 0⟩, ⟨"PAUSE", 0, 0, .rw, true, 0, 0⟩]⟩,
  ⟨"TDC_CAL_STATUS", 0xD008, [], 0, [⟨"FILLS", 31, 16, .ro, false, 0, 0⟩, ⟨"ACTIVE", 10, 10, .ro, false, 0, 0⟩, ⟨"CURRENT", 9, 0, .ro, false, 0, 0⟩]⟩,
  ⟨"TDC_CAL_FAIL", 0xD00C, [], 0, [⟨"ABANDONED", 31, 16, .rc, false, 0, 0⟩, ⟨"FAILS", 15, 0, .rc, false, 0, 0⟩]⟩,
  ⟨"TDC_RETIRED", 0xD010, [], 0, [⟨"COUNT", 10, 0, .ro, false, 0, 0⟩]⟩,
  ⟨"TDC_DEAD", 0xD014, [], 0, [⟨"COUNT", 31, 0, .rc, false, 0, 0⟩]⟩,
  ⟨"TDC_STOP_OVF", 0xD018, [], 0, [⟨"COUNT", 31, 0, .rc, false, 0, 0⟩]⟩,
  ⟨"TDC_COARSE_STOPS", 0xD01C, [], 0, [⟨"COUNT", 31, 0, .rc, false, 0, 0⟩]⟩,
  ⟨"TDC_OVERRANGE", 0xD020, [], 0, [⟨"COUNT", 31, 0, .rc, false, 0, 0⟩]⟩,
  ⟨"FRM_ADC_CAL", 0x8000, [(1024, 4)], 0, [⟨"GAIN", 31, 16, .ro, false, 32768, 0⟩, ⟨"VALID", 15, 15, .ro, false, 0, 0⟩, ⟨"OFFSET", 11, 0, .ro, false, 0, 0⟩]⟩,
  ⟨"FRM_ZS", 0xE000, [], 0, [⟨"ENABLE", 31, 31, .rw, true, 0, 0⟩, ⟨"THRESH", 20, 0, .rw, true, 0, 0⟩]⟩,
  ⟨"FRM_FRAMES", 0xE004, [], 0, [⟨"COUNT", 31, 0, .ro, false, 0, 0⟩]⟩,
  ⟨"FRM_SUPP", 0xE008, [], 0, [⟨"COUNT", 31, 0, .rc, false, 0, 0⟩]⟩,
  ⟨"FRM_ADC_RETIRED", 0xE00C, [], 0, [⟨"COUNT", 10, 0, .ro, false, 0, 0⟩]⟩,
  ⟨"DEC_CTRL", 0xF000, [], 0, [⟨"PRESET", 1, 0, .rw, true, 0, 0⟩]⟩,
  ⟨"DEC_STATUS", 0xF004, [], 0, [⟨"CLAMPS", 31, 16, .rc, false, 0, 0⟩, ⟨"STATE_ERRORS", 15, 0, .rc, false, 0, 0⟩]⟩,
  ⟨"DEC_PHASE", 0xF008, [], 0, [⟨"PHASE", 5, 0, .ro, false, 0, 0⟩]⟩,
  ⟨"TIL_CTRL", 0x0, [], 0, [⟨"GATE_DIS", 2, 2, .rw, true, 0, 0⟩, ⟨"MODE", 1, 1, .rw, true, 0, 0⟩, ⟨"EN", 0, 0, .rw, true, 1, 0⟩]⟩,
  ⟨"TIL_STATUS", 0x4, [], 0, [⟨"RETIRED", 5, 5, .ro, false, 0, 0⟩, ⟨"GATED", 4, 4, .ro, false, 0, 0⟩, ⟨"BUSY", 3, 3, .ro, false, 0, 0⟩, ⟨"STATE", 1, 0, .ro, false, 0, 0⟩]⟩]

/-- Registers of a tile block, by offset (R590) (part 2). -/
def tileRegs1 : List RegSpec := [
  ⟨"TIL_FIFO", 0x8, [], 0, [⟨"MAX", 28, 16, .rc, false, 0, 0⟩, ⟨"LEVEL", 12, 0, .ro, false, 0, 0⟩]⟩,
  ⟨"TIL_BUSY_LOSS", 0xC, [], 0, [⟨"COUNT", 31, 0, .rc, false, 0, 0⟩]⟩,
  ⟨"TIL_WORDS", 0x10, [], 0, [⟨"COUNT", 31, 0, .ro, false, 0, 0⟩]⟩,
  ⟨"TIL_SQ_DROP", 0x14, [], 0, [⟨"COUNT", 31, 0, .rc, false, 0, 0⟩]⟩,
  ⟨"TIL_CL_DROP", 0x18, [], 0, [⟨"COUNT", 31, 0, .rc, false, 0, 0⟩]⟩,
  ⟨"TIL_ECC", 0x1C, [], 0, [⟨"LINK", 31, 24, .rc, false, 0, 0⟩, ⟨"UNCORR", 23, 16, .rc, false, 0, 0⟩, ⟨"CORR", 15, 0, .rc, false, 0, 0⟩]⟩]

/-- Registers of a tile block, by offset (R590). -/
def tileRegs : List RegSpec := tileRegs0 ++ tileRegs1

/-- Registers of a side, by offset from the side base (R591) (part 1). -/
def sideRegs0 : List RegSpec := [
  ⟨"TRG_CTRL", 0x20000, [], 0, [⟨"INIT", 7, 4, .rw, true, 0, 0⟩, ⟨"ACQ", 1, 0, .rw, true, 0, 0⟩]⟩,
  ⟨"TRG_RUN", 0x20004, [], 0, [⟨"RUNS", 31, 16, .ro, false, 0, 0⟩, ⟨"STOP_PENDING", 10, 10, .ro, false, 0, 0⟩, ⟨"START_PENDING", 9, 9, .ro, false, 0, 0⟩, ⟨"COMMIT_PENDING", 8, 8, .ro, false, 0, 0⟩, ⟨"SEQ", 7, 4, .ro, false, 0, 0⟩, ⟨"STATE", 1, 0, .ro, false, 0, 0⟩]⟩,
  ⟨"TRG_RUN_START", 0x20008, [], 1, [⟨"TIME", 31, 0, .ro, false, 0, 0⟩]⟩,
  ⟨"TRG_RUN_START", 0x2000C, [], 0, [⟨"TIME", 31, 0, .ro, false, 0, 0⟩]⟩,
  ⟨"TRG_RUN_STOP", 0x20010, [], 1, [⟨"TIME", 31, 0, .ro, false, 0, 0⟩]⟩,
  ⟨"TRG_RUN_STOP", 0x20014, [], 0, [⟨"TIME", 31, 0, .ro, false, 0, 0⟩]⟩,
  ⟨"TRG_WIN", 0x20040, [(4, 16)], 0, [⟨"PRE", 31, 0, .rw, true, 0, 0⟩]⟩,
  ⟨"TRG_WIN", 0x20044, [(4, 16)], 0, [⟨"POST", 31, 0, .rw, true, 0, 0⟩]⟩,
  ⟨"TRG_WIN", 0x20048, [(4, 16)], 0, [⟨"PRESCALE", 15, 0, .rw, true, 1, 0⟩]⟩,
  ⟨"TRG_FRAME_PRESCALE", 0x20080, [], 0, [⟨"N", 15, 0, .rw, true, 1, 0⟩]⟩,
  ⟨"TRG_OCC_CTRL", 0x20100, [(16, 16)], 0, [⟨"EN", 31, 31, .rw, true, 0, 0⟩, ⟨"LOST", 30, 30, .rw, true, 0, 0⟩, ⟨"BELOW", 29, 29, .rw, true, 0, 0⟩, ⟨"WIN", 13, 8, .rw, true, 0, 0⟩, ⟨"QUAD", 3, 0, .rw, true, 15, 0⟩]⟩,
  ⟨"TRG_OCC_THR", 0x20104, [(16, 16)], 0, [⟨"THRESH", 23, 0, .rw, true, 0, 0⟩]⟩,
  ⟨"TRG_OCC_TILES", 0x20108, [(16, 16)], 1, [⟨"MASK", 31, 0, .rw, true, 0, 0⟩]⟩,
  ⟨"TRG_OCC_TILES", 0x2010C, [(16, 16)], 0, [⟨"MASK", 31, 0, .rw, true, 0, 0⟩]⟩,
  ⟨"TRG_TIMER_LOAD", 0x20200, [(8, 8)], 1, [⟨"LOAD_LO", 31, 0, .rw, true, 0, 0⟩]⟩,
  ⟨"TRG_TIMER_LOAD", 0x20204, [(8, 8)], 0, [⟨"LOAD_HI", 15, 0, .rw, true, 0, 0⟩]⟩,
  ⟨"TRG_CNT_CTRL", 0x20280, [(8, 8)], 0, [⟨"SRC", 11, 0, .rw, true, 0, 0⟩]⟩,
  ⟨"TRG_CNT_CMP", 0x20284, [(8, 8)], 0, [⟨"CMP", 31, 0, .rw, true, 0, 0⟩]⟩,
  ⟨"TRG_CNT", 0x202C0, [(8, 4)], 0, [⟨"COUNT", 31, 0, .ro, false, 0, 0⟩]⟩,
  ⟨"TRG_MP_OUT", 0x20300, [], 0, [⟨"WIDTH", 7, 0, .rw, true, 1, 0⟩]⟩,
  ⟨"TRG_BUS_LEAD", 0x20304, [], 0, [⟨"LEAD", 23, 0, .rw, true, 30000, 0⟩]⟩,
  ⟨"TRG_TRIGGERS", 0x20400, [], 0, [⟨"COUNT", 31, 0, .rc, false, 0, 0⟩]⟩,
  ⟨"TRG_PRESCALED", 0x20404, [], 0, [⟨"COUNT", 31, 0, .rc, false, 0, 0⟩]⟩,
  ⟨"TRG_MERGED", 0x20408, [], 0, [⟨"COUNT", 31, 0, .rc, false, 0, 0⟩]⟩]

/-- Registers of a side, by offset from the side base (R591) (part 2). -/
def sideRegs1 : List RegSpec := [
  ⟨"TRG_MERGED_FORCED", 0x2040C, [], 0, [⟨"COUNT", 31, 0, .rc, false, 0, 0⟩]⟩,
  ⟨"TRG_RECORDS", 0x20410, [], 0, [⟨"COUNT", 31, 0, .ro, false, 0, 0⟩]⟩,
  ⟨"TRG_OPEN", 0x20414, [], 0, [⟨"MAX", 22, 16, .rc, false, 0, 0⟩, ⟨"NOW", 6, 0, .ro, false, 0, 0⟩]⟩,
  ⟨"TRG_UNITS_KEPT", 0x20418, [], 0, [⟨"COUNT", 31, 0, .rc, false, 0, 0⟩]⟩,
  ⟨"TRG_UNITS_RELEASED", 0x2041C, [], 0, [⟨"COUNT", 31, 0, .rc, false, 0, 0⟩]⟩,
  ⟨"TRG_FRAMES_PRESCALED", 0x20420, [], 0, [⟨"COUNT", 31, 0, .rc, false, 0, 0⟩]⟩,
  ⟨"TRG_STATE", 0x21000, [(16, 32), (5, 4)], 0, [⟨"ENTRY", 31, 0, .rw, true, 0, 0⟩]⟩,
  ⟨"TRG_LIVE", 0x21400, [(16, 32), (5, 4)], 0, [⟨"ENTRY", 31, 0, .ro, false, 0, 0⟩]⟩,
  ⟨"TRG_PATCH", 0x21800, [(8, 32), (5, 4)], 0, [⟨"ENTRY", 31, 0, .rw, true, 0, 0⟩]⟩,
  ⟨"TRG_PATCH", 0x21814, [(8, 32)], 0, [⟨"TARGET", 3, 0, .rw, true, 0, 0⟩]⟩,
  ⟨"DSP_CTRL", 0x30000, [], 0, [⟨"DELAY_FLUSH", 2, 2, .wo, true, 0, 0⟩, ⟨"READY_FLUSH", 1, 1, .wo, true, 0, 0⟩, ⟨"PREEMPT_EN", 0, 0, .rw, true, 1, 0⟩]⟩,
  ⟨"DSP_PRIO", 0x30004, [], 0, [⟨"PRIO", 13, 0, .rw, true, 15184, 0⟩]⟩,
  ⟨"DSP_STATUS", 0x30008, [], 0, [⟨"READY", 28, 16, .ro, false, 0, 0⟩, ⟨"DELAY", 10, 0, .ro, false, 0, 0⟩]⟩,
  ⟨"DSP_READY_MAX", 0x3000C, [], 0, [⟨"MAX", 12, 0, .rc, false, 0, 0⟩]⟩,
  ⟨"DSP_REFUSED", 0x30010, [], 0, [⟨"COUNT", 31, 0, .rc, false, 0, 0⟩]⟩,
  ⟨"DSP_PREEMPT", 0x30014, [], 0, [⟨"COUNT", 31, 0, .rc, false, 0, 0⟩]⟩,
  ⟨"DSP_AFF_HOME", 0x30018, [], 0, [⟨"COUNT", 31, 0, .rc, false, 0, 0⟩]⟩,
  ⟨"DSP_AFF_AWAY", 0x3001C, [], 0, [⟨"COUNT", 31, 0, .rc, false, 0, 0⟩]⟩,
  ⟨"DSP_QERR", 0x30020, [], 0, [⟨"DISCARDED", 31, 16, .rc, false, 0, 0⟩, ⟨"MISMATCH", 15, 0, .rc, false, 0, 0⟩]⟩,
  ⟨"DSP_LAG", 0x30024, [], 0, [⟨"TICKS", 31, 0, .rc, false, 0, 0⟩]⟩,
  ⟨"SE_CTRL", 0x30100, [], 0, [⟨"DT", 15, 8, .rw, true, 60, 0⟩, ⟨"CLUSTER", 0, 0, .rw, true, 0, 0⟩]⟩,
  ⟨"SE_POOL", 0x30104, [], 0, [⟨"BUSY", 21, 16, .ro, false, 0, 0⟩, ⟨"RETIRED", 13, 8, .ro, false, 0, 0⟩, ⟨"IN_SERVICE", 5, 0, .ro, false, 48, 0⟩]⟩,
  ⟨"SE_TRAPS", 0x30108, [], 0, [⟨"STAGING", 31, 16, .rc, false, 0, 0⟩, ⟨"TRAPS", 15, 0, .rc, false, 0, 0⟩]⟩,
  ⟨"SE_REC_FREE", 0x3010C, [], 0, [⟨"FREE", 16, 0, .ro, false, 65536, 0⟩]⟩]

/-- Registers of a side, by offset from the side base (R591) (part 3). -/
def sideRegs2 : List RegSpec := [
  ⟨"SE_ITEMS", 0x30180, [(7, 4)], 0, [⟨"COUNT", 31, 0, .ro, false, 0, 0⟩]⟩,
  ⟨"SE_ENGINE", 0x30200, [(48, 4)], 0, [⟨"RETIRED", 31, 31, .ro, false, 0, 0⟩, ⟨"TRAPS", 28, 27, .ro, false, 0, 0⟩, ⟨"PREEMPTED", 26, 26, .ro, false, 0, 0⟩, ⟨"BUSY", 25, 25, .ro, false, 0, 0⟩, ⟨"TYPE", 24, 22, .ro, false, 0, 0⟩, ⟨"KEY", 21, 15, .ro, false, 0, 0⟩]⟩,
  ⟨"CMP_CTRL", 0x40000, [], 0, [⟨"GROUP", 3, 1, .rw, true, 4, 0⟩, ⟨"XFORM", 0, 0, .rw, true, 1, 0⟩]⟩,
  ⟨"CMP_VERIFY", 0x40004, [], 0, [⟨"N", 15, 0, .rw, true, 1024, 0⟩]⟩,
  ⟨"CMP_STATUS", 0x40008, [], 0, [⟨"DEC_BUSY", 26, 24, .ro, false, 0, 0⟩, ⟨"RETIRED", 21, 16, .ro, false, 0, 0⟩, ⟨"BUSY", 13, 8, .ro, false, 0, 0⟩, ⟨"IN_SERVICE", 5, 0, .ro, false, 32, 0⟩]⟩,
  ⟨"CMP_FLUSH", 0x4000C, [], 0, [⟨"PENDING", 3, 0, .ro, false, 0, 0⟩]⟩,
  ⟨"CMP_FLUSH_LAST", 0x40010, [], 1, [⟨"TIME", 31, 0, .ro, false, 0, 0⟩]⟩,
  ⟨"CMP_FLUSH_LAST", 0x40014, [], 0, [⟨"TIME", 31, 0, .ro, false, 0, 0⟩]⟩,
  ⟨"CMP_IN_BYTES", 0x40018, [], 1, [⟨"COUNT", 31, 0, .ro, false, 0, 0⟩]⟩,
  ⟨"CMP_IN_BYTES", 0x4001C, [], 0, [⟨"COUNT", 31, 0, .ro, false, 0, 0⟩]⟩,
  ⟨"CMP_OUT_BYTES", 0x40020, [], 1, [⟨"COUNT", 31, 0, .ro, false, 0, 0⟩]⟩,
  ⟨"CMP_OUT_BYTES", 0x40024, [], 0, [⟨"COUNT", 31, 0, .ro, false, 0, 0⟩]⟩,
  ⟨"CMP_BLOCKS", 0x40028, [], 0, [⟨"COUNT", 31, 0, .ro, false, 0, 0⟩]⟩,
  ⟨"CMP_STORED", 0x4002C, [], 0, [⟨"COUNT", 31, 0, .rc, false, 0, 0⟩]⟩,
  ⟨"CMP_ASSEMBLY", 0x40030, [], 0, [⟨"MAX", 31, 16, .rc, false, 0, 0⟩, ⟨"LEVEL", 15, 0, .ro, false, 0, 0⟩]⟩,
  ⟨"CMP_OVERFLOW", 0x40034, [], 0, [⟨"COUNT", 31, 0, .rc, false, 0, 0⟩]⟩,
  ⟨"CMP_VERIFY_STATUS", 0x40038, [], 0, [⟨"FAILS", 31, 16, .rc, false, 0, 0⟩, ⟨"CHECKED", 15, 0, .rc, false, 0, 0⟩]⟩,
  ⟨"CMP_VERIFY_LAST", 0x40040, [], 0, [⟨"RECORD", 31, 0, .ro, false, 0, 0⟩]⟩,
  ⟨"CMP_VERIFY_LAST", 0x40044, [], 1, [⟨"UNIT_LO", 31, 0, .ro, false, 0, 0⟩]⟩,
  ⟨"CMP_VERIFY_LAST", 0x40048, [], 0, [⟨"UNIT_HI", 15, 0, .ro, false, 0, 0⟩]⟩,
  ⟨"CMP_VERIFY_LAST", 0x4004C, [], 0, [⟨"STATUS", 31, 24, .ro, false, 0, 0⟩, ⟨"COMPRESSOR", 20, 16, .ro, false, 0, 0⟩, ⟨"STREAM", 10, 8, .ro, false, 0, 0⟩, ⟨"PART", 7, 0, .ro, false, 0, 0⟩]⟩,
  ⟨"CMP_ENGINE", 0x40100, [(32, 4)], 0, [⟨"RETIRED", 31, 31, .ro, false, 0, 0⟩, ⟨"FAILS", 30, 29, .ro, false, 0, 0⟩, ⟨"BUSY", 28, 28, .ro, false, 0, 0⟩]⟩,
  ⟨"CMP_JOB_STATUS", 0x40200, [], 0, [⟨"STATUS", 31, 24, .ro, false, 0, 0⟩, ⟨"STOPPED", 1, 1, .ro, false, 0, 0⟩, ⟨"RUNNING", 0, 0, .ro, false, 0, 0⟩]⟩,
  ⟨"CMP_JOB_CONSUMED", 0x40204, [], 0, [⟨"BITS", 31, 0, .ro, false, 0, 0⟩]⟩]

/-- Registers of a side, by offset from the side base (R591) (part 4). -/
def sideRegs3 : List RegSpec := [
  ⟨"CMP_JOB_PRODUCED", 0x40208, [], 0, [⟨"BYTES", 31, 0, .ro, false, 0, 0⟩]⟩,
  ⟨"BST_STATUS", 0x50000, [], 0, [⟨"CHANNELS", 20, 16, .ro, false, 16, 0⟩, ⟨"INIT_DONE", 0, 0, .ro, false, 0, 0⟩]⟩,
  ⟨"BST_SERVICE", 0x50004, [], 0, [⟨"SUM", 25, 16, .ro, false, 730, 0⟩, ⟨"SERVICE", 9, 0, .ro, false, 960, 0⟩]⟩,
  ⟨"BST_CAPACITY", 0x50008, [], 0, [⟨"GRANULES", 27, 0, .ro, false, 134217728, 0⟩]⟩,
  ⟨"BST_DRAIN_CTRL", 0x5000C, [], 0, [⟨"AUTO_SKIP", 0, 0, .rw, true, 0, 0⟩]⟩,
  ⟨"BST_SCRUB_CTRL", 0x50010, [], 0, [⟨"PAUSE", 16, 16, .rw, true, 0, 0⟩, ⟨"PERIOD", 15, 0, .rw, true, 480, 0⟩]⟩,
  ⟨"BST_SCRUB_STATUS", 0x50014, [], 0, [⟨"PASSES", 31, 16, .ro, false, 0, 0⟩, ⟨"PROGRESS", 6, 0, .ro, false, 0, 0⟩]⟩,
  ⟨"BST_IMBALANCE", 0x50018, [], 0, [⟨"CHANNELS", 15, 0, .ro, false, 0, 0⟩]⟩,
  ⟨"BST_HASH_KEY", 0x50020, [], 1, [⟨"KEY", 31, 0, .ro, true, 0, 0⟩]⟩,
  ⟨"BST_HASH_KEY", 0x50024, [], 0, [⟨"KEY", 31, 0, .ro, true, 0, 0⟩]⟩,
  ⟨"BST_CLASS", 0x50040, [], 0, [⟨"SHED", 31, 31, .ro, false, 0, 0⟩, ⟨"EFFECTIVE", 25, 16, .ro, false, 360, 0⟩, ⟨"GUARANTEE", 9, 0, .rw, true, 360, 0⟩]⟩,
  ⟨"BST_CLASS", 0x50044, [], 0, [⟨"SHED", 31, 31, .ro, false, 0, 0⟩, ⟨"EFFECTIVE", 25, 16, .ro, false, 120, 0⟩, ⟨"GUARANTEE", 9, 0, .rw, true, 120, 0⟩]⟩,
  ⟨"BST_CLASS", 0x50048, [], 0, [⟨"SHED", 31, 31, .ro, false, 0, 0⟩, ⟨"EFFECTIVE", 25, 16, .ro, false, 200, 0⟩, ⟨"GUARANTEE", 9, 0, .rw, true, 200, 0⟩]⟩,
  ⟨"BST_CLASS", 0x5004C, [], 0, [⟨"SHED", 31, 31, .ro, false, 0, 0⟩, ⟨"EFFECTIVE", 25, 16, .ro, false, 40, 0⟩, ⟨"GUARANTEE", 9, 0, .rw, true, 40, 0⟩]⟩,
  ⟨"BST_CLASS", 0x50050, [], 0, [⟨"SHED", 31, 31, .ro, false, 0, 0⟩, ⟨"EFFECTIVE", 25, 16, .ro, false, 10, 0⟩, ⟨"GUARANTEE", 9, 0, .rw, true, 10, 0⟩]⟩,
  ⟨"BST_CLASS_USE", 0x50060, [(5, 4)], 0, [⟨"RATE", 9, 0, .ro, false, 0, 0⟩]⟩,
  ⟨"BST_RING_CTRL", 0x50100, [], 0, [⟨"STREAMS", 7, 4, .rw, true, 1, 0⟩, ⟨"POLICY", 1, 1, .rw, true, 0, 0⟩, ⟨"EN", 0, 0, .rw, true, 1, 0⟩]⟩,
  ⟨"BST_RING_CTRL", 0x50120, [], 0, [⟨"STREAMS", 7, 4, .rw, true, 2, 0⟩, ⟨"POLICY", 1, 1, .rw, true, 0, 0⟩, ⟨"EN", 0, 0, .rw, true, 1, 0⟩]⟩,
  ⟨"BST_RING_CTRL", 0x50140, [(6, 32)], 0, [⟨"STREAMS", 7, 4, .rw, true, 0, 0⟩, ⟨"POLICY", 1, 1, .rw, true, 0, 0⟩, ⟨"EN", 0, 0, .rw, true, 0, 0⟩]⟩,
  ⟨"BST_RING_BASE", 0x50104, [], 0, [⟨"BASE", 26, 0, .rw, true, 0, 0⟩]⟩,
  ⟨"BST_RING_BASE", 0x50124, [], 0, [⟨"BASE", 26, 0, .rw, true, 67108864, 0⟩]⟩,
  ⟨"BST_RING_BASE", 0x50144, [(6, 32)], 0, [⟨"BASE", 26, 0, .rw, true, 0, 0⟩]⟩,
  ⟨"BST_RING_SIZE", 0x50108, [], 0, [⟨"SIZE", 27, 0, .rw, true, 67108864, 0⟩]⟩,
  ⟨"BST_RING_SIZE", 0x50128, [], 0, [⟨"SIZE", 27, 0, .rw, true, 67108864, 0⟩]⟩]

/-- Registers of a side, by offset from the side base (R591) (part 5). -/
def sideRegs4 : List RegSpec := [
  ⟨"BST_RING_SIZE", 0x50148, [(6, 32)], 0, [⟨"SIZE", 27, 0, .rw, true, 0, 0⟩]⟩,
  ⟨"BST_RING_CAP", 0x5010C, [], 0, [⟨"GRANULES", 27, 0, .ro, false, 67108864, 0⟩]⟩,
  ⟨"BST_RING_CAP", 0x5012C, [], 0, [⟨"GRANULES", 27, 0, .ro, false, 67108864, 0⟩]⟩,
  ⟨"BST_RING_CAP", 0x5014C, [(6, 32)], 0, [⟨"GRANULES", 27, 0, .ro, false, 0, 0⟩]⟩,
  ⟨"BST_RING_FILL", 0x50110, [(8, 32)], 0, [⟨"GRANULES", 27, 0, .ro, false, 0, 0⟩]⟩,
  ⟨"BST_RING_MAX", 0x50114, [(8, 32)], 0, [⟨"GRANULES", 27, 0, .rc, false, 0, 0⟩]⟩,
  ⟨"BST_RING_LOSS", 0x50118, [(8, 32)], 0, [⟨"DISCARDED", 31, 22, .rc, false, 0, 0⟩, ⟨"SKIPPED", 21, 11, .rc, false, 0, 0⟩, ⟨"OVERWRITTEN", 10, 0, .rc, false, 0, 0⟩]⟩,
  ⟨"BST_DRAIN", 0x5011C, [(8, 32)], 0, [⟨"STATE", 1, 0, .ro, false, 0, 0⟩]⟩,
  ⟨"BST_DRAIN_HALT", 0x50200, [(8, 16)], 0, [⟨"RECORD", 31, 0, .ro, false, 0, 0⟩]⟩,
  ⟨"BST_DRAIN_HALT", 0x50204, [(8, 16)], 1, [⟨"UNIT_LO", 31, 0, .ro, false, 0, 0⟩]⟩,
  ⟨"BST_DRAIN_HALT", 0x50208, [(8, 16)], 0, [⟨"PART", 31, 24, .ro, false, 0, 0⟩, ⟨"STREAM", 18, 16, .ro, false, 0, 0⟩, ⟨"UNIT_HI", 15, 0, .ro, false, 0, 0⟩]⟩,
  ⟨"BST_DRAIN_HALT", 0x5020C, [(8, 16)], 0, [⟨"ROW", 21, 9, .ro, false, 0, 0⟩, ⟨"BANK", 8, 4, .ro, false, 0, 0⟩, ⟨"CHANNEL", 3, 0, .ro, false, 0, 0⟩]⟩,
  ⟨"BST_REFRESH", 0x50400, [(16, 16)], 0, [⟨"OWED_MAX", 15, 8, .rc, false, 0, 0⟩, ⟨"OWED", 3, 0, .ro, false, 0, 0⟩]⟩,
  ⟨"BST_REFRESH", 0x50404, [(16, 16)], 0, [⟨"FORCED", 31, 0, .rc, false, 0, 0⟩]⟩,
  ⟨"BST_REFRESH", 0x50408, [(16, 16)], 0, [⟨"NEIGHBOUR", 31, 0, .rc, false, 0, 0⟩]⟩,
  ⟨"BST_REFRESH", 0x5040C, [(16, 16)], 0, [⟨"STAGING_MAX", 9, 0, .rc, false, 0, 0⟩]⟩,
  ⟨"BST_ECC", 0x50600, [(16, 8)], 0, [⟨"UNCORR", 31, 16, .rc, false, 0, 0⟩, ⟨"CORR", 15, 0, .rc, false, 0, 0⟩]⟩,
  ⟨"BST_LOG_STATUS", 0x50604, [(16, 8)], 0, [⟨"OVERFLOW", 31, 31, .wc, false, 0, 0⟩, ⟨"CLEAR", 30, 30, .wo, true, 0, 0⟩, ⟨"ENTRIES", 20, 16, .ro, false, 0, 0⟩, ⟨"EXTRA", 15, 0, .ro, false, 0, 0⟩]⟩,
  ⟨"BST_RETIRED", 0x50700, [(16, 4)], 0, [⟨"CHANNEL", 31, 31, .ro, false, 0, 0⟩, ⟨"ROWS", 9, 0, .ro, false, 0, 0⟩]⟩,
  ⟨"BST_CHAN_USE", 0x50780, [(16, 4)], 0, [⟨"RATE", 9, 0, .ro, false, 0, 0⟩]⟩,
  ⟨"BST_LOG", 0x51000, [(16, 128), (16, 8)], 0, [⟨"VALID", 31, 31, .ro, false, 0, 0⟩, ⟨"UNCORR", 30, 30, .ro, false, 0, 0⟩, ⟨"BANK", 29, 25, .ro, false, 0, 0⟩, ⟨"ROW", 24, 12, .ro, false, 0, 0⟩, ⟨"COLUMN", 11, 7, .ro, false, 0, 0⟩, ⟨"WORD", 6, 4, .ro, false, 0, 0⟩, ⟨"LANE", 3, 0, .ro, false, 0, 0⟩]⟩,
  ⟨"BST_LOG", 0x51004, [(16, 128), (16, 8)], 0, [⟨"TIME", 31, 0, .ro, false, 0, 0⟩]⟩,
  ⟨"LNK_PORT_CTRL", 0x60000, [(8, 64)], 0, [⟨"RETRAIN", 15, 15, .wo, true, 0, 0⟩, ⟨"WIDTH", 11, 10, .rw, true, 0, 0⟩, ⟨"RATE", 9, 8, .rw, true, 0, 0⟩, ⟨"ROLE", 2, 0, .rw, true, 1, 0⟩]⟩,
  ⟨"LNK_PORT_CTRL", 0x60200, [(8, 64)], 0, [⟨"RETRAIN", 15, 15, .wo, true, 0, 0⟩, ⟨"WIDTH", 11, 10, .rw, true, 0, 0⟩, ⟨"RATE", 9, 8, .rw, true, 0, 0⟩, ⟨"ROLE", 2, 0, .rw, true, 0, 0⟩]⟩]

/-- Registers of a side, by offset from the side base (R591) (part 6). -/
def sideRegs5 : List RegSpec := [
  ⟨"LNK_PORT_STATUS", 0x60004, [(16, 64)], 0, [⟨"PEER_ID", 31, 24, .ro, false, 0, 0⟩, ⟨"USED", 23, 16, .ro, false, 0, 0⟩, ⟨"LOCKED", 15, 8, .ro, false, 0, 0⟩, ⟨"ROLE_MISMATCH", 7, 7, .ro, false, 0, 0⟩, ⟨"PAUSED", 6, 6, .ro, false, 0, 0⟩, ⟨"WIDTH", 5, 4, .ro, false, 0, 0⟩, ⟨"STATE", 1, 0, .ro, false, 0, 0⟩]⟩,
  ⟨"LNK_PORT_TX", 0x60008, [(16, 64)], 0, [⟨"FRAMES", 31, 0, .ro, false, 0, 0⟩]⟩,
  ⟨"LNK_PORT_RX", 0x6000C, [(16, 64)], 0, [⟨"FRAMES", 31, 0, .ro, false, 0, 0⟩]⟩,
  ⟨"LNK_PORT_ERR", 0x60010, [(16, 64)], 0, [⟨"CRC", 31, 24, .rc, false, 0, 0⟩, ⟨"FORMAT", 23, 16, .rc, false, 0, 0⟩, ⟨"RETRAINS", 15, 8, .rc, false, 0, 0⟩, ⟨"CUT", 7, 0, .rc, false, 0, 0⟩]⟩,
  ⟨"LNK_PORT_PAUSE", 0x60014, [(16, 64)], 0, [⟨"PAUSES", 31, 16, .rc, false, 0, 0⟩, ⟨"REMAINING", 15, 0, .ro, false, 0, 0⟩]⟩,
  ⟨"LNK_PORT_CREDIT", 0x60018, [(16, 64)], 0, [⟨"STALLS", 31, 16, .rc, false, 0, 0⟩, ⟨"CREDITS", 9, 0, .ro, false, 0, 0⟩]⟩,
  ⟨"LNK_STREAM_MAP", 0x60800, [(4, 4)], 0, [⟨"PORTS", 15, 0, .rw, true, 255, 0⟩]⟩,
  ⟨"LNK_CAPACITY", 0x60810, [], 0, [⟨"PAYLOAD", 11, 0, .ro, false, 0, 0⟩]⟩,
  ⟨"LNK_LANE_CTRL", 0x61000, [(16, 64), (8, 8)], 0, [⟨"TX_OFF", 14, 14, .rw, true, 0, 0⟩, ⟨"RX_INV", 13, 13, .rw, true, 0, 0⟩, ⟨"TX_INV", 12, 12, .rw, true, 0, 0⟩, ⟨"PEAKING", 11, 8, .rw, true, 6, 0⟩, ⟨"DEEMPH", 7, 4, .rw, true, 6, 0⟩, ⟨"SWING", 3, 0, .rw, true, 8, 0⟩]⟩,
  ⟨"LNK_LANE_STATUS", 0x61004, [(16, 64), (8, 8)], 0, [⟨"RETIRED", 31, 31, .ro, false, 0, 0⟩, ⟨"FAULTS", 30, 29, .ro, false, 0, 0⟩, ⟨"BIP_ERR", 23, 16, .rc, false, 0, 0⟩, ⟨"FAULT_COUNT", 15, 8, .rc, false, 0, 0⟩, ⟨"USED", 3, 3, .ro, false, 0, 0⟩, ⟨"ALIGNED", 2, 2, .ro, false, 0, 0⟩, ⟨"BLOCK_LOCK", 1, 1, .ro, false, 0, 0⟩, ⟨"SIGNAL", 0, 0, .ro, false, 0, 0⟩]⟩,
  ⟨"WLT_CTRL", 0x70000, [], 0, [⟨"RESYNC", 8, 8, .wo, true, 0, 0⟩, ⟨"AUTO_RESYNC", 0, 0, .rw, true, 1, 0⟩]⟩,
  ⟨"WLT_STATUS", 0x70004, [], 0, [⟨"HELD", 11, 11, .ro, false, 0, 0⟩, ⟨"LINK_UP", 10, 10, .ro, false, 0, 0⟩, ⟨"SIMPLEX", 9, 9, .ro, false, 0, 0⟩, ⟨"PRIMARY", 8, 8, .ro, false, 0, 0⟩, ⟨"PEER", 7, 6, .ro, false, 0, 0⟩, ⟨"SELF", 5, 4, .ro, false, 0, 0⟩, ⟨"MODE", 0, 0, .ro, false, 0, 0⟩]⟩,
  ⟨"WLT_DISPUTES", 0x70008, [], 0, [⟨"LOST", 31, 16, .rc, false, 0, 0⟩, ⟨"RAISED", 15, 0, .rc, false, 0, 0⟩]⟩,
  ⟨"WLT_WINDOW", 0x7000C, [], 0, [⟨"OUTS", 3, 2, .ro, false, 0, 0⟩, ⟨"LOSSES", 1, 0, .ro, false, 0, 0⟩]⟩,
  ⟨"WLT_VERDICTS", 0x70010, [], 0, [⟨"BOTH_BAD", 31, 24, .rc, false, 0, 0⟩, ⟨"UNRESOLVED", 23, 16, .rc, false, 0, 0⟩, ⟨"ABSENT", 15, 8, .rc, false, 0, 0⟩]⟩,
  ⟨"WLT_COMPARED", 0x70014, [], 0, [⟨"COUNT", 31, 0, .ro, false, 0, 0⟩]⟩,
  ⟨"WLT_PENDING", 0x70018, [], 0, [⟨"MAX", 31, 16, .rc, false, 0, 0⟩, ⟨"LEVEL", 15, 0, .ro, false, 0, 0⟩]⟩,
  ⟨"WLT_LINK", 0x7001C, [], 0, [⟨"RETRANS", 31, 16, .rc, false, 0, 0⟩, ⟨"MAX_GAP", 15, 0, .rc, false, 0, 0⟩]⟩,
  ⟨"WLT_LAST_DISPUTE", 0x70020, [], 0, [⟨"RECORD", 31, 0, .ro, false, 0, 0⟩]⟩,
  ⟨"WLT_LAST_DISPUTE", 0x70024, [], 1, [⟨"UNIT_LO", 31, 0, .ro, false, 0, 0⟩]⟩,
  ⟨"WLT_LAST_DISPUTE", 0x70028, [], 0, [⟨"UNIT_HI", 15, 0, .ro, false, 0, 0⟩]⟩,
  ⟨"WLT_LAST_DISPUTE", 0x7002C, [], 0, [⟨"PART", 31, 24, .ro, false, 0, 0⟩, ⟨"STREAM", 18, 16, .ro, false, 0, 0⟩, ⟨"OPEN", 15, 15, .ro, false, 0, 0⟩, ⟨"VERDICT", 2, 0, .ro, false, 0, 0⟩]⟩,
  ⟨"WLT_RESYNC_TIME", 0x70030, [], 1, [⟨"TIME", 31, 0, .ro, false, 0, 0⟩]⟩,
  ⟨"WLT_RESYNC_TIME", 0x70034, [], 0, [⟨"TIME", 31, 0, .ro, false, 0, 0⟩]⟩]

/-- Registers of a side, by offset from the side base (R591) (part 7). -/
def sideRegs6 : List RegSpec := [
  ⟨"WLT_PEER_OUT_TIME", 0x70038, [], 1, [⟨"TIME", 31, 0, .ro, false, 0, 0⟩]⟩,
  ⟨"WLT_PEER_OUT_TIME", 0x7003C, [], 0, [⟨"TIME", 31, 0, .ro, false, 0, 0⟩]⟩,
  ⟨"LCE_CTRL", 0x80000, [], 0, [⟨"MERGE", 8, 8, .rw, true, 0, 0⟩, ⟨"REF", 2, 1, .rw, true, 0, 0⟩, ⟨"PPS_EN", 0, 0, .rw, true, 0, 0⟩]⟩,
  ⟨"LCE_STATUS", 0x80004, [], 0, [⟨"MODULE_ID", 31, 24, .ro, false, 0, 0⟩, ⟨"DEPTH", 23, 20, .ro, false, 15, 0⟩, ⟨"MASTER", 19, 19, .ro, false, 0, 0⟩, ⟨"SECOND_MASTER", 18, 18, .ro, false, 0, 0⟩, ⟨"DUP_ID", 17, 17, .ro, false, 0, 0⟩, ⟨"DEPTH_LIMIT", 16, 16, .ro, false, 0, 0⟩, ⟨"LOCKED", 15, 15, .ro, false, 0, 0⟩, ⟨"HOLDOVER", 14, 14, .ro, false, 0, 0⟩, ⟨"REF_LOCKED", 13, 13, .ro, false, 0, 0⟩, ⟨"PPS_LOCKED", 12, 12, .ro, false, 0, 0⟩]⟩,
  ⟨"LCE_MODULE_ID", 0x80008, [], 0, [⟨"ID", 7, 0, .rw, true, 0, 0⟩]⟩,
  ⟨"LCE_TIME", 0x80010, [], 1, [⟨"TIME", 31, 0, .ro, false, 0, 0⟩]⟩,
  ⟨"LCE_TIME", 0x80014, [], 0, [⟨"TIME", 31, 0, .ro, false, 0, 0⟩]⟩,
  ⟨"LCE_REACH", 0x80018, [], 0, [⟨"TICKS", 23, 0, .ro, false, 0, 0⟩]⟩,
  ⟨"LCE_MODULES", 0x8001C, [], 0, [⟨"COUNT", 8, 0, .ro, false, 1, 0⟩]⟩,
  ⟨"LCE_ASYM", 0x80020, [], 0, [⟨"ASYM", 19, 0, .rw, true, 0, 0⟩]⟩,
  ⟨"LCE_RTT", 0x80024, [], 0, [⟨"RTT", 25, 0, .ro, false, 0, 0⟩]⟩,
  ⟨"LCE_OFFSET", 0x80028, [], 0, [⟨"E", 31, 0, .ro, false, 0, 0⟩]⟩,
  ⟨"LCE_PATH", 0x8002C, [], 0, [⟨"TICKS", 23, 0, .ro, false, 0, 0⟩]⟩,
  ⟨"LCE_TREE_DIFF", 0x80030, [], 0, [⟨"DIFF", 31, 0, .ro, false, 0, 0⟩]⟩,
  ⟨"LCE_PPS_PHASE", 0x80034, [], 0, [⟨"PHASE", 31, 0, .rw, true, 0, 0⟩]⟩,
  ⟨"LCE_PPS_ERR", 0x80038, [], 0, [⟨"ERROR", 31, 0, .ro, false, 0, 0⟩]⟩,
  ⟨"LCE_BUS", 0x80040, [], 0, [⟨"LATE", 31, 16, .rc, false, 0, 0⟩, ⟨"ASSERTS", 15, 0, .rc, false, 0, 0⟩]⟩,
  ⟨"LCE_OPS", 0x80044, [], 0, [⟨"LATE", 31, 16, .rc, false, 0, 0⟩, ⟨"EXECUTED", 15, 0, .rc, false, 0, 0⟩]⟩,
  ⟨"LCE_SNAP_TIME", 0x80048, [], 1, [⟨"TIME", 31, 0, .ro, false, 0, 0⟩]⟩,
  ⟨"LCE_SNAP_TIME", 0x8004C, [], 0, [⟨"TIME", 31, 0, .ro, false, 0, 0⟩]⟩,
  ⟨"LCE_BCAST", 0x80050, [], 0, [⟨"OPCODE", 15, 8, .ro, false, 0, 0⟩, ⟨"STATUS", 7, 0, .ro, false, 0, 0⟩]⟩,
  ⟨"LCE_ROSTER", 0x80080, [], 7, [⟨"MASK", 31, 0, .ro, false, 0, 0⟩]⟩,
  ⟨"LCE_ROSTER", 0x80084, [(7, 4)], 0, [⟨"MASK", 31, 0, .ro, false, 0, 0⟩]⟩,
  ⟨"LCE_PORT_REACH", 0x80100, [(16, 8)], 0, [⟨"TICKS", 23, 0, .ro, false, 0, 0⟩]⟩]

/-- Registers of a side, by offset from the side base (R591) (part 8). -/
def sideRegs7 : List RegSpec := [
  ⟨"LCE_PORT_RTT", 0x80104, [(16, 8)], 0, [⟨"RTT", 25, 0, .ro, false, 0, 0⟩]⟩,
  ⟨"MGT_PRIV_PORTS", 0x0, [], 0, [⟨"PORTS", 15, 0, .rw, false, 1, 0⟩]⟩,
  ⟨"MGT_CMD_STATUS", 0x4, [], 0, [⟨"BAD_CRC", 31, 24, .rc, false, 0, 0⟩, ⟨"DROPPED", 23, 16, .rc, false, 0, 0⟩, ⟨"LOST_REPLIES", 15, 8, .rc, false, 0, 0⟩, ⟨"REPLAYS", 7, 0, .rc, false, 0, 0⟩]⟩,
  ⟨"MGT_CMD_COUNT", 0x8, [], 0, [⟨"COUNT", 31, 0, .ro, false, 0, 0⟩]⟩,
  ⟨"MGT_QUEUE", 0xC, [], 0, [⟨"MAX", 22, 16, .rc, false, 0, 0⟩, ⟨"LEVEL", 6, 0, .ro, false, 0, 0⟩]⟩,
  ⟨"MGT_VERSION", 0x10, [], 0, [⟨"ROM", 31, 16, .ro, false, 256, 0⟩, ⟨"PATCH", 15, 0, .ro, false, 0, 0⟩]⟩,
  ⟨"MGT_BOOT", 0x14, [], 0, [⟨"FELL_BACK", 8, 8, .ro, false, 0, 0⟩, ⟨"LIST_FELL_BACK", 7, 7, .ro, false, 0, 0⟩, ⟨"IN_USE", 6, 4, .ro, false, 0, 0⟩, ⟨"BOOT_SLOT", 2, 0, .ro, false, 0, 0⟩]⟩,
  ⟨"MGT_STORE", 0x18, [], 0, [⟨"STATUS", 31, 24, .ro, false, 0, 0⟩, ⟨"BUSY", 0, 0, .ro, false, 0, 0⟩]⟩,
  ⟨"MGT_PATCH", 0x1C, [], 0, [⟨"MICRO_STAGED", 3, 3, .ro, false, 0, 0⟩, ⟨"PATCH_STAGED", 2, 2, .ro, false, 0, 0⟩, ⟨"REVERTED", 1, 1, .ro, false, 0, 0⟩]⟩,
  ⟨"MGT_LAST_INFO", 0x40, [(8, 8)], 0, [⟨"VALID", 31, 31, .ro, false, 0, 0⟩, ⟨"WORN", 30, 30, .ro, false, 0, 0⟩, ⟨"WRITES", 23, 0, .ro, false, 0, 0⟩]⟩,
  ⟨"MGT_LAST_INFO", 0x44, [(8, 8)], 0, [⟨"SIZE", 31, 0, .ro, false, 0, 0⟩]⟩,
  ⟨"MSR_REG", 0x90000, [(8, 64)], 11, [⟨"DIGEST", 31, 0, .ro, false, 0, 0⟩]⟩,
  ⟨"MSR_REG", 0x90004, [(8, 64), (11, 4)], 0, [⟨"DIGEST", 31, 0, .ro, false, 0, 0⟩]⟩,
  ⟨"MSR_LOG_STATUS", 0x90200, [], 0, [⟨"LOST", 31, 16, .ro, false, 0, 0⟩, ⟨"ENTRIES", 7, 0, .ro, false, 0, 0⟩]⟩,
  ⟨"MSR_ATTEST_COUNT", 0x90204, [], 0, [⟨"COUNT", 31, 0, .ro, false, 0, 0⟩]⟩,
  ⟨"EVT_CTRL", 0x10000, [], 0, [⟨"SRC_CLEAR", 0, 0, .wo, true, 0, 0⟩]⟩,
  ⟨"EVT_STATUS", 0x10004, [], 0, [⟨"ALERT", 16, 16, .ro, false, 0, 0⟩, ⟨"LEVEL", 9, 0, .ro, false, 0, 0⟩]⟩,
  ⟨"EVT_SEQ", 0x10008, [], 0, [⟨"NEXT", 31, 0, .ro, false, 0, 0⟩]⟩,
  ⟨"EVT_ACKED", 0x1000C, [], 0, [⟨"SEQ", 31, 0, .ro, false, 4294967295, 0⟩]⟩,
  ⟨"EVT_LOST", 0x10010, [], 0, [⟨"NOTICE", 31, 16, .rc, false, 0, 0⟩, ⟨"INFO", 15, 0, .rc, false, 0, 0⟩]⟩,
  ⟨"EVT_LOST", 0x10014, [], 0, [⟨"CRITICAL", 31, 16, .rc, false, 0, 0⟩, ⟨"FAULT", 15, 0, .rc, false, 0, 0⟩]⟩,
  ⟨"EVT_QERR", 0x10018, [], 0, [⟨"MISMATCH", 15, 0, .rc, false, 0, 0⟩]⟩,
  ⟨"EVT_QFLUSH", 0x1001C, [], 0, [⟨"STORE", 6, 6, .wo, true, 0, 0⟩, ⟨"LACE", 5, 5, .wo, true, 0, 0⟩, ⟨"EGRESS", 4, 4, .wo, true, 0, 0⟩, ⟨"STAGING", 3, 3, .wo, true, 0, 0⟩, ⟨"WELT", 2, 2, .wo, true, 0, 0⟩, ⟨"CMD", 1, 1, .wo, true, 0, 0⟩, ⟨"EVENTS", 0, 0, .wo, true, 0, 0⟩]⟩,
  ⟨"EVT_SUB", 0x10040, [(16, 4)], 0, [⟨"EN", 2, 2, .rw, false, 0, 0⟩, ⟨"MIN", 1, 0, .rw, false, 0, 0⟩]⟩,
  ⟨"EVT_TELEM", 0x10080, [], 0, [⟨"PORTS", 31, 16, .rw, true, 1, 0⟩, ⟨"PERIOD", 7, 0, .rw, true, 10, 0⟩]⟩]

/-- Registers of a side, by offset from the side base (R591) (part 9). -/
def sideRegs8 : List RegSpec := [
  ⟨"EVT_EN", 0x10100, [(32, 4)], 0, [⟨"EN", 31, 0, .rw, true, 4294967295, 0⟩]⟩,
  ⟨"EVT_FF_STATUS", 0x10220, [], 0, [⟨"VALID", 31, 31, .ro, false, 0, 0⟩, ⟨"QUEUED", 30, 30, .ro, false, 0, 0⟩, ⟨"LATER", 15, 0, .ro, false, 0, 0⟩]⟩,
  ⟨"EVT_FF", 0x10200, [], 0, [⟨"SOURCE", 31, 22, .ro, false, 0, 0⟩, ⟨"SEV", 21, 20, .ro, false, 0, 0⟩, ⟨"ACKED", 19, 19, .ro, false, 0, 0⟩, ⟨"BEGUN", 18, 18, .ro, false, 0, 0⟩, ⟨"COUNT", 15, 0, .ro, false, 0, 0⟩]⟩,
  ⟨"EVT_FF", 0x10204, [], 0, [⟨"SEQ", 31, 0, .ro, false, 0, 0⟩]⟩,
  ⟨"EVT_FF", 0x10208, [], 1, [⟨"FIRST", 31, 0, .ro, false, 0, 0⟩]⟩,
  ⟨"EVT_FF", 0x1020C, [], 0, [⟨"FIRST", 31, 0, .ro, false, 0, 0⟩]⟩,
  ⟨"EVT_FF", 0x10210, [], 1, [⟨"LAST", 31, 0, .ro, false, 0, 0⟩]⟩,
  ⟨"EVT_FF", 0x10214, [], 0, [⟨"LAST", 31, 0, .ro, false, 0, 0⟩]⟩,
  ⟨"EVT_FF", 0x10218, [], 0, [⟨"INSTANCE", 15, 0, .ro, false, 0, 0⟩]⟩,
  ⟨"EVT_FF", 0x1021C, [], 0, [⟨"RESERVED", 31, 0, .ro, false, 0, 0⟩]⟩,
  ⟨"EVT_QUEUE", 0x11000, [(512, 32)], 0, [⟨"SOURCE", 31, 22, .ro, false, 0, 0⟩, ⟨"SEV", 21, 20, .ro, false, 0, 0⟩, ⟨"ACKED", 19, 19, .ro, false, 0, 0⟩, ⟨"BEGUN", 18, 18, .ro, false, 0, 0⟩, ⟨"COUNT", 15, 0, .ro, false, 0, 0⟩]⟩,
  ⟨"EVT_QUEUE", 0x11004, [(512, 32)], 0, [⟨"SEQ", 31, 0, .ro, false, 0, 0⟩]⟩,
  ⟨"EVT_QUEUE", 0x11008, [(512, 32)], 1, [⟨"FIRST", 31, 0, .ro, false, 0, 0⟩]⟩,
  ⟨"EVT_QUEUE", 0x1100C, [(512, 32)], 0, [⟨"FIRST", 31, 0, .ro, false, 0, 0⟩]⟩,
  ⟨"EVT_QUEUE", 0x11010, [(512, 32)], 1, [⟨"LAST", 31, 0, .ro, false, 0, 0⟩]⟩,
  ⟨"EVT_QUEUE", 0x11014, [(512, 32)], 0, [⟨"LAST", 31, 0, .ro, false, 0, 0⟩]⟩,
  ⟨"EVT_QUEUE", 0x11018, [(512, 32)], 0, [⟨"INSTANCE", 15, 0, .ro, false, 0, 0⟩]⟩,
  ⟨"EVT_QUEUE", 0x1101C, [(512, 32)], 0, [⟨"RESERVED", 31, 0, .ro, false, 0, 0⟩]⟩,
  ⟨"EVT_SRC", 0x18000, [(1024, 32)], 0, [⟨"COUNT", 15, 0, .ro, false, 0, 0⟩]⟩,
  ⟨"EVT_SRC", 0x18004, [(1024, 32)], 1, [⟨"FIRST", 31, 0, .ro, false, 0, 0⟩]⟩,
  ⟨"EVT_SRC", 0x18008, [(1024, 32)], 0, [⟨"FIRST", 31, 0, .ro, false, 0, 0⟩]⟩,
  ⟨"EVT_SRC", 0x1800C, [(1024, 32)], 1, [⟨"LAST", 31, 0, .ro, false, 0, 0⟩]⟩,
  ⟨"EVT_SRC", 0x18010, [(1024, 32)], 0, [⟨"LAST", 31, 0, .ro, false, 0, 0⟩]⟩,
  ⟨"CMP_JOB_IN", 0x48000, [(4096, 4)], 0, [⟨"DATA", 31, 0, .rw, true, 0, 0⟩]⟩]

/-- Registers of a side, by offset from the side base (R591) (part 10). -/
def sideRegs9 : List RegSpec := [
  ⟨"CMP_JOB_OUT", 0x4C000, [(4096, 4)], 0, [⟨"DATA", 31, 0, .ro, true, 0, 0⟩]⟩,
  ⟨"MGT_XFER", 0x8000, [(8192, 4)], 0, [⟨"DATA", 31, 0, .rw, true, 0, 0⟩]⟩,
  ⟨"MGT_SRAM_SCRUB", 0x20, [], 0, [⟨"PAUSE", 16, 16, .rw, true, 0, 0⟩, ⟨"PERIOD", 15, 0, .rw, true, 60, 0⟩]⟩,
  ⟨"MGT_NVM_WEAR", 0x24, [], 0, [⟨"LIST_WORN", 31, 31, .ro, false, 0, 0⟩, ⟨"LIST_WRITES", 23, 0, .ro, false, 0, 0⟩]⟩]

/-- Registers of a side, by offset from the side base (R591). -/
def sideRegs : List RegSpec := sideRegs0 ++ sideRegs1 ++ sideRegs2 ++ sideRegs3 ++ sideRegs4 ++ sideRegs5 ++ sideRegs6 ++ sideRegs7 ++ sideRegs8 ++ sideRegs9

/-- First address of a side (R584). -/
def sideBase : Side → Nat
  | .a => 0x01000000
  | .b => 0x02000000

/-- First address of a tile block (R584). -/
def tileBase (t : Nat) : Nat := 0x00100000 + t * 0x00010000

namespace Reg

/-- R87. -/
def PIX_MODE : Nat := 0x40000
/-- R87. -/
def PIX_MODE_APPLIED : Nat := 0x40004
/-- R87. -/
def PIX_APPLY_STATUS : Nat := 0x40008
/-- R87. -/
def PIX_APPLY_TIME : Nat := 0x40010
/-- R87. -/
def PIX_APPLY_TIME_4 : Nat := 0x40014
/-- R87. -/
def PIX_AWL_CTRL : Nat := 0x40020
/-- R87. -/
def PIX_AWL_PERIOD : Nat := 0x40024
/-- R87. -/
def PIX_AWL_FIRE : Nat := 0x40028
/-- R87. -/
def PIX_AWL_TIME : Nat := 0x40030
/-- R87. -/
def PIX_AWL_TIME_4 : Nat := 0x40034
/-- R87. -/
def PIX_AWL_STATUS : Nat := 0x40038
/-- R87. -/
def PIX_SCRUB_CTRL : Nat := 0x40040
/-- R87. -/
def PIX_SCRUB_STATUS : Nat := 0x40044
/-- R87. -/
def PIX_DRIFT_CTRL : Nat := 0x40048
/-- R87. -/
def PIX_SCAN_STATUS : Nat := 0x4004C
/-- R88. -/
def PIX_THR (t : Nat) : Nat := tileBase t + 0xC000
/-- R88. -/
def PIX_THR_APPLIED (t : Nat) : Nat := tileBase t + 0xC004
/-- R88. -/
def PIX_SCAN_RESULT (t : Nat) : Nat := tileBase t + 0xC008
/-- R88. -/
def PIX_SCAN_MEAN (t : Nat) : Nat := tileBase t + 0xC00C
/-- R88. -/
def PIX_DRIFT (t : Nat) : Nat := tileBase t + 0xC010
/-- R137. -/
def TDC_CTRL (t : Nat) : Nat := tileBase t + 0xD000
/-- R137. -/
def TDC_CAL_CTRL (t : Nat) : Nat := tileBase t + 0xD004
/-- R137. -/
def TDC_CAL_STATUS (t : Nat) : Nat := tileBase t + 0xD008
/-- R137. -/
def TDC_CAL_FAIL (t : Nat) : Nat := tileBase t + 0xD00C
/-- R137. -/
def TDC_RETIRED (t : Nat) : Nat := tileBase t + 0xD010
/-- R137. -/
def TDC_DEAD (t : Nat) : Nat := tileBase t + 0xD014
/-- R137. -/
def TDC_STOP_OVF (t : Nat) : Nat := tileBase t + 0xD018
/-- R137. -/
def TDC_COARSE_STOPS (t : Nat) : Nat := tileBase t + 0xD01C
/-- R137. -/
def TDC_OVERRANGE (t : Nat) : Nat := tileBase t + 0xD020
/-- R138. -/
def TDC_INIT_STATUS : Nat := 0x50000
/-- R138. -/
def TDC_EXT_CTRL (i : Nat) : Nat := 0x50010 + 4 * i
/-- R138. -/
def TDC_EXT_LAST (i : Nat) : Nat := 0x50040 + 16 * i
/-- R138. -/
def TDC_EXT_LAST_4 (i : Nat) : Nat := 0x50044 + 16 * i
/-- R138. -/
def TDC_EXT_LAST_8 (i : Nat) : Nat := 0x50048 + 16 * i
/-- R138. -/
def TDC_EXT_STATUS (i : Nat) : Nat := 0x50080 + 4 * i
/-- R138. -/
def TDC_EXT_DELAY (i : Nat) : Nat := 0x50090 + 4 * i
/-- R168. -/
def FRM_CTRL : Nat := 0x60000
/-- R168. -/
def FRM_PERIOD : Nat := 0x60004
/-- R168. -/
def FRM_ORIGIN : Nat := 0x60008
/-- R168. -/
def FRM_ORIGIN_4 : Nat := 0x6000C
/-- R168. -/
def FRM_STATUS : Nat := 0x60010
/-- R168. -/
def FRM_NUMBER : Nat := 0x60014
/-- R168. -/
def FRM_LAST_TIME : Nat := 0x60018
/-- R168. -/
def FRM_LAST_TIME_4 : Nat := 0x6001C
/-- R168. -/
def FRM_FA_STATUS : Nat := 0x60020
/-- R169. -/
def FRM_ADC_CAL (t : Nat) (i : Nat) : Nat := tileBase t + 0x8000 + 4 * i
/-- R169. -/
def FRM_ZS (t : Nat) : Nat := tileBase t + 0xE000
/-- R169. -/
def FRM_FRAMES (t : Nat) : Nat := tileBase t + 0xE004
/-- R169. -/
def FRM_SUPP (t : Nat) : Nat := tileBase t + 0xE008
/-- R169. -/
def FRM_ADC_RETIRED (t : Nat) : Nat := tileBase t + 0xE00C
/-- R169. -/
def DEC_CTRL (t : Nat) : Nat := tileBase t + 0xF000
/-- R169. -/
def DEC_STATUS (t : Nat) : Nat := tileBase t + 0xF004
/-- R169. -/
def DEC_PHASE (t : Nat) : Nat := tileBase t + 0xF008
/-- R204. -/
def TIL_CTRL (t : Nat) : Nat := tileBase t + 0x0
/-- R204. -/
def TIL_STATUS (t : Nat) : Nat := tileBase t + 0x4
/-- R204. -/
def TIL_FIFO (t : Nat) : Nat := tileBase t + 0x8
/-- R204. -/
def TIL_BUSY_LOSS (t : Nat) : Nat := tileBase t + 0xC
/-- R204. -/
def TIL_WORDS (t : Nat) : Nat := tileBase t + 0x10
/-- R204. -/
def TIL_SQ_DROP (t : Nat) : Nat := tileBase t + 0x14
/-- R204. -/
def TIL_CL_DROP (t : Nat) : Nat := tileBase t + 0x18
/-- R204. -/
def TIL_ECC (t : Nat) : Nat := tileBase t + 0x1C
/-- R205. -/
def TIL_SQ_CTRL : Nat := 0x70000
/-- R205. -/
def TIL_SQ_STATUS : Nat := 0x70004
/-- R205. -/
def TIL_SQ_BEGIN : Nat := 0x70008
/-- R205. -/
def TIL_SQ_BEGIN_4 : Nat := 0x7000C
/-- R205. -/
def TIL_SQ_END : Nat := 0x70010
/-- R205. -/
def TIL_SQ_END_4 : Nat := 0x70014
/-- R205. -/
def TIL_SQ_TILES : Nat := 0x70018
/-- R205. -/
def TIL_SQ_TILES_4 : Nat := 0x7001C
/-- R205. -/
def TIL_SQ_UNFLAGGED : Nat := 0x70020
/-- R205. -/
def TIL_SLICE : Nat := 0x70030
/-- R235. -/
def TRG_CTRL (x : Side) : Nat := sideBase x + 0x20000
/-- R235. -/
def TRG_RUN (x : Side) : Nat := sideBase x + 0x20004
/-- R235. -/
def TRG_RUN_START (x : Side) : Nat := sideBase x + 0x20008
/-- R235. -/
def TRG_RUN_START_4 (x : Side) : Nat := sideBase x + 0x2000C
/-- R235. -/
def TRG_RUN_STOP (x : Side) : Nat := sideBase x + 0x20010
/-- R235. -/
def TRG_RUN_STOP_4 (x : Side) : Nat := sideBase x + 0x20014
/-- R235. -/
def TRG_WIN (x : Side) (i : Nat) : Nat := sideBase x + 0x20040 + 16 * i
/-- R235. -/
def TRG_WIN_4 (x : Side) (i : Nat) : Nat := sideBase x + 0x20044 + 16 * i
/-- R235. -/
def TRG_WIN_8 (x : Side) (i : Nat) : Nat := sideBase x + 0x20048 + 16 * i
/-- R235. -/
def TRG_FRAME_PRESCALE (x : Side) : Nat := sideBase x + 0x20080
/-- R235. -/
def TRG_OCC_CTRL (x : Side) (i : Nat) : Nat := sideBase x + 0x20100 + 16 * i
/-- R235. -/
def TRG_OCC_THR (x : Side) (i : Nat) : Nat := sideBase x + 0x20104 + 16 * i
/-- R235. -/
def TRG_OCC_TILES (x : Side) (i : Nat) : Nat := sideBase x + 0x20108 + 16 * i
/-- R235. -/
def TRG_OCC_TILES_4 (x : Side) (i : Nat) : Nat := sideBase x + 0x2010C + 16 * i
/-- R235. -/
def TRG_TIMER_LOAD (x : Side) (i : Nat) : Nat := sideBase x + 0x20200 + 8 * i
/-- R235. -/
def TRG_TIMER_LOAD_4 (x : Side) (i : Nat) : Nat := sideBase x + 0x20204 + 8 * i
/-- R235. -/
def TRG_CNT_CTRL (x : Side) (i : Nat) : Nat := sideBase x + 0x20280 + 8 * i
/-- R235. -/
def TRG_CNT_CMP (x : Side) (i : Nat) : Nat := sideBase x + 0x20284 + 8 * i
/-- R235. -/
def TRG_CNT (x : Side) (i : Nat) : Nat := sideBase x + 0x202C0 + 4 * i
/-- R235. -/
def TRG_MP_OUT (x : Side) : Nat := sideBase x + 0x20300
/-- R235. -/
def TRG_BUS_LEAD (x : Side) : Nat := sideBase x + 0x20304
/-- R235. -/
def TRG_TRIGGERS (x : Side) : Nat := sideBase x + 0x20400
/-- R235. -/
def TRG_PRESCALED (x : Side) : Nat := sideBase x + 0x20404
/-- R235. -/
def TRG_MERGED (x : Side) : Nat := sideBase x + 0x20408
/-- R235. -/
def TRG_MERGED_FORCED (x : Side) : Nat := sideBase x + 0x2040C
/-- R235. -/
def TRG_RECORDS (x : Side) : Nat := sideBase x + 0x20410
/-- R235. -/
def TRG_OPEN (x : Side) : Nat := sideBase x + 0x20414
/-- R235. -/
def TRG_UNITS_KEPT (x : Side) : Nat := sideBase x + 0x20418
/-- R235. -/
def TRG_UNITS_RELEASED (x : Side) : Nat := sideBase x + 0x2041C
/-- R235. -/
def TRG_FRAMES_PRESCALED (x : Side) : Nat := sideBase x + 0x20420
/-- R235. -/
def TRG_STATE (x : Side) (i : Nat) (j : Nat) : Nat := sideBase x + 0x21000 + 32 * i + 4 * j
/-- R235. -/
def TRG_LIVE (x : Side) (i : Nat) (j : Nat) : Nat := sideBase x + 0x21400 + 32 * i + 4 * j
/-- R235. -/
def TRG_PATCH (x : Side) (i : Nat) (j : Nat) : Nat := sideBase x + 0x21800 + 32 * i + 4 * j
/-- R235. -/
def TRG_PATCH_14 (x : Side) (i : Nat) : Nat := sideBase x + 0x21814 + 32 * i
/-- R267. -/
def DSP_CTRL (x : Side) : Nat := sideBase x + 0x30000
/-- R267. -/
def DSP_PRIO (x : Side) : Nat := sideBase x + 0x30004
/-- R267. -/
def DSP_STATUS (x : Side) : Nat := sideBase x + 0x30008
/-- R267. -/
def DSP_READY_MAX (x : Side) : Nat := sideBase x + 0x3000C
/-- R267. -/
def DSP_REFUSED (x : Side) : Nat := sideBase x + 0x30010
/-- R267. -/
def DSP_PREEMPT (x : Side) : Nat := sideBase x + 0x30014
/-- R267. -/
def DSP_AFF_HOME (x : Side) : Nat := sideBase x + 0x30018
/-- R267. -/
def DSP_AFF_AWAY (x : Side) : Nat := sideBase x + 0x3001C
/-- R267. -/
def DSP_QERR (x : Side) : Nat := sideBase x + 0x30020
/-- R267. -/
def DSP_LAG (x : Side) : Nat := sideBase x + 0x30024
/-- R267. -/
def SE_CTRL (x : Side) : Nat := sideBase x + 0x30100
/-- R267. -/
def SE_POOL (x : Side) : Nat := sideBase x + 0x30104
/-- R267. -/
def SE_TRAPS (x : Side) : Nat := sideBase x + 0x30108
/-- R267. -/
def SE_REC_FREE (x : Side) : Nat := sideBase x + 0x3010C
/-- R267. -/
def SE_ITEMS (x : Side) (i : Nat) : Nat := sideBase x + 0x30180 + 4 * i
/-- R267. -/
def SE_ENGINE (x : Side) (i : Nat) : Nat := sideBase x + 0x30200 + 4 * i
/-- R296. -/
def CMP_CTRL (x : Side) : Nat := sideBase x + 0x40000
/-- R296. -/
def CMP_VERIFY (x : Side) : Nat := sideBase x + 0x40004
/-- R296. -/
def CMP_STATUS (x : Side) : Nat := sideBase x + 0x40008
/-- R296. -/
def CMP_FLUSH (x : Side) : Nat := sideBase x + 0x4000C
/-- R296. -/
def CMP_FLUSH_LAST (x : Side) : Nat := sideBase x + 0x40010
/-- R296. -/
def CMP_FLUSH_LAST_4 (x : Side) : Nat := sideBase x + 0x40014
/-- R296. -/
def CMP_IN_BYTES (x : Side) : Nat := sideBase x + 0x40018
/-- R296. -/
def CMP_IN_BYTES_4 (x : Side) : Nat := sideBase x + 0x4001C
/-- R296. -/
def CMP_OUT_BYTES (x : Side) : Nat := sideBase x + 0x40020
/-- R296. -/
def CMP_OUT_BYTES_4 (x : Side) : Nat := sideBase x + 0x40024
/-- R296. -/
def CMP_BLOCKS (x : Side) : Nat := sideBase x + 0x40028
/-- R296. -/
def CMP_STORED (x : Side) : Nat := sideBase x + 0x4002C
/-- R296. -/
def CMP_ASSEMBLY (x : Side) : Nat := sideBase x + 0x40030
/-- R296. -/
def CMP_OVERFLOW (x : Side) : Nat := sideBase x + 0x40034
/-- R296. -/
def CMP_VERIFY_STATUS (x : Side) : Nat := sideBase x + 0x40038
/-- R296. -/
def CMP_VERIFY_LAST (x : Side) : Nat := sideBase x + 0x40040
/-- R296. -/
def CMP_VERIFY_LAST_4 (x : Side) : Nat := sideBase x + 0x40044
/-- R296. -/
def CMP_VERIFY_LAST_8 (x : Side) : Nat := sideBase x + 0x40048
/-- R296. -/
def CMP_VERIFY_LAST_C (x : Side) : Nat := sideBase x + 0x4004C
/-- R296. -/
def CMP_ENGINE (x : Side) (i : Nat) : Nat := sideBase x + 0x40100 + 4 * i
/-- R296. -/
def CMP_JOB_STATUS (x : Side) : Nat := sideBase x + 0x40200
/-- R296. -/
def CMP_JOB_CONSUMED (x : Side) : Nat := sideBase x + 0x40204
/-- R296. -/
def CMP_JOB_PRODUCED (x : Side) : Nat := sideBase x + 0x40208
/-- R347. -/
def BST_STATUS (x : Side) : Nat := sideBase x + 0x50000
/-- R347. -/
def BST_SERVICE (x : Side) : Nat := sideBase x + 0x50004
/-- R347. -/
def BST_CAPACITY (x : Side) : Nat := sideBase x + 0x50008
/-- R347. -/
def BST_DRAIN_CTRL (x : Side) : Nat := sideBase x + 0x5000C
/-- R347. -/
def BST_SCRUB_CTRL (x : Side) : Nat := sideBase x + 0x50010
/-- R347. -/
def BST_SCRUB_STATUS (x : Side) : Nat := sideBase x + 0x50014
/-- R347. -/
def BST_IMBALANCE (x : Side) : Nat := sideBase x + 0x50018
/-- R347. -/
def BST_HASH_KEY (x : Side) : Nat := sideBase x + 0x50020
/-- R347. -/
def BST_HASH_KEY_4 (x : Side) : Nat := sideBase x + 0x50024
/-- R347. -/
def BST_CLASS (x : Side) (i : Nat) : Nat := sideBase x + 0x50040 + 4 * i
/-- R347. -/
def BST_CLASS_USE (x : Side) (i : Nat) : Nat := sideBase x + 0x50060 + 4 * i
/-- R347. -/
def BST_RING_CTRL (x : Side) (i : Nat) : Nat := sideBase x + 0x50100 + 32 * i
/-- R347. -/
def BST_RING_BASE (x : Side) (i : Nat) : Nat := sideBase x + 0x50104 + 32 * i
/-- R347. -/
def BST_RING_SIZE (x : Side) (i : Nat) : Nat := sideBase x + 0x50108 + 32 * i
/-- R347. -/
def BST_RING_CAP (x : Side) (i : Nat) : Nat := sideBase x + 0x5010C + 32 * i
/-- R347. -/
def BST_RING_FILL (x : Side) (i : Nat) : Nat := sideBase x + 0x50110 + 32 * i
/-- R347. -/
def BST_RING_MAX (x : Side) (i : Nat) : Nat := sideBase x + 0x50114 + 32 * i
/-- R347. -/
def BST_RING_LOSS (x : Side) (i : Nat) : Nat := sideBase x + 0x50118 + 32 * i
/-- R347. -/
def BST_DRAIN (x : Side) (i : Nat) : Nat := sideBase x + 0x5011C + 32 * i
/-- R347. -/
def BST_DRAIN_HALT (x : Side) (i : Nat) : Nat := sideBase x + 0x50200 + 16 * i
/-- R347. -/
def BST_DRAIN_HALT_4 (x : Side) (i : Nat) : Nat := sideBase x + 0x50204 + 16 * i
/-- R347. -/
def BST_DRAIN_HALT_8 (x : Side) (i : Nat) : Nat := sideBase x + 0x50208 + 16 * i
/-- R347. -/
def BST_DRAIN_HALT_C (x : Side) (i : Nat) : Nat := sideBase x + 0x5020C + 16 * i
/-- R347. -/
def BST_REFRESH (x : Side) (i : Nat) : Nat := sideBase x + 0x50400 + 16 * i
/-- R347. -/
def BST_REFRESH_4 (x : Side) (i : Nat) : Nat := sideBase x + 0x50404 + 16 * i
/-- R347. -/
def BST_REFRESH_8 (x : Side) (i : Nat) : Nat := sideBase x + 0x50408 + 16 * i
/-- R347. -/
def BST_REFRESH_C (x : Side) (i : Nat) : Nat := sideBase x + 0x5040C + 16 * i
/-- R347. -/
def BST_ECC (x : Side) (i : Nat) : Nat := sideBase x + 0x50600 + 8 * i
/-- R347. -/
def BST_LOG_STATUS (x : Side) (i : Nat) : Nat := sideBase x + 0x50604 + 8 * i
/-- R347. -/
def BST_RETIRED (x : Side) (i : Nat) : Nat := sideBase x + 0x50700 + 4 * i
/-- R347. -/
def BST_CHAN_USE (x : Side) (i : Nat) : Nat := sideBase x + 0x50780 + 4 * i
/-- R347. -/
def BST_LOG (x : Side) (i : Nat) (j : Nat) : Nat := sideBase x + 0x51000 + 128 * i + 8 * j
/-- R347. -/
def BST_LOG_4 (x : Side) (i : Nat) (j : Nat) : Nat := sideBase x + 0x51004 + 128 * i + 8 * j
/-- R376. -/
def LNK_PORT_CTRL (x : Side) (i : Nat) : Nat := sideBase x + 0x60000 + 64 * i
/-- R376. -/
def LNK_PORT_STATUS (x : Side) (i : Nat) : Nat := sideBase x + 0x60004 + 64 * i
/-- R376. -/
def LNK_PORT_TX (x : Side) (i : Nat) : Nat := sideBase x + 0x60008 + 64 * i
/-- R376. -/
def LNK_PORT_RX (x : Side) (i : Nat) : Nat := sideBase x + 0x6000C + 64 * i
/-- R376. -/
def LNK_PORT_ERR (x : Side) (i : Nat) : Nat := sideBase x + 0x60010 + 64 * i
/-- R376. -/
def LNK_PORT_PAUSE (x : Side) (i : Nat) : Nat := sideBase x + 0x60014 + 64 * i
/-- R376. -/
def LNK_PORT_CREDIT (x : Side) (i : Nat) : Nat := sideBase x + 0x60018 + 64 * i
/-- R376. -/
def LNK_STREAM_MAP (x : Side) (i : Nat) : Nat := sideBase x + 0x60800 + 4 * i
/-- R376. -/
def LNK_CAPACITY (x : Side) : Nat := sideBase x + 0x60810
/-- R376. -/
def LNK_LANE_CTRL (x : Side) (i : Nat) (j : Nat) : Nat := sideBase x + 0x61000 + 64 * i + 8 * j
/-- R376. -/
def LNK_LANE_STATUS (x : Side) (i : Nat) (j : Nat) : Nat := sideBase x + 0x61004 + 64 * i + 8 * j
/-- R402. -/
def WLT_CTRL (x : Side) : Nat := sideBase x + 0x70000
/-- R402. -/
def WLT_STATUS (x : Side) : Nat := sideBase x + 0x70004
/-- R402. -/
def WLT_DISPUTES (x : Side) : Nat := sideBase x + 0x70008
/-- R402. -/
def WLT_WINDOW (x : Side) : Nat := sideBase x + 0x7000C
/-- R402. -/
def WLT_VERDICTS (x : Side) : Nat := sideBase x + 0x70010
/-- R402. -/
def WLT_COMPARED (x : Side) : Nat := sideBase x + 0x70014
/-- R402. -/
def WLT_PENDING (x : Side) : Nat := sideBase x + 0x70018
/-- R402. -/
def WLT_LINK (x : Side) : Nat := sideBase x + 0x7001C
/-- R402. -/
def WLT_LAST_DISPUTE (x : Side) : Nat := sideBase x + 0x70020
/-- R402. -/
def WLT_LAST_DISPUTE_4 (x : Side) : Nat := sideBase x + 0x70024
/-- R402. -/
def WLT_LAST_DISPUTE_8 (x : Side) : Nat := sideBase x + 0x70028
/-- R402. -/
def WLT_LAST_DISPUTE_C (x : Side) : Nat := sideBase x + 0x7002C
/-- R402. -/
def WLT_RESYNC_TIME (x : Side) : Nat := sideBase x + 0x70030
/-- R402. -/
def WLT_RESYNC_TIME_4 (x : Side) : Nat := sideBase x + 0x70034
/-- R402. -/
def WLT_PEER_OUT_TIME (x : Side) : Nat := sideBase x + 0x70038
/-- R402. -/
def WLT_PEER_OUT_TIME_4 (x : Side) : Nat := sideBase x + 0x7003C
/-- R434. -/
def LCE_CTRL (x : Side) : Nat := sideBase x + 0x80000
/-- R434. -/
def LCE_STATUS (x : Side) : Nat := sideBase x + 0x80004
/-- R434. -/
def LCE_MODULE_ID (x : Side) : Nat := sideBase x + 0x80008
/-- R434. -/
def LCE_TIME (x : Side) : Nat := sideBase x + 0x80010
/-- R434. -/
def LCE_TIME_4 (x : Side) : Nat := sideBase x + 0x80014
/-- R434. -/
def LCE_REACH (x : Side) : Nat := sideBase x + 0x80018
/-- R434. -/
def LCE_MODULES (x : Side) : Nat := sideBase x + 0x8001C
/-- R434. -/
def LCE_ASYM (x : Side) : Nat := sideBase x + 0x80020
/-- R434. -/
def LCE_RTT (x : Side) : Nat := sideBase x + 0x80024
/-- R434. -/
def LCE_OFFSET (x : Side) : Nat := sideBase x + 0x80028
/-- R434. -/
def LCE_PATH (x : Side) : Nat := sideBase x + 0x8002C
/-- R434. -/
def LCE_TREE_DIFF (x : Side) : Nat := sideBase x + 0x80030
/-- R434. -/
def LCE_PPS_PHASE (x : Side) : Nat := sideBase x + 0x80034
/-- R434. -/
def LCE_PPS_ERR (x : Side) : Nat := sideBase x + 0x80038
/-- R434. -/
def LCE_BUS (x : Side) : Nat := sideBase x + 0x80040
/-- R434. -/
def LCE_OPS (x : Side) : Nat := sideBase x + 0x80044
/-- R434. -/
def LCE_SNAP_TIME (x : Side) : Nat := sideBase x + 0x80048
/-- R434. -/
def LCE_SNAP_TIME_4 (x : Side) : Nat := sideBase x + 0x8004C
/-- R434. -/
def LCE_BCAST (x : Side) : Nat := sideBase x + 0x80050
/-- R434. -/
def LCE_ROSTER (x : Side) : Nat := sideBase x + 0x80080
/-- R434. -/
def LCE_ROSTER_4 (x : Side) (i : Nat) : Nat := sideBase x + 0x80084 + 4 * i
/-- R434. -/
def LCE_PORT_REACH (x : Side) (i : Nat) : Nat := sideBase x + 0x80100 + 8 * i
/-- R434. -/
def LCE_PORT_RTT (x : Side) (i : Nat) : Nat := sideBase x + 0x80104 + 8 * i
/-- R469. -/
def MGT_PRIV_PORTS (x : Side) : Nat := sideBase x + 0x0
/-- R469. -/
def MGT_CMD_STATUS (x : Side) : Nat := sideBase x + 0x4
/-- R469. -/
def MGT_CMD_COUNT (x : Side) : Nat := sideBase x + 0x8
/-- R469. -/
def MGT_QUEUE (x : Side) : Nat := sideBase x + 0xC
/-- R469. -/
def MGT_VERSION (x : Side) : Nat := sideBase x + 0x10
/-- R469. -/
def MGT_BOOT (x : Side) : Nat := sideBase x + 0x14
/-- R469. -/
def MGT_STORE (x : Side) : Nat := sideBase x + 0x18
/-- R469. -/
def MGT_PATCH (x : Side) : Nat := sideBase x + 0x1C
/-- R469. -/
def MGT_LAST_INFO (x : Side) (i : Nat) : Nat := sideBase x + 0x40 + 8 * i
/-- R469. -/
def MGT_LAST_INFO_4 (x : Side) (i : Nat) : Nat := sideBase x + 0x44 + 8 * i
/-- R469. -/
def MSR_REG (x : Side) (i : Nat) (j : Nat) : Nat := sideBase x + 0x90000 + 64 * i + 4 * j
/-- R469. -/
def MSR_LOG_STATUS (x : Side) : Nat := sideBase x + 0x90200
/-- R469. -/
def MSR_ATTEST_COUNT (x : Side) : Nat := sideBase x + 0x90204
/-- R495. -/
def EVT_CTRL (x : Side) : Nat := sideBase x + 0x10000
/-- R495. -/
def EVT_STATUS (x : Side) : Nat := sideBase x + 0x10004
/-- R495. -/
def EVT_SEQ (x : Side) : Nat := sideBase x + 0x10008
/-- R495. -/
def EVT_ACKED (x : Side) : Nat := sideBase x + 0x1000C
/-- R495. -/
def EVT_LOST (x : Side) : Nat := sideBase x + 0x10010
/-- R495. -/
def EVT_LOST_4 (x : Side) : Nat := sideBase x + 0x10014
/-- R495. -/
def EVT_QERR (x : Side) : Nat := sideBase x + 0x10018
/-- R495. -/
def EVT_QFLUSH (x : Side) : Nat := sideBase x + 0x1001C
/-- R495. -/
def EVT_SUB (x : Side) (i : Nat) : Nat := sideBase x + 0x10040 + 4 * i
/-- R495. -/
def EVT_TELEM (x : Side) : Nat := sideBase x + 0x10080
/-- R495. -/
def EVT_EN (x : Side) (i : Nat) : Nat := sideBase x + 0x10100 + 4 * i
/-- R495. -/
def EVT_FF_STATUS (x : Side) : Nat := sideBase x + 0x10220
/-- R516. -/
def HK_CTRL : Nat := 0x20000
/-- R516. -/
def HK_STATUS : Nat := 0x20004
/-- R516. -/
def HK_SEQ_LEN : Nat := 0x20008
/-- R516. -/
def HK_INJ_CTRL : Nat := 0x2000C
/-- R516. -/
def HK_INJ_STATUS : Nat := 0x20010
/-- R516. -/
def HK_ALARM : Nat := 0x20014
/-- R516. -/
def HK_ALARM_4 : Nat := 0x20018
/-- R516. -/
def HK_BIAS_CTRL : Nat := 0x20020
/-- R516. -/
def HK_CAL_OFS (i : Nat) : Nat := 0x20040 + 8 * i
/-- R516. -/
def HK_CAL_GAIN (i : Nat) : Nat := 0x20044 + 8 * i
/-- R516. -/
def HK_LOOP_CTRL : Nat := 0x20080
/-- R516. -/
def HK_LOOP_ZERO : Nat := 0x20084
/-- R516. -/
def HK_LOOP_SPAN : Nat := 0x20088
/-- R516. -/
def HK_LOOP_STATUS : Nat := 0x2008C
/-- R516. -/
def HK_SEQ (i : Nat) : Nat := 0x20100 + 4 * i
/-- R516. -/
def HK_INJ (i : Nat) : Nat := 0x20200 + 4 * i
/-- R516. -/
def HK_RESULT (i : Nat) : Nat := 0x20400 + 4 * i
/-- R516. -/
def HK_LIM_CTRL (i : Nat) : Nat := 0x20800 + 16 * i
/-- R516. -/
def HK_LIM_LO (i : Nat) : Nat := 0x20804 + 16 * i
/-- R516. -/
def HK_LIM_HI (i : Nat) : Nat := 0x20808 + 16 * i
/-- R516. -/
def MP_BANK : Nat := 0x30000
/-- R516. -/
def MP_CTRL (i : Nat) : Nat := 0x30010 + 4 * i
/-- R516. -/
def MP_OUT : Nat := 0x30040
/-- R516. -/
def MP_IN : Nat := 0x30044
/-- R546. -/
def AON_RESET_CAUSE : Nat := 0x0
/-- R546. -/
def AON_COUNTS : Nat := 0x4
/-- R546. -/
def AON_SECONDS : Nat := 0x8
/-- R546. -/
def AON_SCRATCH (i : Nat) : Nat := 0x10 + 4 * i
/-- R546. -/
def PWR_CTRL : Nat := 0x10000
/-- R546. -/
def PWR_STATUS : Nat := 0x10004
/-- R546. -/
def PWR_WAKE_STATUS : Nat := 0x10008
/-- R546. -/
def PWR_WAKE_WAIT : Nat := 0x1000C
/-- R546. -/
def PWR_CLK_STATUS : Nat := 0x10010
/-- R546. -/
def PWR_TILE_LOCK_LO : Nat := 0x10014
/-- R546. -/
def PWR_TILE_LOCK_HI : Nat := 0x10018
/-- R546. -/
def PWR_CLK_LOSS : Nat := 0x1001C
/-- R546. -/
def PWR_FEED : Nat := 0x10020
/-- R568. -/
def TIL_SRAM_SCRUB : Nat := 0x70040
/-- R568. -/
def TIL_SRAM_STATUS : Nat := 0x70044
/-- R568. -/
def HK_DOSE_CTRL : Nat := 0x20C00
/-- R568. -/
def HK_DOSE_CAL (i : Nat) : Nat := 0x20C10 + 4 * i
/-- R568. -/
def HK_DOSE_DET (i : Nat) : Nat := 0x20C20 + 4 * i
/-- R568. -/
def HK_DOSE_STATUS : Nat := 0x20C30
/-- R568. -/
def HK_DOSE (i : Nat) : Nat := 0x20D00 + 4 * i
/-- R495. -/
def EVT_FF (x : Side) : Nat := sideBase x + 0x10200
/-- R495. -/
def EVT_FF_4 (x : Side) : Nat := sideBase x + 0x10204
/-- R495. -/
def EVT_FF_8 (x : Side) : Nat := sideBase x + 0x10208
/-- R495. -/
def EVT_FF_C (x : Side) : Nat := sideBase x + 0x1020C
/-- R495. -/
def EVT_FF_10 (x : Side) : Nat := sideBase x + 0x10210
/-- R495. -/
def EVT_FF_14 (x : Side) : Nat := sideBase x + 0x10214
/-- R495. -/
def EVT_FF_18 (x : Side) : Nat := sideBase x + 0x10218
/-- R495. -/
def EVT_FF_1C (x : Side) : Nat := sideBase x + 0x1021C
/-- R495. -/
def EVT_QUEUE (x : Side) (i : Nat) : Nat := sideBase x + 0x11000 + 32 * i
/-- R495. -/
def EVT_QUEUE_4 (x : Side) (i : Nat) : Nat := sideBase x + 0x11004 + 32 * i
/-- R495. -/
def EVT_QUEUE_8 (x : Side) (i : Nat) : Nat := sideBase x + 0x11008 + 32 * i
/-- R495. -/
def EVT_QUEUE_C (x : Side) (i : Nat) : Nat := sideBase x + 0x1100C + 32 * i
/-- R495. -/
def EVT_QUEUE_10 (x : Side) (i : Nat) : Nat := sideBase x + 0x11010 + 32 * i
/-- R495. -/
def EVT_QUEUE_14 (x : Side) (i : Nat) : Nat := sideBase x + 0x11014 + 32 * i
/-- R495. -/
def EVT_QUEUE_18 (x : Side) (i : Nat) : Nat := sideBase x + 0x11018 + 32 * i
/-- R495. -/
def EVT_QUEUE_1C (x : Side) (i : Nat) : Nat := sideBase x + 0x1101C + 32 * i
/-- R495. -/
def EVT_SRC (x : Side) (i : Nat) : Nat := sideBase x + 0x18000 + 32 * i
/-- R495. -/
def EVT_SRC_4 (x : Side) (i : Nat) : Nat := sideBase x + 0x18004 + 32 * i
/-- R495. -/
def EVT_SRC_8 (x : Side) (i : Nat) : Nat := sideBase x + 0x18008 + 32 * i
/-- R495. -/
def EVT_SRC_C (x : Side) (i : Nat) : Nat := sideBase x + 0x1800C + 32 * i
/-- R495. -/
def EVT_SRC_10 (x : Side) (i : Nat) : Nat := sideBase x + 0x18010 + 32 * i
/-- R296. -/
def CMP_JOB_IN (x : Side) (i : Nat) : Nat := sideBase x + 0x48000 + 4 * i
/-- R296. -/
def CMP_JOB_OUT (x : Side) (i : Nat) : Nat := sideBase x + 0x4C000 + 4 * i
/-- R469. -/
def MGT_XFER (x : Side) (i : Nat) : Nat := sideBase x + 0x8000 + 4 * i
/-- R568. -/
def MGT_SRAM_SCRUB (x : Side) : Nat := sideBase x + 0x20
/-- R568. -/
def MGT_NVM_WEAR (x : Side) : Nat := sideBase x + 0x24

end Reg

end Sys2Proof.Machine
end

