-- ==== Sys2Proof/Machine/Types.lean ====
section
/-!
DEFINITION. The parts of the state that several blocks share: times of faults, events, replies, frames, blocks,
units, and the state of the lanes, the Welt link, the management controllers, power and resets.
-/

namespace Sys2Proof.Machine

/-- One of each for the two sides. -/
structure Two (α : Type) where
  a : α
  b : α
deriving DecidableEq, Repr

/-- The other side. -/
def peerOf : Side → Side
  | .a => .b
  | .b => .a

/-- The entry of side x. -/
def Two.get {α : Type} (t : Two α) : Side → α
  | .a => t.a
  | .b => t.b

/-- The entry of side x replaced. -/
def Two.set {α : Type} (t : Two α) (x : Side) (v : α) : Two α :=
  match x with
  | .a => { t with a := v }
  | .b => { t with b := v }

/-- A side as a bit: 0 A, 1 B. -/
def sideNum : Side → Nat
  | .a => 0
  | .b => 1

/-- A bit as a side. -/
def sideOf (n : Nat) : Side := if n = 0 then .a else .b

/-- The clocks: array time in ticks and the FU beyond them (R4), the slew still to be made in FU, its rate in FU in an exchange
interval and what of it is ready short of 1 FU (R413, R417), the ticks since the model's reset with the ticks at which the module
last reset and VAON was applied, which measure durations (log entry 2); the ticks for which the configuration scrubber has run in
its present pass, pauses apart (R60, R87), and the tile that drift tracking measures, with the ticks for which it has (R81); the ticks
for which the SRAM scrubbers of the base tier and of the sides have run, pauses apart (R559, R568); the tick at
which array time was last set or stepped, and the tick of the last slice boundary before that (R195). -/
structure Clock where
  now : Time
  fine : Nat
  slew : Int
  slewRate : Nat
  slewRest : Nat
  ticks : Nat
  bootTick : Nat
  aonTick : Nat
  scrub : Nat
  drift : Option (Nat × Nat)
  sram : Nat
  sramSide : Two Nat
  setTick : Nat
  boundary : Nat
deriving DecidableEq, Repr

/-- The array times of a resource's two most recent faults (R548). -/
structure Faults where
  older : Option Time
  newer : Option Time
deriving DecidableEq, Repr

/-- No fault stored. -/
def Faults.clear : Faults := ⟨none, none⟩

/-- An entry of an event queue (R480), with whether a port has begun it, the ports that are sending it and those that have
sent it (R477–R479, R483). -/
structure EvEntry where
  src : Nat
  sev : Nat
  acked : Bool
  count : Nat
  seq : Word
  first : Time
  last : Time
  inst : Nat
  begun : Bool
  sending : List Nat
  sent : List Nat
deriving DecidableEq, Repr

/-- A per-source record (R475). -/
structure SrcRec where
  count : Nat
  first : Time
  last : Time
deriving DecidableEq, Repr

/-- A record in which nothing has been raised. -/
def SrcRec.zero : SrcRec := ⟨0, 0, 0⟩

/-- What a side's raises act on (R477–R479, R486): the queue, oldest first; the SEQ of the next entry; the entry block EVT_FF; VALID,
QUEUED and LATER of EVT_FF_STATUS; how many entries of each severity have been lost. -/
structure EvCore where
  queue : List EvEntry
  next : Word
  ff : EvEntry
  valid : Bool
  queued : Bool
  later : Nat
  lost : List Nat
deriving DecidableEq, Repr

/-- The raises of one tick, in increasing source number, with what they found and the losses counted for them so far (R478; log entry
132). -/
structure EvRound where
  tick : Nat
  base : EvCore
  raises : List EvEntry
  lost : List Nat
deriving DecidableEq, Repr

/-- The events of one side (R470–R487): queue, oldest first; records by source; the SEQ of the next entry; the entry block EVT_FF; the
EVENT frames formed whose entries still wait, each with its SEQ and words (R364); the raises of the present or an earlier tick (R478). -/
structure EvState where
  queue : List EvEntry
  recs : Sparse SrcRec
  next : Word
  ff : EvEntry
  formed : List (Nat × List Word72)
  round : Option EvRound
deriving DecidableEq, Repr

/-- An entry block that holds nothing. -/
def EvEntry.zero : EvEntry := ⟨0, 0, false, 0, 0, 0, 0, 0, false, [], []⟩

/-- The cumulative counters of a TELEMETRY frame (R493). -/
inductive Tally
  | linkWords | hits | outFrames | records | compIn | compOut
  | busyEdge | squallDrop | clusterDrop | truncated | skipped | substitutes | overwritten | blocksSkipped
  | cut | linkSubst | lostCritical | lostFault | lostNotice | lostInfo
  | storeCorr | storeUncorr | fifoCorr | fifoUncorr | traps | verifyFail | disputes | disputesLost
  | laneFaults | weltRetrans | latchFix | calFail | squalls | merges | badFrames | commands
deriving DecidableEq, Repr

/-- A reply packet (R439). -/
structure Reply where
  op : Nat
  tag : BitVec 8
  mid : Nat
  status : Nat
  r1 : Word
  words : List Word72
deriving DecidableEq, Repr

/-- A command packet as it waits in a command queue (R436, R443): its transport, words 0 to N, and CRC word. -/
structure Packet where
  via : Via
  words : List Word72
  crc : Word
  since : Nat
deriving DecidableEq, Repr

/-- An entry of a replay cache (R445). -/
structure Cached where
  via : Via
  tag : BitVec 8
  crc : Word
  reply : Reply
  formed : Nat
deriving DecidableEq, Repr

/-- A command whose reply is still to come: CONFIG_APPLY, LAST_LOAD, a held shadow write, the way out of
STANDBY (R52, R55, R457, R527); the side that executes it. -/
structure Waiting where
  x : Side
  op : Nat
  ctx : Ctx
  since : Nat
deriving DecidableEq, Repr

/-- The service SPI: replies that wait for READ, oldest first, with the side that formed each, the
replay cache, and the bytes that the last transaction shifted out (R441, R442). -/
structure Spi where
  replies : List (Side × Reply)
  cache : List Cached
  miso : List Byte
deriving DecidableEq, Repr

/-- The configuration words of one tile's pixels, bits [9:0] (R45): the word of every pixel that is not listed, and
the others by local pixel. -/
structure TileImage where
  base : BitVec 10
  words : Sparse (BitVec 10)
deriving DecidableEq, Repr

/-- Every pixel at the reset word of R45: TRIM 16, all else 0. -/
def TileImage.reset : TileImage := ⟨0x40, []⟩

/-- A Last as a slot holds it (R455): the applied image, the RW fields by address, the module mode, and the
digest of the stored image (R463). -/
structure Last where
  image : Sparse TileImage
  regs : Sparse Word
  twin : Bool
  digest : BitVec 384
deriving DecidableEq, Repr

/-- An entry of the measurement log (R464). -/
structure LogEntry where
  m : Nat
  kind : Nat
  arg : Nat
  digest : BitVec 384
deriving DecidableEq, Repr

/-- An image of firmware or microcode: its bytes by index, and its length (R461). -/
structure Image where
  bytes : Sparse Byte
  size : Nat
deriving DecidableEq, Repr

/-- An image with no bytes. -/
def Image.empty : Image := ⟨[], 0⟩

/-- The way of a command that this module has sent down the lace, for its REPLY (R409, R429): tag, opcode, target, the transport that
brought it, and the port that it left on; none for an array command, which leaves on all. -/
structure Route where
  tag : BitVec 8
  op : Nat
  target : Nat
  via : Via
  port : Option Nat
deriving DecidableEq, Repr

/-- A management controller (R443–R464): command queue, replay caches of its ports, Lasts by slot and the page that each begins at
(R458), boot slot, staged, active and fallback images of the patch and the microcode, measurement registers and log, the writes of
the two copies of the retirement lists and which is current; the command that waits for the peer (R382), the routes of commands
sent down the lace (R409), whether event 548 stands since the last accepted packet (R443), the faults and
the place of background work, the tick of the last periodic telemetry capture (R492), and the lines of its instruction memory that
do not read correctly (R345). -/
structure Mgt where
  queue : List Packet
  cache : List Cached
  slots : Sparse (Option Last)
  pages : Sparse Nat
  bootSlot : Nat
  stagedPatch : Image
  stagedMicro : Image
  patchOk : Bool
  microOk : Bool
  activePatch : Image
  activeMicro : Image
  meas : Sparse (BitVec 384)
  log : List LogEntry
  listWrites : Two Nat
  listCurrent : Side
  fwd : Option Waiting
  routes : List Route
  dropSaid : Bool
  fetchFaults : Faults
  scrubPos : Nat
  scrubTick : Nat
  telemAt : Option Time
  lines : List Nat
deriving DecidableEq, Repr

/-- A word and its place: how a unit's words stand in a buffer, marked when the word no longer reads
correctly. -/
structure DataUnit where
  number : BitVec 48
  words : List Word72
deriving DecidableEq, Repr

/-- The identity of a block (R271): stream, record, first unit and part. -/
structure BlockId where
  stream : Nat
  record : Word
  unit : BitVec 48
  part : Nat
deriving DecidableEq, Repr

/-- A block: identity, flags, its untransformed input and the words built from it (R282, R387); the
compressor that built it, the ring it was spilled to, and of a block forwarded for another module the ORIGIN, REPLICA
and OSTREAM of its frames (R363, R432); whether it is built with the hit transform (R277). -/
structure Block where
  id : BlockId
  reissue : Bool
  flushed : Bool
  splitOut : Bool
  units : Nat
  input : List Word72
  words : List Word72
  maker : Nat
  ring : Option Nat
  fwd : Option (Nat × Nat × Nat)
  xform : Bool
deriving DecidableEq, Repr

/-- A frame the module puts out on a port (R362–R364). -/
structure Frame where
  type : Nat
  stream : Nat
  seq : Nat
  words : List Word72
  origin : Nat
  frag : Nat
  last : Bool
  replica : Nat
  ostream : Nat
deriving DecidableEq, Repr

/-- The states of a port (R360). -/
inductive PortState | disabled | training | up | failed
deriving DecidableEq, Repr

/-- A pause on a stream: until a tick, or until the next PAUSE (R371). -/
inductive PauseState | none | ticks (t : Nat) | open_
deriving DecidableEq, Repr

/-- A lane (R352–R365): detectors, the accepted ALIGN and the LANES it carried, ALIGN slots missed, exclusion
from the present training, and fault times. The settings are those of its last training (R355). -/
structure Lane where
  signal : Bool
  lock : Bool
  aligned : Bool
  seen : Bool
  missed : Nat
  peerLanes : BitVec 8
  peerWmax : Nat
  excluded : Bool
  settings : Word
  faults : Faults
deriving DecidableEq, Repr

/-- A lane that has seen nothing. -/
def Lane.idle : Lane := ⟨false, false, false, false, 0, 0, 0, false, 0x668, Faults.clear⟩

/-- A 66-bit block of a lane before its scrambler: whether it is a control block, and its 64 bits (R350). -/
structure WireBlock where
  ctrl : Bool
  bits : BitVec 64
deriving DecidableEq, Repr

/-- What a port has last put on its lanes: nothing, a run of blocks of the port stream, or one block on each of some lanes (R356,
R360). -/
inductive Burst
  | off
  | stream (l : List WireBlock)
  | lanes (l : List (Nat × WireBlock))
deriving DecidableEq, Repr

/-- A port (R358–R374): state, used lanes, width, the peer's ALIGN fields, training, pauses of streams 0, 1, 2 and 6, frames
waiting, the blocks assigned and the next fragment of the first, credits, and the word groups received and freed; the allowance of
EVENT frames in parts of a word group and the tick it was last brought up to date (R482); what stands on its lanes last, and how
often that has changed (log entry 119); the tick of the last ALIGN slot since it began to train (R356). -/
structure Port where
  state : PortState
  used : BitVec 8
  width : Nat
  prevWidth : Nat
  peerId : Nat
  peerRole : Nat
  lastSet : BitVec 8
  lastWmax : Nat
  stable : Nat
  firstLock : Option Nat
  role : Nat
  crcSeen : Bool
  pauses : List PauseState
  waiting : List Frame
  blocks : List Block
  frag : Nat
  out : Option Frame
  sent : Nat
  freed : Nat
  rxFreed : Nat
  rxReported : Nat
  rxSentTick : Nat
  creditTick : Nat
  allow : Nat
  allowTick : Nat
  wire : Burst
  bursts : Nat
  alignTick : Option Nat
deriving DecidableEq, Repr

/-- A port before its first training. -/
def Port.idle : Port :=
  ⟨.disabled, 0, 0, 0, 0, 0, 0, 0, 0, none, 0, false, [.none, .none, .none, .none], [], [], 0, none, 0, 0, 0, 0, 0, 0, 0, 0, .off, 0, none⟩

/-- What a command does only after its reply has left: the training of RUN_ARM (R361), the port settings of LAST_LOAD (R457), SIDE_RESET and
MODULE_RESET (R540), STANDBY (R525), a register write (R377, R447), the retirement of a side (R467). -/
inductive After
  | trainNarrow
  | lastLoad
  | sideReset (y : Side)
  | moduleReset
  | standby
  | write (a : Nat) (v : Word)
  | retire (y : Side)
deriving DecidableEq, Repr

/-- The lanes and ports of one side: entries by port and by 8 × port + lane; the SEQ counts of REPLY, EVENT,
TELEMETRY and NOTICE frames (R364); whether a block has been cut in this run (R366); the NOTICE frames that
wait for a port (R366); the blocks in the egress buffer that no port has (R327, R369); what follows replies that have not left:
port, reply, effect (R377, R447). -/
structure Lnk where
  ports : Sparse Port
  lanes : Sparse Lane
  seqs : Sparse Nat
  cutSeen : Bool
  notices : List Frame
  egress : List Block
  later : List (Nat × Frame × After)
deriving DecidableEq, Repr

/-- The service states of a side (R392). -/
inductive Service | inService | out | resync | retired
deriving DecidableEq, Repr

/-- The 2-bit code of a service state (R402). -/
def Service.code : Service → Nat
  | .inService => 0
  | .out => 1
  | .resync => 2
  | .retired => 3

/-- A signature (R385). -/
structure Sig where
  id : BlockId
  length : Nat
  crc : Word
  check : Word72
deriving DecidableEq, Repr

/-- A dispute (R388): the block, both original signatures, and both recomputes once made, each with whether the input
it was made from holds a loss word of a substitute (R389); the words of its own recompute (R389); the BLOCK_HEAD words and the ports of its
DISPUTE, which the RESOLVED repeats (R388, R391). -/
structure Dispute where
  id : BlockId
  mine : Option Sig
  theirs : Option Sig
  myRe : Option (Sig × Bool)
  theirRe : Option (Sig × Bool)
  words : List Word72
  heads : List Word72
  ports : List Nat
deriving DecidableEq, Repr

/-- A half-filled entry of the signature table, with the tick at which it entered (R386). -/
structure SigEntry where
  sig : Sig
  own : Bool
  entered : Nat
deriving DecidableEq, Repr

/-- The Welt link of one side (R380–R402): table, open disputes, retained inputs (as whole blocks), signatures sent by
the peer and not yet taken up, recompute signatures likewise, messages sent and not acknowledged (the class of R380, 6 for a verdict, and the tick of
sending), the tick of the last valid message, 0 for none, and whether the last heartbeat arrived, whether a
retransmission has been reported in this run, the tick of the last heartbeat, whether a resync transfer is in progress,
R_s of this run (R397), and the tick of the side's reset (R402). -/
structure Wlt where
  table : List SigEntry
  disputes : List Dispute
  retained : List Block
  inbox : List Sig
  inboxRe : List (Sig × Bool)
  unacked : List (Nat × Nat)
  lastValid : Nat
  rxOk : Bool
  retransSeen : Bool
  heartbeat : Nat
  transferring : Bool
  rs : Option Time
  began : Nat
deriving DecidableEq, Repr

/-- The service arbiter (R392, R393, R399): state of each side, PRIMARY, mode, withheld removals, histories of
lost disputes and of entries for a fault, the tick at which a boot began, whether it has passed its self-test, R_s, and
the boundary at which the survivor of a TWIN module takes all tiles (R395). -/
structure Arb where
  svc : Two Service
  primary : Side
  twin : Bool
  held : Two Bool
  losses : Two Faults
  outs : Two Faults
  booting : Two (Option Nat)
  passed : Two Bool
  returnAt : Two (Option Time)
  takeover : Option Time
deriving DecidableEq, Repr

/-- The power states (R523). -/
inductive PowerMode | off | dormant | active | standby
deriving DecidableEq, Repr

/-- Power, wake and clocks (R518–R547): power state, the command that it changes back to ACTIVE for, VAON and the
feeds, start-up step with the tick at which the one before ended, READY, whether the sides have booted, wake queue (unit,
tick of its request), whether this burst's wait has been reported, the tick of the last wake step, wake units on, the tick at which
each tile was last woken (R562), base and tile PLLs, held reset pins, and the straps as read (R26, R405, R407). -/
structure Power where
  mode : PowerMode
  changing : Option Waiting
  vaon : Bool
  feed : Two Bool
  step : Nat
  stepTick : Nat
  ready : Bool
  booted : Bool
  wake : List (Nat × Nat)
  wakeSaid : Bool
  wakeTick : Nat
  on : List Nat
  since : Sparse Nat
  baseLock : Bool
  tileLock : List Nat
  heldN : Bool
  heldSide : Two Bool
  strapId : Nat
  strapMaster : Bool
deriving DecidableEq, Repr

/-- The run states (R207). -/
inductive RunState | idle | armed | running | stopping
deriving DecidableEq, Repr

/-- The 2-bit code of a run state (R450). -/
def RunState.code : RunState → Nat
  | .idle => 0
  | .armed => 1
  | .running => 2
  | .stopping => 3

/-- The retirement lists (R553), each rising: pixels, time digitizers (ETDs from 65 536), frame ADCs, tiles,
global lanes, DRAM rows (side × 2^22 + the P2 encoding of R467), channels (side × 16 + channel), engines
(side × 48 + e), compressors (side × 32 + e), sides; the dose totals stored with them, with the baselines they rest
on (R561, R564); and the number of the update that wrote them, by which the newer of two copies is known (log entry 158). -/
structure Lists where
  pixels : List Nat
  digitizers : List Nat
  adcs : List Nat
  tiles : List Nat
  lanes : List Nat
  rows : List Nat
  channels : List Nat
  engines : List Nat
  compressors : List Nat
  sides : List Nat
  doseDet : List Nat
  doseTile : List Nat
  doseBase : List Int
  number : Nat
deriving DecidableEq, Repr

/-- Lists that hold nothing. -/
def Lists.empty : Lists := ⟨[], [], [], [], [], [], [], [], [], [], [], [], [], 0⟩

/-- Background work: the retirements in force, those of them that RETIRE_LIST has removed from the lists (R557), each side's
current copy of the lists and its older one (R460, R553), the pixels, digitizers and frame ADCs retired beyond the capacity
of their lists (R86, R131, R152), the lists that an update in progress writes, whether one waits to begin (R460, R554), whether a
LAST_STORE that will be cut is in progress (R456, log entry 146), the base-tier scrubber's pass,
and the dose accounts: baselines, whether a cell is being recharged, increments in 2^-16 Gy, remainders of dosimeters and
tiles in 2^-16 of 0.1 Gy (R561, R562), the ticks of the last move and of the last save (R564). -/
structure Background where
  inForce : Lists
  removed : Lists
  unlisted : List Nat
  unlistedDigis : List Nat
  unlistedAdcs : List Nat
  nvm : Two Lists
  older : Two Lists
  updating : Option Lists
  again : Bool
  storing : Bool
  scrubTick : Nat
  baseline : List Int
  recharging : List Bool
  inc : List Nat
  rest : List Nat
  tileRest : List Nat
  doseTick : Nat
  saveTick : Nat
deriving DecidableEq, Repr

/-- What a parent knows of a child (R415): reach, depth, modules, and its MASTER and DUP flags. -/
structure Child where
  reach : Nat
  depth : Nat
  modules : Nat
  master : Bool
  dup : Bool
  roster : BitVec 256
deriving DecidableEq, Repr

/-- A timing exchange of a LACE_DOWN or TIMING_SOURCE port (R416): SEQ, T1 with its FU, the tick of its PROBE,
whether the ECHO is awaited, and the RTTs of the last 16 exchanges, newest first. -/
structure Exchange where
  seq : Nat
  t1 : Time
  t1Fine : Nat
  started : Nat
  waiting : Bool
  hist : List Nat
deriving DecidableEq, Repr

/-- No exchange yet. -/
def Exchange.zero : Exchange := ⟨0, 0, 0, 0, false, []⟩

/-- An assertion of the trigger bus that the base tier holds until its delivery (R424): line, effective time,
tick of delivery, and whether it has been delivered (kept to know a second copy). -/
structure Assertion where
  line : Nat
  eff : Time
  due : Time
  given : Bool
deriving DecidableEq, Repr

/-- An ARRAY_BARRIER that waits for answers (R428): the command, the side and port of each child still to answer,
and the counts so far: modules, modules with a bad LCE_BCAST status, the lowest MODULE_ID among those. -/
structure Barrier where
  cmd : Waiting
  left : List (Nat × Nat)
  modules : Nat
  bad : Nat
  lowest : Nat
deriving DecidableEq, Repr

/-- The lace of one side: children and exchanges by port; the exchange with the parent (T2 with FU, SEQ, T1 low
bits and FU), the RTTs of the LACE_UP hop, the consecutive exchanges within 1 024 FU, whether an exchange
has completed since the port came UP, the depth that the parent gives; the TIMING blocks sent last by port, and the tick of
that; frames received by port and not yet in an item, each with its ring item once it is stored, and when the batch
began (R237); frames by port that wait for the LAST fragment of their block (R433); the MODULE_ID that stays in use until the next exchange
(R407); LCE_ASYM as the exchange found it (R435). -/
structure Lce where
  children : Sparse Child
  exchanges : Sparse Exchange
  t2 : Time
  t2Fine : Nat
  upSeq : Nat
  t1Low : Nat
  t1Fine : Nat
  gotFollow : Bool
  upHist : List Nat
  good : Nat
  exchanged : Bool
  depth : Nat
  timing : List (Nat × BitVec 56)
  timingTick : Nat
  batch : Sparse (List (Option Nat × Frame))
  batchTick : Sparse Nat
  hold : Sparse (List (Nat × Frame))
  secondSaid : Bool
  idHeld : Option Nat
  asym : Nat
deriving DecidableEq, Repr

/-- Base-tier lace and time state: merged assertions, the packets of array commands seen within 10 ms (tag,
CRC, tick), the scheduled array operations, the pending AT_PPS TIME_SET, consecutive good PPS edges, whether array time is
taken from the tree of the PRIMARY side (R417, R418) and whether PRIMARY has since changed from one such tree to another with no
exchange within 1 024 FU so far (R421), and the open ARRAY_BARRIERs. -/
structure LaceBase where
  bus : List Assertion
  seen : List (BitVec 8 × Word × Nat × Side)
  snapshotAt : List Time
  resetAt : Option Time
  timeSet : List (Time × Waiting)
  ppsGood : Nat
  onTree : Bool
  newTree : Bool
  barriers : List Barrier
deriving DecidableEq, Repr

/-- A CONFIG_APPLY between acceptance and commit (R51–R55): its tiles, the captured images and thresholds, the
captured polarity, the tick of its acceptance, B, whether staging is complete, and the command that waits. -/
structure Apply where
  tiles : List Nat
  image : Sparse TileImage
  thr : Sparse Word
  mode : Word
  accepted : Nat
  commitAt : Time
  staged : Bool
  wait : Option Waiting
deriving DecidableEq, Repr

/-- A shadow write held until staging completes (R52): its command, the words (address, mask, value) still to land,
R1 of its reply, whether it is a MODIFY_REG, which replies with the old value, whether a WRITE_BLOCK runs beyond the
window, which its reply then says (R448), and whether the word that a MODIFY_REG reads at its landing is uncorrectable (R65). -/
structure Held where
  wait : Waiting
  words : List (Nat × Word × Word)
  r1 : Word
  modify : Bool
  beyond : Bool
  bad : Bool
deriving DecidableEq, Repr

/-- An Awl pulse train: pulses still to fire, the tick of the next, the period (R67, R68). -/
structure Train where
  left : Nat
  next : Time
  period : Nat
deriving DecidableEq, Repr

/-- An Awl pulse that has fired (R66, R71): its tick, its charge in electrons, and the latches at that tick. -/
structure Shot where
  at_ : Time
  charge : Nat
  image : Sparse TileImage
deriving DecidableEq, Repr

/-- A THRESH_SCAN in progress (R73–R75): its tiles, points and pulses, the charge of its pulses in electrons, its beginning, and the
hits counted so far, by pixel, at each point. -/
structure Scan where
  tiles : List Nat
  start : Nat
  stop : Nat
  step : Nat
  pulses : Nat
  charge : Nat
  equalise : Bool
  since : Nat
  hits : Sparse (List Nat)
deriving DecidableEq, Repr

/-- The pixel matrix: shadow, applied image and latches by tile; CONFIG_APPLY and held writes; the Awl train, and the Awl pulses
fired since the integration in progress began, or the last one; the rewrite times by pixel; the scan; drift
references by tile, and the tile whose turn it is to be measured next. -/
structure Pix where
  shadow : Sparse TileImage
  applied : Sparse TileImage
  latches : Sparse TileImage
  apply : Option Apply
  held : List Held
  train : Option Train
  shots : List Shot
  fixes : Sparse Faults
  scan : Option Scan
  driftRef : Sparse (Option Nat)
  driftTile : Nat
deriving DecidableEq, Repr

/-- The loop registers as a loop update takes them: HK_LOOP_CTRL, HK_LOOP_ZERO, HK_LOOP_SPAN (R508, R517). -/
structure LoopSet where
  ctrl : Word
  zero : Word
  span : Word
deriving DecidableEq, Repr

/-- The loop off. -/
def LoopSet.idle : LoopSet := ⟨0, 0, 0⟩

/-- Housekeeping (R499–R510): the channels of the present regular pass, the place in it, and the tick at which its conversion
began; the injected sequence in progress (channels, place, tick of its conversion); an aborted regular conversion has no tick;
whether the pass is under way, so that an aborted first channel is the one resumed (R500). The range of HK48; the results within
limits that each channel in alarm has given in a row; the tick of each channel's latest result; the beginning of HK_CAL; the tick
of an over-current trip after which the comparator has not re-armed; the 100 ms of the last loop update and the loop registers as
it took them (R517); the internal rails out of limits (R472). -/
structure Hk where
  seq : List Nat
  pos : Nat
  began : Option Nat
  inPass : Bool
  inj : Option (List Nat × Nat × Nat)
  range : Nat
  good : Sparse Nat
  latest : Sparse (Option Nat)
  cal : Option Nat
  tripped : Option Nat
  loopTick : Nat
  loopSet : LoopSet
  rails : List Nat
deriving DecidableEq, Repr

/-- Housekeeping before its first pass. -/
def Hk.idle : Hk := ⟨[], 0, none, false, none, 5, [], [], none, none, 0, LoopSet.idle, []⟩

/-- A multipurpose pin (R512–R515): the pad's level, while it switches the tick of the acceptance and that of the
attachment of the new function, and MP_CTRL as it was before the last switch. -/
structure Pin where
  pad : Bool
  switch : Option (Nat × Option Nat)
  old : Word
deriving DecidableEq, Repr

/-- A pin that is low and does not switch. -/
def Pin.idle : Pin := ⟨false, none, 0⟩

end Sys2Proof.Machine
end

