-- ==== Sys2Proof/Machine/Units.lean ====
section
/-!
DEFINITION. The parts of the state that carry data from a pixel to a block: digitizers, frames, tiles, the squall
detector, the trigger engine, the dispatcher and its engines, compression and the burst store.
-/

namespace Sys2Proof.Machine

/-! ### Digitizers -/

/-- A conversion in a vernier pair (R89, R90): the time at which it ends, in ticks and FU, its raw code, overrange,
and for a calibration edge the tick of its delivery on the running count, and whether a real edge lies within its clearance
(R110). -/
structure Conv where
  stop : Time
  stopFine : Nat
  code : Nat
  ovr : Bool
  cal : Option Nat
  spoiled : Bool
deriving DecidableEq, Repr

/-- A leading-edge stop (R98): pixel of the super-pixel, coarse and fine time. -/
structure Stop where
  q : Nat
  c : Time
  fine : Nat
deriving DecidableEq, Repr

/-- A pixel's pulse in a cluster: local pixel, tick of its leading edge, the configuration and the polarity (1 holes) it fired
under (R54), the charge that the Awl has injected into it (R71), its trailing edge, and its range at the end of the pulse (R37).
-/
structure Pulse where
  lp : Nat
  lead : Time
  cfg : BitVec 10
  holes : Bool
  inj : Nat
  fall : Option Time
  range : Nat
deriving DecidableEq, Repr

/-- A cluster (R93–R101): start pixel and time, leading-edge stops in order, the start pixel's trailing edge in FU
from the start when it is a stop, the count and the tick of the stops, pulses, window, and the tick of the close. -/
structure Cluster where
  lp : Nat
  c : Time
  fine : Nat
  stops : List Stop
  trail : Option Nat
  taken : Nat
  last : Time
  pulses : List Pulse
  window : Nat
  closed : Option Time
deriving DecidableEq, Repr

/-- The digitizer states of R103. -/
inductive Phase | ready | cal | cluster | dead
deriving DecidableEq, Repr

/-- A digitizer: state, conversion, open cluster, clusters that wait for assembly, end of the dead time, ticks of the
real edges that a calibration still has to know of, latest first (of a super-pixel the last one, of an ETD those since its last fill),
calibration codes whose clearance still runs (delivery, code, overrange; R110), histogram
and overrange count of the present fill (R112), latest table and table in use (none: nominal, R115), when the latest
comes into use (R116), coarse-only now and from then on (R130), and fault times. -/
structure Digi where
  phase : Phase
  conv : Option Conv
  cluster : Option Cluster
  waiting : List Cluster
  readyAt : Time
  reals : List Nat
  codes : List (Nat × Nat × Bool)
  hist : List Nat
  ovr : Nat
  latest : List Nat
  inUse : List Nat
  effectAt : Option Time
  coarse : Bool
  coarseNext : Bool
  faults : Faults
deriving DecidableEq, Repr

/-- A digitizer that has done nothing. -/
def Digi.idle : Digi :=
  ⟨.ready, none, none, [], 0, [], [], [], 0, [], [], none, false, false, Faults.clear⟩

/-- A tile's background rotation (R119–R121): present or last digitizer, fill in progress, tick of its first delivered
edge, and the tick at which the last fill ended. -/
structure Rotation where
  cur : Nat
  active : Bool
  first : Option Nat
  ended : Nat
deriving DecidableEq, Repr

/-- A rotation that has not begun: its first fill is that of s = 0. -/
def Rotation.idle : Rotation := ⟨1023, false, none, 0⟩

/-- An initial pass (R117): tiles, whether the ETDs take part and whether they alone do, its beginning, the attempt,
the digitizers that failed the attempt before and this one, those whose fill has ended, and how many retired. -/
structure InitPass where
  tiles : List Nat
  ext : Bool
  since : Nat
  attempt : Nat
  again : List Nat
  failed : List Nat
  ended : List Nat
  retired : Nat
deriving DecidableEq, Repr

/-- A stamp on its way to the trigger engines, with the tick of its arrival on the running count (R133, R134). -/
structure Stamp where
  i : Nat
  time : Time
  fine : Nat
  rising : Bool
  arrive : Nat
deriving DecidableEq, Repr

/-- The time digitizers: by gs, ETDi as 65 536 + i; rotations by tile; the initial pass; stamps under way; the tick of the last
accepted edge of each ETD, whose turn its calibration is and since when (R135, R136); completed fills by tile (R237). -/
structure Tdc where
  digis : Sparse Digi
  rot : Sparse Rotation
  pass : Option InitPass
  stamps : List Stamp
  etdLast : Sparse (Option Nat)
  etdTurn : Nat
  etdSince : Nat
  fills : Sparse (List (Nat × List Nat))
deriving DecidableEq, Repr

/-! ### Frames -/

/-- The chain state of one pixel (R162–R165), and how many of its output samples still carry present 0. -/
structure Chain where
  integ : List Nat
  comb : List Nat
  sos1 : List Int
  sos2 : List Int
  rmax : Nat
  allp : Bool
  blank : Nat
deriving DecidableEq, Repr

/-- A chain at run start. -/
def Chain.zero : Chain := ⟨[0, 0, 0], [0, 0, 0], [0, 0], [0, 0], 0, true, 0⟩

/-- An input frame between its trigger and its conversion (R139–R142): number, ticks of the triggers that begin and end its
integration, the latches and the polarity (1 holes) its integration ran under (R54), the Awl pulses that fell in it (R71), the
frame ADCs retired at its trigger (R152), and the tiles that have still to convert it. -/
structure Sampled where
  number : Nat
  t0 : Time
  t1 : Time
  image : Sparse TileImage
  holes : Bool
  shots : List Shot
  adcs : List Nat
  left : List Nat
deriving DecidableEq, Repr

/-- An FA_CAL in progress (R148–R150): tiles, beginning, attempt, phase (0 trim, 1 offset, 2 gain), the ADCs that
failed the attempt before (none at attempt 1: all are tried), and those that failed this one. -/
structure FaCal where
  tiles : List Nat
  since : Nat
  attempt : Nat
  phase : Nat
  failed : List Nat
deriving DecidableEq, Repr

/-- Frame mode of the module: the last accepted trigger and the latches and the polarity in force since it, whether a first trigger has
come, number of the next input frame, what the hold capacitors hold and not every tile has converted (a: H0, the even frames; b: H1, the
odd ones; R140), the spans of this run's frame units, the FA_CAL, fault times of the ADCs, and by tile
what the ended attempts measured on each ADC that they included, until its CAL_REDUCE evaluates it (R150, R237); the edges of the EXT
source delivered and not yet a frame trigger: pin, direction, E (R143). -/
structure Frames where
  lastTrig : Option Time
  image : Sparse TileImage
  holes : Bool
  started : Bool
  next : Nat
  hold : Two (Option Sampled)
  spans : List (BitVec 48 × Time × Time)
  cal : Option FaCal
  faults : Sparse Faults
  measured : Sparse (List (Nat × Option AdcMeas))
  ext : List (Nat × Bool × Time)
deriving DecidableEq, Repr

/-- The frames that are held and not yet converted, oldest first. -/
def Frames.sampled (f : Frames) : List Sampled :=
  match f.hold.a, f.hold.b with
  | some p, some q => if p.number ≤ q.number then [p, q] else [q, p]
  | some p, none => [p]
  | none, some q => [q]
  | none, none => []

/-- Tiles taken from those that have still to convert a held frame; one that all have converted is held no more. -/
def Sampled.without (t : Nat) (f : Sampled) : Option Sampled :=
  if f.left.all (· = t) then none else some { f with left := f.left.filter (· ≠ t) }

/-! ### Tiles -/

/-- A word in a tile's FIFO, with its place in its cluster group and the group's size (0 of 0 for a control or pair
word). -/
structure Slot where
  word : Word72
  place : Nat
  size : Nat
deriving DecidableEq, Repr

/-- The states of a tile (R172). -/
inductive TileRun | idle | running | stopping
deriving DecidableEq, Repr

/-- The 2-bit code of a tile state (R204). -/
def TileRun.code : TileRun → Nat
  | .idle => 0
  | .running => 1
  | .stopping => 2

/-- The counts of LOSS sources 0x00 to 0x02 in one slice (R187, R188). -/
structure Lost where
  busy : Nat
  squall : Nat
  drop : Nat
deriving DecidableEq, Repr

/-- Nothing lost. -/
def Lost.zero : Lost := ⟨0, 0, 0⟩

/-- An output frame on its way into the FIFO (R155, R189): tick of its next word slot, whether FRAME_START has been
written, FRAME_START, pair words still to write, pair words written, and FRAME_END with WORDS 0. -/
structure FrameOut where
  at_ : Time
  begun : Bool
  head : Word72
  pairs : List Word72
  sent : Nat
  tail : Word72
deriving DecidableEq, Repr

/-- A tile controller: state; FIFO; next-slice buffer as (slice, group); run start and, in STOPPING, the tick in the place of P;
slice of the open unit, words written since its head, whether one is a LOSS word; losses by slice; time of the last EPOCH; BUSY by
FIFO level, PLL held BUSY until, spans in which BUSY was up; counts of the present summary; fired pixels by 20-tick bin; whether
this squall's event has been raised; whether the link stands inside a unit, the words of it that have travelled, and whether one
is a FIFO_ERROR word (R190); frames going out; skipping, frames skipped; decimation phase, window's squall flag, first trigger of
the window, output frame number, chains; words to follow a frame unit; ticks of the last activity and of gating (R195); fault times, of words
and of the PLL alike (R551); tick of a retirement that waits for the PLL (R192). -/
structure Tile where
  state : TileRun
  fifo : List Slot
  next : List (Nat × List Word72)
  startAt : Time
  stopAt : Option Time
  slice : Option Nat
  words : Nat
  lossy : Bool
  lost : Sparse Lost
  epoch : Time
  full : Bool
  pllBusy : Option (Option Nat)
  spans : List (Time × Option Time)
  counts : List Nat
  refused : Nat
  bins : List (Nat × List Nat)
  squallSaid : Bool
  sending : Bool
  travelled : Nat
  travelLoss : Bool
  frames : List FrameOut
  skipping : Bool
  skipped : Nat
  phase : Nat
  windowSq : Bool
  windowStart : Time
  outNo : Nat
  chains : Sparse Chain
  after : List Word72
  lastAct : Nat
  gatedAt : Option Nat
  faults : Faults
  waitPll : Option Nat
deriving DecidableEq, Repr

/-- A tile that has done nothing. -/
def Tile.idle : Tile :=
  ⟨.idle, [], [], 0, none, none, 0, false, [], 0, false, none, [], [0, 0, 0, 0], 0, [], false, false, 0, false, [],
   false, 0, 0, false, 0, 0, [], [], 0, none, Faults.clear, none⟩

/-- A squall of this run (R198–R203): W0, X, latched policy, and the tick of its declaration. -/
structure Squall where
  w0 : Time
  x : Time
  policy : Nat
  declared : Time
deriving DecidableEq, Repr

/-- The squall detector: whether it stands in SQUALL, or did so until X was reached; the X of a squall whose SQUALL_END is still to be
written (R198); a window that waits for its declaration, with the tiles above
2 048 pixels; the squalls of this run, latest first; the end of the last window evaluated and of the last summary; starts of clusters
written of late, for R201. -/
structure Detector where
  active : Bool
  ending : Option Time
  declare : Option (Time × List Nat)
  squalls : List Squall
  lastEval : Time
  lastSummary : Time
  recent : List Time
deriving DecidableEq, Repr

/-! ### Trigger engine -/

/-- An occurrence that a term can see, latched until the step that sees it (R216, R217): its term time, and the tick
from which a step sees it. -/
structure Occurrence where
  kind : Nat
  index : Nat
  time : Time
  fine : Nat
  arrive : Time
deriving DecidableEq, Repr

/-- An OPEN execution (R225, R228): state, window set, trigger time, ordinal in the run, and what became of it. -/
structure Trigger where
  state : Nat
  win : Nat
  time : Time
  fine : Nat
  ord : Nat
  skipped : Bool
  merged : Bool
  forced : Bool
deriving DecidableEq, Repr

/-- A record (R225–R228): its place in the order of opening, SOURCE, window set, START, END when set, first trigger,
ordinal and skipped count, merges, forced flag, REASON, its triggers, its number once closed; whether each side holds an
accumulator for it (R252) and has its RECORD_BUILD item. -/
structure Rec where
  id : Nat
  source : Nat
  win : Nat
  start : Time
  stop : Option Time
  trigger : Time
  fine : Nat
  ord : Nat
  skipped : Nat
  merges : Nat
  forced : Bool
  reason : Nat
  marks : List Trigger
  number : Option Nat
  alloc : Two Bool
  asked : Two Bool
deriving DecidableEq, Repr

/-- The trigger engine and the run (R207–R234): run state, start, stop and commit pending; the state in effect and its entry; the
two entries fetched; an entry due (tick, state, trigger time, fine); timers; running counters; occurrences latched; the last step;
bus assertions delivered (line, effective time); prescale counts and skips of each window set; open and closed records; OPEN
executions of the run; next record number and next place; the START of each closed record by number; summaries under way and the
last 64, newest first; the MP pulses of each pin (beginning, end); FLUSH cuts pending and made (R275); whether the accumulators
have run out. -/
structure Trg where
  run : RunState
  startAt : Option Time
  stopAt : Option Time
  commitAt : Option Time
  seq : Nat
  entry : List Nat
  fetched : List (Nat × List Nat)
  due : Option (Time × Nat × Time × Nat)
  timers : Sparse (Option Time)
  counting : Sparse Bool
  hits : List Occurrence
  lastStep : Option Time
  bus : List (Nat × Time)
  prescale : Sparse Nat
  skips : Sparse Nat
  opened : List Rec
  closed : List Rec
  marks : List Trigger
  nextRec : Nat
  nextId : Nat
  starts : List Time
  coming : List (Time × List Nat)
  summaries : List (List Nat)
  pulses : Sparse (List (Time × Time))
  cuts : List Time
  cutsMade : List Time
  exhausted : Bool
deriving DecidableEq, Repr

/-! ### Dispatcher, engines -/

/-- A unit at a side (R241, R242): number, span, attached words before and after, own words, its ring item when it is
held in the store, whether it has been decided, whether its item has been created, and the places of its words that a scrub has found
uncorrectable (R335); the acquisition mode and SE_CTRL.DT of its run (R238). -/
structure UnitIn where
  number : BitVec 48
  u0 : Time
  u1 : Time
  pre : List Word72
  words : List Word72
  post : List Word72
  held : Option Nat
  decided : Bool
  queued : Bool
  bad : List Nat
  acq : Nat
  dt : Nat
deriving DecidableEq, Repr

/-- The work of an item (R237): a unit by number, sorted or clustered; a record; a batch of lace frames of a port; a
sampled block; a telemetry frame; the reductions of a tile. -/
inductive Work
  | sort (unit : BitVec 48)
  | cluster (unit : BitVec 48)
  | record (id : Nat)
  | merge (p : Nat) (frames : List (Nat × Frame))
  | verify (b : Block)
  | telemetry (words : List Word72)
  | reduce (t : Nat)
deriving DecidableEq, Repr

/-- A work item with its eligible time (R256, R257). -/
structure Item where
  work : Work
  since : Nat
deriving DecidableEq, Repr

/-- A stream engine: running item with the tick of its start, the pre-empted item with its own (R258), the tick until which a context is
saved or restored, the key it last ran, trap times (R265), and the lines of its instruction memory that do not read correctly (R345). -/
structure Engine where
  item : Option (Item × Nat)
  saved : Option (Item × Nat)
  busy : Nat
  key : Nat
  faults : Faults
  lines : List Nat
deriving DecidableEq, Repr

/-- An engine that has run nothing. -/
def Engine.idle : Engine := ⟨none, none, 0, 0, Faults.clear, []⟩

/-- A record accumulator (R247). -/
structure Acc where
  hits : Nat
  totSum : Nat
  totMax : Nat
  first : Option Time
  last : Option Time
deriving DecidableEq, Repr

/-- An accumulator that holds nothing. -/
def Acc.zero : Acc := ⟨0, 0, 0, none, none⟩

/-- A side's intake and dispatcher: words received of each tile and not yet closed into a unit; the highest unit number
received by tile and kind; units; the ready list with priorities, oldest first; the delay list with due times;
items that a full delay list has refused, with their due times (R259);
items that their producers hold (R260) and whether a refusal has been reported; engines; homes; accumulators by record
id; discarded items to be created again (R261); by tile, the span start below which units are discarded, and the tiles
that stand inside such a unit (R395, R398); by tile and kind the last unit released or discarded; the last dispatch cycle, in 8 ticks. -/
structure Dsp where
  intake : Sparse (List Word72)
  top : Sparse (Option Nat)
  units : List UnitIn
  ready : List (Nat × Item)
  delay : List (Nat × Item × Time)
  retry : List (Item × Time)
  held : List Item
  refused : Bool
  engines : Sparse Engine
  home : Sparse (Option Nat)
  accs : Sparse Acc
  again : List (Work × Nat)
  keepFrom : Sparse (Option Time)
  inside : List Nat
  lost : Sparse (Option Nat)
  cycle : Nat
deriving DecidableEq, Repr

/-! ### Compression -/

/-- A completed output in the assembly buffer or in overflow (R273, R284): stream, record, unit number, words, its ring
item when it overflowed, whether it holds words that followed a unit whose item was created before them (R241). -/
structure Output where
  stream : Nat
  record : Word
  unit : BitVec 48
  words : List Word72
  spill : Option Nat
  late : Bool
deriving DecidableEq, Repr

/-- A sequence (R272): stream, record, and which one: tile + 64 × group for an EVENT sequence, 0 for the event members
of a record, else the number of its one unit. -/
structure SeqKey where
  stream : Nat
  record : Word
  seq : Nat
deriving DecidableEq, Repr

/-- How far a sequence has been cut into blocks (R274): its next unit, words of it already taken, blocks it already has
words in. -/
structure Progress where
  key : SeqKey
  next : Nat
  taken : Nat
  part : Nat
deriving DecidableEq, Repr

/-- How many blocks hold words of a tile's last unit (R271, R274): stream, record, unit, and their number. -/
structure Parted where
  stream : Nat
  record : Word
  unit : BitVec 48
  count : Nat
deriving DecidableEq, Repr

/-- What waits for a compressor (R285, R288): the next block of a sequence, a block to be made again, or a recompute (R388). -/
inductive Ready
  | seq (k : SeqKey)
  | again (b : Block)
  | redo (b : Block)
deriving DecidableEq, Repr

/-- A compressor: the block it works on, whether for a recompute (R388), fault times. -/
structure Compressor where
  block : Option Block
  redo : Bool
  faults : Faults
deriving DecidableEq, Repr

/-- A compressor that has done nothing. -/
def Compressor.idle : Compressor := ⟨none, false, Faults.clear⟩

/-- A decompression job (R291–R294): mode, all input bits from its start, how many of them earlier calls were given,
output bytes already handed out, DECLARED, why it stopped (0 not stopped, 1 OUTPUT_FULL, 2 NEED_INPUT), OUT_LIMIT. -/
structure Job where
  block : Bool
  input : List Nat
  given : Nat
  written : Nat
  declared : Nat
  stopped : Nat
  limit : Nat
deriving DecidableEq, Repr

/-- No job. -/
def Job.none : Job := ⟨false, [], 0, 0, 0, 0, 0⟩

/-- A side's compression: outputs; outputs of member units that wait for their RECORD_BUILD (R253); outputs of no item that wait for room,
each with whether it is a member's (R284); sequences under way; the blocks of the last units;
what is ready, oldest first; compressors; the job; the engine whose VERIFY each decompressor serves, and the engines whose VERIFY needs
none any more (R290); the blocks whose input is kept for VERIFY stand in their items; CMP_CTRL and CMP_VERIFY as the last RUN_ARM
latched them (R297). -/
structure Cmp where
  outputs : List Output
  members : List Output
  entering : List (Bool × Output)
  progress : List Progress
  parts : List Parted
  ready : List Ready
  engines : Sparse Compressor
  job : Job
  decs : Sparse (Option Nat)
  checked : List Nat
  runCtrl : Word
  runVerify : Word
deriving DecidableEq, Repr

/-! ### Burst store -/

/-- What a ring item holds (R321): a spilled block, a held unit, an overflow output or waiting member unit, a lace
frame. -/
inductive Stored
  | block (b : Block)
  | unit (n : BitVec 48)
  | output
  | lace (f : Frame) (p : Nat)
deriving DecidableEq, Repr

/-- How a word of an item has read (R302, R339, R340): its payload, and 0 good, 1 uncorrectable, 2 poisoned before or in a retired
channel. -/
structure GotWord where
  word : Word72
  state : Nat
deriving DecidableEq, Repr

/-- A ring item: its own number, its granules in order, its words in count, whether a drain has taken it up, whether one has begun
to read it (R324), the old key that it was written under when it is marked so (R308), and what a read in progress has of it, by
the place of the granule. -/
structure RingItem where
  id : Nat
  what : Stored
  granules : List Nat
  size : Nat
  read : Bool
  begun : Bool
  old : Option (Nat × Nat)
  got : List (Nat × List GotWord)
deriving DecidableEq, Repr

/-- A ring: items, oldest first; next granule address; whether its first wait and its first overwrite have been
reported; whether its drain is halted; blocks that wait for room with the compressor that holds each. -/
structure Ring where
  items : List RingItem
  at_ : Nat
  fullSaid : Bool
  overSaid : Bool
  halted : Bool
  waiting : List Block
deriving DecidableEq, Repr

/-- A ring without items. -/
def Ring.idle : Ring := ⟨[], 0, false, false, false, []⟩

/-- A write that waits on a channel (R315): location, class, storage words, and the mask of the 72 byte fields that it writes, byte b of
word w in bit 9w + b. -/
structure Queued where
  loc : Nat
  cls : Nat
  words : List (BitVec 120)
  mask : BitVec 72
deriving DecidableEq, Repr

/-- A channel: refreshes owed, the tick of the last due time, the refresh in progress, the tick of the last ingest
write, writes that wait, oldest first, traffic of this interval in granules, consecutive intervals
imbalanced and not. -/
structure Chan where
  owed : Nat
  lastDue : Nat
  refresh : Option Nat
  lastIngest : Option Nat
  queue : List Queued
  traffic : Nat
  bad : Nat
  good : Nat
deriving DecidableEq, Repr

/-- A channel with no traffic. -/
def Chan.idle : Chan := ⟨0, 0, none, none, [], 0, 0, 0⟩

/-- A side's burst store: storage words by physical location (R306) × 8 + word; rings; channels; activate tables by
channel × 32 + bank as (row, count) in index order, with the tick of the last clearing (R313); keys; the granules of the management
controller's own areas, each with the old key that it was written under when it is marked so (R303, R308); number of the
next item; effective guarantees and shed flags of the classes (R332); the granule of the patrol's pass in progress and the beginning of
its last pass (R334); the end of the imbalance interval, and the traffic of each class in it, in granules. -/
structure Bst where
  dram : Sparse (BitVec 120)
  rings : Sparse Ring
  chans : Sparse Chan
  acts : Sparse (List (Nat × Nat))
  actsTick : Nat
  k1 : Nat
  k2 : Nat
  areas : Sparse (Option (Option (Nat × Nat)))
  nextId : Nat
  effective : List Nat
  shed : List Bool
  patrol : Option Nat
  patrolTick : Option Nat
  intervalTick : Nat
  classUse : List Nat
deriving DecidableEq, Repr

end Sys2Proof.Machine
end

