-- ==== Sys2Proof/Machine/State.lean ====
section
/-!
DEFINITION. The machine's state, as plain data, and the state after reset; the reasons a step can stop.
-/

namespace Sys2Proof.Machine

/-- One concentrator side. -/
structure SideState where
  mgt : Mgt
  evt : EvState
  lnk : Lnk
  wlt : Wlt
  lce : Lce
  dsp : Dsp
  cmp : Cmp
  bst : Bst
  tally : Sparse Nat
deriving DecidableEq, Repr

/-- The module: clocks, registers that hold bits of their own (by address), by address what the hardware has set in the present tick (the
register before the first of these sets, and what its fields would hold had they been 0; R13, R14), by address the bits that side B's
controller has written in base registers and windows in the present tick (R587), words captured for the upper halves of multiword reads (R11), the blocks of the base and front tiers, the two sides, and the host's part: the count of free values taken
(log entry 4) and the commands and events that wait. -/
structure State where
  clock : Clock
  regs : Sparse Word
  fresh : Sparse (Option (Word × Word))
  late : Sparse Word
  capture : Sparse Word
  pix : Pix
  tdc : Tdc
  frames : Frames
  tiles : Sparse Tile
  squall : Detector
  trg : Trg
  sideA : SideState
  sideB : SideState
  spi : Spi
  power : Power
  arb : Arb
  bg : Background
  lace : LaceBase
  hk : Hk
  pins : Sparse Pin
  freeCount : Nat
  pending : List Instr
deriving DecidableEq, Repr

/-- The reasons a step can fault. No command of this block ends in a fault; the type is empty of cases but for
the one the host's interface needs. -/
inductive Fault
  /-- Raised by nobody. Safe. -/
  | unused
deriving DecidableEq, Repr

/-- The reasons a step can refuse. -/
inductive Refusal
  /-- Raised by an arm of exec for a command that has no meaning yet. Safe: the step stops. -/
  | notModelled (mnemonic : String)
deriving DecidableEq, Repr

/-! ### The machine before anything has happened -/

/-- The factory Last, Last 0 (R45, R455): every pixel enabled at TRIM 16, every register at its reset value, DUPLEX. -/
def Last.factory : Last := ⟨(List.range 64).map (fun t => (t, ⟨0x41, []⟩)), [], false, Config.factoryLastDigest⟩

/-- A management controller as manufactured (R454): only slot 0 holds an image. -/
def Mgt.factory : Mgt :=
  { queue := []
    cache := []
    slots := [(0, some Last.factory)]
    pages := []
    bootSlot := 0
    stagedPatch := Image.empty
    stagedMicro := Image.empty
    patchOk := false
    microOk := false
    activePatch := Image.empty
    activeMicro := Image.empty
    meas := []
    log := []
    listWrites := ⟨0, 0⟩
    listCurrent := .a
    fwd := none
    routes := []
    dropSaid := false
    fetchFaults := Faults.clear
    scrubPos := 0
    scrubTick := 0
    telemAt := none
    lines := [] }

/-- Welt before any message. -/
def Wlt.idle : Wlt := ⟨[], [], [], [], [], [], 0, false, false, 0, false, none, 0⟩

/-- The lace before any exchange. -/
def Lce.idle : Lce := ⟨[], [], 0, 0, 0, 0, 0, false, [], 0, false, 0xF, [], 0, [], [], [], false, none, 0⟩

/-- A dispatcher with nothing in it. -/
def Dsp.idle : Dsp := ⟨[], [], [], [], [], [], [], false, [], [], [], [], [], [], [], 0⟩

/-- A burst store that holds nothing, with the guarantees of R330. -/
def Bst.idle : Bst :=
  ⟨[], [], [], [], 0, 1, 0, [], 0, [360, 120, 200, 40, 10], [false, false, false, false, false], none, none, 0, []⟩

/-- A side with management controller m in which nothing has happened (R542). -/
def SideState.fresh (m : Mgt) : SideState :=
  { mgt := m
    evt := ⟨[], [], 0, EvEntry.zero, [], none⟩
    lnk := ⟨[], [], [], false, [], [], []⟩
    wlt := Wlt.idle
    lce := Lce.idle
    dsp := Dsp.idle
    cmp := ⟨[], [], [], [], [], [], [], Job.none, [], [], 0, 0⟩
    bst := Bst.idle
    tally := [] }

/-- The pixel matrix before anything has been loaded (R45, R58). -/
def Pix.idle : Pix := ⟨[], [], [], none, [], none, [], [], none, [], 0⟩

/-- The digitizers before their first calibration. -/
def Tdc.idle : Tdc := ⟨[], [], none, [], [], 0, 0, []⟩

/-- Frame mode before any trigger. -/
def Frames.idle : Frames := ⟨none, [], false, false, 0, ⟨none, none⟩, [], none, [], [], []⟩

/-- The squall detector before any run. -/
def Detector.idle : Detector := ⟨false, none, none, [], 0, 0, []⟩

/-- The trigger engine in IDLE. -/
def Trg.idle : Trg :=
  { run := .idle
    startAt := none
    stopAt := none
    commitAt := none
    seq := 0
    entry := []
    fetched := []
    due := none
    timers := []
    counting := []
    hits := []
    lastStep := none
    bus := []
    prescale := []
    skips := []
    opened := []
    closed := []
    marks := []
    nextRec := 0
    nextId := 0
    starts := []
    coming := []
    summaries := []
    pulses := []
    cuts := []
    cutsMade := []
    exhausted := false }

/-- The arbiter before any side has booted (R392, R399): no side serves, and A holds PRIMARY. -/
def Arb.idle : Arb :=
  { svc := ⟨.out, .out⟩
    primary := .a
    twin := false
    held := ⟨false, false⟩
    losses := ⟨Faults.clear, Faults.clear⟩
    outs := ⟨Faults.clear, Faults.clear⟩
    booting := ⟨none, none⟩
    passed := ⟨false, false⟩
    returnAt := ⟨none, none⟩
    takeover := none }

/-- A module without power (R523). -/
def Power.off : Power :=
  { mode := .off
    changing := none
    vaon := false
    feed := ⟨false, false⟩
    step := 0
    stepTick := 0
    ready := false
    booted := false
    wake := []
    wakeSaid := false
    wakeTick := 0
    on := []
    since := []
    baseLock := false
    tileLock := []
    heldN := false
    heldSide := ⟨false, false⟩
    strapId := 0
    strapMaster := false }

/-- Background work of a new module (R553, R561): nothing retired, no dose, and every dosimeter just charged. -/
def Background.fresh : Background :=
  { inForce := Lists.empty
    removed := Lists.empty
    unlisted := []
    unlistedDigis := []
    unlistedAdcs := []
    nvm := ⟨Lists.empty, Lists.empty⟩
    older := ⟨Lists.empty, Lists.empty⟩
    updating := none
    again := false
    storing := false
    scrubTick := 0
    baseline := [0, 0, 0, 0]
    recharging := [true, true, true, true]
    inc := [0, 0, 0, 0]
    rest := [0, 0, 0, 0]
    tileRest := []
    doseTick := 0
    saveTick := 0 }

/-- The lace's base-tier part before anything has arrived. -/
def LaceBase.idle : LaceBase := ⟨[], [], [], none, [], 0, false, false, []⟩

/-- The machine before power is applied to a new module (R523): OFF, every register at its reset value, nothing waiting
(log entries 9 and 10). -/
def State.reset : State :=
  { clock := ⟨0, 0, 0, 0, 0, 0, 0, 0, 0, none, 0, ⟨0, 0⟩, 0, 0⟩
    regs := []
    fresh := []
    late := []
    capture := []
    pix := Pix.idle
    tdc := Tdc.idle
    frames := Frames.idle
    tiles := []
    squall := Detector.idle
    trg := Trg.idle
    sideA := SideState.fresh Mgt.factory
    sideB := SideState.fresh Mgt.factory
    spi := ⟨[], [], []⟩
    power := Power.off
    arb := Arb.idle
    bg := Background.fresh
    lace := LaceBase.idle
    hk := Hk.idle
    pins := []
    freeCount := 0
    pending := [] }

end Sys2Proof.Machine
end

