-- ==== Sys2Proof/Machine/Ops.lean ====
section
/-!
DEFINITION. The named operations over the state: sides, registers and their fields, the clocks, counters, free
values, and the fault rule.
-/

namespace Sys2Proof.Machine

/-- Side x of the module. -/
def State.side (s : State) : Side → SideState
  | .a => s.sideA
  | .b => s.sideB

/-- Side x replaced. -/
def State.setSide (s : State) (x : Side) (v : SideState) : State :=
  match x with
  | .a => { s with sideA := v }
  | .b => { s with sideB := v }

/-- Side x changed by f. -/
def State.modSide (s : State) (x : Side) (f : SideState → SideState) : State :=
  s.setSide x (f (s.side x))

/-- The trigger engine changed by f. -/
def State.modTrg (s : State) (f : Trg → Trg) : State := { s with trg := f s.trg }

/-- Side x's management controller changed by f. -/
def State.modMgt (s : State) (x : Side) (f : Mgt → Mgt) : State :=
  s.modSide x (fun d => { d with mgt := f d.mgt })

/-- Side x's events changed by f. -/
def State.modEvt (s : State) (x : Side) (f : EvState → EvState) : State :=
  s.modSide x (fun d => { d with evt := f d.evt })

/-- Side x's lanes and ports changed by f. -/
def State.modLnk (s : State) (x : Side) (f : Lnk → Lnk) : State :=
  s.modSide x (fun d => { d with lnk := f d.lnk })

/-- Side x's end of the Welt link changed by f. -/
def State.modWlt (s : State) (x : Side) (f : Wlt → Wlt) : State :=
  s.modSide x (fun d => { d with wlt := f d.wlt })

/-- f done for both sides, A first. -/
def State.both (s : State) (f : Side → State → State) : State := f .b (f .a s)

/-! ### Registers -/

/-- How far an offset reaches into the (count, stride) indices of a register: the sum of its indices. -/
def matchDims (d : Nat) : List (Nat × Nat) → Option Nat
  | [] => if d = 0 then some 0 else none
  | (c, st) :: r =>
    if d / st < c then
      match matchDims (d % st) r with
      | some n => some (n + d / st)
      | none => none
    else none

/-- The line of a register table that offset d falls on, with the sum of its indices. -/
def findReg (d : Nat) : List RegSpec → Option (RegSpec × Nat)
  | [] => none
  | r :: rest =>
    if r.off ≤ d then
      match matchDims (d - r.off) r.dims with
      | some n => some (r, n)
      | none => findReg d rest
    else findReg d rest

/-- The register at an address, alias resolved (R584, R589–R591). -/
def regAt (a : Nat) : Option (RegSpec × Nat) :=
  if a < 0x00080000 then findReg a baseRegs
  else if a < 0x00100000 then none
  else if a < 0x00500000 then findReg ((a - 0x00100000) % 0x00010000) tileRegs
  else if a < 0x01000000 then none
  else if a < 0x03000000 then findReg (a % 0x01000000) sideRegs
  else none

/-- The reset value of a register, from its fields. -/
def fieldsReset (n : Nat) : List Field → Nat
  | [] => 0
  | f :: r => ((f.reset + f.inc * n) % 2 ^ (f.hi + 1 - f.lo)) * 2 ^ f.lo + fieldsReset n r

/-- The value of the register at an address at reset; the factory values of R133 and R568 come from Config. -/
def resetWord (a : Nat) : Word :=
  if 0x50090 ≤ a ∧ a < 0x500A0 ∧ a % 4 = 0 then
    BitVec.ofNat 32 (1536 + Config.extDelay ((a - 0x50090) / 4) % 4609)
  else if 0x20C10 ≤ a ∧ a < 0x20C20 ∧ a % 4 = 0 then
    (Config.doseK ((a - 0x20C10) / 4)).setWidth 32
  else
    match regAt a with
    | some (r, n) => BitVec.ofNat 32 (fieldsReset n r.fields)
    | none => 0

/-- The stored word of the register at an address. -/
def State.rd (s : State) (a : Nat) : Word := Sparse.get s.regs a (resetWord a)

/-- The register at an address set to w. -/
def State.wr (s : State) (a : Nat) (w : Word) : State :=
  { s with regs := Sparse.set s.regs a w (resetWord a) }

/-- Bits [hi:lo] of the register at an address. -/
def State.rf (s : State) (a hi lo : Nat) : Nat := bits (s.rd a).toNat hi lo

/-- Bit i of the register at an address. -/
def State.rb (s : State) (a i : Nat) : Bool := bit (s.rd a).toNat i

/-- Bits [hi:lo] of the register at an address set to v. -/
def State.wf (s : State) (a hi lo v : Nat) : State :=
  s.wr a (BitVec.ofNat 32 (setBits (s.rd a).toNat hi lo v))

/-- What the hardware has set in the register at an address in the present tick: the register before the first set, and what its fields
would hold had they been 0 then (R13, R14). -/
def State.setNow (s : State) (a : Nat) : Option (Word × Word) := Sparse.get s.fresh a none

/-- A set of bits [hi:lo] of the register at an address noted: f gives what they hold after it from what they held (R13, R14). -/
def State.noteSet (s : State) (a hi lo : Nat) (f : Nat → Nat) : State :=
  let e := (s.setNow a).getD (s.rd a, 0)
  { s with fresh := Sparse.ins s.fresh a (some (e.1, BitVec.ofNat 32 (setBits e.2.toNat hi lo (f (bits e.2.toNat hi lo))))) }

/-- Bit i of the register at an address set by the hardware. -/
def State.raiseBit (s : State) (a i : Nat) : State := (s.noteSet a i i (fun _ => 1)).wf a i i 1

/-- A saturating counter in bits [hi:lo] raised by n. -/
def State.bump (s : State) (a hi lo n : Nat) : State :=
  (s.noteSet a hi lo (fun v => min (v + n) (2 ^ (hi + 1 - lo) - 1))).wf a hi lo (min (s.rf a hi lo + n) (2 ^ (hi + 1 - lo) - 1))

/-- A counter in bits [hi:lo] that wraps, raised by n. -/
def State.count (s : State) (a hi lo n : Nat) : State := s.wf a hi lo (s.rf a hi lo + n)

/-- A high-water mark in bits [hi:lo] raised to v. -/
def State.high (s : State) (a hi lo v : Nat) : State :=
  let s1 := s.noteSet a hi lo (max v)
  if s.rf a hi lo < v then s1.wf a hi lo v else s1

/-- A 64-bit quantity in two registers, low word first (R11). -/
def State.rd64 (s : State) (a b : Nat) : Time := (s.rd b) ++ (s.rd a)

/-- A 64-bit quantity written to two registers, low word first (R11). -/
def State.wr64 (s : State) (a b : Nat) (v : Time) : State :=
  (s.wr a (v.setWidth 32)).wr b ((v >>> 32).setWidth 32)

/-- The bits of a field. -/
def Field.mask (f : Field) : Nat := (2 ^ (f.hi + 1 - f.lo) - 1) * 2 ^ f.lo

/-- The bits of the register at an address whose fields satisfy a condition. -/
def fieldBits (p : Field → Bool) (a : Nat) : Word :=
  match regAt a with
  | some (r, _) => r.fields.foldl (fun m f => if p f then m ||| BitVec.ofNat 32 f.mask else m) 0
  | none => 0

/-- The bits of a register's RW fields (R12). -/
def rwBits (a : Nat) : Word := fieldBits (fun f => f.ty = .rw) a

/-- Some bits of a word replaced by those of another. -/
def mixBits (old mask new : Word) : Word := (old &&& ~~~mask) ||| (new &&& mask)

/-! ### Clocks, free values, counters -/

/-- Whether the base tier is powered and its time-stamp clock runs (R537, R543). -/
def State.clockRuns (s : State) : Bool := s.power.mode = .active || s.power.mode = .standby

/-- What a slew has made ready after dt more ticks, in FU · 3 000 000: its rate is a number of FU in an exchange interval (R413,
R416, R417). -/
def Clock.slewed (c : Clock) (dt : Nat) : Nat := c.slewRest + dt * c.slewRate

/-- The slew that dt ticks make, at most what is still to be made (R413, R417). -/
def slewMove (dt : Nat) (c : Clock) : Int :=
  clampI (-((c.slewed dt / 3000000 : Nat) : Int)) ((c.slewed dt / 3000000 : Nat) : Int) c.slew

/-! ### Tiles that take part, and drift tracking -/

/-- The entries of a kind of retirement that stand in the retirement lists: those in force that no REMOVE has taken out (R468, R557). -/
def State.entries (s : State) (f : Lists → List Nat) : List Nat :=
  (f s.bg.inForce).filter (fun i => !(f s.bg.removed).contains i)

/-- Whether a tile is retired. -/
def State.tileRetired (s : State) (t : Nat) : Bool := s.bg.inForce.tiles.contains t

/-- Whether a tile is enabled for acquisition: TIL_CTRL.EN, held at 0 on a retired tile (R192). -/
def State.tileOn (s : State) (t : Nat) : Bool := s.rb (Reg.TIL_CTRL t) 0 && !s.tileRetired t

/-- Whether a tile takes no part in a run: EN = 0, or retired with its closing complete (R171, R192). -/
def State.tileOut (s : State) (t : Nat) : Bool :=
  if s.tileRetired t then (Sparse.get s.tiles t Tile.idle).state = .idle else !s.rb (Reg.TIL_CTRL t) 0

/-- Whether a tile is idle for drift tracking (R80, R171). -/
def driftIdle (s : State) (t : Nat) : Bool := s.trg.run = .idle || s.tileOut t

/-- Whether drift tracking runs (R81). -/
def driftRuns (s : State) : Bool :=
  s.power.mode = .active && s.rb Reg.PIX_DRIFT_CTRL 0 && s.pix.apply.isNone && s.pix.scan.isNone

/-- The tile that drift tracking measures: the one it has begun while that is idle, else the next idle one in tile order (R81, R83). -/
def nextDrift (s : State) : Option Nat :=
  match s.clock.drift with
  | some (t, _) => if driftIdle s t then some t else ((List.range 64).map (fun i => (s.pix.driftTile + i) % 64)).find? (driftIdle s)
  | none => ((List.range 64).map (fun i => (s.pix.driftTile + i) % 64)).find? (driftIdle s)

/-- The measurement of drift tracking after dt ticks more (R81); one whose tile has stopped being idle is abandoned (R83). -/
def driftAfter (s : State) (dt : Nat) : Option (Nat × Nat) :=
  if !driftRuns s then none
  else match nextDrift s with
    | some t => some (t, match s.clock.drift with
      | some (k, n) => if k = t then n + dt else dt
      | none => dt)
    | none => none

/-- Whether the configuration scrubber runs: it stands at its present pixel while PAUSE = 1, and while a CONFIG_APPLY is in progress
(R60, R63, R87). -/
def scrubRuns (s : State) : Bool :=
  s.power.mode = .active && !s.rb Reg.PIX_SCRUB_CTRL 0 && s.pix.apply.isNone

/-- Whether side x's management controller serves: it has booted and stands IN_SERVICE or in RESYNC
(R442, R474, R537). -/
def State.live (s : State) (x : Side) : Bool :=
  s.power.booted && (s.arb.svc.get x = .inService || s.arb.svc.get x = .resync)

/-- Whether the base tier's SRAM scrubber runs: it stands at its present word while PAUSE = 1 (R525, R559, R568). -/
def sramRuns (s : State) : Bool := s.clockRuns && !s.rb Reg.TIL_SRAM_SCRUB 16

/-- Whether a side's SRAM scrubber runs (R559, R568). -/
def sideSramRuns (s : State) (x : Side) : Bool := s.live x && !s.rb (Reg.MGT_SRAM_SCRUB x) 16

/-- The ticks for which a side's SRAM scrubber has run, dt ticks later. -/
def sideSramAfter (s : State) (dt : Nat) (x : Side) : Nat :=
  if sideSramRuns s x then s.clock.sramSide.get x + dt else s.clock.sramSide.get x

/-- The passing of dt ticks: array time counts, with any slew, while the base tier is powered (R417, R528, R532,
R543), the scrubbers go on (R60, R559), and drift tracking measures (R81). -/
def State.elapse (s : State) (dt : Nat) : State :=
  let m := slewMove dt s.clock
  let fu : Int := (s.clock.fine : Int) + ((dt * 1024 : Nat) : Int) + m
  { s with
    fresh := if dt = 0 then s.fresh else []
    late := if dt = 0 then s.late else []
    clock :=
      if s.clockRuns then
        { s.clock with
          ticks := s.clock.ticks + dt
          now := s.clock.now + BitVec.ofInt 64 (fu / 1024)
          fine := (fu % 1024).toNat
          slew := s.clock.slew - m
          slewRest := if s.clock.slew = 0 then s.clock.slewRest else s.clock.slewed dt % 3000000
          scrub := if scrubRuns s then s.clock.scrub + dt else s.clock.scrub
          drift := driftAfter s dt
          sram := if sramRuns s then s.clock.sram + dt else s.clock.sram
          sramSide := ⟨sideSramAfter s dt .a, sideSramAfter s dt .b⟩ }
      else { s.clock with ticks := s.clock.ticks + dt, drift := driftAfter s dt } }

/-- Array time (R4). -/
def State.now (s : State) : Time := s.clock.now

/-- The length of a slice in ticks (R6). -/
def State.sliceTicks (s : State) : Nat := 2 ^ s.rf Reg.TIL_SLICE 4 0

/-- The tick of the last slice boundary: of the present array time, else of that before it was set or stepped (R6, R195). -/
def lastBoundary (s : State) : Nat :=
  let d := s.now.toNat % s.sliceTicks
  if s.clock.setTick + d ≤ s.clock.ticks then s.clock.ticks - d else s.clock.boundary

/-- Array time about to be set or stepped: the last slice boundary of the old one is kept (R195). -/
def Clock.leap (s : State) : Clock := { s.clock with setTick := s.clock.ticks, boundary := lastBoundary s, slew := 0 }

/-- A free value: the next word that nothing constrains (log entry 4). -/
def State.free (s : State) : BitVec 64 := Config.freeWord s.freeCount

/-- The free value taken. -/
def State.took (s : State) : State := { s with freeCount := s.freeCount + 1 }

/-- Seconds since the last module reset (R450). -/
def State.uptime (s : State) : Nat := (s.clock.ticks - s.clock.bootTick) / 3000000000

/-- Whether side x is IN_SERVICE (R392). -/
def State.serving (s : State) (x : Side) : Bool := s.power.booted && s.arb.svc.get x = .inService

/-- Whether both sides serve, so that tile words, commits and commands act on both (R183, R382). -/
def State.duplexed (s : State) : Bool := s.serving .a && s.serving .b

/-- A cumulative counter of side x raised by n (R493). -/
def State.tally (s : State) (x : Side) (c : Tally) (n : Nat) : State :=
  s.modSide x (fun d => { d with tally := Sparse.upd d.tally c.ctorIdx 0 (· + n) })

/-- A cumulative counter of every side that serves raised by n (R493). -/
def State.tallyAll (s : State) (c : Tally) (n : Nat) : State :=
  s.both (fun x t => if t.live x then t.tally x c n else t)

/-! ### The run in progress -/

/-- S of the present run, as the holder of PRIMARY has it. -/
def State.runStart (s : State) : Time := s.rd64 (Reg.TRG_RUN_START s.arb.primary) (Reg.TRG_RUN_START_4 s.arb.primary)

/-- Whether a tick lies before P (R207). -/
def beforeStop (s : State) (c : Time) : Bool :=
  match s.trg.stopAt with
  | some p => !reached c p
  | none => true

/-- The earlier of two times. -/
def earlier (a b : Time) : Time := if reached a b then b else a

/-! ### Faults -/

/-- 600 s in ticks (R548). -/
def window600 : Nat := 1800000000000

/-- Whether a fault now is the resource's third within 600 s (R548); two in one tick count as one (R549). -/
def Faults.third (f : Faults) (now : Time) : Bool :=
  match f.older, f.newer with
  | some o, some n => n ≠ now && since now o < window600
  | _, _ => false

/-- The stored times after a fault now that is an upset (R548). -/
def Faults.push (f : Faults) (now : Time) : Faults :=
  match f.newer with
  | none => ⟨none, some now⟩
  | some n => if n = now then f else ⟨some n, some now⟩

/-- How many stored times are younger than 600 s (R550). -/
def Faults.count (f : Faults) (now : Time) : Nat :=
  (match f.older with | some t => b2n (since now t < window600) | none => 0) +
  (match f.newer with | some t => b2n (since now t < window600) | none => 0)

/-! ### Updates of the retirement lists (R460, R554, R564) -/

/-- Whether a supply monitor shows a VIN feed outside 10.8–13.2 V (R456, R460, R497). -/
def vinOutside (s : State) : Bool :=
  [36, 37].any (fun c =>
    let v := signed 24 (s.rd (Reg.HK_RESULT c)).toNat
    decide (v < 5529600) || decide (6758400 < v))

/-- The entries of one rising list that are not in another. -/
def lessNats (a b : List Nat) : List Nat := a.filter (fun i => !b.contains i)

/-- Two rising lists of numbers as one. -/
def mergeNats (a b : List Nat) : List Nat := b.foldl (fun l i => insertNat i l) a

/-- The lists of one state made, kind by kind, from those of two; the dose totals are the first's. -/
def Lists.combine (f : List Nat → List Nat → List Nat) (l k : Lists) : Lists :=
  { l with
    pixels := f l.pixels k.pixels
    digitizers := f l.digitizers k.digitizers
    adcs := f l.adcs k.adcs
    tiles := f l.tiles k.tiles
    lanes := f l.lanes k.lanes
    rows := f l.rows k.rows
    channels := f l.channels k.channels
    engines := f l.engines k.engines
    compressors := f l.compressors k.compressors
    sides := f l.sides k.sides }

/-- The dose of dosimeter d, in 0.1 Gy. -/
def detDose (s : State) (d : Nat) : Nat := (s.rd (Reg.HK_DOSE_DET d)).toNat

/-- The dose of tile t, in 0.1 Gy. -/
def tileDose (s : State) (t : Nat) : Nat := (s.rd (Reg.HK_DOSE t)).toNat

/-- The present state of all lists, with the dose totals (R554, R564), numbered as the next update (log entry 158). -/
def presentLists (s : State) : Lists :=
  { s.bg.inForce.combine lessNats s.bg.removed with
    doseDet := (List.range 4).map (detDose s)
    doseTile := (List.range 64).map (tileDose s)
    doseBase := s.bg.baseline
    number := max s.bg.nvm.a.number s.bg.nvm.b.number + 1 }

/-- A list update that waits begins, with the lists as they now stand, when none is in progress and VIN lies inside its limits (R460, R554;
log entry 159). -/
def beginUpdate (s : State) : State :=
  if s.bg.again && s.bg.updating.isNone && !vinOutside s then
    { s with bg := { s.bg with
      updating := some (presentLists s)
      again := false } }
  else s

/-- A list update asked for (R460, R554). -/
def wantUpdate (s : State) : State := beginUpdate { s with bg := { s.bg with again := true } }

end Sys2Proof.Machine
end

