-- ==== Sys2Proof/Machine/Flags.lean ====
section
/-!
DEFINITION. Events (chapter "Events and telemetry"): raising an event, the per-source records, the event queue
and what a full one does, the first failure, the acknowledgement order and the ALERT pins.
-/

namespace Sys2Proof.Machine

/-- The severities (R473). -/
def sevInfo : Nat := 0
/-- NOTICE (R473). -/
def sevNotice : Nat := 1
/-- FAULT (R473). -/
def sevFault : Nat := 2
/-- CRITICAL (R473). -/
def sevCritical : Nat := 3

/-- Whether SEQ a is later than SEQ b: a difference modulo 2^32 of 1 to 2^31 - 1 (R484). -/
def seqLater (a b : Word) : Bool := 1 ≤ (a - b).toNat && (a - b).toNat < 2 ^ 31

/-- The per-source record after a raise at time t (R475). -/
def SrcRec.raise (r : SrcRec) (t : Time) : SrcRec :=
  ⟨min (r.count + 1) 65535, if r.count = 0 then t else r.first, t⟩

/-- Whether an entry can take a raise of this source, severity and instance (R477). -/
def EvEntry.takes (e : EvEntry) (src sev inst : Nat) : Bool :=
  e.src = src && e.sev = sev && e.inst = inst && !e.begun && !e.acked

/-- The queue with the raise coalesced into the first entry that takes it, and that entry's SEQ (R477). -/
def coalesce (q : List EvEntry) (src sev inst : Nat) (t : Time) : Option (List EvEntry × Word) :=
  match q with
  | [] => none
  | e :: r =>
    if e.takes src sev inst then
      some ({ e with count := min (e.count + 1) 65535, last := t } :: r, e.seq)
    else
      match coalesce r src sev inst t with
      | some (r', w) => some (e :: r', w)
      | none => none

/-- The lowest severity among the entries not being sent; 4 when every entry is being sent (R479). -/
def lowestSev (q : List EvEntry) : Nat :=
  q.foldl (fun m e => if e.sending = [] then min m e.sev else m) 4

/-- The queue without its oldest entry of a severity not being sent (R479). -/
def dropOldest (sev : Nat) (q : List EvEntry) : List EvEntry :=
  match q with
  | [] => []
  | e :: r => if e.sending = [] && e.sev = sev then r else e :: dropOldest sev r

/-- A new entry at the tail of the queue, with the next SEQ (R477). -/
def EvCore.put (e : EvEntry) (q : List EvEntry) (c : EvCore) : EvCore :=
  { c with
    queue := q ++ [{ e with seq := c.next }]
    next := c.next + 1 }

/-- One more entry of a severity lost (R479). -/
def EvCore.lose (sev : Nat) (c : EvCore) : EvCore := { c with lost := c.lost.set sev (nth c.lost sev + 1) }

/-- A raise taken to the queue: coalesced, put in, put in in place of a displaced entry, or discarded. With it, the SEQ of its entry, when
it has one (R477, R479). -/
def EvCore.enter (e : EvEntry) (c : EvCore) : EvCore × Option Word :=
  match coalesce c.queue e.src e.sev e.inst e.first with
  | some (q, w) => ({ c with queue := q }, some w)
  | none =>
    if c.queue.length < 512 then (c.put e c.queue, some c.next)
    else
      let low := lowestSev c.queue
      if low = 4 || e.sev < low then (c.lose e.sev, none)
      else ((c.put e (dropOldest low c.queue)).lose low, some c.next)

/-- EVT_FF and EVT_FF_STATUS after a CRITICAL raise; the SEQ of the entry it stands in, if any (R486). -/
def EvCore.critical (e : EvEntry) (seq : Option Word) (c : EvCore) : EvCore :=
  if c.valid then { c with later := min (c.later + 1) 65535 }
  else { c with
    ff := { e with seq := seq.getD 0 }
    valid := true
    queued := seq.isSome }

/-- A raise taken (R477–R479, R486). -/
def EvCore.raise (c : EvCore) (e : EvEntry) : EvCore :=
  let r := c.enter e
  if e.sev = sevCritical then r.1.critical e r.2 else r.1

/-- A raise put among those of its tick, in increasing source number, behind the earlier ones of its own source (R478). -/
def placeRaise (e : EvEntry) (l : List EvEntry) : List EvEntry :=
  match l with
  | [] => [e]
  | f :: r => if f.src ≤ e.src then f :: placeRaise e r else e :: f :: r

/-- What side x's raises act on, as it stands. -/
def evCore (x : Side) (s : State) : EvCore :=
  let v := (s.side x).evt
  ⟨v.queue, v.next, v.ff, s.rb (Reg.EVT_FF_STATUS x) 31, s.rb (Reg.EVT_FF_STATUS x) 30, s.rf (Reg.EVT_FF_STATUS x) 15 0, [0, 0, 0, 0]⟩

/-- The raises that side x has had in the present tick, and what they found (R478). -/
def evRound (x : Side) (s : State) : EvRound :=
  match (s.side x).evt.round with
  | some r => if r.tick = s.clock.ticks then r else ⟨s.clock.ticks, evCore x s, [], [0, 0, 0, 0]⟩
  | none => ⟨s.clock.ticks, evCore x s, [], [0, 0, 0, 0]⟩

/-- EVT_LOST and the telemetry count of a severity, of whose entries the raises of the tick have now lost new, of which old were counted
before (R479, R493). -/
def evLost (x : Side) (sev old new : Nat) (s : State) : State :=
  let a := if sev < 2 then Reg.EVT_LOST x else Reg.EVT_LOST_4 x
  let lo := 16 * (sev % 2)
  let f (v : Nat) : Nat := min (v + new - old) 65535
  let c : Tally := match sev with
    | 0 => .lostInfo
    | 1 => .lostNotice
    | 2 => .lostFault
    | _ => .lostCritical
  if new = old then s
  else
    ((s.noteSet a (lo + 15) lo f).wf a (lo + 15) lo (f (s.rf a (lo + 15) lo))).modSide x (fun d => { d with
      tally := Sparse.upd d.tally c.ctorIdx 0 (· + new - old) })

/-- EVT_EN: whether a source is enabled on side x (R476). -/
def evEnabled (x : Side) (src : Nat) (s : State) : Bool := s.rb (Reg.EVT_EN x (src / 32)) (src % 32)

/-- Whether an entry is done on a port: it has been sent there, or the port makes no claim (R483). -/
def portDone (x : Side) (s : State) (e : EvEntry) (p : Nat) : Bool :=
  let sub := s.rd (Reg.EVT_SUB x p)
  let port := Sparse.get (s.side x).lnk.ports p Port.idle
  !bit sub.toNat 2 || decide (e.sev < bits sub.toNat 1 0) || e.sent.contains p
  || decide (port.state = .disabled) || decide (port.state = .failed)
  || decide (s.rf (Reg.LNK_PORT_CTRL x p) 2 0 ≠ 1)

/-- Whether a port that makes a claim admits the entry, or has carried it (R483). -/
def portAdmits (x : Side) (s : State) (e : EvEntry) (p : Nat) : Bool :=
  let sub := s.rd (Reg.EVT_SUB x p)
  bit sub.toNat 2 && decide (bits sub.toNat 1 0 ≤ e.sev)

/-- Whether an entry leaves the queue: done on every port that admits it, and INFO or NOTICE or acknowledged; an
INFO or NOTICE entry that no port admits waits for its acknowledgement (R483). -/
def evLeaves (x : Side) (s : State) (e : EvEntry) : Bool :=
  let ps := List.range 16
  e.sending = [] && ps.all (portDone x s e) &&
    (if e.sev ≤ 1 then e.acked || ps.any (portAdmits x s e) else e.acked)

/-- Side x's events after the raises of a round: they are taken in increasing source number, whichever row has brought them, and the
entries that may leave at once do (R477–R479, R483, R486). -/
def evTake (x : Side) (r : EvRound) (s : State) : State :=
  let c := r.raises.foldl EvCore.raise r.base
  let s1 := s.modEvt x (fun v => { v with
    queue := c.queue.filter (fun e => !evLeaves x s e)
    next := c.next
    ff := c.ff
    round := some { r with lost := c.lost } })
  let s2 := ((s1.wf (Reg.EVT_FF_STATUS x) 31 31 (b2n c.valid)).wf (Reg.EVT_FF_STATUS x) 30 30 (b2n c.queued)).wf (Reg.EVT_FF_STATUS x) 15 0 c.later
  (List.range 4).foldl (fun t k => evLost x k (nth r.lost k) (nth c.lost k) t) s2

/-- An action on side x's events that comes before the raises of its tick: EVENT_ACK, FIRST_FAILURE_CLEAR or a flush (R478). -/
def evBefore (x : Side) (f : EvCore → EvCore) (s : State) : State :=
  let r := evRound x s
  evTake x { r with base := f r.base } s

/-- Entries of side x changed, in the queue and in what the raises of the tick found. -/
def evMark (x : Side) (f : EvEntry → EvEntry) (s : State) : State :=
  s.modEvt x (fun v => { v with
    queue := v.queue.map f
    round := v.round.map (fun r => { r with base := { r.base with queue := r.base.queue.map f } }) })

/-- A raise that reaches side x (R475–R479, R486). -/
def raiseAt (x : Side) (src sev inst : Nat) (s : State) : State :=
  let t := s.now
  let s1 := s.modEvt x (fun v => { v with recs := Sparse.upd v.recs src SrcRec.zero (·.raise t) })
  if !evEnabled x src s && sev ≠ sevCritical then s1
  else
    let r := evRound x s1
    evTake x { r with raises := placeRaise ⟨src, sev, false, 1, 0, t, t, inst, false, [], []⟩ r.raises } s1

/-- A side source: its number on side x, given the number on side A (R470). -/
def srcOn (x : Side) (n : Nat) : Nat := n + 240 * sideNum x

/-- Whether side x's own event logic runs: the side serves, or it has booted and waits OUT_OF_SERVICE (R392, R474, R485). -/
def State.logsEvents (s : State) (x : Side) : Bool := s.live x || s.arb.passed.get x

/-- A raise of a source of side x, named by its side A number (R470, R474). -/
def raiseSide (x : Side) (n sev inst : Nat) (s : State) : State :=
  if s.logsEvents x then raiseAt x (srcOn x n) sev inst s else s

/-- A raise of a base-tier or tile source: it reaches every side IN_SERVICE or in RESYNC (R474). -/
def raiseBase (n sev inst : Nat) (s : State) : State :=
  s.both (fun x t => if t.live x then raiseAt x n sev inst t else t)

/-- A raise of tile t's event k (R470, R471). -/
def raiseTile (t k sev inst : Nat) (s : State) : State := raiseBase (t * 8 + k) sev inst s

/-- The INSTANCE of a raise that names none (R480). -/
def noInst : Nat := 0xFFFF

/-- Whether side x's ALERT pin is asserted (R485). -/
def State.alert (s : State) (x : Side) : Bool :=
  s.logsEvents x && (s.side x).evt.queue.any (fun e => decide (2 ≤ e.sev) && seqLater e.seq (s.rd (Reg.EVT_ACKED x)))

/-- Side x's queue without the entries that leave it (R483). -/
def evSettle (x : Side) (s : State) : State :=
  s.modEvt x (fun v => { v with queue := v.queue.filter (fun e => !evLeaves x s e) })

/-- A control-class queue whose pointers disagree is emptied, with the count of EVT_QERR and an event (R489). -/
def queueError (x : Side) (n : Nat) (s : State) : State :=
  raiseSide x n sevFault noInst (s.bump (Reg.EVT_QERR x) 15 0 1)

end Sys2Proof.Machine
end

