-- ==== Sys2Proof/Machine/Operands.lean ====
section
/-!
DEFINITION. The operand forms of a command: its packet (R436–R438), the receiving side and the privilege of its
transport, the checks of R444 in their order, the reply and the replay cache (R445).
-/

namespace Sys2Proof.Machine

/-- The status codes of R451. -/
inductive Status
  | ok | accepted | replay | badOpcode | badParam | badLength | noAccess | busy | notReady | wrongState
  | budgetExceeded | late | sideDown | peerTimeout | storeFailed | nvmWorn | outputFull
  | illegalCode | distanceBeyondHistory | lengthOverrun | checkMismatch
deriving DecidableEq, Repr

/-- The code of a status (R451). -/
def Status.code : Status → Nat
  | .ok => 0x00
  | .accepted => 0x01
  | .replay => 0x02
  | .badOpcode => 0x10
  | .badParam => 0x11
  | .badLength => 0x12
  | .noAccess => 0x20
  | .busy => 0x30
  | .notReady => 0x31
  | .wrongState => 0x32
  | .budgetExceeded => 0x40
  | .late => 0x41
  | .sideDown => 0x50
  | .peerTimeout => 0x51
  | .storeFailed => 0x60
  | .nvmWorn => 0x61
  | .outputFull => 0x70
  | .illegalCode => 0x71
  | .distanceBeyondHistory => 0x72
  | .lengthOverrun => 0x73
  | .checkMismatch => 0x74

/-- The PAD word: control subtype 0x3F, payload 0 (R370). -/
def padWord : Word72 := BitVec.ofNat 72 (0xFF * 2 ^ 64)

/-- The IDLE word of an empty queue (R491). -/
def idleWord : Word72 := BitVec.ofNat 72 (0xC0 * 2 ^ 64)

/-- Words filled up with PAD words to a whole number of word groups (R370). -/
def padGroup (l : List Word72) : List Word72 := l ++ List.replicate ((8 - l.length % 8) % 8) padWord

/-- The word groups of a run of words. -/
def groups (l : List Word72) : Nat := (l.length + 7) / 8

/-- A 32-bit value as a packet word (R437). -/
def paramWord (w : Word) : Word72 := w.setWidth 72

/-- A 64-bit value as a packet word. -/
def wideWord (w : BitVec 64) : Word72 := w.setWidth 72

/-- The words of a packet followed by its CRC word (R438). -/
def withCrc (l : List Word72) : List Word72 := l ++ [BitVec.ofNat 72 (crc32 (wordsBytes l))]

/-- The words of a reply packet, CRC word included (R439). -/
def Reply.packet (r : Reply) : List Word72 :=
  withCrc (BitVec.ofNat 72 (r.op * 2 ^ 64 + r.tag.toNat * 2 ^ 56 + r.words.length * 2 ^ 48
    + r.mid * 2 ^ 40 + r.status * 2 ^ 32 + r.r1.toNat) :: r.words)

/-- The port p of side x. -/
def State.port (s : State) (x : Side) (p : Nat) : Port := Sparse.get (s.side x).lnk.ports p Port.idle

/-- The MODULE_ID of the module in use on side x: one that a write has changed comes into use with the next timing exchange
(R407, log entry 121). -/
def State.moduleId (s : State) (x : Side) : Nat := ((s.side x).lce.idHeld).getD (s.rf (Reg.LCE_MODULE_ID x) 7 0)

/-- Port p of side x changed by f. -/
def State.modPort (s : State) (x : Side) (p : Nat) (f : Port → Port) : State :=
  s.modLnk x (fun l => { l with ports := Sparse.upd l.ports p Port.idle f })

/-- Lane l of port p of side x. -/
def State.lane (s : State) (x : Side) (p l : Nat) : Lane := Sparse.get (s.side x).lnk.lanes (8 * p + l) Lane.idle

/-- Lane l of port p of side x changed by f. -/
def State.modLane (s : State) (x : Side) (p l : Nat) (f : Lane → Lane) : State :=
  s.modLnk x (fun k => { k with lanes := Sparse.upd k.lanes (8 * p + l) Lane.idle f })

/-- The next SEQ of a frame type of side x (R364). -/
def State.frameSeq (s : State) (x : Side) (type : Nat) : Nat := Sparse.get (s.side x).lnk.seqs type 0

/-- The SEQ of a frame type taken (R364). -/
def State.tookSeq (s : State) (x : Side) (type : Nat) : State :=
  s.modLnk x (fun l => { l with seqs := Sparse.upd l.seqs type 0 (· + 1) })

/-- A frame of a type other than DATA, with the module's own ORIGIN (R363, R364). -/
def plainFrame (s : State) (x : Side) (type stream seq : Nat) (words : List Word72) : Frame :=
  ⟨type, stream, seq, padGroup words, s.moduleId x, 0, true, sideNum x, 3⟩

/-- A frame set to wait on a port. -/
def State.queueFrame (s : State) (x : Side) (p : Nat) (f : Frame) : State :=
  s.modPort x p (fun q => { q with waiting := q.waiting ++ [f] })

/-- The side that receives a command: that of its port, or the holder of PRIMARY (R442, R585). -/
def receiver (s : State) (c : Ctx) : Side :=
  match c.via with
  | .spi => s.arb.primary
  | .port x _ => x
  | .inner => s.arb.primary

/-- The side that a command's SIDE field names (R436, R585); code 11 is reserved. -/
def namedSide (s : State) (c : Ctx) : Side :=
  if c.sel = 1 then .a else if c.sel = 2 then .b else receiver s c

/-- Whether a transport is privileged (R427, R452). -/
def privileged (s : State) : Via → Bool
  | .spi => true
  | .inner => true
  | .port x p => s.rb (Reg.MGT_PRIV_PORTS x) p.val

/-- Whether a command came in on the LACE_UP port (R444). -/
def fromParent (s : State) : Via → Bool
  | .port x p => s.rf (Reg.LNK_PORT_CTRL x p.val) 2 0 = 2
  | _ => false

/-- A reply put on its way on the transport of its command (R440, R442), or discarded and counted. The inner
packet of an ARRAY_BROADCAST has none: its opcode and status stand in LCE_BCAST (R427). -/
def deliver (x : Side) (via : Via) (r : Reply) (s : State) : State :=
  match via with
  | .inner =>
    let put := fun (y : Side) (t : State) => (t.wf (Reg.LCE_BCAST y) 15 8 r.op).wf (Reg.LCE_BCAST y) 7 0 r.status
    if s.live (peerOf x) then put x (put (peerOf x) s) else put x s
  | .spi =>
    if s.spi.replies.length < 4 then { s with spi := { s.spi with replies := s.spi.replies ++ [(x, r)] } }
    else s.bump (Reg.MGT_CMD_STATUS x) 15 8 1
  | .port y p =>
    if (s.port y p.val).state = .up then
      (s.queueFrame y p.val (plainFrame s y 2 5 (s.frameSeq y 2) r.packet)).tookSeq y 2
    else s.bump (Reg.MGT_CMD_STATUS y) 15 8 1

/-- The cache entries that are younger than 1 s and carry another tag or transport (R445). -/
def cacheDrop (now : Nat) (via : Via) (tag : BitVec 8) (l : List Cached) : List Cached :=
  l.filter (fun e => decide (now < e.formed + 3000000000) && !(e.via = via && e.tag = tag))

/-- The commands that are executing and have not replied yet (R443, R445). -/
def State.waitingCmds (s : State) : List Waiting :=
  (s.pix.apply.bind (·.wait)).toList ++ s.pix.held.map (·.wait) ++ s.power.changing.toList ++ s.lace.timeSet.map (·.2)
  ++ s.sideA.mgt.fwd.toList ++ s.sideB.mgt.fwd.toList

/-- Whether a command that ends with a status was executed: every refusal is one of the others, and a STORE_FAILED, an NVM_WORN
and the codes of a decompression follow its execution (R451, R469). -/
def executedStatus (st : Nat) : Bool := decide (st < 0x10) || decide (0x60 ≤ st)

/-- A reply formed: cached for its transport and tag (R445), its command counted when it was executed (R469), and delivered; a
module that accepts a copy sent down the lace sends none (R429). -/
def formReply (x : Side) (c : Ctx) (r : Reply) (s : State) : State :=
  let e : Cached := ⟨c.via, c.tag, c.crc, r, s.clock.ticks⟩
  let s1 : State :=
    match c.via with
    | .spi => { s with spi := { s.spi with cache := cacheDrop s.clock.ticks c.via c.tag s.spi.cache ++ [e] } }
    | .port y _ => s.modMgt y (fun m => { m with cache := cacheDrop s.clock.ticks c.via c.tag m.cache ++ [e] })
    | .inner => s
  let s2 := if executedStatus r.status then (s1.count (Reg.MGT_CMD_COUNT x) 31 0 1).tally x .commands 1 else s1
  if c.bcast && r.status < 0x10 && r.op ≠ 0x71 then s2 else deliver x c.via r s2

/-- What executing a command gives: the state, the status, R1 and the reply words; or a state whose reply is
still to come. -/
inductive Res
  | done (s : State) (st : Status) (r1 : Word) (words : List Word72)
  | later (s : State)

/-- A refusal: nothing changes (R444). -/
def refuse (s : State) (st : Status) : Res := .done s st 0 []

/-- OK with nothing more to say. -/
def okRes (s : State) : Res := .done s .ok 0 []

/-- The packet of the command that executes leaves the front of its queue (R443). -/
def dequeue (x : Side) (c : Ctx) (s : State) : State :=
  s.modMgt x (fun m =>
    match m.queue with
    | [] => m
    | p :: r =>
      if p.via = c.via ∧ p.crc = c.crc ∧ (p.words.head?.getD 0).extractLsb' 56 8 = c.tag then { m with queue := r }
      else m)

/-- Parameter j of a packet, of 32 bits: [31:0] of its word j − 1, and 0 where it is absent (R436, R437). -/
def argOf (w : List Word72) (j : Nat) : Word := (w.getD (j - 1) 0).setWidth 32

/-- An array time in parameters j and j + 1 of a packet, low word first, when they are there (R437). -/
def timeArg (w : List Word72) (j : Nat) : Option Time :=
  if w.length ≤ j then none else some (argOf w (j + 1) ++ argOf w j)

/-- What a command needs beyond its own rules: its opcode, whether it is privileged, whether it may go to the
whole array (R444), whether its SCHEDULED flag is in order, whether start-up and STANDBY refuse it (R526,
R538), whether it acts on both sides and is forwarded (R382), and whether the words of a packet with its opcode spell
its operands (R436, R437, R446). -/
structure Need where
  op : Nat
  priv : Bool
  array : Bool
  sched : Bool
  startup : Bool
  standby : Bool
  forward : Bool
  spelt : List Word72 → Bool

/-- Whether a packet is a command's: its transport, the fields of its word 0, and its parameters (R436, R437, R446). The side of a
register command is that of its address, unless SIDE names none (R585). -/
def Need.picks (n : Need) (c : Ctx) (p : Packet) : Bool :=
  let w := (p.words.headD 0).toNat
  p.via = c.via && p.crc = c.crc && bits w 71 64 = n.op && bits w 63 56 = c.tag.toNat && bits w 47 40 = c.target.toNat
  && bit w 35 = c.bcast && bit w 34 = c.sched
  && (bits w 33 32 = c.sel.toNat || (2 ≤ n.op && n.op ≤ 6 && bits w 33 32 ≠ 3 && c.sel ≠ 3)) && n.spelt p.words

/-- The commands that side x's controller executes and has not answered yet, the open ARRAY_BARRIERs among them (R428, R443). -/
def State.executing (s : State) (x : Side) : List Waiting :=
  (s.waitingCmds ++ s.lace.barriers.map (·.cmd)).filter (fun w => w.x = x)

/-- A command's header without what its accesses find (R489). -/
def plainCtx (c : Ctx) : Ctx := { c with ptr := .agree }

/-- Whether the packet at the front of a queue is the inner packet of an ARRAY_BROADCAST that was accepted before a command w, an
ARRAY_BARRIER, which waits for it (R428). -/
def innerFirst (l : List Packet) (w : Waiting) : Bool :=
  w.op = 0x71 && (l.head?).any (fun p => p.via = .inner && decide (p.since ≤ w.since))

/-- Whether it is a command's turn: its packet stands at the front of the queue, or none waits and it arrives as it executes (log
entry 16); and no other command of the controller executes (R443), but an ARRAY_BARRIER that waits for it. A command that waits for its
peer is tried again (R382). -/
def inTurn (s : State) (x : Side) (c : Ctx) (n : Need) : Bool :=
  (match (s.side x).mgt.queue with
    | [] => true
    | p :: _ => n.picks c p)
  && (s.executing x).all (fun w => ((s.side x).mgt.fwd = some w && w.ctx = plainCtx c) || innerFirst (s.side x).mgt.queue w)

/-- The LACE_UP port of a side, if it has one (R358). -/
def State.upPort (s : State) (x : Side) : Option Nat :=
  (List.range 16).find? (fun p => s.rf (Reg.LNK_PORT_CTRL x p) 2 0 = 2)

/-- Whether the module is attached: the LACE_UP port of its PRIMARY side is UP, and the module at the far end is attached at a
depth below 8 or is the master (R403, R404), as it showed at the last exchange (log entry 8). -/
def State.attached (s : State) : Bool :=
  !s.power.strapMaster &&
  match s.upPort s.arb.primary with
  | some p => decide ((s.port s.arb.primary p).state = .up) && (s.side s.arb.primary).lce.exchanged
      && decide ((s.side s.arb.primary).lce.depth ≠ 0)
  | none => false

/-- Whether the module is the root of its array: the master, or unattached (R405, R406). -/
def State.isRoot (s : State) : Bool := s.power.strapMaster || !s.attached

/-- Whether a child's roster names the module's own MODULE_ID, which no command may then target (R408). -/
def ownDup (s : State) (x : Side) : Bool :=
  s.rb (Reg.LCE_STATUS x) 17 && (s.side x).lce.children.any (fun e => e.2.roster.getLsbD (s.moduleId x))

/-- Step 3 of R444: the packet is for this module. 0xFF always means the array; every module executes the inner packet of an
ARRAY_BROADCAST for itself (R427). -/
def targetOk (s : State) (x : Side) (c : Ctx) (array : Bool) : Bool :=
  if c.via = .inner then true
  else if c.target = 0xFF then array && (c.bcast || s.isRoot)
  else c.target.toNat = s.moduleId x && !ownDup s x

/-- Whether a command acts on the peer too, and must reach it over Welt (R382). -/
def mustForward (s : State) (x : Side) (n : Need) : Bool := n.forward && s.serving (peerOf x) && s.serving x

/-- A command that waits for its peer, with its message (R380, R382). -/
def forwards (x : Side) (w : Waiting) (s : State) : State :=
  s.modSide x (fun d => { d with
    mgt := { d.mgt with fwd := some w }
    wlt := { d.wlt with unacked := d.wlt.unacked ++ [(2, s.clock.ticks)] } })

/-- The command that waits for its peer no more. -/
def endForward (x : Side) (s : State) : State :=
  s.modSide x (fun d => { d with
    mgt := { d.mgt with fwd := none }
    wlt := { d.wlt with unacked := d.wlt.unacked.filter (fun q => q.1 ≠ 2) } })

/-- A valid message at a side: the longest gap, since its reset where it is the first, and the link up (R381, R402). -/
def heard (x : Side) (s : State) : State :=
  let w := (s.side x).wlt
  let gap := min 65535 ((s.clock.ticks - max w.lastValid w.began) / 3000)
  (s.high (Reg.WLT_LINK x) 15 0 gap).modWlt x (fun w => { w with
    lastValid := s.clock.ticks
    rxOk := true })

/-- A command that crossed Welt to the peer, which has heard it (R380, R381). -/
def crossed (x : Side) (n : Need) (s : State) : State := if mustForward s x n then heard (peerOf x) s else s

/-- Whether the Welt link carries a forwarded command and its acknowledgement (R382). -/
def weltCarries (s : State) : Bool := (s.side .a).wlt.rxOk && (s.side .b).wlt.rxOk

/-- Steps 3, 5, 7, 8 and 9 of R444 before the command's own rules: the first check that fails. -/
def precheck (s : State) (x : Side) (c : Ctx) (n : Need) (par : Option Status) : Option Status :=
  if !targetOk s x c n.array then some .badParam
  else if n.priv && !privileged s c.via then some .noAccess
  else if par = some .badLength then par
  else if c.sel = 3 || (c.bcast && !fromParent s c.via) || (c.sched && !n.sched) then some .badParam
  else if par.isSome then par
  else if !s.serving (namedSide s c) then some .sideDown
  else if n.standby && s.power.mode = .standby then some .notReady
  else if n.startup && !s.power.ready then some .notReady
  else none

/-- The reply to a command. -/
def replyTo (s : State) (x : Side) (c : Ctx) (op : Nat) (st : Status) (r1 : Word) (ws : List Word72) : Reply :=
  ⟨op, c.tag, s.moduleId x, st.code, r1, ws⟩

/-- A command without parameters out of range. -/
def noPar : Side → State → Option Status := fun _ _ => none

/-- BAD_PARAM when a parameter is out of range (step 7 of R444). -/
def param (ok : Bool) : Option Status := if ok then none else some .badParam

/-- An address with the alias range resolved to the side that the command names (R585). -/
def resolve (s : State) (c : Ctx) (a : Nat) : Nat :=
  if 0x03000000 ≤ a ∧ a < 0x04000000 then sideBase (namedSide s c) + (a - 0x03000000) else a

/-- The 64 tiles of a mask given in two words. -/
def maskTiles (lo hi : Word) : List Nat := (List.range 64).filter (fun t => ((hi ++ lo : BitVec 64)).getLsbD t)

/-- An array time in two parameter words, low word first (R437). -/
def timeOf (lo hi : Word) : Time := hi ++ lo

end Sys2Proof.Machine
end

