-- ==== Sys2Proof/Machine/Wire.lean ====
section
/-!
DEFINITION. What stands on the lanes: the blocks of Waimas frames and of the port-level control blocks (R351, R356, R357,
R362, R363, R374), their place on the used lanes (R10 and "Striping"), and the bits of a lane in the order sent (R350).
-/

namespace Sys2Proof.Machine

/-- The word groups of a frame (R362). -/
def Frame.len (f : Frame) : Nat := (f.words.length + 7) / 8

/-- A control block: its block type in [63:56], its payload in [55:0] (R350). -/
def controlBlock (type payload : Nat) : WireBlock := ⟨true, BitVec.ofNat 64 (type * 2 ^ 56 + payload % 2 ^ 56)⟩

/-- The SOF block of a frame that side x sends (R362). -/
def sofBlock (x : Side) (f : Frame) : WireBlock :=
  controlBlock (0x80 + f.type % 8 * 8 + f.stream % 8)
    (sideNum x * 2 ^ 54 + (f.len - 1) % 64 * 2 ^ 48 + f.seq % 2 ^ 48)

/-- The EOF block of a frame that side x sends (R363): the SOF_CRC is of the SOF as this side sends it. -/
def eofBlock (x : Side) (f : Frame) : WireBlock :=
  controlBlock 0xE1 (swap32 (crc32 (wordsBytes f.words)) * 2 ^ 24 + crc8 (bytesBE 8 (sofBlock x f).bits.toNat) * 2 ^ 16
    + f.origin % 256 * 2 ^ 8 + f.frag % 16 * 2 ^ 4 + b2n f.last * 2 ^ 3 + f.replica % 2 * 2 ^ 2 + f.ostream % 4)

/-- The data blocks of a frame: its payload bytes 8 at a time, byte 8i + j in octet j of block i (R9, R10). -/
def dataBlocks (f : Frame) : List WireBlock :=
  (pieces 8 (9 * f.len) (wordsBytes f.words)).map (fun b => ⟨false, BitVec.ofNat 64 (ofBytesBE b)⟩)

/-- The blocks of a frame: SOF, 9 × LEN data blocks, EOF ("Waimas frames"). -/
def frameBlocks (x : Side) (f : Frame) : List WireBlock := sofBlock x f :: dataBlocks f ++ [eofBlock x f]

/-- The IDLE block (R351). -/
def idleBlock : WireBlock := controlBlock 0x1E 0

/-- A CREDIT block: FREED in [55:40] (R374). -/
def creditBlock (freed : Nat) : WireBlock := controlBlock 0x33 (freed % 65536 * 2 ^ 40)

/-- A TIMING block (R351, R415). -/
def timingOnWire (payload : BitVec 56) : WireBlock := controlBlock 0x66 payload.toNat

/-- An ALIGN block (R357). -/
def alignBlock (x : Side) (p l mid : Nat) (lanes bip : BitVec 8) (role wmax : Nat) : WireBlock :=
  controlBlock 0x2D (p % 16 * 2 ^ 52 + l % 8 * 2 ^ 49 + sideNum x * 2 ^ 48 + mid % 256 * 2 ^ 40 + lanes.toNat * 2 ^ 32
    + bip.toNat * 2 ^ 24 + role % 8 * 2 ^ 21 + wmax % 4 * 2 ^ 19)

/-- The blocks of a run that stand on lane i of n used lanes, the first block on lane k: consecutive blocks go to the used
lanes in increasing lane number, slot after slot (chapter "Lanes", Striping). -/
def stripe (n i : Nat) : Nat → List WireBlock → List WireBlock
  | _, [] => []
  | k, b :: r => if k % n = i then b :: stripe n i (k + 1) r else stripe n i (k + 1) r

/-- The 66 bits of a block in the order sent, before the scrambler: the sync header, 01 for data and 10 for control, then the
8 octets from [63:56] on, each least significant bit first (R350). -/
def WireBlock.header (b : WireBlock) : List Bool := [b.ctrl, !b.ctrl]

/-- The 64 bits of a block in the order sent (R350). -/
def WireBlock.payload (b : WireBlock) : List Bool :=
  (List.range 64).map (fun i => b.bits.getLsbD (56 - i / 8 * 8 + i % 8))

/-- The self-synchronous scrambler x^58 + x^39 + 1 over a run of bits: its last 58 output bits are its state, the newest in bit
0 (R350). -/
def scramble : List Bool → BitVec 58 → List Bool × BitVec 58
  | [], st => ([], st)
  | b :: r, st =>
    let o := b ^^ st.getLsbD 38 ^^ st.getLsbD 57
    let q := scramble r (st <<< 1 ||| BitVec.ofNat 58 (b2n o))
    (o :: q.1, q.2)

/-- The far end's descrambler over a run of bits (R350). -/
def descramble : List Bool → BitVec 58 → List Bool × BitVec 58
  | [], st => ([], st)
  | b :: r, st =>
    let q := descramble r (st <<< 1 ||| BitVec.ofNat 58 (b2n b))
    ((b ^^ st.getLsbD 38 ^^ st.getLsbD 57) :: q.1, q.2)

/-- The bits of a run of blocks on a lane, in the order sent: every header as it is, the rest scrambled (R350). -/
def laneStream : List WireBlock → BitVec 58 → List Bool
  | [], _ => []
  | b :: r, st =>
    let q := scramble b.payload st
    b.header ++ q.1 ++ laneStream r q.2

end Sys2Proof.Machine
end

