-- ==== Sys2Proof/Machine/LaceCore.lean ====
section
/-!
DEFINITION. The lace as every block sees it: depth, children, rosters and reach (R403–R408), the copies of an
array command that go down the trees (R422), and the answers of an ARRAY_BARRIER (R428).
-/

namespace Sys2Proof.Machine

/-- A child of which nothing is known. -/
def Child.zero : Child := ⟨0, 0, 0, false, false, 0⟩

/-- The child at a port. -/
def State.child (s : State) (x : Side) (p : Nat) : Child := Sparse.get (s.side x).lce.children p Child.zero

/-- The exchange at a port. -/
def State.exchange (s : State) (x : Side) (p : Nat) : Exchange := Sparse.get (s.side x).lce.exchanges p Exchange.zero

/-- The module's depth: 0 for the master, 0xF unattached, else what its parent gives it (R403, R406). -/
def State.depth (s : State) : Nat :=
  if s.power.strapMaster then 0 else if s.attached then (s.side s.arb.primary).lce.depth else 0xF

/-- The LACE_DOWN ports of a side that are UP and whose child belongs to this array: none at depth 8, and none that leads to a second
master (R404, R405). -/
def downPorts (s : State) (x : Side) : List Nat :=
  (List.range 16).filter (fun p => s.rf (Reg.LNK_PORT_CTRL x p) 2 0 = 3 && (s.port x p).state = .up
    && !(s.child x p).master && s.depth ≠ 8)

/-- A mean of RTTs; 0 of none (R417). -/
def meanOf (l : List Nat) : Nat := l.foldl (· + ·) 0 / l.length

/-- The hop time of a port in ns: 40 + 24 · 2^j (chapter "Lace arrays", Array operations). -/
def hopNs (s : State) (x : Side) (p : Nat) : Nat :=
  40 + 24 * 2 ^ ((s.port x p).width + s.rf (Reg.LNK_PORT_CTRL x p) 9 8)

/-- The reach of a side's subtree in ticks: the longest of its children's, each with its hop and one-way delay. -/
def reachOf (s : State) (x : Side) : Nat :=
  (downPorts s x).foldl (fun m p =>
    max m ((s.child x p).reach + hopNs s x p * 3 + meanOf (s.exchange x p).hist / 2048)) 0

/-- The reach of the array below a module: 0 for one that runs alone (R406, R429). -/
def arrayReach (s : State) (x : Side) : Nat := if s.power.strapMaster || s.attached then reachOf s x else 0

/-- The modules of a side's subtree, its own included. -/
def modulesOf (s : State) (x : Side) : Nat := (downPorts s x).foldl (fun a p => a + (s.child x p).modules) 1

/-- The roster of a side's subtree, its own MODULE_ID included (R408). -/
def rosterOf (s : State) (x : Side) : BitVec 256 :=
  (downPorts s x).foldl (fun a p => a ||| (s.child x p).roster) (1#256 <<< s.moduleId x)

/-- A packet: word 0 for a header and P1, the parameter words, the CRC word (R436, R438). -/
def packetOf (op : Nat) (c : Ctx) (bcast : Bool) (p1 : Word) (params : List Word72) : List Word72 :=
  withCrc (BitVec.ofNat 72 (op * 2 ^ 64 + c.tag.toNat * 2 ^ 56 + params.length * 2 ^ 48 + c.target.toNat * 2 ^ 40
    + b2n bcast * 2 ^ 35 + b2n c.sched * 2 ^ 34 + c.sel.toNat * 2 ^ 32 + p1.toNat) :: params)

/-- The way of a command kept for its REPLY, in the place of an earlier one of its tag on the same port (R409). -/
def keepRoute (x : Side) (r : Route) (s : State) : State :=
  s.modMgt x (fun m => { m with routes := m.routes.filter (fun q => !(q.tag = r.tag && q.port = r.port && q.via = r.via)) ++ [r] })

/-- An array command sent down every LACE_DOWN port of both trees by the master, with BROADCAST set; a module that runs alone sends it
to no other, and neither does one that runs an inner packet, which it runs for itself (R406, R422, R427, R436); the transport of the command is kept for a LATE REPLY (R429). -/
def sendDown (op : Nat) (c : Ctx) (p1 : Word) (params : List Word72) (s : State) : State :=
  if c.bcast || c.via = .inner || !(c.target = 0xFF || (0x70 ≤ op && op ≤ 0x73)) || !s.power.strapMaster then s
  else (keepRoute (receiver s c) ⟨c.tag, op, 0xFF, c.via, none⟩ s).both (fun x t =>
    (downPorts t x).foldl (fun u p =>
      u.queueFrame x p (plainFrame u x 1 0 0 (packetOf op { c with target := 0xFF } true p1 params))) t)

/-- Whether the module's last inner packet ended badly (R428). -/
def bcastBad (s : State) (x : Side) : Bool := 0x10 ≤ s.rf (Reg.LCE_BCAST x) 7 0

/-- The counts of an ARRAY_BARRIER with the module's own, for its answer (R428). -/
def Barrier.own (b : Barrier) (s : State) : Barrier :=
  if bcastBad s b.cmd.x then { b with bad := b.bad + 1, lowest := min b.lowest (s.moduleId b.cmd.x) } else b

/-- Whether an ARRAY_BARRIER is complete: each child has answered or its port has left UP, and every command that the module accepted
before it has finished; its own controller takes them in order, but for the inner packets of broadcasts, the other one holds them in its
queue (R427, R428, R443). -/
def barrierDone (b : Barrier) (s : State) : Bool :=
  b.left.isEmpty && s.waitingCmds.all (fun w => w.ctx.via ≠ .inner && decide (b.cmd.since < w.since))
    && (s.side b.cmd.x).mgt.queue.all (fun p => p.via ≠ .inner || decide (b.cmd.since < p.since))
    && (s.side (peerOf b.cmd.x)).mgt.queue.all (fun p => decide (b.cmd.since < p.since))

/-- The transport of a barrier's answer: up the PRIMARY side's tree for a copy from above, and back to the host for the master's own
(R428). -/
def barrierCtx (b : Barrier) (s : State) : Ctx :=
  match b.cmd.ctx.bcast, s.upPort s.arb.primary with
  | true, some p => { b.cmd.ctx with via := .port s.arb.primary (Fin.ofNat _ p) }
  | _, _ => b.cmd.ctx

/-- A complete ARRAY_BARRIER answered, with the counts of its subtree (R428). -/
def barrierAnswered (b : Barrier) (s : State) : State :=
  let c := barrierCtx b s
  let x := if b.cmd.ctx.bcast then s.arb.primary else b.cmd.x
  let k := b.own s
  formReply x c (replyTo s x c 0x71 .ok (BitVec.ofNat 32 k.modules)
    [BitVec.ofNat 72 k.bad, BitVec.ofNat 72 (if k.bad = 0 then 0xFF else k.lowest), BitVec.ofNat 72 (arrayReach s x)]) s

/-- The open ARRAY_BARRIERs looked at, the oldest first: children whose port has left UP count as having answered, and a complete one is
answered (R428). -/
def barrierCheck (s : State) : State :=
  s.lace.barriers.foldl (fun t b =>
    let k := { b with left := b.left.filter (fun q => decide ((t.port (sideOf q.1) q.2).state = .up)) }
    let rest := t.lace.barriers.filter (· ≠ b)
    if barrierDone k t then barrierAnswered k { t with lace := { t.lace with barriers := rest } }
    else { t with lace := { t.lace with barriers := rest ++ [k] } }) s

/-- The command queue emptied, its packets unanswered (R489, R491). -/
def flushCommands (x : Side) (s : State) : State := s.modMgt x (fun m => { m with queue := [] })

/-- The transmit queue of a side emptied: its messages under way are lost (R489). -/
def flushWelt (x : Side) (s : State) : State :=
  (s.modWlt x (fun w => { w with unacked := [] })).modWlt (peerOf x) (fun w => { w with
    inbox := []
    inboxRe := [] })

/-- The EVENT frames given up that the ports of a side have taken from an emptied queue: those that wait, and one being sent, of whose
rest nothing can be read (R491). -/
def dropEventFrames (x : Side) (s : State) : State :=
  (List.range 16).foldl (fun t p => t.modPort x p (fun q => { q with
    waiting := q.waiting.filter (fun f => f.type ≠ 3)
    out := q.out.filter (fun f => f.type ≠ 3) })) s

/-- The event queue emptied at a pointer mismatch, which becomes its first entry (R489). -/
def eventMismatch (x : Side) (s : State) : State :=
  queueError x 630 (dropEventFrames x (s.modEvt x (fun v => { v with
    queue := []
    round := none })))

/-- What a disagreement of pointers does at a command's accesses, but to the command queue (R489). -/
def pointers (x : Side) (c : Ctx) (s : State) : State :=
  match c.ptr with
  | .agree => s
  | .commands => s
  | .replies => queueError x 551 { s with spi := { s.spi with replies := [] } }
  | .events => eventMismatch x s
  | .welt => queueError x 619 (flushWelt x s)

/-- A command taken up by the receiving side's controller, when its turn has come (R443): the checks of R444 in their order, then its own
rules, then its reply, after which an ARRAY_BARRIER may be complete (R428). A side that does not serve takes no command. A command that
must reach the peer waits while Welt does not carry it (R382). One that finds the pointers of the command queue in disagreement is lost with
the queue (R489). The second component is whether it was accepted, a WRITE_BLOCK also in
part (R448). -/
def runCommand (dt : Nat) (c : Ctx) (n : Need) (par : Side → State → Option Status) (body : Side → State → Res)
    (s0 : State) : State × Bool :=
  let s1 := s0.elapse dt
  let x := receiver s1 c
  if !s1.live x || !inTurn s1 x c n then (s1, false)
  else if c.ptr = .commands then (queueError x 551 (flushCommands x s1), false)
  else
    let s := pointers x c s1
    match precheck s x c n (par x s) with
    | some st =>
      let s1 := dequeue x c s
      (barrierCheck (formReply x c (replyTo s1 x c n.op st 0 []) s1), false)
    | none =>
      if mustForward s x n && !weltCarries s then
        ((if (s.side x).mgt.fwd.isSome then s
          else forwards x ⟨x, n.op, plainCtx c, s.clock.ticks⟩ s), false)
      else
        let s1 := endForward x (dequeue x c s)
        match body x s1 with
        | .done s2 st r1 ws => (barrierCheck (formReply x c (replyTo s2 x c n.op st r1 ws) (crossed x n s2)), decide (st.code < 0x10) || (n.op = 0x05 && r1 ≠ 0))
        | .later s2 => (crossed x n s2, true)

/-- A command's effect: the state that executing it gives. -/
def command (dt : Nat) (c : Ctx) (n : Need) (par : Side → State → Option Status) (body : Side → State → Res)
    (s : State) : State :=
  (runCommand dt c n par body s).1

/-- A command with a part that follows its reply (R447, R540). -/
def commandThen (dt : Nat) (c : Ctx) (n : Need) (par : Side → State → Option Status) (body : Side → State → Res)
    (after : Side → State → State) (s : State) : State :=
  let r := runCommand dt c n par body s
  if r.2 then after (receiver (s.elapse dt) c) r.1 else r.1

/-! ### Packets taken in -/

/-- The opcode, TAG, N, TARGET of a packet's word 0 (R436). -/
def hdr (w : Word72) (hi lo : Nat) : Nat := bits w.toNat hi lo

/-- The opcodes of R446. -/
def knownOps : List Nat :=
  [0x00, 0x01, 0x02, 0x03, 0x04, 0x05, 0x06, 0x10, 0x11, 0x12, 0x13, 0x14, 0x15, 0x20, 0x21, 0x22, 0x23,
   0x30, 0x31, 0x32, 0x33, 0x40, 0x41, 0x42, 0x43, 0x44, 0x50, 0x51, 0x52, 0x53, 0x60, 0x61, 0x62,
   0x70, 0x71, 0x72, 0x73, 0x74, 0x7E, 0x7F]

/-- The commands marked U in R446; RETIRE_LIST is U for READ (ACTION, P1 [8], 0). -/
def openOp (op p1 : Nat) : Bool :=
  [0x00, 0x01, 0x02, 0x04, 0x50, 0x51, 0x52, 0x60].contains op || (op = 0x41 && !bit p1 8)

/-- The counts N that an opcode allows (R446 and the rules it names): first the commands without parameter words,
then those with a fixed count, then the others. -/
def lengthOk (op n p2 : Nat) : Bool :=
  if [0x00, 0x01, 0x02, 0x10, 0x15, 0x21, 0x22, 0x23, 0x32, 0x42, 0x44, 0x52, 0x60, 0x61, 0x62, 0x71, 0x7E,
      0x7F].contains op then n = 0
  else if [0x03, 0x04, 0x30, 0x40, 0x41, 0x72, 0x73].contains op then n = 1
  else if [0x06, 0x43, 0x74].contains op then n = 2
  else if op = 0x31 then n = 1 || n = 2
  else if op = 0x05 then n = 1 + (p2 % 256 + 1) / 2
  else if [0x11, 0x12, 0x13, 0x20, 0x50].contains op then n ≤ 1
  else if op = 0x14 then n = 0 || n = 2
  else if op = 0x33 then n = 3
  else if op = 0x51 then n = 4
  else if op = 0x53 then n = 2 || n = 3
  else 2 ≤ n && n ≤ 31

/-- The commands that may name the whole array (R444). -/
def arrayOp (op : Nat) : Bool := [0x11, 0x12, 0x13, 0x14, 0x70, 0x71, 0x72, 0x73, 0x74].contains op

/-- A packet put into a command queue: at its end, and the inner packet of a broadcast at the place of the packet that carried it
(R427, R443). -/
def placePacket (p : Packet) (l : List Packet) : List Packet :=
  if p.via = .inner then l.takeWhile (fun q => decide (q.since < p.since)) ++ p :: l.dropWhile (fun q => decide (q.since < p.since))
  else l ++ [p]

/-- A packet put into the command queue, or discarded when 64 wait (R443). -/
def enqueue (x : Side) (p : Packet) (s : State) : State :=
  let n := (s.side x).mgt.queue.length
  if 64 ≤ n then
    let s1 := s.bump (Reg.MGT_CMD_STATUS x) 23 16 1
    if (s.side x).mgt.dropSaid then s1
    else raiseSide x 548 sevNotice noInst (s1.modMgt x (fun m => { m with dropSaid := true }))
  else
    (s.modMgt x (fun m => { m with queue := placePacket p m.queue, dropSaid := false })).high (Reg.MGT_QUEUE x) 22 16 (n + 1)

/-- Whether a packet's word 0 and parameters stand as R436 and R437 lay them out: [39:36] of word 0 and [71:32] of every 32-bit
parameter are 0. The words of a nonce, of a block's registers and of an inner packet are all used. DEDUCED (log entry 144): a packet
that breaks this is refused with BAD_PARAM. -/
def formOk (body : List Word72) : Bool :=
  let op := hdr (body.headD 0) 71 64
  let plain := if op = 0x51 ∨ op = 0x70 then [] else if op = 0x05 then (body.drop 1).take 1 else body.drop 1
  hdr (body.headD 0) 39 36 = 0 && plain.all (fun w => decide (w.toNat < 2 ^ 32))

end Sys2Proof.Machine
end

