-- ==== Sys2Proof/Machine/Needs.lean ====
section
/-!
DEFINITION. What each command needs (R444, R446, R526, R538) and how its packet spells its operands (R436, R437): one Need per opcode.
-/

namespace Sys2Proof.Machine

/-- A command without parameters: what P1 holds does not matter. -/
def noArgs : List Word72 → Bool := fun _ => true

/-- Parameter 1 spells a value. -/
def oneArg (a : Word) : List Word72 → Bool := fun w => argOf w 1 = a

/-- Parameters 1 and 2 spell two values; one that is absent acts as 0. -/
def twoArgs (a b : Word) : List Word72 → Bool := fun w => argOf w 1 = a && argOf w 2 = b

/-- Parameters 1 to 3 spell three values; one that is absent acts as 0. -/
def threeArgs (a b d : Word) : List Word72 → Bool := fun w => twoArgs a b w && argOf w 3 = d

/-- The address in parameter 1 names a register: through the alias range that of the side that the packet names (R447, R585). -/
def names (s : State) (c : Ctx) (a : Nat) (w : List Word72) : Bool :=
  decide (resolve s { c with sel := BitVec.ofNat 2 (bits (w.headD 0).toNat 33 32) } (argOf w 1).toNat = a)

/-- The registers that a WRITE_BLOCK carries, two to a word (R448). -/
def blockArgs (w : List Word72) : List Word :=
  (w.drop 2).flatMap (fun (v : Word72) => [v.setWidth 32, (v >>> 32).setWidth 32])

/-- NOP (R446). -/
def Need.nop : Need :=
  ⟨0x00, false, false, false, false, true, false, noArgs⟩

/-- GET_STATUS (R450). -/
def Need.getStatus : Need :=
  ⟨0x01, false, false, false, false, false, false, noArgs⟩

/-- READ_REG (R447). -/
def Need.readReg (s : State) (c : Ctx) (a : Nat) (priv forward : Bool) : Need :=
  ⟨0x02, priv, false, false, false, false, forward, names s c a⟩

/-- WRITE_REG of v (R447). -/
def Need.writeReg (s : State) (c : Ctx) (a : Nat) (v : Word) (startup standby forward : Bool) : Need :=
  ⟨0x03, true, false, false, startup, standby, forward, fun w => names s c a w && argOf w 2 = v⟩

/-- READ_BLOCK (R448). -/
def Need.readBlock (s : State) (c : Ctx) (a : Nat) (count : BitVec 8) (forward : Bool) : Need :=
  ⟨0x04, false, false, false, false, false, forward, fun w => names s c a w && (argOf w 2).setWidth 8 = count⟩

/-- WRITE_BLOCK of ws (R448). -/
def Need.writeBlock (s : State) (c : Ctx) (a : Nat) (count : BitVec 8) (ws : List Word) (forward : Bool) : Need :=
  ⟨0x05, true, false, false, false, true, forward, fun w =>
    names s c a w && (argOf w 2).setWidth 8 = count && (blockArgs w).take count.toNat = ws⟩

/-- MODIFY_REG of v under a mask (R449). -/
def Need.modifyReg (s : State) (c : Ctx) (a : Nat) (mask v : Word) (standby forward : Bool) : Need :=
  ⟨0x06, true, false, false, false, standby, forward, fun w =>
    names s c a w && argOf w 2 = mask && argOf w 3 = v⟩

/-- RUN_ARM (R207). -/
def Need.runArm : Need :=
  ⟨0x10, true, false, false, true, true, true, noArgs⟩

/-- RUN_START (R209). -/
def Need.runStart (t : Option Time) : Need :=
  ⟨0x11, true, true, true, false, true, true, fun w => timeArg w 1 = t⟩

/-- RUN_STOP (R209). -/
def Need.runStop (t : Option Time) : Need :=
  ⟨0x12, true, true, true, false, true, true, fun w => timeArg w 1 = t⟩

/-- FLUSH (R275). -/
def Need.flush (t : Option Time) : Need :=
  ⟨0x13, true, true, true, false, true, true, fun w => timeArg w 1 = t⟩

/-- TRIGGER_SW (R234). -/
def Need.triggerSw (number : Word) (t : Option Time) : Need :=
  ⟨0x14, true, true, true, false, true, true, fun w => argOf w 1 = number && timeArg w 2 = t⟩

/-- TRIG_COMMIT (R231). -/
def Need.trigCommit : Need :=
  ⟨0x15, true, false, false, false, true, true, noArgs⟩

/-- CONFIG_APPLY (R51). -/
def Need.configApply (lo hi : Word) : Need :=
  ⟨0x20, true, false, false, true, true, false, twoArgs lo hi⟩

/-- LAST_LOAD (R457). -/
def Need.lastLoad (slot : Word) : Need :=
  ⟨0x21, true, false, false, true, true, true, oneArg slot⟩

/-- LAST_STORE (R456). -/
def Need.lastStore (p1 : Word) : Need :=
  ⟨0x22, true, false, false, true, true, true, oneArg p1⟩

/-- MODE_SET (R401). -/
def Need.modeSet (mode : Word) : Need :=
  ⟨0x23, true, false, false, true, true, false, oneArg mode⟩

/-- FA_CAL (R148). -/
def Need.faCal (lo hi : Word) : Need :=
  ⟨0x30, true, false, false, true, true, false, twoArgs lo hi⟩

/-- TDC_CAL (R125). -/
def Need.tdcCal (lo hi ext : Word) : Need :=
  ⟨0x31, true, false, false, true, true, false, threeArgs lo hi ext⟩

/-- HK_CAL (R506). -/
def Need.hkCal : Need :=
  ⟨0x32, true, false, false, false, true, false, noArgs⟩

/-- THRESH_SCAN (R73). -/
def Need.threshScan (lo hi points pulses : Word) : Need :=
  ⟨0x33, true, false, false, true, true, false, fun w => threeArgs lo hi points w && argOf w 4 = pulses⟩

/-- RETIRE (R467). -/
def Need.retire (kind index : Word) : Need :=
  ⟨0x40, true, false, false, false, true, false, twoArgs kind index⟩

/-- RETIRE_LIST, ACTION 0 (R468). -/
def Need.retireListRead (kind from_ : Word) : Need :=
  ⟨0x41, false, false, false, false, true, false, fun w =>
    bits (argOf w 1).toNat 7 0 = bits kind.toNat 7 0 && !bit (argOf w 1).toNat 8 && argOf w 2 = from_⟩

/-- RETIRE_LIST, ACTION 1 (R468). -/
def Need.retireListRemove (kind index : Word) : Need :=
  ⟨0x41, true, false, false, false, true, false, fun w =>
    bits (argOf w 1).toNat 7 0 = bits kind.toNat 7 0 && bit (argOf w 1).toNat 8 && argOf w 2 = index⟩

/-- RESUME_DRAIN (R342). -/
def Need.resumeDrain (p1 : Word) : Need :=
  ⟨0x42, true, false, false, false, true, false, oneArg p1⟩

/-- DECOMPRESS_JOB (R291). -/
def Need.decompressJob (p1 p2 p3 : Word) : Need :=
  ⟨0x43, true, false, false, false, true, false, threeArgs p1 p2 p3⟩

/-- JOB_RESUME (R294). -/
def Need.jobResume (p1 : Word) : Need :=
  ⟨0x44, true, false, false, false, true, false, oneArg p1⟩

/-- GET_MEASUREMENT (R464). -/
def Need.getMeasurement (part : Word) (n : Option Word) : Need :=
  ⟨0x50, false, false, false, false, false, false, fun w =>
    argOf w 1 = part && n = if w.length < 2 then none else some (argOf w 2)⟩

/-- ATTEST: the first byte of the nonce in [63:56] of word 1 (R465). -/
def Need.attest (nonce : BitVec 256) : Need :=
  ⟨0x51, false, false, false, false, false, false, fun w =>
    (List.range 4).all (fun k => (w.getD (k + 1) 0).toNat % 2 ^ 64 = bits nonce.toNat (255 - 64 * k) (192 - 64 * k))⟩

/-- GET_IDENTITY (R466). -/
def Need.getIdentity (offset : Word) : Need :=
  ⟨0x52, false, false, false, false, false, false, oneArg offset⟩

/-- PATCH_LOAD (R461). -/
def Need.patchLoad (p1 offset length : Word) (crc : Option Word) : Need :=
  ⟨0x53, true, false, false, true, true, true, fun w =>
    threeArgs p1 offset length w && crc = if w.length < 4 then none else some (argOf w 4)⟩

/-- EVENT_SUBSCRIBE (R481). -/
def Need.eventSubscribe (p1 : Word) : Need :=
  ⟨0x60, false, false, false, false, true, false, oneArg p1⟩

/-- EVENT_ACK: word 0 has a place for P1 in every packet, and 0 stands for an absent SEQ (R484, log entry 145). -/
def Need.eventAck (seq : Option Word) : Need :=
  ⟨0x61, true, false, false, false, false, false, oneArg (seq.getD 0)⟩

/-- FIRST_FAILURE_CLEAR (R486). -/
def Need.firstFailureClear : Need :=
  ⟨0x62, true, false, false, false, false, false, noArgs⟩

/-- ARRAY_BROADCAST (R427). -/
def Need.arrayBroadcast (inner : List Word72) : Need :=
  ⟨0x70, true, true, false, false, true, true, fun w => w.tail = inner⟩

/-- ARRAY_BARRIER (R428). -/
def Need.arrayBarrier : Need :=
  ⟨0x71, true, true, false, false, true, true, noArgs⟩

/-- ARRAY_SNAPSHOT and ARRAY_RESET (R429). -/
def Need.scheduled (op : Nat) (t : Time) : Need :=
  ⟨op, true, true, true, false, true, true, fun w => timeArg w 1 = some t⟩

/-- TIME_SET (R414). -/
def Need.timeSet (v : Time) (p3 : Word) : Need :=
  ⟨0x74, true, true, true, false, true, true, fun w => timeArg w 1 = some v && argOf w 3 = p3⟩

/-- SIDE_RESET (R400). -/
def Need.sideReset (side : Word) : Need :=
  ⟨0x7E, true, false, false, false, false, false, oneArg side⟩

/-- MODULE_RESET (R540). -/
def Need.moduleReset : Need :=
  ⟨0x7F, true, false, false, false, false, false, noArgs⟩

end Sys2Proof.Machine
end

