-- ==== Sys2Proof/Machine/Lanes.lean ====
section
/-!
DEFINITION. Lanes and Waimas framing: detectors and block lock, ALIGN, the port states, lane faults, frames, their
validity and their order on a port, PAUSE and lace credits.
-/

namespace Sys2Proof.Machine

/-! ### Ports and widths -/

/-- The role of a port (R358). -/
def State.role (s : State) (x : Side) (p : Nat) : Nat := s.rf (Reg.LNK_PORT_CTRL x p) 2 0

/-- Whether a role code is that of a lace port (R358). -/
def laceRole (r : Nat) : Bool := r = 2 || r = 3

/-- The global number of a lane (R25). -/
def laneNo (x : Side) (p l : Nat) : Nat := sideNum x * 128 + p * 8 + l

/-- Whether a lane is retired (R365). -/
def State.laneRetired (s : State) (x : Side) (p l : Nat) : Bool := s.bg.inForce.lanes.contains (laneNo x p l)

/-- The lanes of a mask. -/
def lanesOf (m : BitVec 8) : List Nat := (List.range 8).filter (fun l => m.getLsbD l)

/-- A mask of lanes. -/
def laneMask (l : List Nat) : BitVec 8 := l.foldl (fun m i => m ||| (1#8 <<< i)) 0

/-- The working set of a port (R359). -/
def workingSet (s : State) (x : Side) (p : Nat) : List Nat :=
  (List.range 8).filter (fun l =>
    let n := s.lane x p l
    !s.laneRetired x p l && n.lock && n.aligned && !n.excluded && n.peerLanes.getLsbD l)

/-- The widest of 8, 4, 2 and 1 lanes that three bounds allow (R359): its code, when a lane is there. -/
def widthCode (n own peer : Nat) : Option Nat :=
  (List.range 4).find? (fun c => decide (8 / 2 ^ c ≤ n) && decide (own ≤ c) && decide (peer ≤ c))

/-- The lanes of a width code. -/
def widthOf (c : Nat) : Nat := 8 / 2 ^ c

/-- The line rate of a port in 3 Gb/s: 4, 2 or 1 (R349). -/
def rateOf (s : State) (x : Side) (p : Nat) : Nat := 4 / 2 ^ s.rf (Reg.LNK_PORT_CTRL x p) 9 8

/-- The numerator of the payload rate of R375 for one lane at 3 Gb/s. -/
def payloadNum : Nat := 3 * 64 * 576 * 16383

/-- Its denominator, for bytes per ns. -/
def payloadDen : Nat := 66 * 578 * 16384 * 8

/-- The word groups of an allowance, in its smallest parts (R482): 72 bytes, 3 ticks per ns, 1 %. -/
def allowUnit : Nat := payloadDen * 72 * 3 * 100

/-- A port's allowance brought up to date (R482). -/
def allowNow (s : State) (x : Side) (p : Nat) : Nat :=
  let q := s.port x p
  let grow := if q.state = .up then widthOf q.width * rateOf s x p * payloadNum * (s.clock.ticks - q.allowTick) else 0
  min (q.allow + grow) (64 * allowUnit)

/-- The allowance of a port carried up to now, before its rate changes. -/
def allowSettle (x : Side) (p : Nat) (s : State) : State :=
  s.modPort x p (fun q => { q with allow := allowNow s x p, allowTick := s.clock.ticks })

/-- LNK_CAPACITY: the payload of a side's UP UPLINK ports in 0.1 GB/s, rounded to nearest (R375). -/
def capacity (s : State) (x : Side) : Nat :=
  let n := (List.range 16).foldl (fun a p =>
    if (s.port x p).state = .up && s.role x p = 1 then a + widthOf (s.port x p).width * rateOf s x p else a) 0
  (n * 10 * payloadNum * 2 + payloadDen) / (2 * payloadDen)

/-- Whether a pause is in force (R371, R372). -/
def PauseState.holds (t : Nat) : PauseState → Bool
  | .none => false
  | .ticks u => t < u
  | .open_ => true

/-- The place of a stream in a port's pauses and in LNK_STREAM_MAP (R376). -/
def streamSlot (st : Nat) : Nat := if st = 6 then 3 else st

/-- Whether a port is paused for a stream (R372). -/
def paused (s : State) (x : Side) (p st : Nat) : Bool :=
  ((s.port x p).pauses.getD (streamSlot st) .none).holds s.clock.ticks

/-! ### Sending frames -/

/-- The DATA frame that carries fragment k of a block (R363, R370). -/
def dataFrame (s : State) (x : Side) (b : Block) (k : Nat) : Frame :=
  let part := (b.words.drop (512 * k)).take 512
  let o := b.fwd.getD (s.moduleId x, sideNum x, b.id.stream)
  ⟨0, b.id.stream, b.id.unit.toNat, padGroup part, o.1, k, decide (b.words.length ≤ 512 * (k + 1)), o.2.1, o.2.2⟩

/-- The place of a frame type in the order of R370. -/
def framePrio (type : Nat) : Nat :=
  match type with
  | 2 => 0
  | 5 => 1
  | 3 => 2
  | 4 => 3
  | 1 => 0
  | _ => 4

/-- The first of the waiting frames that stand for a start, in the order of R370, and the others. -/
def takeFrame (ok : Frame → Bool) (l : List Frame) : Option (Frame × List Frame) :=
  let best := l.foldl (fun (m : Nat) f => if ok f then min m (framePrio f.type) else m) 5
  match l.findIdx? (fun f => ok f && framePrio f.type = best) with
  | some i => (l[i]?).map (fun f => (f, l.eraseIdx i))
  | none => none

/-- The credit of a lace port (R373). -/
def Port.credit (q : Port) : Nat := (512 + q.freed + 65536 - q.sent % 65536) % 65536

/-- Whether a frame that waits takes part in the order of R370 (R372): a DATA frame that waits as a whole does not stand
between the fragments of a block, nor while its stream is paused. -/
def inLine (s : State) (x : Side) (p : Nat) (f : Frame) : Bool :=
  f.type ≠ 0 || ((s.port x p).frag = 0 && !paused s x p f.stream)

/-- Whether a port has the credit that a frame takes (R373). -/
def hasCredit (s : State) (x : Side) (p : Nat) (f : Frame) : Bool :=
  !laceRole (s.role x p) || decide (f.len ≤ (s.port x p).credit)

/-- A port with something new on its lanes. -/
def Port.put (q : Port) (b : Burst) : Port := { q with wire := b, bursts := q.bursts + 1 }

/-- A frame starts on a port: its blocks go to the lanes, and it counts towards SENT on a lace port (R362, R363, R373). -/
def startFrame (x : Side) (p : Nat) (f : Frame) (s : State) : State :=
  s.modPort x p (fun q => { q.put (.stream (frameBlocks x f)) with out := some f, sent := (q.sent + f.len) % 65536 })

/-- The lanes that carry a port's stream: its used lanes; of a TIMING_SOURCE port, which has none, those that are not retired
(R358, R359; log entry 119). -/
def streamLanes (s : State) (x : Side) (p : Nat) : List Nat :=
  if (s.port x p).state = .up then lanesOf (s.port x p).used else (List.range 8).filter (fun l => !s.laneRetired x p l)

/-- The blocks that stand on a lane, in the order sent (chapter "Lanes", Striping; R355, R356, R365). -/
def laneBlocks (s : State) (x : Side) (p l : Nat) : List WireBlock :=
  let q := s.port x p
  if s.laneRetired x p l || bit (s.lane x p l).settings.toNat 14 then []
  else
    match q.wire with
    | .off => []
    | .stream bl =>
      match (streamLanes s x p).findIdx? (· = l) with
      | some i => stripe (streamLanes s x p).length i
          (Config.startLane (16 * sideNum x + p) q.bursts % (streamLanes s x p).length) bl
      | none => []
    | .lanes bl => (bl.filter (fun e => e.1 = l)).map (·.2)

/-- The bits that stand on a lane, in the order sent, its polarity applied (R350, R355). -/
def laneBits (s : State) (x : Side) (p l : Nat) : List Bool :=
  (laneStream (laneBlocks s x p l) (Config.scrambler (laneNo x p l) (s.port x p).bursts)).map
    (· ^^ bit (s.lane x p l).settings.toNat 12)

/-- An idle UP port starts its next frame: the first in the order of R370, once a lace port has the credit that it takes (R373). -/
def portNext (x : Side) (p : Nat) (s : State) : State :=
  let q := s.port x p
  if q.state ≠ .up || q.out.isSome then s
  else
    match takeFrame (inLine s x p) q.waiting with
    | some (f, rest) =>
      if hasCredit s x p f then startFrame x p f (s.modPort x p (fun q => { q with waiting := rest })) else s
    | none =>
      match q.blocks with
      | [] => s
      | b :: _ =>
        let f := dataFrame s x b q.frag
        if paused s x p b.id.stream || !hasCredit s x p f then s
        else startFrame x p f (s.modPort x p (fun q => { q with frag := q.frag + 1 }))

/-- A frame put to a port, which starts it when it is free. -/
def sendFrame (x : Side) (p : Nat) (f : Frame) (s : State) : State := portNext x p (s.queueFrame x p f)

/-- The UP UPLINK ports that serve a stream (R369). -/
def servingPorts (s : State) (x : Side) (st : Nat) : List Nat :=
  (List.range 16).filter (fun p => (s.port x p).state = .up && s.role x p = 1
    && s.rb (Reg.LNK_STREAM_MAP x (streamSlot st)) p)

/-- The UP ports that carry a stream of the module: on a slave whose LCE_CTRL.MERGE is set its LACE_UP port carries streams 0 to 2
(R369, R431). -/
def carryPorts (s : State) (x : Side) (st : Nat) : List Nat :=
  if s.rb (Reg.LCE_CTRL x) 8 && !s.power.strapMaster && decide (st ≤ 2) then
    match s.upPort x with
    | some p => if (s.port x p).state = .up then [p] else []
    | none => []
  else servingPorts s x st

/-- The SEQ field of a NOTICE frame (R364, R367). -/
def noticeSeq (s : State) (x : Side) (kind : Nat) : Nat := kind * 2 ^ 40 + s.frameSeq x 5 % 2 ^ 40

/-- A NOTICE of a kind about a stream, sent on each of some ports with one SEQ (R364). -/
def sendNotice (x : Side) (kind st : Nat) (ws : List Word72) (ports : List Nat) (s : State) : State :=
  let f := plainFrame s x 5 st (noticeSeq s x kind) ws
  (ports.foldl (fun t p => sendFrame x p f t) s).tookSeq x 5

/-- A control word: subtype in [69:64] under the type bits 11, payload in [63:0] (R8). -/
def controlWord (sub payload : Nat) : Word72 := BitVec.ofNat 72 ((0xC0 + sub % 64) * 2 ^ 64 + payload % 2 ^ 64)

/-- A LOSS word (R180). -/
def lossWord (t source n : Nat) : Word72 :=
  controlWord 0x08 (t * 2 ^ 58 + source * 2 ^ 52 + min n 0xFFFFFFFF)

/-- The payload of a RING_LOSS or PORT_CUT notice about a block (R325, R366). -/
def lossNotice (b : Block) (source : Nat) : List Word72 :=
  let kind := b.id.unit.toNat / 2 ^ 46
  let t := if kind = 0 || kind = 1 then b.id.unit.toNat % 64 else 0
  lossWord t source b.units :: b.words.take 2

/-! ### Leaving UP and training -/

/-- A lane as training begins: its settings take effect, its exclusion ends (R355, R360). -/
def laneTrain (s : State) (x : Side) (p l : Nat) (n : Lane) : Lane :=
  { n with aligned := false, seen := false, missed := 0, excluded := false, settings := s.rd (Reg.LNK_LANE_CTRL x p l) }

/-- A port's state changed, with side event 602 and the count of R376 when it leaves UP. -/
def portState (x : Side) (p : Nat) (st : PortState) (s : State) : State := s.modPort x p (fun q => { q with state := st })

/-- Whether every lane of a port is retired (R360). -/
def allRetired (s : State) (x : Side) (p : Nat) : Bool := (List.range 8).all (fun l => s.laneRetired x p l)

/-- The entries of an EVENT frame that stops before its EOF: the port has not sent them (R366, R479). -/
def frameSeqs (f : Frame) : List Word :=
  (List.range (2 * f.len)).filterMap (fun i =>
    match f.words[4 * i]? with
    | some w => if bits w.toNat 47 32 = 0 then none else some (w.setWidth 32)
    | none => none)

/-- The entries that an EVENT frame of this side carries, changed by f (R479, R483). -/
def onFrameEntries (x : Side) (fr : Frame) (f : EvEntry → EvEntry) (s : State) : State :=
  if fr.type = 3 && fr.stream = 4 && fr.origin = s.moduleId x && fr.replica = sideNum x then
    evMark x (fun e => if (frameSeqs fr).contains e.seq then f e else e) s
  else s

/-- The EVENT frames that wait on a port which will not send them given up, and their entries with them (R479, R483). -/
def dropEvents (x : Side) (p : Nat) (s : State) : State :=
  let l := (s.port x p).waiting.filter (fun f => f.type = 3)
  evSettle x ((l.foldl (fun t f => onFrameEntries x f (fun e => { e with sending := e.sending.filter (· ≠ p) }) t) s).modPort x p
    (fun q => { q with waiting := q.waiting.filter (fun f => f.type ≠ 3) }))

/-- A port whose every lane is retired (R360). -/
def failPort (x : Side) (p : Nat) (s : State) : State := dropEvents x p (raiseSide x 604 sevFault p (portState x p .failed s))

/-- A port enters TRAINING, or FAILED when no lane is left (R360). -/
def enterTraining (x : Side) (p : Nat) (s : State) : State :=
  let s1 := (List.range 8).foldl (fun t l => t.modLane x p l (laneTrain s x p l)) (allowSettle x p s)
  let anyLock := (List.range 8).any (fun l => (s.lane x p l).lock && !s.laneRetired x p l)
  let idle : List (Nat × WireBlock) := ((List.range 8).filter (fun l => !s.laneRetired x p l)).map (fun l => (l, idleBlock))
  let s2 := s1.modPort x p (fun q => { q.put (.lanes idle) with
    state := .training, used := 0, lastSet := 0, stable := 0, role := s.role x p,
    firstLock := if anyLock then some s.clock.ticks else none, alignTick := none })
  if allRetired s x p then failPort x p s2 else s2

/-- Whether a block of a port is cut when the port leaves UP: its first fragment has begun (R366). -/
def cutBlock (q : Port) : Option Block := if q.frag = 0 then none else q.blocks.head?

/-- A block cut: counted, reported, and noticed on another port of its stream or on this one (R366). -/
def reportCut (x : Side) (p : Nat) (b : Block) (s : State) : State :=
  let s1 := (s.bump (Reg.LNK_PORT_ERR x p) 7 0 1).tally x .cut 1
  let s2 := if (s1.side x).lnk.cutSeen then s1
    else raiseSide x 606 sevNotice p (s1.modLnk x (fun l => { l with cutSeen := true }))
  let others := (carryPorts s2 x b.id.stream).filter (· ≠ p)
  sendNotice x 0x02 b.id.stream (lossNotice b 0x16) [others.headD p] s2

/-- A slave whose PRIMARY side's LACE_UP port leaves UP holds its frequency (R418); role is the port's until then. -/
def laceLockLost (x : Side) (role : Nat) (s : State) : State :=
  if role = 2 && !s.power.strapMaster then
    let s1 := s.modSide x (fun d => { d with lce := { d.lce with exchanged := false, good := 0 } })
    if x = s.arb.primary then
      raiseSide x 620 sevNotice noInst
        ({ s1 with lace := { s1.lace with onTree := false } }.both (fun y t => (t.wf (Reg.LCE_STATUS y) 15 15 0).wf (Reg.LCE_STATUS y) 14 14 1))
    else s1
  else s

/-- What a port that leaves UP gives up (R366, R372, R376): nothing more of the frame in progress is sent, the blocks not begun go
back to be assigned again, and every pause ends. -/
def dropLink (x : Side) (p : Nat) (s : State) : State :=
    let q := s.port x p
    let s1 := match q.out with
      | some f => onFrameEntries x f (fun e => { e with sending := e.sending.filter (· ≠ p) }) s
      | none => s
    let rest := if q.frag = 0 then q.blocks else q.blocks.tail
    let s2 := (allowSettle x p s1).modPort x p (fun q => { q with
      out := none, blocks := [], frag := 0, pauses := [.none, .none, .none, .none] })
    let s3 := s2.modLnk x (fun l => { l with egress := rest ++ l.egress })
    s3.bump (Reg.LNK_PORT_ERR x p) 15 8 1

/-- A port leaves UP for a new state (R360, R366): f takes it there, and a begun block is cut; g raises what the same cycle raises
between the cut and the loss of the lace lock, in the order of their sources (R478). -/
def leaveUpTo (x : Side) (p : Nat) (f g : State → State) (s : State) : State :=
  let q := s.port x p
  if q.state ≠ .up then s
  else
    let s1 := f (dropLink x p s)
    let s2 := match cutBlock q with
      | some b => reportCut x p b s1
      | none => s1
    barrierCheck (laceLockLost x q.role (g s2))

/-- A port leaves UP and trains, which raises event 602 (R360). -/
def retrain (x : Side) (p : Nat) (s : State) : State := enterTraining x p (raiseSide x 602 sevNotice p s)

/-- A port leaves UP and trains (R360). -/
def leaveUp (x : Side) (p : Nat) (s : State) : State := leaveUpTo x p (retrain x p) id s

/-- A port set to DISABLED (R360): its transmitters are off. A notice that waits stays for the port's next time UP (R366). -/
def disablePort (x : Side) (p : Nat) (s : State) : State :=
  let s1 := leaveUpTo x p (portState x p .disabled) id s
  dropEvents x p (s1.modPort x p (fun q => { q.put .off with
    state := .disabled
    used := 0
    waiting := q.waiting.filter (fun f => f.type = 5 || f.type = 3)
    role := 0 }))

/-! ### Lane faults -/

/-- A lane retired (R365): its transmitter is held off, its port trains again, or has failed (R360). -/
def retireLane (x : Side) (p l : Nat) (s : State) : State :=
  if s.laneRetired x p l then s
  else
    let s1 := wantUpdate { s with bg := { s.bg with inForce := { s.bg.inForce with
      lanes := insertNat (laneNo x p l) s.bg.inForce.lanes } } }
    let s2 := raiseSide x 601 sevFault (laneNo x p l) s1
    if (s2.port x p).state = .up then leaveUp x p s2
    else if (s2.port x p).state = .training && allRetired s2 x p then
      failPort x p s2
    else s2

/-- A lane fault (R365): counted, reported, and the lane retired at its third within 600 s. -/
def laneFault (x : Side) (p l : Nat) (s : State) : State :=
  if s.laneRetired x p l then s
  else
    let f := (s.lane x p l).faults
    let s1 := (s.bump (Reg.LNK_LANE_STATUS x p l) 15 8 1).tally x .laneFaults 1
    let s2 := raiseSide x 600 sevNotice (laneNo x p l) s1
    if f.third s.now then retireLane x p l s2
    else s2.modLane x p l (fun n => { n with faults := n.faults.push s.now })

/-- Whether a lane is one of its port's used lanes (R359). -/
def State.laneUsed (s : State) (x : Side) (p l : Nat) : Bool := (s.port x p).state = .up && (s.port x p).used.getLsbD l

/-- A condition that is a lane fault on each of some used lanes: their faults, and the port leaves UP (R360, R365). -/
def usedLaneFaults (x : Side) (p : Nat) (used : List Nat) (s : State) : State :=
  let l := used.filter (fun l => !s.laneRetired x p l)
  if l = [] then s else leaveUp x p (l.foldl (fun t l => laneFault x p l t) s)

/-- The same of one lane. -/
def usedLaneFault (x : Side) (p l : Nat) (used : Bool) (s : State) : State := usedLaneFaults x p (if used then [l] else []) s

/-- LANE_SIGNAL_LOST (R354). -/
def execLaneSignalLost (dt : Nat) (x : Side) (p : Fin 16) (l : Fin 8) (s0 : State) : Host.Outcome State Fault Refusal :=
  let s := s0.elapse dt
  .next (usedLaneFault x p l (s.laneUsed x p l) (s.modLane x p l (fun n => { n with signal := false, lock := false })))

/-- LANE_LOCK_LOST (R354). -/
def execLaneLockLost (dt : Nat) (x : Side) (p : Fin 16) (l : Fin 8) (s0 : State) : Host.Outcome State Fault Refusal :=
  let s := s0.elapse dt
  .next (usedLaneFault x p l (s.laneUsed x p l) (s.modLane x p l (fun n => { n with lock := false })))

/-- BLOCK_LOCK_GAINED (R352, R360). -/
def execBlockLockGained (dt : Nat) (x : Side) (p : Fin 16) (l : Fin 8) (s0 : State) : Host.Outcome State Fault Refusal :=
  let s := s0.elapse dt
  let s1 := s.modLane x p l (fun n => { n with signal := true, lock := true })
  .next (s1.modPort x p (fun q =>
    if q.state = .training && q.firstLock.isNone then { q with firstLock := some s.clock.ticks } else q))

/-- BLOCK_LOCK_LOST (R352). -/
def execBlockLockLost (dt : Nat) (x : Side) (p : Fin 16) (l : Fin 8) (s0 : State) : Host.Outcome State Fault Refusal :=
  let s := s0.elapse dt
  .next (usedLaneFault x p l (s.laneUsed x p l)
    (s.modLane x p l (fun n => { n with lock := false, aligned := false })))

/-- LANE_SIGNAL_RETURN (R354). -/
def execLaneSignalReturn (dt : Nat) (x : Side) (p : Fin 16) (l : Fin 8) (s0 : State) :
    Host.Outcome State Fault Refusal :=
  .next ((s0.elapse dt).modLane x p l (fun n => { n with signal := true }))

/-- The ALIGN block that a port sends on a lane (R357). -/
def sentAlign (s : State) (x : Side) (p l : Nat) : WireBlock :=
  let q := s.port x p
  let seen := (List.range 8).filter (fun k => !s.laneRetired x p k && (s.lane x p k).lock && (s.lane x p k).aligned)
  alignBlock x p l (s.moduleId x) (laneMask seen) (Config.sentBip (laneNo x p l) q.bursts) q.role
    (s.rf (Reg.LNK_PORT_CTRL x p) 11 10)

/-- The ALIGN blocks of a slot, one on every lane that is not retired, of a port that transmits (R356). -/
def sendAlign (x : Side) (p : Nat) (s : State) : State :=
  if (s.port x p).state = .training || (s.port x p).state = .up then
    s.modPort x p (fun q => q.put (.lanes (((List.range 8).filter (fun l => !s.laneRetired x p l)).map
      (fun l => (l, sentAlign s x p l)))))
  else s

/-- The ticks from one ALIGN slot of a port to the next: 16 384 blocks of 66 bits (R356). -/
def alignPeriod (s : State) (x : Side) (p : Nat) : Nat := 16384 * 66 / rateOf s x p

/-- Whether a port's next ALIGN slot has come (R356). -/
def alignDue (s : State) (x : Side) (p : Nat) : Bool :=
  match (s.port x p).alignTick with
  | some t => decide (t + alignPeriod s x p ≤ s.clock.ticks)
  | none => true

/-- ALIGN_SLOT (R356, R365): the port sends its ALIGN blocks, and in no other slot; each used lane has missed one more ALIGN slot, and a
second in a row without one is a lane fault. -/
def execAlignSlot (dt : Nat) (x : Side) (p : Fin 16) (s0 : State) : Host.Outcome State Fault Refusal :=
  let u := s0.elapse dt
  if !alignDue u x p then .next u
  else
  let s := (sendAlign x p u).modPort x p (fun q => { q with alignTick := some u.clock.ticks })
  let used := (List.range 8).filter (fun l => s.laneUsed x p l)
  let s1 := used.foldl (fun t l => t.modLane x p l (fun n => { n with missed := n.missed + 1 })) s
  .next (usedLaneFaults x p (used.filter (fun l => decide (3 ≤ (s1.lane x p l).missed))) s1)

/-- A port comes UP (R359–R361, R373): width and lanes fixed, credits restarted, side event 603 when it is
narrower than before, and a second master reported (R405). -/
def portUp (x : Side) (p : Nat) (set : List Nat) (c : Nat) (s : State) : State :=
  let q := s.port x p
  let s1 := (allowSettle x p s).modPort x p (fun q => { q with
    state := .up, used := laneMask (set.take (widthOf c)), width := c, prevWidth := widthOf c, out := none,
    frag := 0, crcSeen := false, sent := 0, freed := 0, rxFreed := 0, rxReported := 0,
    rxSentTick := s.clock.ticks, creditTick := s.clock.ticks })
  let s2 := if widthOf c < q.prevWidth then raiseSide x 603 sevNotice p s1 else s1
  let s3 := if s.role x p = 2 && s.power.strapMaster then
      raiseSide x 621 sevFault noInst (s2.wf (Reg.LCE_STATUS x) 18 18 1)
    else s2
  portNext x p s3

/-- Whether the peer's role fits (R360): any on an UPLINK, the opposite lace role on a lace port. -/
def roleFits (own peer : Nat) : Bool := if own = 2 then peer = 3 else if own = 3 then peer = 2 else true

/-- Whether every lane of a port that is not retired has block lock or is excluded (R360; log entry 120). -/
def lanesSettled (s : State) (x : Side) (p : Nat) : Bool :=
  (List.range 8).all (fun l => s.laneRetired x p l || (s.lane x p l).lock || (s.lane x p l).excluded)

/-- Whether a port's slot has its ALIGN block on every lane that has block lock and may be used (R360). -/
def slotFull (s : State) (x : Side) (p : Nat) : Bool :=
  (List.range 8).all (fun l =>
    let n := s.lane x p l
    s.laneRetired x p l || n.excluded || !n.lock || n.seen)

/-- A slot's ALIGN blocks are in: the working set and the widths are compared with the slot before, and the port comes UP when they have
held for two (R360). -/
def trainSlot (x : Side) (p : Nat) (s0 : State) : State :=
  let s := (List.range 8).foldl (fun t l => t.modLane x p l (fun k => { k with aligned := k.aligned && k.seen, seen := false })) s0
  let q := s.port x p
  let set := workingSet s x p
  if q.state ≠ .training then s
  else if set.isEmpty || !lanesSettled s x p then s.modPort x p (fun q => { q with stable := 0 })
  else
    let own := s.rf (Reg.LNK_PORT_CTRL x p) 11 10
    let peer := set.foldl (fun m l => max m (s.lane x p l).peerWmax) 0
    let mask := laneMask set
    let same := q.lastSet = mask && q.lastWmax = 4 * own + peer
    let n := if same then q.stable + 1 else 1
    let s2 := s.modPort x p (fun q => { q with lastSet := mask, lastWmax := 4 * own + peer, stable := n })
    match widthCode set.length own peer with
    | some c => if 2 ≤ n && roleFits q.role q.peerRole then portUp x p set c s2 else s2
    | none => s2

/-- A second ALIGN on a lane ends the slot before: a lane that had none in it is out of the working set (R360). -/
def slotMissed (x : Side) (p l : Nat) (s : State) : State :=
  if (s.port x p).state = .training && (s.lane x p l).seen then trainSlot x p s else s

/-- A slot judged once it is full (R360). -/
def trainFull (x : Side) (p : Nat) (s : State) : State :=
  if (s.port x p).state = .training && slotFull s x p then trainSlot x p s else s

/-- ALIGN_RECEIVED (R357): BIP errors, the peer's fields from an ALIGN that carries its lane, and training (R360). -/
def execAlignReceived (dt : Nat) (x : Side) (p : Fin 16) (l : Fin 8) (blk : BitVec 56) (bip : Byte) (s0 : State) :
    Host.Outcome State Fault Refusal :=
  let s := slotMissed x p l (s0.elapse dt)
  let q := s.port x p
  if !(s.lane x p l).lock || (q.state ≠ .training && q.state ≠ .up) then .next s
  else
    let v := blk.toNat
    let errs := ((List.range 8).filter (fun i => (bip ^^^ blk.extractLsb' 24 8).getLsbD i)).length
    let ok := bits v 51 49 = l.val
    let s1 := s.bump (Reg.LNK_LANE_STATUS x p l) 23 16 errs
    if !ok then .next (trainFull x p (s1.modLane x p l (fun n => { n with aligned := false, seen := true })))
    else
      let s2 := s1.modLane x p l (fun n => { n with
        aligned := true, seen := true, missed := 0, peerLanes := blk.extractLsb' 32 8, peerWmax := bits v 20 19 })
      .next (trainFull x p (s2.modPort x p (fun q => { q with peerId := bits v 47 40, peerRole := bits v 23 21 })))

/-- TRAINING_LANE_TIMEOUT (R360): a lane still without block lock 1 ms after the first lane gained it. -/
def execTrainingLaneTimeout (dt : Nat) (x : Side) (p : Fin 16) (l : Fin 8) (s0 : State) :
    Host.Outcome State Fault Refusal :=
  let s := s0.elapse dt
  let q := s.port x p
  let n := s.lane x p l
  match q.firstLock with
  | some t =>
    if q.state = .training && !n.lock && !n.excluded && !s.laneRetired x p l && t + 3000000 ≤ s.clock.ticks then
      .next (laneFault x p l (s.modLane x p l (fun n => { n with excluded := true })))
    else .next s
  | none => .next s

/-! ### Frames received -/

/-- What R368 makes of a frame as received. -/
inductive FrameCheck | ok | format | crc
deriving DecidableEq, Repr

/-- The frame type of an SOF block (R362). -/
def sofType (sof : BitVec 64) : Nat := bits sof.toNat 61 59

/-- The stream id of an SOF block (R362). -/
def sofStream (sof : BitVec 64) : Nat := bits sof.toNat 58 56

/-- The word groups that an SOF block announces (R362). -/
def sofLen (sof : BitVec 64) : Nat := bits sof.toNat 53 48 + 1

/-- R368: an SOF of a valid type, exactly the announced data, an EOF, and both checks. -/
def checkFrame (f : RxFrame) : FrameCheck :=
  if bits f.sof.toNat 63 62 ≠ 2 || sofType f.sof = 7 || !f.closed || f.words.length ≠ 8 * sofLen f.sof
    || bits f.eof.toNat 63 56 ≠ 0xE1 then .format
  else if bits f.eof.toNat 23 16 ≠ crc8 (bytesBE 8 f.sof.toNat)
    || bits f.eof.toNat 55 24 ≠ swap32 (crc32 (wordsBytes f.words)) then .crc
  else .ok

/-- Whether a port of a role accepts a frame of a type (R358). -/
def roleAccepts (role type : Nat) : Bool :=
  if role = 1 then type = 1 || type = 6
  else if laceRole role then type ≠ 6 && type ≠ 7
  else false

/-- Word groups of a lace port's receive buffer freed (R373). -/
def freeGroups (x : Side) (p n : Nat) (s : State) : State :=
  if laceRole (s.role x p) then s.modPort x p (fun q => { q with rxFreed := (q.rxFreed + n) % 65536 }) else s

/-- A frame refused by R368 or by its port's role: counted, and event 605 for the first that fails a check since
training; the word groups of it that a lace port has received are free again (R374; log entry 155). -/
def badFrame (x : Side) (p : Nat) (c : FrameCheck) (f : RxFrame) (s : State) : State :=
  let s0 := freeGroups x p ((f.words.length + 7) / 8) s
  let s1 := if c = .ok then s0 else s0.tally x .badFrames 1
  match c with
  | .crc =>
    let s2 := s1.bump (Reg.LNK_PORT_ERR x p) 31 24 1
    if (s.port x p).crcSeen then s2
    else raiseSide x 605 sevNotice p (s2.modPort x p (fun q => { q with crcSeen := true }))
  | _ => s1.bump (Reg.LNK_PORT_ERR x p) 23 16 1

/-- A frame at a port's receiver: whether it is accepted, and the state with it counted (R358, R368). A frame
takes its word groups of the buffer of a lace port, which frees them when it is dealt with (R373). -/
def receiveFrame (x : Side) (p : Nat) (f : RxFrame) (s : State) : State × Bool :=
  if (s.port x p).state ≠ .up then (s, false)
  else
    let c := checkFrame f
    if c = .ok && roleAccepts (s.role x p) (sofType f.sof) then
      ((s.count (Reg.LNK_PORT_RX x p) 31 0 1), true)
    else (badFrame x p c f s, false)

/-- FRAME_NOT_ACCEPTED (R358, R368). -/
def execFrameNotAccepted (dt : Nat) (x : Side) (p : Fin 16) (f : RxFrame) (s0 : State) :
    Host.Outcome State Fault Refusal :=
  let s := s0.elapse dt
  if (s.port x p).state = .up && (checkFrame f ≠ .ok || !roleAccepts (s.role x p) (sofType f.sof)) then
    .next (badFrame x p (checkFrame f) f s)
  else .next s

/-- The TIMING block kinds that R415 defines. -/
def timingKind (k : Nat) : Bool := 1 ≤ k && k ≤ 7

/-- INVALID_CONTROL_BLOCK (R351, R415). -/
def execInvalidControlBlock (dt : Nat) (x : Side) (p : Fin 16) (typ : Byte) (blk : BitVec 56) (s0 : State) :
    Host.Outcome State Fault Refusal :=
  let s := s0.elapse dt
  let t := typ.toNat
  let known := t = 0x1E || t = 0x2D || t = 0x33 || (0x80 ≤ t && t ≤ 0xBF) || t = 0xE1
    || (t = 0x66 && timingKind (bits blk.toNat 55 52))
  if ((s.port x p).state = .up || (s.port x p).state = .training) && !known then .next (s.bump (Reg.LNK_PORT_ERR x p) 23 16 1) else .next s

/-- The pause that TIME asks for (R371). -/
def pauseFor (t now : Nat) : PauseState :=
  if t = 0 then .none else if t = 0xFFFF then .open_ else .ticks (now + t * 3000)

/-- The pauses of a port after a PAUSE that names a stream, or with 7 every stream (R371). -/
def setPauses (st : Nat) (v : PauseState) (l : List PauseState) : List PauseState :=
  if st = 7 then l.map (fun _ => v)
  else if st ≤ 2 || st = 6 then l.set (streamSlot st) v
  else l

/-- PAUSE (R371, R372). -/
def execPause (dt : Nat) (x : Side) (p : Fin 16) (f : RxFrame) (s0 : State) : Host.Outcome State Fault Refusal :=
  let s := s0.elapse dt
  let r := receiveFrame x p f s
  if r.2 && sofType f.sof = 6 then
    if sofLen f.sof ≠ 1 then .next (badFrame x p .format f s)
    else
      let t := bits (f.words.headD 0).toNat 15 0
      let s1 := r.1.bump (Reg.LNK_PORT_PAUSE x p) 31 16 1
      .next (portNext x p (s1.modPort x p (fun q => { q with
        pauses := setPauses (sofStream f.sof) (pauseFor t s.clock.ticks) q.pauses })))
  else if r.2 then .next s
  else .next r.1

/-- PAUSE_EXPIRY (R372). -/
def execPauseExpiry (dt : Nat) (x : Side) (p : Fin 16) (i : Fin 4) (s0 : State) : Host.Outcome State Fault Refusal :=
  let s := s0.elapse dt
  let v := (s.port x p).pauses.getD i .none
  if v ≠ .none && !v.holds s.clock.ticks then
    .next (portNext x p (s.modPort x p (fun q => { q with pauses := q.pauses.set i .none })))
  else .next s

/-! ### Lace credits -/

/-- CREDIT_RECEIVED (R373). -/
def execCreditReceived (dt : Nat) (x : Side) (p : Fin 16) (blk : BitVec 56) (s0 : State) :
    Host.Outcome State Fault Refusal :=
  let s := s0.elapse dt
  if (s.port x p).state = .up && laceRole (s.role x p) then
    .next (portNext x p (s.modPort x p (fun q => { q with
      freed := bits blk.toNat 55 40, creditTick := s.clock.ticks })))
  else .next s

/-- CREDIT_SEND (R374): FREED has grown by 16, or 1 µs has passed. -/
def execCreditSend (dt : Nat) (x : Side) (p : Fin 16) (s0 : State) : Host.Outcome State Fault Refusal :=
  let s := s0.elapse dt
  let q := s.port x p
  if q.state = .up && laceRole (s.role x p) &&
      (16 ≤ (q.rxFreed + 65536 - q.rxReported) % 65536 || q.rxSentTick + 3000 ≤ s.clock.ticks) then
    .next (s.modPort x p (fun q => { q.put (.stream [creditBlock q.rxFreed]) with
      rxReported := q.rxFreed, rxSentTick := s.clock.ticks }))
  else .next s

/-- CREDIT_STALL (R374): 1 ms without a CREDIT block. -/
def execCreditStall (dt : Nat) (x : Side) (p : Fin 16) (s0 : State) : Host.Outcome State Fault Refusal :=
  let s := s0.elapse dt
  let q := s.port x p
  if q.state = .up && laceRole (s.role x p) && q.creditTick + 3000000 ≤ s.clock.ticks then
    .next (leaveUpTo x p (retrain x p) (raiseSide x 607 sevNotice p) (s.bump (Reg.LNK_PORT_CREDIT x p) 31 16 1))
  else .next s

/-! ### Port control -/

/-- The ports of a role on a side, after port p took role r (R377). -/
def roleCount (s : State) (x : Side) (p r want : Nat) : Nat :=
  ((List.range 16).filter (fun i => (if i = p then r else s.role x i) = want)).length

/-- What a write of LNK_PORT_CTRL breaks: a value out of range first, then the run state (R377, R447). -/
def portCtrlRefusal (s : State) (x : Side) (p : Nat) (v : Word) : Option Status :=
  let r := bits v.toNat 2 0
  let old := s.rd (Reg.LNK_PORT_CTRL x p)
  if 5 ≤ r || bits v.toNat 9 8 = 3 || 2 ≤ roleCount s x p r 2 || 16 ≤ roleCount s x p r 3 then some .badParam
  else if (r ≠ bits old.toNat 2 0 || bits v.toNat 9 8 ≠ bits old.toNat 9 8 || bits v.toNat 11 10 ≠ bits old.toNat 11 10)
    && s.trg.run ≠ .idle then some .wrongState
  else none

/-- An accepted write of LNK_PORT_CTRL: the fields stored, and the port trains unless its role is DISABLED or it has failed (R360,
R361, R377); in STANDBY it waits for the wake (R525, R527). -/
def portCtrlWrite (x : Side) (p : Nat) (v : Word) (s : State) : State :=
  let new : Word := BitVec.ofNat 32 (bits v.toNat 11 8 * 256 + bits v.toNat 2 0)
  let s0 := (allowSettle x p s).wr (Reg.LNK_PORT_CTRL x p) new
  let s1 := if bits v.toNat 2 0 = 1 then s0 else dropEvents x p s0
  if bits v.toNat 2 0 = 0 then disablePort x p s1
  else if s.power.mode = .standby then s1
  else if (s.port x p).state = .failed then s1
  else if (s.port x p).state = .up then leaveUp x p s1
  else enterTraining x p s1

end Sys2Proof.Machine
end

