-- ==== Sys2Proof/Machine/Lace.lean ====
section
/-!
DEFINITION. Lace arrays and array time: timing exchanges, the master's time base, rosters, the trigger bus and the
array operations (R403–R430).
-/

namespace Sys2Proof.Machine

/-- Side x's lace changed by f. -/
def State.modLce (s : State) (x : Side) (f : Lce → Lce) : State := s.modSide x (fun d => { d with lce := f d.lce })

/-- The base tier's lace state changed by f. -/
def State.modLace (s : State) (f : LaceBase → LaceBase) : State := { s with lace := f s.lace }

/-- The child at a port changed by f. -/
def State.modChild (s : State) (x : Side) (p : Nat) (f : Child → Child) : State :=
  s.modLce x (fun l => { l with children := Sparse.upd l.children p Child.zero f })

/-- The exchange at a port changed by f. -/
def State.modExchange (s : State) (x : Side) (p : Nat) (f : Exchange → Exchange) : State :=
  s.modLce x (fun l => { l with exchanges := Sparse.upd l.exchanges p Exchange.zero f })

/-- The TIMING blocks that an event sends, behind those of the same tick and else in place of those sent last: each port puts its own on
its lanes. -/
def sendTiming (x : Side) (l : List (Nat × BitVec 56)) (s : State) : State :=
  let k := (s.side x).lce
  let all := (if k.timingTick = s.clock.ticks then k.timing else []) ++ l
  ((List.range 16).filter (fun p => l.any (fun e => e.1 = p))).foldl (fun t p =>
    t.modPort x p (fun q => q.put (.stream ((all.filter (fun e => e.1 = p)).map (fun e => timingOnWire e.2)))))
    (s.modLce x (fun k => { k with timing := all, timingTick := s.clock.ticks }))

/-- The payload of a TIMING block: KIND in [55:52], SEQ in [51:50], other fields (R415). -/
def timingBlock (kind seq rest : Nat) : BitVec 56 := BitVec.ofNat 56 (kind * 2 ^ 52 + seq * 2 ^ 50 + rest)

/-- A time in FU: ticks and the FU beyond them. -/
def fuOf (t fine : Nat) : Nat := t * 1024 + fine

/-- Array time stepped by an offset in FU. -/
def stepTime (e : Int) (s : State) : State :=
  let fu := (s.clock.fine : Int) + e
  { s with clock := { Clock.leap s with now := s.clock.now + BitVec.ofInt 64 (fu / 1024), fine := (fu % 1024).toNat } }

/-- A slew to be made, in FU, at a rate in FU in an exchange interval, in place of the one in progress (R413, R417). -/
def slewBy (rate : Nat) (e : Int) (s : State) : State :=
  { s with clock := { s.clock with slew := e, slewRate := rate, slewRest := 0 } }

/-- The rate of 1 ppm: 3 072 FU in an exchange interval of 3 000 000 ticks (R413, R416, R417). -/
def ppmRate : Nat := 3072

/-- A change of run state, reported on both sides (R211). -/
def setRun (r : RunState) (s : State) : State :=
  (s.modTrg (fun g => { g with run := r })).both (raiseSide · 562 sevInfo noInst)

/-- The occurrences that a run still to start may see: those of the trigger bus (R217). DESIGN CHOICE (log entry 140): a TRIGGER_SW ends
with the arming or the run in which it was accepted, though its T may lie in the next (R234). -/
def Trg.busOnly (g : Trg) : List Occurrence := g.hits.filter (fun h => h.kind = 6)

/-- RUN_STOP in ARMED (R207, R210): nothing is recorded, and a pending RUN_START is cancelled. -/
def stopArmed (s : State) : State :=
  setRun .idle (s.modTrg (fun g => { g with
    startAt := none
    commitAt := none
    hits := g.busOnly }))

/-- The run ended as if RUN_STOP took effect at a time, where it does not stop before (R417, R532). -/
def endRunAt (t : Time) (s : State) : State :=
  match s.trg.run with
  | .running => s.modTrg (fun g => { g with stopAt := some (match g.stopAt with
    | some q => earlier q t
    | none => t) })
  | .armed => stopArmed s
  | _ => s

/-- A 40-bit time field extended to the value nearest a time (R417). -/
def extend40 (f : Nat) (now : Time) : Time :=
  let d := (BitVec.ofNat 40 f - now.setWidth 40).toInt
  now + BitVec.ofInt 64 d

/-! ### Exchanges, parent -/

/-- LACE_EXCHANGE_START (R416, R419): an UP LACE_DOWN port sends a PROBE every 1 ms; a TIMING_SOURCE port sends
PROBE, FOLLOW and an RTT of 0. -/
def execLaceExchangeStart (dt : Nat) (x : Side) (p : Fin 16) (s0 : State) : Host.Outcome State Fault Refusal :=
  let s := s0.elapse dt
  let e := s.exchange x p
  let due := e.started = 0 || e.started + 3000000 ≤ s.clock.ticks
  let down := s.role x p = 3 && (s.port x p).state = .up
  let source := s.role x p = 4 && (s.port x p).state ≠ .disabled && (s.port x p).state ≠ .failed
  if !due || !(down || source) || !s.live x then .next s
  else
    let q := (e.seq + 1) % 4
    let t := s.now
    let s1 := s.modExchange x p (fun e => { e with
      seq := q, t1 := t, t1Fine := s.clock.fine, started := s.clock.ticks, waiting := down })
    let s1 := s1.modLce x (fun l => { l with idHeld := none })
    let probe := (p.val, timingBlock 1 q 0)
    if down then .next (sendTiming x [probe] s1)
    else .next (sendTiming x [probe,
      (p.val, timingBlock 3 q (t.toNat % 2 ^ 40 * 1024 + s.clock.fine)),
      (p.val, timingBlock 4 q (t.toNat / 2 ^ 40 * 2 ^ 26))] s1)

/-- ECHO_RECEIVED (R416): RTT = (T4 - T1) - HOLD, and FOLLOW and RTT go out; an exchange whose ECHO is later than 30 000 ticks is dropped. -/
def execEchoReceived (dt : Nat) (x : Side) (p : Fin 16) (blk : BitVec 56) (fu : Fin 1024) (s0 : State) :
    Host.Outcome State Fault Refusal :=
  let s := s0.elapse dt
  let e := s.exchange x p
  let v := blk.toNat
  if bits v 55 52 ≠ 2 || !e.waiting || bits v 51 50 ≠ e.seq || (s.port x p).state ≠ .up then .next s
  else if e.started + 30000 < s.clock.ticks then .next (s.modExchange x p (fun e => { e with waiting := false }))
  else
    let rtt : Int := (since s.now e.t1 * 1024 : Nat) + (fu.val : Int) - e.t1Fine - bits v 29 0
    let r := rtt.toNat % 2 ^ 26
    let s1 := s.modExchange x p (fun e => { e with waiting := false, hist := (r :: e.hist).take 16 })
    .next (sendTiming x [
      (p.val, timingBlock 3 e.seq (e.t1.toNat % 2 ^ 40 * 1024 + e.t1Fine)),
      (p.val, timingBlock 4 e.seq (e.t1.toNat / 2 ^ 40 * 2 ^ 26 + r))] s1)

/-- EXCHANGE_TIMEOUT (R416): dropped and not counted. -/
def execExchangeTimeout (dt : Nat) (x : Side) (p : Fin 16) (s0 : State) : Host.Outcome State Fault Refusal :=
  let s := s0.elapse dt
  let e := s.exchange x p
  if e.waiting && e.started + 30000 ≤ s.clock.ticks then
    .next (s.modExchange x p (fun e => { e with waiting := false }))
  else .next s

/-- REACH_RECEIVED (R404, R405, R415): the child's reach, depth, modules and flags. -/
def execReachReceived (dt : Nat) (x : Side) (p : Fin 16) (blk : BitVec 56) (s0 : State) :
    Host.Outcome State Fault Refusal :=
  let s := s0.elapse dt
  let v := blk.toNat
  if bits v 55 52 ≠ 5 || s.role x p ≠ 3 || (s.port x p).state ≠ .up then .next s
  else if s.depth = 8 then
    if s.rb (Reg.LCE_STATUS x) 16 then .next s
    else .next (raiseSide x 626 sevFault noInst (s.wf (Reg.LCE_STATUS x) 16 16 1))
  else .next (s.modChild x p (fun c => { c with
    master := bit v 51, dup := bit v 50, depth := bits v 49 46, modules := bits v 40 32, reach := bits v 23 0 }))

/-- Whether a side's rosters name one MODULE_ID twice, or the module's own (R408). -/
def rosterDup (s : State) (x : Side) : Bool :=
  ((downPorts s x).foldl (fun (a : BitVec 256 × Bool) p =>
    let r := (s.child x p).roster
    (a.1 ||| r, a.2 || decide (a.1 &&& r ≠ 0))) (1#256 <<< s.moduleId x, false)).2

/-- ROSTER_RECEIVED (R408): one chunk of a child's roster. -/
def execRosterReceived (dt : Nat) (x : Side) (p : Fin 16) (blk : BitVec 56) (s0 : State) :
    Host.Outcome State Fault Refusal :=
  let s := s0.elapse dt
  let v := blk.toNat
  if bits v 55 52 ≠ 6 || s.role x p ≠ 3 || (s.port x p).state ≠ .up || s.depth = 8 then .next s
  else
    let i := bits v 51 49
    let s1 := s.modChild x p (fun c => { c with
      roster := BitVec.ofNat 256 (setBits c.roster.toNat (32 * i + 31) (32 * i) (bits v 31 0)) })
    if rosterDup s1 x then
      if s.rb (Reg.LCE_STATUS x) 17 then .next s1
      else .next (raiseSide x 622 sevFault noInst (s1.wf (Reg.LCE_STATUS x) 17 17 1))
    else .next (s1.wf (Reg.LCE_STATUS x) 17 17 0)

/-! ### Exchanges, child -/

/-- Whether any module of a side's subtree reports a duplicate (R408). -/
def subtreeDup (s : State) (x : Side) : Bool :=
  s.rb (Reg.LCE_STATUS x) 17 || (downPorts s x).any (fun p => (s.child x p).dup)

/-- PROBE_RECEIVED (R408, R415–R417): T2 is taken, and ECHO, REACH and the eight ROSTER chunks are sent. The HOLD
of the ECHO, at most 3 000 ticks, is a free value (log entry 4). -/
def execProbeReceived (dt : Nat) (x : Side) (blk : BitVec 56) (fu : Fin 1024) (s0 : State) :
    Host.Outcome State Fault Refusal :=
  let s := s0.elapse dt
  let v := blk.toNat
  match s.upPort x with
  | none => .next s
  | some p =>
    if bits v 55 52 ≠ 1 || (s.port x p).state ≠ .up then .next s
    else
      let q := bits v 51 50
      let hold := s.free.toNat % 3072001
      let s1 := s.took.modLce x (fun l => { l with
        t2 := s.now, t2Fine := fu.val, upSeq := q, gotFollow := false, idHeld := none,
        asym := s.rf (Reg.LCE_ASYM s.arb.primary) 19 0 })
      let reach := BitVec.ofNat 56 (5 * 2 ^ 52 + b2n s.power.strapMaster * 2 ^ 51 + b2n (subtreeDup s x) * 2 ^ 50
        + s.depth % 16 * 2 ^ 46 + modulesOf s x % 512 * 2 ^ 32 + reachOf s x % 2 ^ 24)
      let chunk (i : Nat) : Nat × BitVec 56 :=
        (p, BitVec.ofNat 56 (6 * 2 ^ 52 + i * 2 ^ 49 + bits (rosterOf s1 x).toNat (32 * i + 31) (32 * i)))
      .next (sendTiming x ((p, timingBlock 2 q hold) :: (p, reach) :: (List.range 8).map chunk) s1)

/-- FOLLOW_RECEIVED (R415): T1 of the exchange. -/
def execFollowReceived (dt : Nat) (x : Side) (blk : BitVec 56) (s0 : State) : Host.Outcome State Fault Refusal :=
  let s := s0.elapse dt
  let v := blk.toNat
  if bits v 55 52 ≠ 3 || bits v 51 50 ≠ (s.side x).lce.upSeq then .next s
  else .next (s.modLce x (fun l => { l with t1Low := bits v 49 10, t1Fine := bits v 9 0, gotFollow := true }))

/-- A value held to 32 bits in two's complement (R434). -/
def sat32 (e : Int) : Word := BitVec.ofInt 32 (clampI (-2147483648) 2147483647 e)

/-- LOCKED set on both sides, and HOLDOVER ended (R417, R418). -/
def setLocked (v : Bool) (s : State) : State :=
  s.both (fun y t => (t.wf (Reg.LCE_STATUS y) 15 15 (b2n v)).wf (Reg.LCE_STATUS y) 14 14 0)

/-- The child's action on its offset e from the tree of its PRIMARY side (R417, R421). -/
def actOnOffset (x : Side) (e : Int) (s : State) : State :=
  let near := decide (e.natAbs < 1024)
  let good := if near then min ((s.side x).lce.good + 1) 16 else 0
  let s1 := (setLocked (decide (16 ≤ good)) (s.modLce x (fun l => { l with good := good }))).modLace (fun b => { b with onTree := true })
  if near then slewBy e.natAbs e (s1.modLace (fun b => { b with newTree := false }))
  else if s.lace.newTree then slewBy ppmRate e s1
  else if s.trg.run = .idle then raiseSide x 625 sevNotice noInst (stepTime e s1)
  else if e.natAbs < 3000 * 1024 then slewBy ppmRate e s1
  else raiseSide x 625 sevFault noInst (let s2 := stepTime e s1; endRunAt s2.now s2)

/-- The depth that a side's tree gives the module (R403, R404): one more than the far end's, and 0, none, when the far end is not
attached or stands at depth 8. -/
def depthBelow (far : Option (Fin 9 × Nat)) : Nat :=
  match far with
  | some (d, _) => if d.val < 8 then d.val + 1 else 0
  | none => 0

/-- The path delay from the master in ticks: the far end's, with this hop and its one-way delay (R434, log entry 8). -/
def pathBelow (s : State) (x : Side) (p : Nat) (mean : Nat) (far : Option (Fin 9 × Nat)) : Nat :=
  match far with
  | some (_, path) => path + hopNs s x p * 3 + mean / 2048
  | none => 0

/-- RTT_RECEIVED (R403, R404, R406, R417, R421, R435): the mean RTT, the offset, and the action of an attached module on the PRIMARY
side's tree. far: the depth of the module at the far end, 0 the master, and its path delay from the master, none while it is not
attached; no block of R415 carries them (log entry 8). -/
def execRttReceived (dt : Nat) (x : Side) (blk : BitVec 56) (far : Option (Fin 9 × Nat)) (s0 : State) :
    Host.Outcome State Fault Refusal :=
  let s := s0.elapse dt
  let v := blk.toNat
  let l := (s.side x).lce
  let up := match s.upPort x with
    | some p => decide ((s.port x p).state = .up)
    | none => false
  if bits v 55 52 ≠ 4 || bits v 51 50 ≠ l.upSeq || !l.gotFollow || !up || s.power.strapMaster then .next s
  else
    let hist := (bits v 25 0 :: l.upHist).take 16
    let mean := meanOf hist
    let t1 : Time := if l.exchanged then extend40 l.t1Low s.now
      else BitVec.ofNat 64 (bits v 49 26 * 2 ^ 40 + l.t1Low)
    let asym := signed 20 l.asym
    let e : Int := (t1 - l.t2).toInt * 1024 + l.t1Fine - l.t2Fine + (mean / 2 : Nat) - asym
    let d := depthBelow far
    let s1 := s.modLce x (fun l => { l with upHist := hist, gotFollow := false, exchanged := true, depth := d })
    let s2 := s1.wf (Reg.LCE_PATH x) 23 0 (if d = 0 then 0 else pathBelow s x ((s.upPort x).getD 0) mean far)
    let s3 := s2.wf (Reg.LCE_RTT x) 25 0 mean
    if x = s.arb.primary then
      let s4 := s3.wr (Reg.LCE_OFFSET x) (sat32 e)
      .next (if d = 0 then s4 else actOnOffset x e s4)
    else .next (s3.both (fun y t => t.wr (Reg.LCE_TREE_DIFF y) (sat32 e)))

/-! ### The trigger bus -/

/-- A BUS block (R415): LINE, ORIGIN and the low bits of the effective time. -/
def busBlock (line origin : Nat) (t : Time) : BitVec 56 :=
  BitVec.ofNat 56 (7 * 2 ^ 52 + line % 8 * 2 ^ 49 + origin % 256 * 2 ^ 41 + t.toNat % 2 ^ 40)

/-- An assertion taken in by the base tier: blocks of one LINE and effective time are one assertion, delivered 16
ticks after the first copy (R424). -/
def mergeAssertion (line : Nat) (t : Time) (s : State) : State :=
  let keep := s.lace.bus.filter (fun a => !a.given || since s.now a.due < 3000000)
  if keep.any (fun a => a.line = line && a.eff = t) then s
  else s.modLace (fun b => { b with bus := keep ++ [⟨line, t, s.now + 16, false⟩] })

/-- A BUS block sent down every LACE_DOWN port of side x, but for one port. -/
def busDown (x : Side) (blk : BitVec 56) (s : State) : State :=
  sendTiming x ((downPorts s x).map (fun p => (p, blk))) s

/-- An assertion at the root of the array: down every LACE_DOWN port of both trees, and kept (R423). -/
def busAtRoot (blk : BitVec 56) (s : State) : State :=
  mergeAssertion (bits blk.toNat 51 49) (extend40 (bits blk.toNat 39 0) s.now) (s.both (fun x t => busDown x blk t))

/-- A BUS block on its way to the master, up a side's LACE_UP port (R423). -/
def busUp (x : Side) (blk : BitVec 56) (s : State) : State :=
  match s.upPort x with
  | some p => sendTiming x [(p, blk)] s
  | none => s

/-- BUS_BLOCK_RECEIVED (R405, R423, R424): from the parent it goes down and is kept; from a child it goes up, and the
root sends it down and keeps it. -/
def execBusBlockReceived (dt : Nat) (x : Side) (p : Fin 16) (blk : BitVec 56) (s0 : State) :
    Host.Outcome State Fault Refusal :=
  let s := s0.elapse dt
  if bits blk.toNat 55 52 ≠ 7 || (s.port x p).state ≠ .up then .next s
  else if s.role x p = 2 && !s.power.strapMaster then
    .next (mergeAssertion (bits blk.toNat 51 49) (extend40 (bits blk.toNat 39 0) s.now) (busDown x blk s))
  else if s.role x p = 3 && !(s.child x p).master && s.depth ≠ 8 then
    if s.isRoot then .next (busAtRoot blk s) else .next (busUp x blk s)
  else .next s

/-! ### The master's time base -/

/-- A reference selected on the PRIMARY side (R411). -/
def refSelected (s : State) : Bool := s.power.strapMaster && s.rf (Reg.LCE_CTRL s.arb.primary) 2 1 ≠ 0

/-- REFIN_LOST (R412). -/
def execRefinLost (dt : Nat) (s0 : State) : Host.Outcome State Fault Refusal :=
  let s := s0.elapse dt
  if refSelected s && s.rb (Reg.LCE_STATUS s.arb.primary) 13 then
    .next (s.both (fun x t => raiseSide x 627 sevNotice noInst (t.wf (Reg.LCE_STATUS x) 13 13 0)))
  else .next s

/-- What follows a write of LCE_CTRL.REF, old before: another reference, or none, is not locked to, until REFIN_LOCK (R411). -/
def refChanged (x : Side) (old : Nat) (s : State) : State :=
  if s.rf (Reg.LCE_CTRL x) 2 1 = old || x ≠ s.arb.primary then s
  else s.both (fun y t => t.wf (Reg.LCE_STATUS y) 13 13 0)

/-- REFIN_LOCK (R411). -/
def execRefinLock (dt : Nat) (s0 : State) : Host.Outcome State Fault Refusal :=
  let s := s0.elapse dt
  if refSelected s then .next (s.both (fun x t => t.wf (Reg.LCE_STATUS x) 13 13 1)) else .next s

/-- The error of a PPS edge: array time less the nearest time with the phase (R413). -/
def ppsError (now : Time) (phase : Nat) : Int :=
  let d := (now.toNat + 3000000000 - phase % 3000000000) % 3000000000
  if d ≤ 1500000000 then (d : Int) else (d : Int) - 3000000000

/-- Array time becomes V (R414). -/
def setTime (v : Time) (s : State) : State := { s with clock := { Clock.leap s with now := v, fine := 0 } }

/-- The reply of a TIME_SET: the old array time, low word in R1, high word in reply word 1 (R414). -/
def timeSetReply (w : Waiting) (old : Time) (s : State) : State :=
  formReply w.x w.ctx (replyTo s w.x w.ctx 0x74 .ok (old.setWidth 32)
    [paramWord ((old >>> 32).setWidth 32)]) s

/-- An edge of PPS measured, and its error acted on (R413). -/
def ppsMeasured (s : State) : State :=
  let e := ppsError s.now (s.rd (Reg.LCE_PPS_PHASE s.arb.primary)).toNat
  let good := if e = 0 then min (s.lace.ppsGood + 1) 16 else 0
  let s1 := s.modLace (fun b => { b with ppsGood := good })
  let s2 := s1.both (fun x t => (t.wr (Reg.LCE_PPS_ERR x) (sat32 e)).wf (Reg.LCE_STATUS x) 12 12 (b2n (16 ≤ good)))
  if s.trg.run = .idle && 3000 ≤ e.natAbs then stepTime (-e * 1024) s2 else slewBy ppmRate (-e * 1024) s2

/-- PPS_EDGE (R413, R414): a TIME_SET that waits for it acts, and the edge is measured by the array time it then has (log entry 160). -/
def execPpsEdge (dt : Nat) (s0 : State) : Host.Outcome State Fault Refusal :=
  let s := s0.elapse dt
  if !s.power.strapMaster || !s.rb (Reg.LCE_CTRL s.arb.primary) 0 || !s.power.booted then .next s
  else
    let l := s.lace.timeSet
    let s1 := ppsMeasured (l.foldl (fun t k => timeSetReply k.2 s.now (setTime k.1 t)) (s.modLace (fun b => { b with timeSet := [] })))
    .next (if l = [] then s1 else barrierCheck s1)

/-- TIME_SET (R414): array time is V at the first tick after this one, so V - 1 stands now (log entry 122). -/
def execTimeSet (dt : Nat) (c : Ctx) (v : Time) (p3 : Word) (s : State) : Host.Outcome State Fault Refusal :=
  .next (command dt c (.timeSet v p3) noPar
    (fun x s =>
      if !s.power.strapMaster || s.trg.run ≠ .idle then refuse s .wrongState
      else if bit p3.toNat 0 then
        if !s.rb (Reg.LCE_CTRL s.arb.primary) 0 then refuse s .notReady
        else .later (s.modLace (fun b => { b with timeSet := b.timeSet ++ [(v, ⟨x, 0x74, c, s.clock.ticks⟩)] }))
      else .done (setTime (v - 1) s) .ok (s.now.setWidth 32) [paramWord ((s.now >>> 32).setWidth 32)]) s)

/-! ### Array operations -/

/-- The opcode of an inner packet. -/
def innerOp (l : List Word72) : Nat := bits (l.headD 0).toNat 71 64

/-- Whether an inner packet is whole: its N parameter words and a correct CRC word (R427, R438). -/
def innerOk (l : List Word72) : Bool :=
  let n := bits (l.headD 0).toNat 55 48
  decide (l.length = n + 2) && decide ((l.getD (n + 1) 0).toNat = crc32 (wordsBytes (l.take (n + 1))))

/-- What refuses an inner packet before it is queued: an opcode that R427 excludes or that is none of R446, a count, or a layout
(R427, R437, R444). -/
def innerRefusal (l : List Word72) : Option Status :=
  let op := innerOp l
  let n := bits (l.headD 0).toNat 55 48
  if (0x70 ≤ op && op ≤ 0x74) || op = 0x7E || op = 0x7F || !knownOps.contains op then some .badOpcode
  else if !lengthOk op n ((l.getD 1 0).toNat % 2 ^ 32) then some .badLength
  else if !formOk (l.take (n + 1)) then some .badParam
  else none

/-- The inner packet taken up by this module: it waits in the command queue of the PRIMARY side with no transport to reply on, since the
arrival of the packet that carried it, or its refusal is recorded in LCE_BCAST (R427). -/
def takeInner (l : List Word72) (since : Nat) (s : State) : State :=
  let n := bits (l.headD 0).toNat 55 48
  match innerRefusal l with
  | some st =>
    s.both (fun y t => if t.live y then (t.wf (Reg.LCE_BCAST y) 15 8 (innerOp l)).wf (Reg.LCE_BCAST y) 7 0 st.code else t)
  | none => enqueue s.arb.primary ⟨.inner, l.take (n + 1), (l.getD (n + 1) 0).setWidth 32, since⟩ s

/-- An array operation counted on both sides, which both act on it (R382, R434). -/
def countOps (hi lo : Nat) (s : State) : State :=
  s.both (fun y t => if t.live y then t.bump (Reg.LCE_OPS y) hi lo 1 else t)

/-- The tick at which the packet of a command that is taken up came in. -/
def arrivedAt (c : Ctx) (s : State) : Nat := (((s.side (receiver s c)).mgt.queue.head?).map (·.since)).getD s.clock.ticks

/-- ARRAY_BROADCAST (R426, R427). -/
def execArrayBroadcast (dt : Nat) (c : Ctx) (inner : List Word72) (s : State) : Host.Outcome State Fault Refusal :=
  .next (command dt c (.arrayBroadcast inner)
    (fun _ _ => if inner.length < 2 || 31 < inner.length then some .badLength else param (innerOk inner))
    (fun _ t => okRes (countOps 15 0 (takeInner inner (arrivedAt c (s.elapse dt)) (sendDown 0x70 c 0 inner t)))) s)

/-- The ports whose children an ARRAY_BARRIER awaits: those of the PRIMARY side, and of the other side those whose child no port of the
PRIMARY side leads to (R408, R428). -/
def barrierPorts (s : State) : List (Nat × Nat) :=
  let y := s.arb.primary
  let here := (downPorts s y).foldl (fun a p => a ||| (s.child y p).roster) 0
  (downPorts s y).map (fun p => (sideNum y, p)) ++
    ((downPorts s (peerOf y)).filter (fun p =>
      (s.child (peerOf y) p).roster ≠ 0 && (s.child (peerOf y) p).roster &&& here = 0)).map (fun p => (sideNum (peerOf y), p))

/-- ARRAY_BARRIER (R428): the answers of the module's children are awaited. -/
def execArrayBarrier (dt : Nat) (c : Ctx) (s : State) : Host.Outcome State Fault Refusal :=
  .next (command dt c .arrayBarrier noPar
    (fun x s =>
      let s1 := countOps 15 0 (sendDown 0x71 c 0 [] s)
      let below := if s.power.strapMaster || c.bcast then barrierPorts s else []
      let b : Barrier := ⟨⟨x, 0x71, c, s.clock.ticks⟩, below, 1, 0, 0xFF⟩
      .later (barrierCheck (s1.modLace (fun l => { l with barriers := l.barriers ++ [b] })))) s)

/-- The rule of a scheduled array operation (R429): BAD_PARAM for a T off the grid of 8, LATE for a T too near. A
module below the root adds no reach; one that refuses with LATE counts it and raises side event 623. -/
def scheduled (x : Side) (c : Ctx) (op : Nat) (t : Time) (act : State → State) (s : State) : Res :=
  let below := c.bcast || !s.isRoot
  let lead := (if below then 0 else arrayReach s x) + 6000
  if !c.sched || t.toNat % 8 ≠ 0 then refuse s .badParam
  else if (t - s.now).toInt < lead then
    refuse (if below then raiseSide x 623 sevNotice noInst (countOps 31 16 s) else s) .late
  else okRes (countOps 15 0 (act (sendDown op c (t.setWidth 32) [paramWord ((t >>> 32).setWidth 32)] s)))

/-- ARRAY_SNAPSHOT (R429, R430). -/
def execArraySnapshot (dt : Nat) (c : Ctx) (t : Time) (s : State) : Host.Outcome State Fault Refusal :=
  .next (command dt c (.scheduled 0x72 t) noPar
    (fun x s => scheduled x c 0x72 t (fun s => s.modLace (fun b => { b with snapshotAt := b.snapshotAt ++ [t] })) s) s)

/-- ARRAY_RESET (R429, R430). -/
def execArrayReset (dt : Nat) (c : Ctx) (t : Time) (s : State) : Host.Outcome State Fault Refusal :=
  .next (command dt c (.scheduled 0x73 t) noPar
    (fun x s => scheduled x c 0x73 t (fun s => s.modLace (fun b => { b with resetAt := some (match b.resetAt with | some u => earlier u t | none => t) })) s) s)

end Sys2Proof.Machine
end

