-- ==== Sys2Proof/Machine/Commands.lean ====
section
/-!
DEFINITION. The transports and the plain commands (chapter "Commands, privilege and measurement"): packets taken in
over a port or the service SPI, replay, routing down the lace, and NOP, GET_STATUS, GET_MEASUREMENT, ATTEST and
GET_IDENTITY.
-/

namespace Sys2Proof.Machine

/-! ### Packets taken in -/

/-- The cached reply to a packet: same transport, tag and CRC word, less than 1 s old (R445). -/
def findCached (now : Nat) (via : Via) (tag : BitVec 8) (crc : Word) (l : List Cached) : Option Cached :=
  l.find? (fun e => e.via = via && e.tag = tag && e.crc = crc && decide (now < e.formed + 3000000000))

/-- The replay cache of a transport (R445). -/
def cacheOf (s : State) (x : Side) : Via → List Cached
  | .port y _ => (s.side y).mgt.cache
  | _ => if x = s.arb.primary then s.spi.cache else []

/-- Whether the original of a packet is still queued or executing on a side (R445). -/
def stillHeld (s : State) (x : Side) (via : Via) (tag : BitVec 8) (crc : Word) : Bool :=
  (s.side x).mgt.queue.any (fun p => p.via = via && p.crc = crc && hdr (p.words.headD 0) 63 56 = tag.toNat) ||
  (s.waitingCmds ++ s.lace.barriers.map (·.cmd)).any (fun w => w.ctx.via = via && w.ctx.tag = tag && w.ctx.crc = crc)

/-- An immediate answer to a packet that goes no further than the checks of R444. -/
def answer (x : Side) (via : Via) (w0 : Word72) (crc : Word) (st : Status) (s : State) : State :=
  let c : Ctx := ⟨via, BitVec.ofNat 8 (hdr w0 63 56), BitVec.ofNat 8 (hdr w0 47 40), hdr w0 35 35 = 1,
    hdr w0 34 34 = 1, BitVec.ofNat 2 (hdr w0 33 32), crc, .agree⟩
  formReply x c (replyTo s x c (hdr w0 71 64) st 0 []) s

/-- The LACE_DOWN port whose roster holds a target; none when no roster, or more than one, holds it (R408, R409). -/
def routeFor (s : State) (x : Side) (target : Nat) : Option Nat :=
  match (downPorts s x).filter (fun p => (s.child x p).roster.getLsbD target) with
  | [p] => some p
  | _ => none

/-- A packet sent on down the lace, its route kept for the reply (R409). -/
def routeDown (x : Side) (via : Via) (p : Nat) (ws : List Word72) (s : State) : State :=
  let w0 := ws.headD 0
  (keepRoute x ⟨BitVec.ofNat 8 (hdr w0 63 56), hdr w0 71 64, hdr w0 47 40, via, some p⟩ s).queueFrame x p
    (plainFrame s x 1 0 0 ws)

/-- A REPLAY reply (R445): the cached words and one more that holds the cached status. -/
def replay (x : Side) (via : Via) (e : Cached) (s : State) : State :=
  deliver x via { e.reply with
    status := Status.replay.code
    words := e.reply.words ++ [BitVec.ofNat 72 e.reply.status] } (s.bump (Reg.MGT_CMD_STATUS x) 7 0 1)

/-- A copy of a packet sent down the trees that came in on side x within 10 ms (R422). -/
def seenOn (s : State) (x : Side) (tag : BitVec 8) (crc : Word) : Bool :=
  s.lace.seen.any (fun e => e.1 = tag && e.2.1 = crc && e.2.2.2 = x && decide (s.clock.ticks < e.2.2.1 + 30000000))

/-- A copy with BROADCAST noted, and passed down the side's own tree, once (R410, R422). -/
def passBroadcast (x : Side) (ws : List Word72) (tag : BitVec 8) (crc : Word) (s : State) : State :=
  if seenOn s x tag crc then s
  else
    let s1 := s.modLace (fun b => { b with
      seen := b.seen.filter (fun e => decide (s.clock.ticks < e.2.2.1 + 30000000)) ++ [(tag, crc, s.clock.ticks, x)] })
    (downPorts s1 x).foldl (fun t p => t.queueFrame x p (plainFrame t x 1 0 0 ws)) s1

/-- The words of one packet at the front of a run of words: words 0 to N and the CRC word (R436). -/
def takePacket (ws : List Word72) : Option (List Word72 × Word72) :=
  let n := hdr (ws.headD 0) 55 48
  if n ≤ 31 then (ws[n + 1]?).map (fun c => (ws.take (n + 1), c)) else none

/-- A packet at the receiving side's controller: the checks of R444 that need no more than the packet, in their
order, then the command queue. -/
def takeIn (x : Side) (via : Via) (ws : List Word72) (s : State) : State :=
  match takePacket ws with
  | none => s.bump (Reg.MGT_CMD_STATUS x) 31 24 1
  | some (body, crcw) =>
    let crc : Word := crcw.setWidth 32
    if crcw.toNat ≠ crc32 (wordsBytes body) then s.bump (Reg.MGT_CMD_STATUS x) 31 24 1
    else
      let w0 := body.headD 0
      let tag := BitVec.ofNat 8 (hdr w0 63 56)
      let op := hdr w0 71 64
      let target := hdr w0 47 40
      let bcast := hdr w0 35 35 = 1 && fromParent s via
      let s1 := if bcast && privileged s via then passBroadcast x (body ++ [crcw]) tag crc s else s
      if bcast && seenOn s (peerOf x) tag crc then s1
      else
        match findCached s1.clock.ticks via tag crc (cacheOf s1 x via) with
        | some e => replay x via e s1
        | none =>
          if stillHeld s1 x via tag crc then s1
          else if target ≠ s1.moduleId x && target ≠ 0xFF then
            match routeFor s1 x target with
            | some p => if privileged s1 via then routeDown x via p (body ++ [crcw]) s1 else answer x via w0 crc .noAccess s1
            | none => answer x via w0 crc .badParam s1
          else if (target = 0xFF && !(arrayOp op && (bcast || s1.isRoot))) || (target ≠ 0xFF && ownDup s1 x) then
            answer x via w0 crc .badParam s1
          else if !knownOps.contains op then answer x via w0 crc .badOpcode s1
          else if !openOp op (hdr w0 31 0) && !privileged s1 via then answer x via w0 crc .noAccess s1
          else if !lengthOk op (hdr w0 55 48) ((body.getD 1 0).toNat % 2 ^ 32) then answer x via w0 crc .badLength s1
          else if !formOk body then answer x via w0 crc .badParam s1
          else enqueue x ⟨via, body, crc, s1.clock.ticks⟩ s1

/-- CMD_FRAME_RECEIVED (R368, R405, R440): from a child that is a second master nothing is accepted; mismatch: the pointers of the
command queue disagree at this access (R489). -/
def execCmdFrameReceived (dt : Nat) (x : Side) (p : Fin 16) (f : RxFrame) (mismatch : Bool) (s0 : State) :
    Host.Outcome State Fault Refusal :=
  let s := if mismatch && (s0.elapse dt).live x then queueError x 551 (flushCommands x (s0.elapse dt)) else s0.elapse dt
  let r := receiveFrame x p f s
  if !r.2 then .next r.1
  else if sofType f.sof ≠ 1 then .next s
  else if s.role x p = 3 && (s.child x p).master then .next (freeGroups x p (sofLen f.sof) r.1)
  else .next (freeGroups x p (sofLen f.sof) (takeIn x (.port x p) f.words r.1))

/-- The words of a run of bytes, 9 to a word (R9); bytes short of a word are left out. -/
def bytesWords (l : List Byte) : List Word72 :=
  (pieces 9 (l.length / 9) l).map (fun b => BitVec.ofNat 72 (ofBytesBE (b.map (·.toNat))))

/-- SPI_WRITE (R441, R442): the first byte 0x5A, then a packet; mismatch: the pointers of the command queue disagree at this access
(R489). -/
def execSpiWrite (dt : Nat) (bytes : List Byte) (mismatch : Bool) (s0 : State) : Host.Outcome State Fault Refusal :=
  let s1 := s0.elapse dt
  let x := s1.arb.primary
  let s := if mismatch && s1.live x then queueError x 551 (flushCommands x s1) else s1
  let s := { s with spi := { s.spi with miso := List.replicate bytes.length 0x00 } }
  if bytes.head? ≠ some 0x5A || !s.serving x then .next s
  else
    let ws := bytesWords bytes.tail
    if ws = [] || ws.length < hdr (ws.headD 0) 55 48 + 2 then .next s
    else if 4 ≤ s.spi.replies.length then .next (s.bump (Reg.MGT_CMD_STATUS x) 23 16 1)
    else .next (takeIn x .spi ws s)

/-- The bytes of a reply as SPI_MISO shows it after the kind byte: READY, SIDE, the packet (R441). With none waiting SIDE is the side
that SPI packets go to (R442). -/
def spiBytes (primary : Side) (r : Option (Side × Reply)) : List Byte :=
  match r with
  | none => [0x00, BitVec.ofNat 8 (sideNum primary)]
  | some (x, p) => 0x01 :: BitVec.ofNat 8 (sideNum x) :: (wordsBytes p.packet).map (BitVec.ofNat 8)

/-- SPI_READ (R441, R442): clocked counts the transaction's bytes, its kind byte included; mismatch: the pointers of the
reply buffer disagree at this access (R489). -/
def execSpiRead (dt : Nat) (clocked : Nat) (mismatch : Bool) (s0 : State) : Host.Outcome State Fault Refusal :=
  let s1 := s0.elapse dt
  let s := if mismatch then queueError s1.arb.primary 551 { s1 with spi := { s1.spi with replies := [] } } else s1
  let serve := s.serving .a || s.serving .b
  let front := if serve then s.spi.replies.head? else none
  let out := spiBytes s.arb.primary front
  let miso := ((0x00 :: out) ++ List.replicate (clocked - 1 - out.length) 0x00).take clocked
  let gone := front.isSome && decide (1 + out.length ≤ clocked)
  .next { s with spi := { s.spi with
    miso := miso, replies := if gone then s.spi.replies.tail else s.spi.replies } }

/-- PEER_TIMEOUT (R382). -/
def execPeerTimeout (dt : Nat) (x : Side) (s0 : State) : Host.Outcome State Fault Refusal :=
  let s := s0.elapse dt
  match (s.side x).mgt.fwd with
  | none => .next s
  | some w =>
    if s.serving (peerOf x) && w.since + 300000 ≤ s.clock.ticks then
      let s1 := endForward x (dequeue x w.ctx s)
      .next (barrierCheck (formReply x w.ctx (replyTo s1 x w.ctx w.op .peerTimeout 0 []) s1))
    else .next s

/-! ### Plain commands -/

/-- NOP (R446). -/
def execNop (dt : Nat) (c : Ctx) (s : State) : Host.Outcome State Fault Refusal :=
  .next (command dt c .nop noPar (fun _ s => okRes s) s)

/-- R1 of GET_STATUS (R450). -/
def statusWord (s : State) (c : Ctx) : Word :=
  BitVec.ofNat 32 (s.trg.run.code * 2 ^ 30 + (s.arb.svc.get .a).code * 2 ^ 28 + (s.arb.svc.get .b).code * 2 ^ 26
    + b2n s.arb.twin * 2 ^ 25 + b2n s.power.ready * 2 ^ 24 + b2n (s.alert .a) * 2 ^ 23 + b2n (s.alert .b) * 2 ^ 22
    + sideNum s.arb.primary * 2 ^ 21 + b2n s.power.strapMaster * 2 ^ 20 + b2n s.attached * 2 ^ 19
    + b2n (privileged s c.via) * 2 ^ 18)

/-- GET_STATUS (R450). -/
def execGetStatus (dt : Nat) (c : Ctx) (s : State) : Host.Outcome State Fault Refusal :=
  .next (command dt c .getStatus noPar
    (fun x s => .done s .ok (statusWord s c)
      [wideWord s.now, paramWord (s.rd (Reg.MGT_VERSION x)), BitVec.ofNat 72 (s.uptime % 2 ^ 32)]) s)

/-- Measurement register m of a side (R463). -/
def measOf (s : State) (x : Side) (m : Nat) : BitVec 384 := Sparse.get (s.side x).mgt.meas m 0

/-- A digest in 6 reply words (R464). -/
def digestWords (d : BitVec 384) : List Word72 :=
  (List.range 6).map (fun k => BitVec.ofNat 72 (bits d.toNat (383 - 64 * k) (320 - 64 * k)))

/-- The 7 words of log entry number i (R464). -/
def logWords (i : Nat) (e : LogEntry) : List Word72 :=
  BitVec.ofNat 72 (i * 2 ^ 32 + e.m * 2 ^ 24 + e.kind * 2 ^ 16 + e.arg * 2 ^ 8) :: digestWords e.digest

/-- What GET_MEASUREMENT replies (R464). -/
def measReply (s : State) (y : Side) (part : Nat) (n : Nat) : List Word72 :=
  let log := (s.side y).mgt.log
  match part with
  | 0 => (List.range 4).flatMap (fun m => digestWords (measOf s y m))
  | 1 => (List.range 4).flatMap (fun m => digestWords (measOf s y (4 + m)))
  | _ => ((log.drop n).take 3).zipIdx.flatMap (fun e => logWords (n + e.2) e.1)

/-- GET_MEASUREMENT (R464). -/
def execGetMeasurement (dt : Nat) (c : Ctx) (part : Word) (n : Option Word) (s : State) :
    Host.Outcome State Fault Refusal :=
  .next (command dt c (.getMeasurement part n)
    (fun _ s =>
      let k := part.toNat % 256
      if k = 2 && n.isNone then some .badLength
      else param (k ≤ 2 && (k ≠ 2 || decide ((n.getD 0).toNat < (s.side (namedSide s c)).mgt.log.length))))
    (fun _ s =>
      let y := namedSide s c
      .done s .ok (BitVec.ofNat 32 (s.side y).mgt.log.length) (measReply s y (part.toNat % 256) (n.getD 0).toNat)) s)

/-- The bytes that ATTEST signs (R465). -/
def attestBytes (s : State) (y : Side) (nonce : BitVec 256) (count : Word) : List Nat :=
  bytesBE 32 nonce.toNat ++ [s.moduleId y, sideNum y] ++
  (List.range 8).flatMap (fun m => bytesBE 48 (measOf s y m).toNat) ++
  bytesBE 4 (s.side y).mgt.log.length ++ bytesBE 4 count.toNat

/-- ATTEST (R465): the signature is a free value of Config (log entry 6). -/
def execAttest (dt : Nat) (c : Ctx) (nonce : BitVec 256) (s : State) : Host.Outcome State Fault Refusal :=
  .next (command dt c (.attest nonce) noPar
    (fun _ s =>
      let y := namedSide s c
      let s1 := s.count (Reg.MSR_ATTEST_COUNT y) 31 0 1
      let n := s1.rd (Reg.MSR_ATTEST_COUNT y)
      let sig := Config.ecdsa (sideNum y) (sha384 (attestBytes s y nonce n)) n.toNat
      .done s1 .ok n (digestWords sig.1 ++ digestWords sig.2)) s)

/-- The ordering code of the module, as ASCII (R1, R2). -/
def orderingCode : List Nat := (if Config.extendedGrade then "KVD-M20-Q0" else "KVD-M20-A0").toList.map Char.toNat

/-- The length of a side's certificate chain (R466), which holds the ordering code (R2). -/
def chainLen (y : Side) : Nat :=
  max ((Config.chainLength (sideNum y)).toNat + 1) ((Config.codePlace (sideNum y)).toNat + 10)

/-- Byte i of a side's certificate chain (R2, R466). -/
def chainAt (y : Side) (i : Nat) : Nat :=
  let p := (Config.codePlace (sideNum y)).toNat
  if p ≤ i ∧ i < p + 10 then nth orderingCode (i - p) else (Config.chainByte (sideNum y) i).toNat

/-- Up to 240 bytes of the chain from an offset, 8 to a word (R466). -/
def chainWords (y : Side) (off : Nat) : List Word72 :=
  let n := min 240 (chainLen y - off)
  (List.range ((n + 7) / 8)).map (fun k =>
    BitVec.ofNat 72 (ofBytesBE ((List.range 8).map (fun j =>
      if 8 * k + j < n then chainAt y (off + 8 * k + j) else 0))))

/-- GET_IDENTITY (R466). -/
def execGetIdentity (dt : Nat) (c : Ctx) (offset : Word) (s : State) : Host.Outcome State Fault Refusal :=
  .next (command dt c (.getIdentity offset)
    (fun _ s => param (decide (offset.toNat < chainLen (namedSide s c))))
    (fun _ s =>
      let y := namedSide s c
      .done s .ok (BitVec.ofNat 32 (chainLen y)) (chainWords y offset.toNat)) s)

end Sys2Proof.Machine
end

