-- ==== Sys2Proof/Machine/EventCommands.lean ====
section
/-!
DEFINITION. The event commands and EVENT frames (chapter "Events and telemetry", R480–R487).
-/

namespace Sys2Proof.Machine

/-- The refusal of EVENT_SUBSCRIBE for its parameter (R452, R481): an unprivileged port may name only itself, and
a subscribed port must be an UPLINK. -/
def subscribeCheck (c : Ctx) (p1 : Word) (x : Side) (s : State) : Option Status :=
  let ports := (List.range 16).filter (fun p => bit p1.toNat p)
  let ownOnly := match c.via with
    | .port _ p => ports = [p.val]
    | _ => false
  if !privileged s c.via && !ownOnly then some .noAccess
  else param (!(bit p1.toNat 18 && ports.any (fun p => s.role x p ≠ 1)))

/-- EVT_SUB set for every port named (R481). -/
def subscribe (x : Side) (p1 : Word) (s : State) : State :=
  let on := bit p1.toNat 18
  evSettle x ((List.range 16).foldl (fun t p =>
    if bit p1.toNat p then t.wr (Reg.EVT_SUB x p) (BitVec.ofNat 32 (if on then 4 + bits p1.toNat 17 16 else 0))
    else t) s)

/-- EVENT_SUBSCRIBE (R481). -/
def execEventSubscribe (dt : Nat) (c : Ctx) (p1 : Word) (s : State) : Host.Outcome State Fault Refusal :=
  .next (command dt c (.eventSubscribe p1) (subscribeCheck c p1)
    (fun x s => okRes (subscribe x p1 s)) s)

/-- The latest SEQ issued to side x before this cycle, whose raises are taken after an EVENT_ACK (R478). -/
def latestSeq (x : Side) (s : State) : Word := (evRound x s).base.next - 1

/-- The SEQ that an EVENT_ACK acknowledges through: P1, or the latest issued (R484). -/
def ackThrough (x : Side) (seq : Option Word) (s : State) : Word := seq.getD (latestSeq x s)

/-- Whether an EVENT_ACK is out of range: later than the latest SEQ issued, or earlier than EVT_ACKED (R484). -/
def ackCheck (seq : Option Word) (x : Side) (s : State) : Option Status :=
  match seq with
  | some w => param (!seqLater w (latestSeq x s) && !seqLater (s.rd (Reg.EVT_ACKED x)) w)
  | none => none

/-- Entries not later than a SEQ acknowledged, and those that may leave the queue gone, before the raises of the same cycle (R478, R483,
R484). -/
def acknowledge (x : Side) (w : Word) (s : State) : State :=
  evBefore x (fun c => { c with queue := c.queue.map (fun e => if seqLater e.seq w then e else { e with acked := true }) })
    (s.wr (Reg.EVT_ACKED x) w)

/-- EVENT_ACK (R484); mismatch: the pointers of the event queue disagree at this access (R489). -/
def execEventAck (dt : Nat) (c : Ctx) (seq : Option Word) (mismatch : Bool) (s : State) : Host.Outcome State Fault Refusal :=
  .next (command dt c (.eventAck seq) (ackCheck seq)
    (fun x s => okRes (acknowledge x (ackThrough x seq s) (if mismatch then eventMismatch x s else s))) s)

/-- EVT_FF re-armed, before the raises of the same cycle (R478, R486). -/
def clearFirstFailure (x : Side) (s : State) : State :=
  evBefore x (fun c => { c with
    valid := false
    later := 0 }) s

/-- FIRST_FAILURE_CLEAR (R486). -/
def execFirstFailureClear (dt : Nat) (c : Ctx) (s : State) : Host.Outcome State Fault Refusal :=
  .next (command dt c .firstFailureClear noPar
    (fun x s => okRes (clearFirstFailure x s)) s)

/-- The 4 words of an entry (R480). -/
def entryWords (e : EvEntry) : List Word72 :=
  [BitVec.ofNat 72 (e.src * 2 ^ 54 + e.sev * 2 ^ 52 + b2n e.acked * 2 ^ 51 + e.count * 2 ^ 32 + e.seq.toNat),
   wideWord e.first, wideWord e.last, BitVec.ofNat 72 e.inst]

/-- Whether a port has still to send an entry: it admits it and has neither sent nor begun it (R482). -/
def unsentOn (x : Side) (p : Nat) (s : State) (e : EvEntry) : Bool :=
  portAdmits x s e p && !e.sent.contains p && !e.sending.contains p

/-- The event queue emptied, and with it the EVENT frames not yet sent whole; the raises of the same cycle are taken after that (R478,
R491). -/
def flushEvents (x : Side) (s : State) : State :=
  (List.range 16).foldl (fun t p => portNext x p t)
    (evBefore x (fun c => { c with queue := [] }) (dropEventFrames x s))

/-- An EVENT frame sent on a port: a copy of one that has been formed carries its SEQ, another the next (R364). -/
def sendEvents (x : Side) (p : Nat) (ws : List Word72) (s : State) : State :=
  match (s.side x).evt.formed.find? (fun e => e.2 = ws) with
  | some e => sendFrame x p (plainFrame s x 3 4 e.1 ws) s
  | none =>
    let held (l : List Word72) : Bool := l.any (fun w => (s.side x).evt.queue.any (fun e => decide (w = (entryWords e).headD 0)))
    let n := s.frameSeq x 3
    sendFrame x p (plainFrame s x 3 4 n ws) ((s.modEvt x (fun v => { v with
      formed := v.formed.filter (fun e => held e.2) ++ [(n, ws)] })).tookSeq x 3)

/-- EVENT_FRAME_SEND (R482): an UP subscribed port with a whole allowance starts a frame of the oldest entries it
has not sent, and what raises in the same cycle comes after it; mismatch: the pointers of the event queue disagree at this access
(R489). -/
def execEventFrameSend (dt : Nat) (x : Side) (p : Fin 16) (mismatch : Bool) (s0 : State) : Host.Outcome State Fault Refusal :=
  let s := if mismatch && (s0.elapse dt).live x then eventMismatch x (s0.elapse dt) else s0.elapse dt
  let todo := (s.side x).evt.queue.filter (unsentOn x p s)
  let allow := allowNow s x p / allowUnit
  let n := min (min allow ((todo.length + 1) / 2)) 64
  if (s.port x p).state ≠ .up || s.role x p ≠ 1 || n = 0 then .next s
  else
    let go := (todo.take (2 * n)).map (·.seq)
    let words := (todo.take (2 * n)).flatMap entryWords
    let full := words ++ List.replicate (8 * n - words.length) 0
    let s1 := (allowSettle x p s).modPort x p (fun q => { q with allow := q.allow - n * allowUnit })
    let s2 := s1.modEvt x (fun v => { v with
      queue := v.queue.map (fun e => if go.contains e.seq then { e with begun := true, sending := insertNat p e.sending } else e)
      round := none })
    .next (sendEvents x p (padGroup full) s2)

/-- Every per-source record cleared (R495). -/
def clearSources (x : Side) (s : State) : State := s.modEvt x (fun v => { v with recs := [] })

end Sys2Proof.Machine
end

