-- ==== Sys2Proof/Machine/Deflate.lean ====
section
/-!
DEFINITION. The DEFLATE profile of the compressors (R278, R279, R592), the hit transform and its inverse (R277), and
the decompressor (R290–R293), for the format of RFC 1951.
-/

namespace Sys2Proof.Machine

/-! ### The hit transform (R277) -/

/-- Previous COARSE, LP and pair index of the transform (R277). -/
structure Delta where
  c : Nat
  lp : Nat
  k : Nat

/-- The start of a block or a unit (R277). -/
def Delta.zero : Delta := ⟨0, 0, 8191⟩

/-- Whether a word restarts the transform: UNIT_HEAD or FRAME_START (R277). -/
def restarts (w : Word72) : Bool := bits w.toNat 71 64 = 0xC2 || bits w.toNat 71 64 = 0xC4

/-- One word's delta step; inv inverts it (R277). -/
def deltaWord (inv : Bool) (d0 : Delta) (w0 : Word72) : Delta × Word72 :=
  let d := if restarts w0 then Delta.zero else d0
  let w := w0.toNat
  let go (n v p : Nat) : Nat := if inv then (v + p) % 2 ^ n else (v + 2 ^ n - p) % 2 ^ n
  if bits w 71 70 = 0 then
    let c := bits w 49 24
    let l := bits w 63 50
    let c1 := go 26 c d.c
    let l1 := go 14 l d.lp
    (if inv then { d with c := c1, lp := l1 } else { d with c := c, lp := l },
      BitVec.ofNat 72 (setBits (setBits w 49 24 c1) 63 50 l1))
  else if bits w 71 70 = 2 then
    let k := bits w 69 57
    let k1 := go 13 k ((d.k + 1) % 8192)
    (if inv then { d with k := k1 } else { d with k := k }, BitVec.ofNat 72 (setBits w 69 57 k1))
  else (d, w0)

/-- The delta step over the words of a block. -/
def deltaWords (inv : Bool) (l : List Word72) : List Word72 :=
  (l.foldl (fun (a : Delta × List Word72) w =>
    let r := deltaWord inv a.1 w
    (r.1, r.2 :: a.2)) (Delta.zero, [])).2.reverse

/-- The byte planes of one run of at most 64 words (R277). -/
def shuffleRun (l : List Word72) : List Nat :=
  let b := l.map wordBytes
  (List.range 9).flatMap (fun i => b.map (fun w => nth w i))

/-- A block's input as the bytes that DEFLATE encodes (R277). -/
def transform (xform : Bool) (l : List Word72) : List Nat :=
  if xform then (pieces 64 ((l.length + 63) / 64) (deltaWords false l)).flatMap shuffleRun else wordsBytes l

/-- The words of one run of n words from its byte planes. -/
def unshuffleRun (b : List Nat) : List Word72 :=
  let n := b.length / 9
  (List.range n).map (fun i => BitVec.ofNat 72 (ofBytesBE ((List.range 9).map (fun k => nth b (k * n + i)))))

/-- The words of a transformed input: the inverse of transform (R277). -/
def untransform (xform : Bool) (b : List Nat) : List Word72 :=
  if xform then deltaWords true ((pieces 576 ((b.length + 575) / 576) b).flatMap unshuffleRun)
  else (pieces 9 (b.length / 9) b).map (fun p => BitVec.ofNat 72 (ofBytesBE p))

/-! ### Parsing (R592 item 1) -/

/-- A symbol: a literal byte, or a match of a length at a distance. -/
inductive Sym
  | lit (b : Nat)
  | copy (len dist : Nat)
deriving DecidableEq, Repr

/-- The equal bytes at the front of two runs, at most lim. -/
def matchLen : Nat → List Nat → List Nat → Nat
  | 0, _, _ => 0
  | n + 1, a :: r, b :: t => if a = b then matchLen n r t + 1 else 0
  | _ + 1, _, _ => 0

/-- The hash of the three bytes at the front of a run, when they are there (R592). -/
def hash3 : List Nat → Option Nat
  | x :: y :: z :: _ => some ((x * 1024 ^^^ y * 32 ^^^ z) % 32768)
  | _ => none

/-- The longest match among candidates, most recent first; the first of the longest wins (R592). -/
def bestMatch (i lim : Nat) (here : List Nat) (cands : List (Nat × List Nat)) : Nat × Nat :=
  cands.foldl (fun (best : Nat × Nat) c =>
    let n := matchLen lim c.2 here
    if best.1 < n then (n, i - c.1) else best) (0, 0)

/-- The symbols of an input, each with its position. skip counts the positions that still lie inside a match; chains
holds, by hash, the 8 most recent positions with the input from each on (R592). -/
def parse (i skip : Nat) (chains : Sparse (List (Nat × List Nat))) : List Nat → List (Nat × Sym)
  | [] => []
  | b :: r =>
    let here := b :: r
    let h := hash3 here
    let old := match h with
      | some k => Sparse.get chains k []
      | none => []
    let chains1 := match h with
      | some k => Sparse.ins chains k ((i, here) :: old.take 7)
      | none => chains
    if 0 < skip then parse (i + 1) (skip - 1) chains1 r
    else
      let lim := min 258 (16384 - i % 16384)
      let m := bestMatch i lim here (old.filter (fun c => decide (i - c.1 ≤ 32768)))
      if 3 ≤ m.1 then (i, .copy m.1 m.2) :: parse (i + 1) (m.1 - 1) chains1 r
      else (i, .lit b) :: parse (i + 1) 0 chains1 r

/-! ### Codes (RFC 1951, R592 items 2 to 5) -/

/-- The least length of each length code from 257. -/
def lenBase : List Nat :=
  [3, 4, 5, 6, 7, 8, 9, 10, 11, 13, 15, 17, 19, 23, 27, 31, 35, 43, 51, 59, 67, 83, 99, 115, 131, 163, 195, 227, 258]
/-- Its extra bits. -/
def lenExtra : List Nat := [0, 0, 0, 0, 0, 0, 0, 0, 1, 1, 1, 1, 2, 2, 2, 2, 3, 3, 3, 3, 4, 4, 4, 4, 5, 5, 5, 5, 0]
/-- The least distance of each distance code. -/
def distBase : List Nat :=
  [1, 2, 3, 4, 5, 7, 9, 13, 17, 25, 33, 49, 65, 97, 129, 193, 257, 385, 513, 769, 1025, 1537, 2049, 3073, 4097, 6145,
   8193, 12289, 16385, 24577]
/-- Its extra bits. -/
def distExtra : List Nat :=
  [0, 0, 0, 0, 1, 1, 2, 2, 3, 3, 4, 4, 5, 5, 6, 6, 7, 7, 8, 8, 9, 9, 10, 10, 11, 11, 12, 12, 13, 13]

/-- The last code of a table of bases that does not exceed a value. -/
def codeFor (base : List Nat) (v : Nat) : Nat := (base.filter (fun b => decide (b ≤ v))).length - 1

/-- The n low bits of a value, lowest first. -/
def bitsLow : Nat → Nat → List Nat
  | 0, _ => []
  | n + 1, v => v % 2 :: bitsLow n (v / 2)

/-- The n bits of a code, highest first. -/
def bitsHigh (n v : Nat) : List Nat := (bitsLow n v).reverse

/-- An item of package-merge: weight and symbols. -/
abbrev Pkg := Nat × List Nat

/-- A leaf put in its place by weight, after those of equal weight. -/
def insertLeaf (p : Pkg) : List Pkg → List Pkg
  | [] => [p]
  | q :: r => if p.1 < q.1 then p :: q :: r else q :: insertLeaf p r

/-- Two lists merged by weight; at equal weight the first list's item comes first (R592). -/
def mergePkgs : Nat → List Pkg → List Pkg → List Pkg
  | 0, _, _ => []
  | _ + 1, [], b => b
  | _ + 1, a, [] => a
  | n + 1, p :: a, q :: b => if p.1 ≤ q.1 then p :: mergePkgs n a (q :: b) else q :: mergePkgs n (p :: a) b

/-- Neighbours packed in pairs; an odd last item is dropped (R592). -/
def packPairs : List Pkg → List Pkg
  | p :: q :: r => (p.1 + q.1, p.2 ++ q.2) :: packPairs r
  | _ => []

/-- The list of package-merge after n rounds (R592). -/
def pkgRounds (leaves : List Pkg) : Nat → List Pkg → List Pkg
  | 0, l => l
  | n + 1, l => pkgRounds leaves n (mergePkgs (2 * l.length + leaves.length) leaves (packPairs l))

/-- Code lengths by symbol from their counts, with a limit (R592): a single used symbol has length 1. -/
def packageMerge (lim : Nat) (counts : Sparse Nat) : Sparse Nat :=
  match counts with
  | [] => []
  | [e] => [(e.1, 1)]
  | _ =>
    let leaves := counts.foldl (fun l e => insertLeaf (e.2, [e.1]) l) ([] : List Pkg)
    let top := (pkgRounds leaves (lim - 1) leaves).take (2 * counts.length - 2)
    top.foldl (fun m p => p.2.foldl (fun m k => Sparse.upd m k 0 (· + 1)) m) []

/-- A table of code lengths, dense, for symbols 0 to n - 1. -/
def denseLens (m : Sparse Nat) (n : Nat) : List Nat := (List.range n).map (fun k => Sparse.get m k 0)

/-- The first canonical code of a length (RFC 1951). -/
def firstCode (lens : List Nat) : Nat → Nat
  | 0 => 0
  | l + 1 => 2 * (firstCode lens l + if l = 0 then 0 else lens.count l)

/-- The canonical codes of a table: (symbol, length, code) of every used symbol (R592 item 5). -/
def canonical (lens : List Nat) : List (Nat × Nat × Nat) :=
  lens.zipIdx.filterMap (fun e =>
    if e.1 = 0 then none else some (e.2, e.1, firstCode lens e.1 + (lens.take e.2).count e.1))

/-- The bits of a symbol under a table of codes. -/
def codeBits (codes : List (Nat × Nat × Nat)) (sym : Nat) : List Nat :=
  match codes.find? (·.1 = sym) with
  | some c => bitsHigh c.2.1 c.2.2
  | none => []

/-- A run of r equal values in the code-length sequence: code, extra bits, extra value (R592 item 3). -/
def codeZeros : Nat → Nat → List (Nat × Nat × Nat)
  | 0, _ => []
  | n + 1, r =>
    if 11 ≤ r then (18, 7, min r 138 - 11) :: codeZeros n (r - min r 138)
    else if 3 ≤ r then [(17, 3, r - 3)]
    else List.replicate r (0, 0, 0)

/-- What is left of a run of a value v after its first copy (R592 item 3). -/
def codeRepeats (v : Nat) : Nat → Nat → List (Nat × Nat × Nat)
  | 0, _ => []
  | n + 1, r =>
    if 3 ≤ r then (16, 2, min r 6 - 3) :: codeRepeats v n (r - min r 6)
    else List.replicate r (v, 0, 0)

/-- A sequence cut into runs of equal values: value and count. -/
def runsOf : List Nat → List (Nat × Nat)
  | [] => []
  | v :: r =>
    match runsOf r with
    | (w, n) :: t => if w = v then (v, n + 1) :: t else (v, 1) :: (w, n) :: t
    | [] => [(v, 1)]

/-- The code-length sequence coded in runs (R592 item 3). -/
def codeLengths (l : List Nat) : List (Nat × Nat × Nat) :=
  (runsOf l).flatMap (fun q =>
    if q.1 = 0 then codeZeros q.2 q.2 else (q.1, 0, 0) :: codeRepeats q.1 q.2 (q.2 - 1))

/-- The order of the code-length code lengths (RFC 1951). -/
def clOrder : List Nat := [16, 17, 18, 0, 8, 7, 9, 6, 10, 5, 11, 4, 12, 3, 13, 2, 14, 1, 15]

/-- Counts of symbols. -/
def countSyms (l : List Nat) : Sparse Nat := l.foldl (fun m k => Sparse.upd m k 0 (· + 1)) []

/-- The highest used symbol plus 1. -/
def topSym (m : Sparse Nat) : Nat := m.foldl (fun a e => max a (e.1 + 1)) 0

/-- A DEFLATE block in dynamic form after its BFINAL bit (R592 items 2 to 5). -/
def dynamicBits (syms : List Sym) : List Nat :=
  let ll := syms.map (fun s => match s with
    | .lit b => b
    | .copy n _ => 257 + codeFor lenBase n) ++ [256]
  let dd := syms.filterMap (fun s => match s with
    | .lit _ => none
    | .copy _ d => some (codeFor distBase d))
  let lm := packageMerge 15 (countSyms ll)
  let dm := if dd = [] then [(0, 1)] else packageMerge 15 (countSyms dd)
  let hlit := max 257 (topSym lm)
  let hdist := max 1 (topSym dm)
  let lLens := denseLens lm hlit
  let dLens := denseLens dm hdist
  let sq := codeLengths (lLens ++ dLens)
  let cm := packageMerge 7 (countSyms (sq.map (·.1)))
  let cl := denseLens cm 19
  let ordered := clOrder.map (nth cl)
  let hclen := max 4 (19 - (ordered.reverse.takeWhile (· = 0)).length)
  let cc := canonical cl
  let lc := canonical lLens
  let dc := canonical dLens
  [0, 1] ++ bitsLow 5 (hlit - 257) ++ bitsLow 5 (hdist - 1) ++ bitsLow 4 (hclen - 4)
    ++ (ordered.take hclen).flatMap (bitsLow 3)
    ++ sq.flatMap (fun e => codeBits cc e.1 ++ bitsLow e.2.1 e.2.2)
    ++ syms.flatMap (fun s => match s with
      | .lit b => codeBits lc b
      | .copy n d =>
        let i := codeFor lenBase n
        let j := codeFor distBase d
        codeBits lc (257 + i) ++ bitsLow (nth lenExtra i) (n - nth lenBase i) ++ codeBits dc j
          ++ bitsLow (nth distExtra j) (d - nth distBase j))
    ++ codeBits lc 256

/-- A DEFLATE block in stored form after its BFINAL bit, which stands at a bit position (R592 item 6). -/
def storedBits (pos : Nat) (data : List Nat) : List Nat :=
  [0, 0] ++ List.replicate ((8 - (pos + 3) % 8) % 8) 0 ++ bitsLow 16 data.length ++ bitsLow 16 (65535 - data.length)
    ++ data.flatMap (bitsLow 8)

/-- The DEFLATE blocks of an input from block k on: their bits, and how many are stored (R278, R592). -/
def deflateBlocks (input : List Nat) (syms : List (Nat × Sym)) : Nat → Nat → Nat → List Nat × Nat
  | 0, _, _ => ([], 0)
  | n + 1, k, pos =>
    let data := (input.drop (16384 * k)).take 16384
    let mine := (syms.filter (fun e => e.1 / 16384 = k)).map (·.2)
    let dyn := dynamicBits mine
    let sto := storedBits pos data
    let stored := decide (sto.length < dyn.length)
    let out := (if n = 0 then 1 else 0) :: (if stored then sto else dyn)
    let rest := deflateBlocks input syms n (k + 1) (pos + out.length)
    (out ++ rest.1, rest.2 + b2n stored)

/-- Bits packed into bytes, lowest bit first; the last byte filled with zeros. -/
def packBits (l : List Nat) : List Nat :=
  (pieces 8 ((l.length + 7) / 8) l).map (fun p => p.foldr (fun b a => 2 * a + b) 0)

/-- The number of DEFLATE blocks of an input (R278). -/
def deflateCount (input : List Nat) : Nat := max 1 ((input.length + 16383) / 16384)

/-- The DEFLATE stream of an input, and how many of its blocks are stored (R279, R592). -/
def deflate (input : List Nat) : List Nat × Nat :=
  let r := deflateBlocks input (parse 0 0 [] input) (deflateCount input) 0 0
  (packBits r.1, r.2)

/-! ### The decompressor (R290–R293) -/

/-- Why a decompression stopped: the stream ended, the input ran out, the output is full, or an error (R292, R293). -/
inductive Halt | done | need | full | illegal | distance | overrun | mismatch
deriving DecidableEq, Repr

/-- A decompression under way: bits left, bits used, bytes produced (latest first) and how many, why it stopped. -/
structure Infl where
  rest : List Nat
  used : Nat
  out : List Nat
  count : Nat
  stop : Option Halt

/-- Stopped for a reason. -/
def Infl.halt (i : Infl) (h : Halt) : Infl := { i with stop := some h }

/-- The input has run out: everything given is consumed. -/
def Infl.dry (i : Infl) : Infl := { i with rest := [], used := i.used + i.rest.length, stop := some .need }

/-- n bits taken, lowest first; none when they are not all there. -/
def takeBits : Nat → List Nat → Option (Nat × List Nat)
  | 0, l => some (0, l)
  | _ + 1, [] => none
  | n + 1, b :: r => (takeBits n r).map (fun q => (b + 2 * q.1, q.2))

/-- n bits taken, then k; stopped when the input runs out. -/
def Infl.take (i : Infl) (n : Nat) (k : Nat → Infl → Infl) : Infl :=
  if i.stop.isSome then i
  else
    match takeBits n i.rest with
    | some q => k q.1 { i with rest := q.2, used := i.used + n }
    | none => i.dry

/-- One byte put out: beyond the limit the output is full, beyond DECLARED it is an overrun, and in that order (R292, R293). -/
def Infl.emit (declared limit : Nat) (i : Infl) (b : Nat) : Infl :=
  if i.stop.isSome then i
  else if limit ≤ i.count then i.halt .full
  else if declared ≠ 0 && declared ≤ i.count then i.halt .overrun
  else { i with out := b :: i.out, count := i.count + 1 }

/-- The longest code of a table. -/
def maxLen (codes : List (Nat × Nat × Nat)) : Nat := codes.foldl (fun m c => max m c.2.1) 0

/-- A symbol decoded: the code grows bit by bit; one that no code begins is illegal (R292). -/
def decodeSym (codes : List (Nat × Nat × Nat)) : Nat → Nat → Nat → List Nat → Option Nat ⊕ (Nat × List Nat × Nat)
  | 0, _, _, _ => .inl (some 0)
  | _ + 1, _, _, [] => .inl none
  | n + 1, len, code, b :: r =>
    let c := 2 * code + b
    match codes.find? (fun e => e.2.1 = len + 1 && e.2.2 = c) with
    | some e => .inr (e.1, r, len + 1)
    | none => decodeSym codes n (len + 1) c r

/-- A symbol taken under a table, then k. -/
def Infl.sym (i : Infl) (codes : List (Nat × Nat × Nat)) (k : Nat → Infl → Infl) : Infl :=
  if i.stop.isSome then i
  else
    match decodeSym codes (maxLen codes) 0 0 i.rest with
    | .inr q => k q.1 { i with rest := q.2.1, used := i.used + q.2.2 }
    | .inl none => i.dry
    | .inl (some _) => i.halt .illegal

/-- len bytes copied from a distance back. -/
def Infl.copy (declared limit dist : Nat) : Nat → Infl → Infl
  | 0, i => i
  | n + 1, i => Infl.copy declared limit dist n (i.emit declared limit (nth i.out (dist - 1)))

/-- The symbols of a compressed block up to its end-of-block (RFC 1951). -/
def inflateSyms (declared limit : Nat) (lc dc : List (Nat × Nat × Nat)) : Nat → Infl → Infl
  | 0, i => i
  | n + 1, i =>
    if i.stop.isSome then i
    else
      i.sym lc (fun s i =>
        if s < 256 then inflateSyms declared limit lc dc n (i.emit declared limit s)
        else if s = 256 then i
        else if 285 < s then i.halt .illegal
        else
          i.take (nth lenExtra (s - 257)) (fun ex i =>
            i.sym dc (fun d i =>
              if 29 < d then i.halt .illegal
              else
                i.take (nth distExtra d) (fun dx i =>
                  let dist := nth distBase d + dx
                  if i.count < dist || 32768 < dist then i.halt .distance
                  else inflateSyms declared limit lc dc n
                    (Infl.copy declared limit dist (nth lenBase (s - 257) + ex) i)))))

/-- Whether code lengths over-subscribe a table (R292). -/
def oversubscribed (lens : List Nat) : Bool :=
  decide (32768 < lens.foldl (fun a l => if l = 0 then a else a + 2 ^ (15 - l)) 0)

/-- Whether code lengths leave a table incomplete (R292). -/
def incomplete (lens : List Nat) : Bool :=
  decide (lens.foldl (fun a l => if l = 0 then a else a + 2 ^ (15 - l)) 0 < 32768)

/-- The code lengths of a dynamic block read in runs, latest first, until total of them are there. -/
def readLengths (cc : List (Nat × Nat × Nat)) (total : Nat) (k : List Nat → Infl → Infl) : Nat → List Nat → Infl → Infl
  | 0, _, i => i.halt .illegal
  | n + 1, l, i =>
    if total ≤ l.length then (if total < l.length then i.halt .illegal else k l.reverse i)
    else
      i.sym cc (fun s i =>
        if s < 16 then readLengths cc total k n (s :: l) i
        else if s = 16 then
          match l with
          | [] => i.halt .illegal
          | v :: _ => i.take 2 (fun e i => readLengths cc total k n (List.replicate (3 + e) v ++ l) i)
        else if s = 17 then i.take 3 (fun e i => readLengths cc total k n (List.replicate (3 + e) 0 ++ l) i)
        else i.take 7 (fun e i => readLengths cc total k n (List.replicate (11 + e) 0 ++ l) i))

/-- A dynamic block (RFC 1951, R292). -/
def inflateDynamic (declared limit : Nat) (i : Infl) : Infl :=
  i.take 5 (fun hl i => i.take 5 (fun hd i => i.take 4 (fun hc i =>
    i.take (3 * (hc + 4)) (fun v i =>
      let given := (List.range (hc + 4)).map (fun j => v / 8 ^ j % 8)
      let cl := (List.range 19).map (fun s => match clOrder.findIdx? (· = s) with
        | some j => nth given j
        | none => 0)
      if oversubscribed cl then i.halt .illegal
      else
        readLengths (canonical cl) (hl + 257 + hd + 1) (fun l i =>
          let ll := l.take (hl + 257)
          let dl := l.drop (hl + 257)
          if oversubscribed ll || oversubscribed dl || incomplete ll then i.halt .illegal
          else inflateSyms declared limit (canonical ll) (canonical dl) (i.rest.length + 1) i) 400 [] i))))

/-- The fixed literal and length code lengths (RFC 1951). -/
def fixedLens : List Nat :=
  List.replicate 144 8 ++ List.replicate 112 9 ++ List.replicate 24 7 ++ List.replicate 8 8

/-- n stored bytes copied. -/
def inflateStored (declared limit : Nat) : Nat → Infl → Infl
  | 0, i => i
  | n + 1, i => i.take 8 (fun b i => inflateStored declared limit n (i.emit declared limit b))

/-- The blocks of a stream (RFC 1951). -/
def inflateBlocks (declared limit : Nat) : Nat → Infl → Infl
  | 0, i => i
  | n + 1, i =>
    if i.stop.isSome then i
    else
      i.take 1 (fun final i => i.take 2 (fun typ i =>
        let j := match typ with
          | 0 => i.take ((8 - i.used % 8) % 8) (fun _ i => i.take 16 (fun len i => i.take 16 (fun nlen i =>
              if len + nlen = 65535 then inflateStored declared limit len i else i.halt .illegal)))
          | 1 => inflateSyms declared limit (canonical fixedLens) (canonical (List.replicate 32 5)) (i.rest.length + 1) i
          | 2 => inflateDynamic declared limit i
          | _ => i.halt .illegal
        if j.stop.isSome then j
        else if final = 1 then j.halt .done
        else inflateBlocks declared limit n j))

/-- A raw DEFLATE stream decompressed until it stops: declared 0 sets no bound. -/
def inflate (declared limit : Nat) (input : List Nat) : Infl :=
  let l := input.flatMap (bitsLow 8)
  inflateBlocks declared limit (l.length + 1) ⟨l, 0, [], 0, none⟩

/-! ### Whole blocks (R282, R283, R291) -/

/-- What a decompression gives: the output bytes, the bits consumed, and why it stopped. -/
structure Unpacked where
  out : List Nat
  used : Nat
  stop : Halt
deriving DecidableEq, Repr

/-- A raw stream decompressed. -/
def unpackRaw (declared limit : Nat) (input : List Nat) : Unpacked :=
  let i := inflate declared limit input
  ⟨i.out.reverse, i.used, i.stop.getD .need⟩

/-- The word k of a run of bytes (R9). -/
def byteWord (b : List Nat) (k : Nat) : Nat := ofBytesBE ((b.drop (9 * k)).take 9)

/-- The end of a block after all its words: the check of BLOCK_CHECK (R283, R292). -/
def unpackCheck (input : List Nat) (p : Nat) (ws : List Word72) (out : List Nat) (extra : Bool) : Unpacked :=
  let end_ := 8 * 9 * (p + 3)
  if input.length < 9 * (p + 3) then ⟨out, 8 * input.length, .need⟩
  else
    let c := byteWord input (p + 2)
    if bits c 71 64 ≠ 0xE1 then ⟨out, end_, .illegal⟩
    else if bits c 63 32 ≠ crc32c (wordsBytes ws) || bits c 12 0 ≠ ws.length || extra then ⟨out, end_, .mismatch⟩
    else ⟨out, end_, .done⟩

/-- A whole block decompressed, word by word (R291–R293): limit in words of output. -/
def unpackBlock (declared limit : Nat) (input : List Nat) : Unpacked :=
  if input.length < 9 then ⟨[], 8 * input.length, .need⟩
  else if bits (byteWord input 0) 71 64 ≠ 0xE0 then ⟨[], 72, .illegal⟩
  else if input.length < 18 then ⟨[], 8 * input.length, .need⟩
  else if bits (byteWord input 1) 71 64 ≠ 0xE0 then ⟨[], 144, .illegal⟩
  else
    let p := bits (byteWord input 1) 63 48
    let xform := bit (byteWord input 0) 0
    let allowed := (if declared = 0 then 65529 else declared) / 9
    let cap := min limit allowed
    let ovr : Halt := if allowed < limit then .overrun else .full
    let payload := (input.drop 18).take (9 * p)
    let i := inflate 0 (if xform then 576 * (cap / 64 + 1) else 9 * (cap + 1)) payload
    let bytes := i.out.reverse
    let ready := if i.stop = some .done then bytes
      else if xform then bytes.take (bytes.length / 576 * 576) else bytes.take (bytes.length / 9 * 9)
    let ws := untransform xform ready
    let out := wordsBytes (ws.take cap)
    if cap < ws.length then ⟨out, 144 + i.used, ovr⟩
    else
      match i.stop with
      | some .done => unpackCheck input p ws out (decide (bytes.length % 9 ≠ 0))
      | some .need => if payload.length = 9 * p then ⟨out, 144 + i.used, .illegal⟩ else ⟨out, 8 * input.length, .need⟩
      | some h => ⟨out, 144 + i.used, h⟩
      | none => ⟨out, 144 + i.used, .illegal⟩

end Sys2Proof.Machine
end

