-- ==== Sys2Proof/Machine/Pixel.lean ====
section
/-!
DEFINITION. The pixel matrix: configuration copies, CONFIG_APPLY, the scrubber, the Awl injector, threshold scans,
drift tracking and pixel retirement (chapter "Pixel matrix").
-/

namespace Sys2Proof.Machine

/-- The pixel matrix changed by f. -/
def State.modPix (s : State) (f : Pix → Pix) : State := { s with pix := f s.pix }

/-! ### Numbering (R23) -/

/-- Column of global pixel p. -/
def pixX (p : Nat) : Nat := p % 1024
/-- Row of global pixel p. -/
def pixY (p : Nat) : Nat := p / 1024
/-- Tile of global pixel p. -/
def pixTile (p : Nat) : Nat := pixY p / 128 * 8 + pixX p / 128
/-- Local pixel of global pixel p. -/
def pixLocal (p : Nat) : Nat := pixY p % 128 * 128 + pixX p % 128
/-- Super-pixel of local pixel lp within its tile. -/
def localSuper (lp : Nat) : Nat := lp / 128 / 4 * 32 + lp % 128 / 4
/-- Pixel q of local pixel lp within its super-pixel. -/
def localQ (lp : Nat) : Nat := lp / 128 % 4 * 4 + lp % 4
/-- Global super-pixel of global pixel p. -/
def pixSuper (p : Nat) : Nat := pixTile p * 1024 + localSuper (pixLocal p)
/-- Global pixel of a local pixel of a tile. -/
def globalPix (t lp : Nat) : Nat := (t / 8 * 128 + lp / 128) * 1024 + t % 8 * 128 + lp % 128

/-! ### Configuration copies -/

/-- A pixel's word in a tile's image. -/
def TileImage.word (i : TileImage) (lp : Nat) : BitVec 10 := Sparse.get i.words lp i.base

/-- A pixel's word in a tile's image replaced. -/
def TileImage.put (i : TileImage) (lp : Nat) (w : BitVec 10) : TileImage :=
  { i with words := Sparse.set i.words lp w i.base }

/-- The word of pixel p in one of the copies. -/
def imageWord (m : Sparse TileImage) (p : Nat) : BitVec 10 :=
  (Sparse.get m (pixTile p) TileImage.reset).word (pixLocal p)

/-- The word of pixel p in one of the copies replaced. -/
def putWord (m : Sparse TileImage) (p : Nat) (w : BitVec 10) : Sparse TileImage :=
  Sparse.upd m (pixTile p) TileImage.reset (·.put (pixLocal p) w)

/-- Tiles copied from one image to another. -/
def copyTiles (tiles : List Nat) (src dst : Sparse TileImage) : Sparse TileImage :=
  tiles.foldl (fun m t => Sparse.set m t (Sparse.get src t TileImage.reset) TileImage.reset) dst

/-- Whether a pixel is retired (R84, R86). -/
def State.pixelRetired (s : State) (p : Nat) : Bool := s.bg.inForce.pixels.contains p || s.bg.unlisted.contains p

/-- What governs a pixel: its latch, or a retired pixel's fixed behaviour (R46). -/
def State.pixelConfig (s : State) (p : Nat) : BitVec 10 :=
  if s.pixelRetired p then (imageWord s.pix.latches p &&& 0x1FC) ||| 0x200 else imageWord s.pix.latches p

/-- Whether a pixel is enabled (R45, R46). -/
def State.pixelOn (s : State) (p : Nat) : Bool := (s.pixelConfig p).getLsbD 0

/-- A read of the shadow window (R45, R50). -/
def shadowRead (s : State) (p : Nat) : Word :=
  BitVec.ofNat 32 (b2n (s.pixelRetired p) * 2 ^ 31 + (imageWord s.pix.shadow p).toNat)

/-- A read of the applied-image window (R45, R50). -/
def appliedRead (s : State) (p : Nat) : Word :=
  BitVec.ofNat 32 (b2n (s.pixelRetired p) * 2 ^ 31 + (imageWord s.pix.applied p).toNat)

/-- A write of the shadow window: bits [9:0] (R45, R47, R48). -/
def shadowWrite (p : Nat) (w : Word) (s : State) : State :=
  s.modPix (fun x => { x with shadow := putWord x.shadow p (w.setWidth 10) })

/-- The first address of the shadow window (R584). -/
def shadowBase : Nat := 0x10000000

/-- The pixel whose shadow word stands at an address. -/
def shadowPixel (a : Nat) : Option Nat :=
  if shadowBase ≤ a ∧ a < shadowBase + 4 * 1048576 ∧ a % 4 = 0 then some ((a - shadowBase) / 4) else none

/-- Whether shadow writes are held: a CONFIG_APPLY is loading the staging buffers (R52). -/
def State.staging (s : State) : Bool :=
  match s.pix.apply with
  | some a => !a.staged
  | none => false

/-- The first slice boundary at least n ticks from now (R53). -/
def boundaryAfter (s : State) (n : Nat) : Time := BitVec.ofNat 64 (alignUp s.sliceTicks (s.now.toNat + n))

/-- The tiles a pair of masks selects: all 64 when both are 0 (R51). -/
def maskOrAll (lo hi : Word) : List Nat := if lo = 0 ∧ hi = 0 then List.range 64 else maskTiles lo hi

/-- An uncorrectable word of the applied image: the word 0, the latch disabled, event 522 (R64). DESIGN CHOICE (log entry 148): disabling
the latch clears its EN and leaves its other bits. -/
def imageError (p : Nat) (s : State) : State :=
  let s1 := s.modPix (fun x => { x with
    applied := putWord x.applied p 0
    latches := putWord x.latches p (imageWord x.latches p &&& 0x3FE) })
  raiseBase 522 sevFault noInst (s1.bump Reg.PIX_SCRUB_STATUS 23 16 1)

/-- An uncorrectable word of the shadow: the word 0, event 522 (R65). -/
def shadowError (p : Nat) (s : State) : State :=
  let s1 := s.modPix (fun x => { x with shadow := putWord x.shadow p 0 })
  raiseBase 522 sevFault noInst (s1.bump Reg.PIX_SCRUB_STATUS 23 16 1)

/-- A CONFIG_APPLY begun: the shadow, thresholds and polarity captured at acceptance (R51–R53). -/
def beginApply (tiles : List Nat) (w : Option Waiting) (s : State) : State :=
  let a : Apply := {
    tiles := tiles
    image := s.pix.shadow
    thr := tiles.map (fun t => (t, s.rd (Reg.PIX_THR t)))
    mode := s.rd Reg.PIX_MODE
    accepted := s.clock.ticks
    commitAt := boundaryAfter s 300000
    staged := false
    wait := w }
  s.modPix (fun x => { x with apply := some a })

/-- Whether a CONFIG_APPLY would change the applied polarity (R33). -/
def polarityChange (s : State) : Bool := s.rb Reg.PIX_MODE 0 ≠ s.rb Reg.PIX_MODE_APPLIED 0

/-- The shadow words that a CONFIG_APPLY of some tiles finds uncorrectable as it captures them (R65). -/
def captureErrors (tiles : List Nat) (bad : List (Fin 1048576)) (s : State) : State :=
  bad.foldl (fun u p => if tiles.contains (pixTile p.val) then shadowError p.val u else u) s

/-- CONFIG_APPLY (R33, R51–R56); bad lists the shadow words that read uncorrectable at the capture (R65). A CONFIG_APPLY that both
R56 and R33 refuse replies BUSY, which is the model's choice (log entry 106). -/
def execConfigApply (dt : Nat) (c : Ctx) (maskLo maskHi : Word) (bad : List (Fin 1048576)) (s : State) :
    Host.Outcome State Fault Refusal :=
  .next (command dt c (.configApply maskLo maskHi) noPar
    (fun x s =>
      if s.pix.apply.isSome || s.pix.scan.isSome then refuse s .busy
      else if polarityChange s && s.trg.run ≠ .idle then refuse s .wrongState
      else
        let tiles := maskOrAll maskLo maskHi
        .later (beginApply tiles (some ⟨x, 0x20, c, s.clock.ticks⟩) (captureErrors tiles bad s))) s)

/-- The held words landing in the shadow (R52): each is (old AND NOT mask) OR (value AND mask). -/
def landWord (s : State) (q : Nat × Word × Word) : State :=
  match shadowPixel q.1 with
  | some p => shadowWrite p ((shadowRead s p &&& ~~~q.2.1) ||| (q.2.2 &&& q.2.1)) s
  | none => s

/-- The shadow word of a held MODIFY_REG found uncorrectable as its landing reads it (R65). -/
def heldError (s : State) (h : Held) : State :=
  if h.modify && h.bad then
    match h.words.head?.bind (fun q => shadowPixel q.1) with
    | some p => shadowError p s
    | none => s
  else s

/-- A held write lands and its command replies (R52, R447, R449). -/
def landHeld (s0 : State) (h : Held) : State :=
  let s := heldError s0 h
  let r1 := if h.modify then
      match h.words.head? with
      | some q => match shadowPixel q.1 with
        | some p => shadowRead s p
        | none => h.r1
      | none => h.r1
    else h.r1
  let s1 := h.words.foldl landWord s
  formReply h.wait.x h.wait.ctx (replyTo s1 h.wait.x h.wait.ctx h.wait.op (if h.beyond then .badParam else .ok) r1 []) s1

/-- Staging complete: every held write lands, in order (R52). -/
def stagingDone (s : State) : State :=
  match s.pix.apply with
  | some a =>
    if a.staged then s
    else
      let held := s.pix.held
      barrierCheck (held.foldl landHeld (s.modPix (fun x => { x with apply := some { a with staged := true }, held := [] })))
  | none => s

/-- CONFIG_STAGING_DONE (R52). -/
def execConfigStagingDone (dt : Nat) (s : State) : Host.Outcome State Fault Refusal :=
  .next (stagingDone (s.elapse dt))

/-- f done as at array time t. -/
def atTime (t : Time) (f : State → State) (s : State) : State :=
  let r := f { s with clock := { s.clock with now := t } }
  { r with clock := { r.clock with now := s.clock.now } }

/-- The configuration scrubber at the beginning of a full pass (R60, R63). -/
def scrubAnew (s : State) : State := { s with clock := { s.clock with scrub := 0 } }

/-- The commit at B (R53–R55): applied image, latches and thresholds of the selected tiles together, the polarity,
PIX_APPLY_TIME and COUNT; the scrubber begins a full pass (R63) and drift references begin anew (R82). -/
def commitApply (a : Apply) (s : State) : State :=
  let s1 := (scrubAnew s).modPix (fun x => { x with
    applied := copyTiles a.tiles a.image x.applied
    latches := copyTiles a.tiles a.image x.latches
    apply := none
    driftRef := a.tiles.foldl (fun m t => Sparse.set m t none none) x.driftRef })
  let s2 := a.tiles.foldl (fun u t => u.wr (Reg.PIX_THR_APPLIED t) (Sparse.get a.thr t 0)) s1
  let s3 := (s2.wr Reg.PIX_MODE_APPLIED a.mode).count Reg.PIX_APPLY_STATUS 31 16 1
  s3.wr64 Reg.PIX_APPLY_TIME Reg.PIX_APPLY_TIME_4 a.commitAt

/-! ### Retirement and the scrubber -/

/-- A pixel retired (R84, R86): in force at once, and on the lists where they have room; mid raises what the same cycle raises
between its two events, in the order of their sources (R478). -/
def retirePixelWith (mid : State → State) (p : Nat) (s : State) : State :=
  if s.pixelRetired p then mid s
  else
    let full := 65536 ≤ (s.entries (·.pixels)).length
    let s1 : State :=
      if full then { s with bg := { s.bg with unlisted := insertNat p s.bg.unlisted } }
      else wantUpdate { s with bg := { s.bg with inForce := { s.bg.inForce with
        pixels := insertNat p s.bg.inForce.pixels } } }
    let s2 := mid (raiseTile (pixTile p) 3 sevNotice (pixLocal p) s1)
    if full then raiseBase 524 sevFault noInst s2 else s2

/-- A pixel retired by itself. -/
def retirePixel (p : Nat) (s : State) : State := retirePixelWith id p s

/-- A latch that differs from the applied image rewritten: counted, reported, and its pixel retired at the third
rewrite within 600 s (R61, R62). -/
def scrubFix (s : State) (p : Nat) : State :=
  let h := Sparse.get s.pix.fixes p Faults.clear
  let s1 := s.modPix (fun x => { x with
    latches := putWord x.latches p (imageWord x.applied p)
    fixes := Sparse.set x.fixes p (h.push s.now) Faults.clear })
  let s2 := (s1.bump Reg.PIX_SCRUB_STATUS 15 0 1).tallyAll .latchFix 1
  let note := raiseBase 521 sevNotice noInst
  if h.third s.now then retirePixelWith note p s2 else note s2

/-- The pixels of a tile whose latches differ from the applied image (R60). -/
def differing (s : State) (t : Nat) : List Nat :=
  let a := Sparse.get s.pix.applied t TileImage.reset
  let l := Sparse.get s.pix.latches t TileImage.reset
  if a = l then [] else ((List.range 16384).filter (fun lp => a.word lp ≠ l.word lp)).map (globalPix t)

/-- The latches with upsets in some of them (R60). -/
def flipLatches (flips : List Flip) (s : State) : State :=
  s.modPix (fun x => { x with latches := flips.foldl (fun m f => putWord m f.p.val f.val) x.latches })

/-- The scrub period in ticks: 1.2 s × 2^PERIOD (R60, R87). -/
def scrubPeriod (s : State) : Nat := 3600000000 * 2 ^ s.rf Reg.PIX_SCRUB_CTRL 3 1

/-- PIX_SCRUB_PASS (R60–R64): a full pass that compares every latch of every tile with the applied image, with the latches that upsets
have changed and the image words found bad; a bad word's latch is disabled and not compared. A tile under a THRESH_SCAN is compared like
every other, which is the model's choice (log entry 136). -/
def execPixScrubPass (dt : Nat) (flips : List Flip) (bad : List (Fin 1048576)) (s0 : State) :
    Host.Outcome State Fault Refusal :=
  let s := s0.elapse dt
  if !scrubRuns s || s.clock.scrub < scrubPeriod s then .next s
  else
    let s1 := flipLatches flips s
    let fix := ((List.range 64).flatMap (differing s1)).filter (fun p => !bad.any (fun b => b.val = p))
    let s2 := bad.foldl (fun t p => imageError p.val t) (fix.foldl scrubFix s1)
    .next (scrubAnew s2)

/-! ### Awl injector -/

/-- Whether writes of a register are ignored for a THRESH_SCAN in progress (R72). -/
def awlLocked (s : State) (a : Nat) : Bool :=
  s.pix.scan.isSome && [Reg.PIX_AWL_CTRL, Reg.PIX_AWL_PERIOD, Reg.PIX_AWL_TIME, Reg.PIX_AWL_TIME_4, Reg.PIX_AWL_FIRE].contains a

/-- The charge in electrons of an Awl pulse with a DAC and a SCALE (R66). -/
def awlCharge (dac : Nat) (scale : Bool) : Nat := dac * (if scale then 4096 else 64)

/-- A write of 1 to PIX_AWL_FIRE.FIRE (R67–R69, R72). A PIX_AWL_TIME that is the present tick has passed, and the spacing of a train is
that of PIX_AWL_PERIOD at FIRE: both are the model's choices (log entry 107). -/
def awlFire (s : State) : State :=
  let n := s.rf Reg.PIX_AWL_CTRL 31 16
  if s.pix.scan.isSome || s.pix.train.isSome || n = 0 then s
  else
    let per := s.rf Reg.PIX_AWL_PERIOD 23 0
    let t := s.rd64 Reg.PIX_AWL_TIME Reg.PIX_AWL_TIME_4
    let timed := s.rb Reg.PIX_AWL_CTRL 9
    let late := timed && reached s.now t
    let s1 := if per < 3000 then s.raiseBit Reg.PIX_AWL_STATUS 1 else s
    let s2 := if late then s1.raiseBit Reg.PIX_AWL_STATUS 2 else s1
    s2.modPix (fun x => { x with train := some ⟨n, if timed && !late then t else s.now + 1, max per 3000⟩ })

/-- A write of 1 to PIX_AWL_FIRE.ABORT (R69, R72). -/
def awlAbort (s : State) : State :=
  if s.pix.scan.isSome then s else s.modPix (fun x => { x with train := none })

/-- Whether an Awl pulse goes to a pixel: its latch had AWL_EN = 1 at the tick of the pulse, and it is not retired (R46, R71). -/
def State.pulsed (s : State) (k : Shot) (p : Nat) : Bool := (imageWord k.image p).getLsbD 1 && !s.pixelRetired p

/-- The charge of an Awl pulse added to the open pulses of a cluster (R71): d is its super-pixel. -/
def injectInto (s : State) (k : Shot) (d : Nat) (c : Cluster) : Cluster :=
  { c with pulses := c.pulses.map (fun q =>
      if q.fall.isNone && s.pulsed k (globalPix (d / 1024) q.lp) then { q with inj := q.inj + k.charge } else q) }

/-- An Awl pulse fired: it is kept for the pulses and the integration it falls in, and adds to the pulses that are open (R71). -/
def shoot (k : Shot) (s : State) : State :=
  let going := s.trg.run = .running && s.frames.started
  let s1 := s.modPix (fun x => { x with shots := (if going then x.shots else []) ++ [k] })
  { s1 with tdc := { s1.tdc with digis := s1.tdc.digis.map (fun e => (e.1, { e.2 with
      cluster := e.2.cluster.map (injectInto s k e.1)
      waiting := e.2.waiting.map (injectInto s k e.1) })) } }

/-- AWL_PULSE (R66, R67, R71): the train's next pulse fires; the hits it gives are ordinary data (R70). Its charge is that of
PIX_AWL_CTRL at the pulse, and a train goes on through a THRESH_SCAN that begins after it: both are the model's choices (log entry 107). -/
def execAwlPulse (dt : Nat) (s0 : State) : Host.Outcome State Fault Refusal :=
  let s := s0.elapse dt
  match s.pix.train with
  | some t =>
    if reached s.now t.next then
      let k : Shot := ⟨t.next, awlCharge (s.rf Reg.PIX_AWL_CTRL 7 0) (s.rb Reg.PIX_AWL_CTRL 8), s.pix.latches⟩
      .next ((shoot k s).modPix (fun x => { x with
        train := if t.left ≤ 1 then none else some { t with left := t.left - 1, next := t.next + BitVec.ofNat 64 t.period } }))
    else .next s
  | none => .next s

/-! ### Charge, threshold and range -/

/-- The charge in electrons that an amplifier set to holes, or else to electrons, collects of a signed charge, positive electrons and
negative holes (R32). -/
def collect (holes : Bool) (charge : Int) : Nat := (if holes then -charge else charge).toNat

/-- Whether the polarity in use is that of holes (R32, R87). -/
def State.holes (s : State) : Bool := s.rb Reg.PIX_MODE_APPLIED 0

/-- The charge that a pixel's amplifier collects of a signed charge under the polarity in use (R32). -/
def collected (s : State) (charge : Int) : Nat := collect s.holes charge

/-- The nominal threshold under a DAC and a trim, in half electrons (R43). -/
def threshold2 (dac trim : Nat) : Int := 25 * dac + 40 * ((trim : Int) - 16)

/-- Whether a pulse of a collected charge fires a discriminator (R43). -/
def fires (dac trim charge : Nat) : Bool := decide (0 < charge) && decide (threshold2 dac trim ≤ 2 * (charge : Int))

/-- The charge that the last Awl pulse adds to a pixel's pulse now: that of a pulse less than the least spacing of pulses ago, where it
went to the pixel (R68, R71; log entry 107). -/
def injected (s : State) (p : Nat) : Nat :=
  match s.pix.shots.getLast? with
  | some k => if decide (since s.now k.at_ < 3000) && s.pulsed k p then k.charge else 0
  | none => 0

/-- The range at the end of a pulse or at a sampling instant, of a charge in electrons under a configuration (R34–R38). -/
def rangeOf (cfg : BitVec 10) (charge : Nat) : Nat :=
  let full (r : Nat) : Nat := 16000 * 8 ^ r
  match bits cfg.toNat 8 7 with
  | 0 => if charge < 12800 then 0 else if charge < 102400 then 1 else if charge < 1024000 then 2 else 3
  | g => if full (g - 1) ≤ charge then 3 else g - 1

/-! ### Threshold scans -/

/-- What is out of range in a THRESH_SCAN (R73). -/
def scanRange (points pulses : Word) : Bool :=
  let v := points.toNat
  let w := pulses.toNat
  bits v 9 0 ≤ bits v 19 10 && bits v 23 20 ≠ 0 && bits w 15 0 ≠ 0 && bits w 23 16 ≠ 0

/-- A calibration that excludes a scan: FA_CAL or the initial time-calibration pass, by their BUSY flags (R73). -/
def calBusy (s : State) : Bool := s.rb Reg.FRM_STATUS 0 || s.rb Reg.TDC_INIT_STATUS 0

/-- THRESH_SCAN (R73, R74). -/
def execThreshScan (dt : Nat) (c : Ctx) (maskLo maskHi points pulses : Word) (s : State) :
    Host.Outcome State Fault Refusal :=
  .next (command dt c (.threshScan maskLo maskHi points pulses) (fun _ _ => param (scanRange points pulses))
    (fun _ s =>
      if s.trg.run ≠ .idle then refuse s .wrongState
      else if s.pix.apply.isSome || s.pix.scan.isSome || calBusy s then refuse s .busy
      else
        let v := points.toNat
        let w := pulses.toNat
        .done (s.modPix (fun x => { x with
          scan := some ⟨maskOrAll maskLo maskHi, bits v 9 0, bits v 19 10, bits v 23 20, bits w 15 0,
            awlCharge (bits w 23 16) (bit w 24), bit w 25, s.clock.ticks, []⟩ })) .accepted 0 []) s)

/-- The points of a scan: DAC_START upward in steps, not beyond DAC_STOP (R75). -/
def Scan.points (c : Scan) : List Nat := (List.range ((c.stop - c.start) / c.step + 1)).map (fun i => c.start + i * c.step)

/-- Where a scan stands after some ticks (R75): its pulses come every 3 000 ticks, PULSES of them at each point, every point in each of
16 passes; the pass and the place of the point. None when all have come. -/
def Scan.place (c : Scan) (ticks : Nat) : Option (Nat × Nat) :=
  let k := (ticks - c.since) / 3000
  let pass := k / (c.points.length * c.pulses)
  if pass < 16 then some (pass, k / c.pulses % c.points.length) else none

/-- A hit of a pixel at point i counted inside its tile (R75). -/
def Scan.count (c : Scan) (p i : Nat) : Scan :=
  let l := match Sparse.get c.hits p [] with
    | [] => List.replicate c.points.length 0
    | l => l
  { c with hits := Sparse.set c.hits p (l.set i (nth l i + 1)) [] }

/-- Whether a scan pulses pixel p after some ticks: pixel q of every super-pixel in pass q (R75). -/
def Scan.pulsing (c : Scan) (ticks p : Nat) : Bool :=
  match c.place ticks with
  | some (pass, _) => localQ (pixLocal p) = pass
  | none => false

/-- d50 of a pixel: the first point with at most half the pulses counted (R77). -/
def d50Of (c : Scan) (hits : List Nat) : Option Nat :=
  (c.points.zipIdx.find? (fun q => decide (2 * nth hits q.2 ≤ c.pulses))).map (·.1)

/-- A quotient rounded to nearest, halves away from zero (R77). -/
def roundDiv (n : Int) (d : Nat) : Int :=
  if 0 ≤ n then (2 * n + d) / (2 * d) else -((2 * -n + d) / (2 * d))

/-- The floor of a square root. -/
def isqrt (n : Nat) : Nat :=
  (List.range 40).foldr (fun k r => if (r + 2 ^ k) * (r + 2 ^ k) ≤ n then r + 2 ^ k else r) 0

/-- The rms of a list of d50 in eighths of a DAC step, rounded to nearest (R77, R78). DESIGN CHOICE (log entry 149): the deviation divides
by the number of pixels. -/
def rms8 (l : List Nat) : Nat :=
  let n := l.length
  let sum := l.foldl (· + ·) 0
  let sq := l.foldl (fun a d => a + d * d) 0
  (isqrt (4 * 64 * (n * sq - sum * sum) / (n * n)) + 1) / 2

/-- The trim of a pixel before it is clamped (R77). -/
def trimOf (d mean : Nat) : Int := 16 + roundDiv (5 * ((d : Int) - mean)) 8

/-- The pixels of a tile that a scan evaluates: not retired, applied EN = 1 (R77). -/
def scanned (s : State) (t : Nat) : List Nat :=
  (List.range 16384).filter (fun lp =>
    !s.pixelRetired (globalPix t lp) && (imageWord s.pix.applied (globalPix t lp)).getLsbD 0)

/-- The trim of a pixel written to the shadow, clamped to 0-31 (R77). -/
def writeTrim (t lp : Nat) (v : Int) (s : State) : State :=
  let p := globalPix t lp
  let w := imageWord s.pix.shadow p
  s.modPix (fun x => { x with
    shadow := putWord x.shadow p (BitVec.ofNat 10 (setBits w.toNat 6 2 (clampI 0 31 v).toNat)) })

/-- A tile's scan evaluated (R77, R78). The mean and rms of a tile without a crossing, and an rms beyond its field,
are free values (log entry 4). -/
def scanTile (c : Scan) (s : State) (t : Nat) : State :=
  let px := scanned s t
  let d := px.filterMap (fun lp => (d50Of c (Sparse.get c.hits (globalPix t lp) [])).map (fun v => (lp, v)))
  let vals := d.map (·.2)
  let mean := if vals = [] then s.free.toNat % 1024
    else (roundDiv ((vals.foldl (· + ·) 0 : Nat) : Int) vals.length).toNat
  let rms := if vals = [] || 1024 ≤ rms8 vals then s.free.toNat / 1024 % 1024 else rms8 vals
  let s0 := if vals = [] || 1024 ≤ rms8 vals then s.took else s
  let trims := d.map (fun q => (q.1, trimOf q.2 mean))
  let bad := (trims.filter (fun q => decide (q.2 < 0) || decide (31 < q.2))).length
  let s1 := if c.equalise then trims.foldl (fun u q => writeTrim t q.1 q.2 u) s0 else s0
  let s2 := s1.wr (Reg.PIX_SCAN_MEAN t) (BitVec.ofNat 32 (rms * 2 ^ 16 + mean))
  s2.wr (Reg.PIX_SCAN_RESULT t)
    (BitVec.ofNat 32 ((if c.equalise then bad else 0) * 2 ^ 16 + (px.length - d.length)))

/-- THRESH_SCAN_DONE (R74, R76–R79); bad lists the words of the applied image that read uncorrectable as the latches are restored
(R64). -/
def execThreshScanDone (dt : Nat) (bad : List (Fin 1048576)) (s0 : State) : Host.Outcome State Fault Refusal :=
  let s := s0.elapse dt
  match s.pix.scan with
  | none => .next s
  | some c =>
    if s.clock.ticks < c.since + 16 * c.points.length * c.pulses * 3000 then .next s
    else
      let s1 := c.tiles.foldl (scanTile c) s
      let s2 := s1.modPix (fun x => { x with
        scan := none
        latches := copyTiles c.tiles x.applied x.latches })
      .next (raiseBase 525 sevInfo noInst
        (bad.foldl (fun u p => if c.tiles.contains (pixTile p.val) then imageError p.val u else u) s2))

/-! ### Drift tracking -/

/-- Whether drift tracking has measured tile t for 50 ms (R81). -/
def driftDone (s : State) (t : Nat) : Bool :=
  match s.clock.drift with
  | some (k, n) => driftRuns s && decide (k = t) && driftIdle s t && decide (150000000 ≤ n)
  | none => false

/-- DRIFT_MEASURE (R80–R82): dac is the lowest DAC value at which the tile's noise is at or below 1 000 hits/s. -/
def execDriftMeasure (dt : Nat) (t : Fin 64) (dac : BitVec 10) (s0 : State) : Host.Outcome State Fault Refusal :=
  let s := s0.elapse dt
  if !driftDone s t then .next s
  else
    let ref := Sparse.get s.pix.driftRef t.val none
    let d : Int := match ref with
      | some r => (dac.toNat : Int) - r
      | none => 0
    let s0 := { s with clock := { s.clock with drift := none } }
    let s1 := s0.modPix (fun x => { x with
      driftTile := (t.val + 1) % 64
      driftRef := Sparse.set x.driftRef t.val (some (ref.getD dac.toNat)) none })
    let s2 := s1.wr (Reg.PIX_DRIFT t.val) (BitVec.ofNat 32 (unsigned 11 d))
    if s.rf Reg.PIX_DRIFT_CTRL 15 8 < d.natAbs then .next (raiseBase 523 sevNotice noInst s2) else .next s2

end Sys2Proof.Machine
end

