-- ==== Sys2Proof/Machine/Items.lean ====
section
/-!
DEFINITION. Work items and the ready list (R237, R256, R260): how producers enqueue, and who runs what.
-/

namespace Sys2Proof.Machine

/-- Side x's dispatcher changed by f. -/
def State.modDsp (s : State) (x : Side) (f : Dsp → Dsp) : State := s.modSide x (fun d => { d with dsp := f d.dsp })

/-- Side x's compression changed by f. -/
def State.modCmp (s : State) (x : Side) (f : Cmp → Cmp) : State := s.modSide x (fun d => { d with cmp := f d.cmp })

/-- Side x's burst store changed by f. -/
def State.modBst (s : State) (x : Side) (f : Bst → Bst) : State := s.modSide x (fun d => { d with bst := f d.bst })

/-- The type code of an item (R237). -/
def Work.kind : Work → Nat
  | .sort _ => 0
  | .cluster _ => 1
  | .record _ => 2
  | .merge _ _ => 3
  | .verify _ => 4
  | .telemetry _ => 5
  | .reduce _ => 6

/-- The key of an item (R237). -/
def Work.key : Work → Nat
  | .sort u => u.toNat % 64
  | .cluster u => u.toNat % 64
  | .record _ => 80
  | .merge p _ => 64 + p
  | .verify _ => 81
  | .telemetry _ => 82
  | .reduce _ => 83

/-- The priority of an item's type (R256, R267). -/
def prioOf (s : State) (x : Side) (w : Work) : Nat :=
  s.rf (Reg.DSP_PRIO x) (2 * w.kind + 1) (2 * w.kind)

/-- Whether an older LACE_MERGE of an item's port waits outside the ready list, so that the item waits behind it: a port's frames leave
in the order they arrived (R255). -/
def behindMerge (d : Dsp) (w : Work) : Bool :=
  w.kind = 3 && (d.held.any (fun i => i.work.key = w.key && i.work.kind = 3)
    || d.again.any (fun i => i.1.key = w.key && i.1.kind = 3))

/-- An item put at the end of the ready list, or refused to its producer, which holds it (R255, R260). -/
def enqueueItem (x : Side) (w : Work) (s : State) : State :=
  let n := (s.side x).dsp.ready.length
  if behindMerge (s.side x).dsp w then s.modDsp x (fun d => { d with held := d.held ++ [⟨w, s.clock.ticks⟩] })
  else if n < 4096 then
    (s.modDsp x (fun d => { d with ready := d.ready ++ [(prioOf s x w, ⟨w, s.clock.ticks⟩)], refused := false })).high
      (Reg.DSP_READY_MAX x) 12 0 (n + 1)
  else
    let s1 := (s.bump (Reg.DSP_REFUSED x) 31 0 1).modDsp x (fun d => { d with
      held := d.held ++ [⟨w, s.clock.ticks⟩], refused := true })
    if (s.side x).dsp.refused then s1 else raiseSide x 573 sevNotice noInst s1

/-- The items that producers hold are offered again, in order (R255, R260). -/
def retryHeld (x : Side) (s : State) : State :=
  let l := (s.side x).dsp.held
  l.foldl (fun t i => enqueueItem x i.work t) (s.modDsp x (fun d => { d with held := [] }))

/-- The side that runs CAL_REDUCE: PRIMARY, or the one side in service (R240). -/
def reduceSide (s : State) : Side := if s.serving s.arb.primary then s.arb.primary else peerOf s.arb.primary

/-- Whether a CAL_REDUCE item of a tile waits on a side. -/
def reduceWaits (s : State) (x : Side) (t : Nat) : Bool :=
  (s.side x).dsp.ready.any (fun i => i.2.work = .reduce t) || (s.side x).dsp.held.any (fun i => i.work = .reduce t)

/-- A tile's CAL_REDUCE item, if an item is one. -/
def Work.reduces : Work → Bool
  | .reduce _ => true
  | _ => false

/-- An engine without the CAL_REDUCE items it has: they leave no output (R239). -/
def Engine.noReduce (g : Engine) : Engine :=
  let keep (i : Option (Item × Nat)) : Option (Item × Nat) := i.filter (fun q => !q.1.work.reduces)
  match keep g.item with
  | some i => { g with item := some i, saved := keep g.saved }
  | none => { g with item := keep g.saved, saved := none }

/-- The CAL_REDUCE items of a side that does not run them any more leave it (R240). -/
def leaveReductions (x : Side) (s : State) : State :=
  s.modDsp x (fun d => { d with
    ready := d.ready.filter (fun i => !i.2.work.reduces)
    held := d.held.filter (fun i => !i.work.reduces)
    again := d.again.filter (fun i => !i.1.reduces)
    engines := d.engines.map (fun e => (e.1, e.2.noReduce)) })

/-- A tile has completed fills or attempts: its CAL_REDUCE item is created, once (R237). -/
def wantReduce (t : Nat) (s : State) : State :=
  let x := reduceSide s
  if !s.serving x || reduceWaits s x t then s else enqueueItem x (.reduce t) s

end Sys2Proof.Machine
end

