-- ==== Sys2Proof/Machine/Vernier.lean ====
section
/-!
DEFINITION. Vernier timing digitizers (chapter "Vernier timing digitizers"): edges, conversions and clusters, the
code-density calibration with its initial pass and background rotation, tables, and the external-trigger digitizers.
-/

namespace Sys2Proof.Machine

/-! ### Tables and time -/

/-- The digitizers changed by f. -/
def State.modTdc (s : State) (f : Tdc → Tdc) : State := { s with tdc := f s.tdc }

/-- Digitizer d: a global super-pixel, or 65 536 + i for ETDi. -/
def State.digi (s : State) (d : Nat) : Digi := Sparse.get s.tdc.digis d Digi.idle

/-- Digitizer d changed by f. -/
def State.modDigi (s : State) (d : Nat) (f : Digi → Digi) : State :=
  s.modTdc (fun t => { t with digis := Sparse.upd t.digis d Digi.idle f })

/-- Tile t's rotation. -/
def State.rotation (s : State) (t : Nat) : Rotation := Sparse.get s.tdc.rot t Rotation.idle

/-- Tile t's rotation changed by f. -/
def State.modRot (s : State) (t : Nat) (f : Rotation → Rotation) : State :=
  s.modTdc (fun k => { k with rot := Sparse.upd k.rot t Rotation.idle f })

/-- Tile t. -/
def State.tile (s : State) (t : Nat) : Tile := Sparse.get s.tiles t Tile.idle

/-- Tile t changed by f. -/
def State.modTile (s : State) (t : Nat) (f : Tile → Tile) : State :=
  { s with tiles := Sparse.upd s.tiles t Tile.idle f }

/-- An entry of the nominal table (R115). -/
def nominal (n : Nat) : Nat := 65536 - 1024 * n - 512

/-- Entry n of a table, nominal where none is listed (R115, R123). -/
def entryOf (table : List Nat) (n : Nat) : Nat := if table = [] then nominal n else nth table n

/-- The fine time of a raw code: the table in use, or 0 in a coarse-only digitizer (R92, R130). -/
def Digi.fine (d : Digi) (n : Nat) : Nat := if d.coarse then 0 else entryOf d.inUse n / 64

/-- The first slice boundary after now (R116). -/
def nextBoundary (s : State) : Time := boundaryAfter s 1

/-- A table and its first use from the next slice boundary (R116, R124). -/
def newTable (d : Nat) (table : List Nat) (s : State) : State :=
  s.modDigi d (fun g => { g with latest := table, effectAt := some (nextBoundary s) })

/-- A table entry written: bits [15:0] of the word for even n, [31:16] for odd n (R123, R124). -/
def writeTable (d word : Nat) (w : Word) (s : State) : State :=
  let old := (List.range 64).map (entryOf (s.digi d).latest)
  newTable d ((old.set (2 * word) (bits w.toNat 15 0)).set (2 * word + 1) (bits w.toNat 31 16)) s

/-- A read of a table word: the latest values (R123, R124). -/
def readTable (s : State) (d word : Nat) : Word :=
  let t := (s.digi d).latest
  BitVec.ofNat 32 (entryOf t (2 * word + 1) * 2 ^ 16 + entryOf t (2 * word))

/-- R114: a histogram reduced to a table; sum is the count below the bin. -/
def reduceFrom (sum : Nat) : List Nat → List Nat
  | [] => []
  | h :: r => min 65535 (65536 - (2 * sum + h + 4) / 8) :: reduceFrom (sum + h) r

/-- R113: whether a complete fill is accepted. -/
def fillAccepted (hist : List Nat) (ovr : Nat) : Bool :=
  48 ≤ (hist.filter (· ≠ 0)).length && hist.all (· ≤ 12288) && ovr ≤ 8192

/-- The edges of a complete fill (R112). -/
def fillSize : Nat := 262144

/-- A tile of a super-pixel digitizer, and its s. -/
def digiTile (d : Nat) : Nat := d / 1024

/-- CAL_TABLE_TAKES_EFFECT (R116, R124, R129). -/
def execCalTableTakesEffect (dt : Nat) (d : Fin 65540) (s0 : State) : Host.Outcome State Fault Refusal :=
  let s := s0.elapse dt
  match (s.digi d).effectAt with
  | some t =>
    if reached s.now t then
      .next (s.modDigi d (fun g => { g with inUse := g.latest, coarse := g.coarse || g.coarseNext, effectAt := none }))
    else .next s
  | none => .next s

/-! ### Retirement and calibration failures -/

/-- Whether a digitizer is retired (R129, R136). -/
def State.digiRetired (s : State) (d : Nat) : Bool :=
  s.bg.inForce.digitizers.contains d || s.bg.unlistedDigis.contains d

/-- A tile's rotation after the end of its present fill: the wait of R119 begins. -/
def rotationEnds (t : Nat) (s : State) : State :=
  s.modRot t (fun r => { r with active := false, first := none, ended := s.clock.ticks })

/-- Whether the initial pass fills a digitizer now (R117). -/
def passFills (s : State) (d : Nat) : Bool :=
  match s.tdc.pass with
  | some p =>
    1 ≤ p.attempt && !p.ended.contains d && !s.digiRetired d
      && (if d < 65536 then p.tiles.contains (digiTile d) else p.ext && !s.rb (Reg.TDC_EXT_CTRL (d - 65536)) 6)
      && (p.attempt = 1 || p.again.contains d)
  | none => false

/-- Whether the background rotation fills a digitizer now (R119). -/
def rotationFills (s : State) (d : Nat) : Bool :=
  d < 65536 && (s.rotation (digiTile d)).active && (s.rotation (digiTile d)).cur = d % 1024

/-- Whether a fill is in progress in a tile: of its rotation, or of the initial pass (R117, R119, R137). -/
def filling (s : State) (t : Nat) : Bool :=
  (s.rotation t).active || (s.tdc.pass.isSome && (List.range 1024).any (fun k => passFills s (1024 * t + k)))

/-- The tick from the pass's beginning at which an attempt begins (R117). -/
def attemptAt (k : Nat) : Nat := 22500000 + 292500000 * k

/-- The tick at which an ETD's present fill began: with its attempt of the initial pass, else with its turn (R117, R136). DESIGN CHOICE
(log entry 150): a fill that PAUSE interrupts keeps its edges and goes on after it. -/
def etdBegan (s : State) (d : Nat) : Nat :=
  match s.tdc.pass with
  | some p => if passFills s d then p.since + attemptAt (p.attempt - 1) else s.tdc.etdSince
  | none => s.tdc.etdSince

/-- The earliest tick from which an edge may still enter a fill of an ETD. -/
def etdFrom (s : State) (d : Nat) : Nat := min s.tdc.etdSince (etdBegan s d)

/-- The real edges that a digitizer's calibration may still have to know of (R110, R136). -/
def stillNeeded (s : State) (d : Nat) (reals : List Nat) : List Nat :=
  reals.filter (fun r => decide (s.clock.ticks ≤ r + 300) || (decide (65536 ≤ d) && decide (etdFrom s d ≤ r + 300)))

/-- A fill of a digitizer is over: its histogram is cleared, and the pass or the rotation goes on. A calibration conversion that still
runs is kept for the digitizer's next fill, which is the model's choice (log entry 108). -/
def fillOver (d : Nat) (failed : Bool) (s : State) : State :=
  let s1 := s.modDigi d (fun g => { g with hist := [], ovr := 0, codes := [], reals := stillNeeded s d g.reals })
  match s.tdc.pass with
  | some p =>
    if passFills s d then
      s1.modTdc (fun k => { k with pass := some { p with
        ended := insertNat d p.ended, failed := if failed then insertNat d p.failed else p.failed } })
    else if rotationFills s d then rotationEnds (digiTile d) s1 else s1
  | none => if rotationFills s d then rotationEnds (digiTile d) s1 else s1

/-- A digitizer retired (R118, R122, R129, R131, R136, R552). -/
def retireDigitizer (d : Nat) (s : State) : State :=
  if s.digiRetired d then s
  else
    let full := d < 65536 && 4096 ≤ ((s.entries (·.digitizers)).filter (· < 65536)).length
    let s1 : State :=
      if full then raiseBase 524 sevFault noInst { s with bg := { s.bg with
        unlistedDigis := insertNat d s.bg.unlistedDigis } }
      else wantUpdate { s with bg := { s.bg with inForce := { s.bg.inForce with
        digitizers := insertNat d s.bg.inForce.digitizers } } }
    let s2 := if rotationFills s d then rotationEnds (digiTile d) s1 else s1
    if d < 65536 then
      raiseTile (digiTile d) 2 sevFault (d % 1024)
        (s2.modDigi d (fun g => { g with coarseNext := true, effectAt := some (nextBoundary s) }))
    else raiseBase 528 sevFault (d - 65536) (s2.modDigi d (fun g => { g with coarse := true, coarseNext := true }))

/-- A digitizer that the initial pass retires counted in it (R118). -/
def countRetired (s : State) : State :=
  s.modTdc (fun k => { k with pass := k.pass.map (fun p => { p with retired := p.retired + 1 }) })

/-- A calibration failure of a digitizer (R113, R118, R122, R136): counted, reported, and retired at the third; that of one retired since is
not counted (R549). -/
def calFailure (d : Nat) (s : State) : State :=
  if s.digiRetired d then fillOver d true s else
  let f := (s.digi d).faults
  let s1 := (fillOver d true s).tallyAll .calFail 1
  let s2 := if d < 65536 then
      raiseTile (digiTile d) 2 sevNotice (d % 1024) (s1.bump (Reg.TDC_CAL_FAIL (digiTile d)) 15 0 1)
    else raiseBase 528 sevNotice (d - 65536) s1
  if f.third s.now then retireDigitizer d (if passFills s d then countRetired s2 else s2)
  else s2.modDigi d (fun g => { g with faults := g.faults.push s.now })

/-- A complete fill of a super-pixel digitizer (R113): accepted for reduction, or a calibration failure. -/
def fillComplete (d : Nat) (s : State) : State :=
  let g := s.digi d
  let t := digiTile d
  let s1 := s.count (Reg.TDC_CAL_STATUS t) 31 16 1
  if fillAccepted g.hist g.ovr then
    wantReduce t ((fillOver d false s1).modTdc (fun k => { k with
      fills := Sparse.upd k.fills t [] (fun l => l ++ [(d, g.hist)]) }))
  else calFailure d s1

/-! ### Calibration edges -/

/-- The clearance around a real edge, in ticks (R110). -/
def clearance : Nat := 150

/-- Codes, each with its number, entered into a histogram of so many edges until it holds a complete fill (R112): the histogram, its
edges, and the overranges counted apart. -/
def enterCodes (hist : List Nat) (total ovr : Nat) : List (Nat × Bool × Nat) → List Nat × Nat × Nat
  | [] => (hist, total, ovr)
  | k :: r =>
    if fillSize ≤ total then (hist, total, ovr)
    else if k.2.1 then enterCodes hist total (ovr + k.2.2) r
    else
      let n := min k.2.2 (fillSize - total)
      enterCodes (hist.set k.1 (nth hist k.1 + n)) (total + n) ovr r

/-- Calibration codes whose clearance has passed enter the histogram (R110, R112). -/
def settleCodes (d : Nat) (s : State) : State :=
  let g := s.digi d
  let old := g.codes.filter (fun k => decide (k.1 + clearance < s.clock.ticks))
  let hist0 := if g.hist = [] then List.replicate 64 0 else g.hist
  let q := enterCodes hist0 (hist0.foldl (· + ·) 0) g.ovr (old.map (fun k => (k.2.1, k.2.2, 1)))
  if old = [] then s
  else
    let s1 := s.modDigi d (fun g => { g with
      hist := q.1, ovr := q.2.2, codes := g.codes.filter (fun k => !decide (k.1 + clearance < s.clock.ticks)) })
    if fillSize ≤ q.2.1 then fillComplete d s1 else s1

/-- The raw code of a conversion: 63 when it ends in overrange (R90). -/
def codeOf (n : Nat) (ovr : Bool) : Nat := if ovr then 63 else n

/-- The end of a conversion with raw code n that starts fu FU into a tick: n + 1 periods of 768 FU (R90). -/
def convOf (now : Time) (fu n : Nat) (ovr : Bool) (cal : Option Nat) : Conv :=
  let e := fu + 768 * (codeOf n ovr + 1)
  ⟨now + BitVec.ofNat 64 (e / 1024), e % 1024, codeOf n ovr, ovr, cal, false⟩

/-- Whether a conversion has ended at a tick and FU (R90, R91). -/
def Conv.over (c : Conv) (now : Time) (fu : Nat) : Bool :=
  if c.stop = now then c.stopFine ≤ fu else reached now c.stop

/-- Whether a tick lies within the clearance of one of some real edges (R110). -/
def nearReal (reals : List Nat) (d : Nat) : Bool := reals.any (fun r => decide (d ≤ r + clearance) && decide (r ≤ d + clearance))

/-- CAL_EDGE_DELIVERED (R103, R110, R111). The event gives no fraction of its tick: its conversion is timed from the tick's beginning,
which is the model's choice (log entry 108). -/
def execCalEdgeDelivered (dt : Nat) (gs : Fin 65536) (n : Fin 64) (ovr : Bool) (s0 : State) :
    Host.Outcome State Fault Refusal :=
  let s := settleCodes gs (s0.elapse dt)
  let g := s.digi gs
  let t := digiTile gs
  if s.power.mode ≠ .active || g.phase ≠ .ready || !(passFills s gs || rotationFills s gs) then .next s
  else
    let c := { convOf s.now 0 n ovr (some s.clock.ticks) with spoiled := nearReal g.reals s.clock.ticks }
    let s1 := s.modDigi gs (fun g => { g with phase := .cal, conv := some c })
    if rotationFills s gs && (s.rotation t).first.isNone then
      .next (s1.modRot t (fun r => { r with first := some s.clock.ticks }))
    else .next s1

/-- A real edge in a super-pixel: the calibration edges within its clearance are discarded (R110). -/
def Digi.real (g : Digi) (tick : Nat) : Digi :=
  { g with
    reals := [tick]
    conv := g.conv.map (fun c => if c.cal.isSome then { c with spoiled := true } else c)
    codes := g.codes.filter (fun k => !nearReal [tick] k.1) }

/-- The state of a digitizer whose calibration conversion ends: its code waits out its clearance (R103, R110). -/
def calConversionEnds (g : Digi) (now : Time) : Digi :=
  match g.conv with
  | some c =>
    match c.cal with
    | some d =>
      if g.phase = .cal && c.over now 1023 then
        { g with
          phase := .ready
          conv := none
          codes := if c.spoiled then g.codes else g.codes ++ [(d, c.code, c.ovr)] }
      else g
    | none => g
  | none => g

/-- CAL_CONVERSION_END (R103, R110, R112, R113): the conversion ends, and codes whose clearance has passed enter the
histogram. -/
def execCalConversionEnd (dt : Nat) (gs : Fin 65536) (s0 : State) : Host.Outcome State Fault Refusal :=
  let s := s0.elapse dt
  .next (settleCodes gs (s.modDigi gs (fun g => calConversionEnds g s.now)))

/-! ### Real edges -/

/-- The real conversion of a digitizer noted at its end: an overrange is counted (R90). -/
def endConversion (d : Nat) (s : State) : State :=
  match (s.digi d).conv with
  | some c =>
    if c.cal.isNone then
      let s1 := s.modDigi d (fun g => { g with conv := none })
      if c.ovr then s1.bump (Reg.TDC_OVERRANGE (digiTile d)) 31 0 1 else s1
    else s
  | none => s

/-- VERNIER_CONVERSION_END (R90, R91). -/
def execVernierConversionEnd (dt : Nat) (gs : Fin 65536) (s0 : State) : Host.Outcome State Fault Refusal :=
  let s := s0.elapse dt
  match (s.digi gs).conv with
  | some c => if c.cal.isNone && c.over s.now 1023 then .next (endConversion gs s) else .next s
  | none => .next s

/-- A cluster closed at a tick: its results pass to the tile, and the dead time runs (R96, R100). -/
def closeCluster (d : Nat) (t : Time) (s : State) : State :=
  s.modDigi d (fun g =>
    match g.cluster with
    | some c =>
      let from_ := if reached t c.last then t else c.last
      { g with
        phase := .dead
        cluster := none
        waiting := g.waiting ++ [{ c with closed := some t }]
        readyAt := from_ + 60 }
    | none => g)

/-- The end of a cluster's window (R93). -/
def Cluster.windowEnd (c : Cluster) : Time := c.c + BitVec.ofNat 64 c.window

/-- A cluster whose window is over is closed at its end (R96). -/
def closeIfOver (d : Nat) (s : State) : State :=
  match (s.digi d).cluster with
  | some c => if reached s.now c.windowEnd then closeCluster d c.windowEnd s else s
  | none => s

/-- CLUSTER_WINDOW_END (R96). -/
def execClusterWindowEnd (dt : Nat) (gs : Fin 65536) (s0 : State) : Host.Outcome State Fault Refusal :=
  .next (closeIfOver gs (s0.elapse dt))

/-- DIGITIZER_READY (R100). -/
def execDigitizerReady (dt : Nat) (gs : Fin 65536) (s0 : State) : Host.Outcome State Fault Refusal :=
  let s := s0.elapse dt
  if (s.digi gs).phase = .dead && reached s.now (s.digi gs).readyAt then
    .next (s.modDigi gs (fun g => { g with phase := .ready }))
  else .next s

/-- An edge timed as a stop: its fine time (R92, R97, R130), with the pair taken when it was free. -/
def stopFine (d fu n : Nat) (ovr : Bool) (s : State) : Nat × State :=
  let g := s.digi d
  let free := match g.conv with
    | some c => c.over s.now fu
    | none => true
  if free then
    (g.fine (codeOf n ovr), (endConversion d s).modDigi d (fun g => { g with conv := some (convOf s.now fu n ovr none) }))
  else (if g.coarse then 0 else 512, s.bump (Reg.TDC_COARSE_STOPS (digiTile d)) 31 0 1)

/-- The pulse of a pixel that fires now, with the charge that the Awl has injected into it (R54, R71). -/
def pulseNow (s : State) (p inj : Nat) : Pulse := ⟨pixLocal p, s.now, s.pixelConfig p, s.holes, inj, none, 0⟩

/-- Whether a tile holds BUSY (R184, R531). -/
def Tile.busy (k : Tile) (ticks : Nat) : Bool :=
  k.full || (match k.pllBusy with
    | none => false
    | some none => true
    | some (some u) => ticks < u)

/-- The slice number that holds an array time (R6). -/
def sliceOf (s : State) (t : Time) : Nat := t.toNat / s.sliceTicks

/-- Whether an edge or start at a time belongs to a tile's run (R172, R173). -/
def Tile.inRun (k : Tile) (t : Time) : Bool :=
  k.state ≠ .idle && reached t k.startAt && (match k.stopAt with | some p => !reached t p | none => true)

/-- An edge refused under BUSY (R185, R188, R193). -/
def busyEdge (t : Nat) (s : State) : State :=
  let k := s.tile t
  if k.inRun s.now then
    ((s.bump (Reg.TIL_BUSY_LOSS t) 31 0 1).tallyAll .busyEdge 1).modTile t (fun k => { k with
      lost := Sparse.upd k.lost (sliceOf s s.now) Lost.zero (fun l => { l with busy := min (l.busy + 1) 0xFFFFFFFF })
      refused := k.refused + 1 })
  else s

/-- A start (R93, R103, R104): an abandoned calibration conversion leaves nothing. -/
def startCluster (d p fu n : Nat) (ovr : Bool) (inj : Nat) (s : State) : State :=
  let s1 := endConversion d s
  let g := s1.digi d
  let w := max 4 (s.rf (Reg.TDC_CTRL (digiTile d)) 7 0)
  let c : Cluster := ⟨pixLocal p, s.now, g.fine (codeOf n ovr), [], none, 0, s.now, [pulseNow s p inj], w, none⟩
  s1.modDigi d (fun g => { g with phase := .cluster, cluster := some c, conv := some (convOf s.now fu n ovr none) })

/-- A leading edge inside an open cluster (R94–R97). -/
def clusterEdge (d p fu n : Nat) (ovr : Bool) (inj : Nat) (c : Cluster) (s : State) : State :=
  let t := digiTile d
  if c.pulses.any (fun q => q.lp = pixLocal p) then s.bump (Reg.TDC_DEAD t) 31 0 1
  else
    let r := stopFine d fu n ovr s
    let c1 : Cluster := { c with
      stops := c.stops ++ [⟨localQ (pixLocal p), s.now, r.1⟩]
      taken := c.taken + 1
      last := s.now
      pulses := c.pulses ++ [pulseNow s p inj] }
    let s1 := r.2.modDigi d (fun g => { g with cluster := some c1 })
    if c1.taken = 4 then closeCluster d s.now s1 else s1

/-- Whether an edge is a fifth stop: a new pixel in the tick of the fourth stop, after it (R95). -/
def fifthStop (g : Digi) (lp : Nat) (now : Time) : Bool :=
  match g.waiting.getLast? with
  | some c => c.closed = some now && c.taken = 4 && c.last = now && !c.pulses.any (fun q => q.lp = lp)
  | none => false

/-- A tile shown to be active (R195). -/
def touchTile (t : Nat) (s : State) : State :=
  s.modTile t (fun k => { k with lastAct := s.clock.ticks, gatedAt := none })

/-- A pixel noted as fired in its tile's present 20-tick bin; three bins and the present one are kept (R197). -/
def noteFired (t lp : Nat) (s : State) : State :=
  let b := s.now.toNat / 20
  s.modTile t (fun k =>
    let old := k.bins.filter (fun e => decide (b ≤ e.1 + 4) && decide (e.1 ≠ b))
    let cur := match k.bins.find? (fun e => e.1 = b) with
      | some e => e.2
      | none => []
    { k with bins := old ++ [(b, insertNat lp cur)] })

/-- Whether a tile is a FRAME tile (R170). -/
def State.frameTile (s : State) (t : Nat) : Bool := s.rb (Reg.TIL_CTRL t) 1

/-- Whether a pulse of a charge fires pixel p: it is enabled, and the charge reaches its threshold (R42, R43, R45). -/
def State.firesAt (s : State) (p charge : Nat) : Bool :=
  s.pixelOn p && fires (s.rf (Reg.PIX_THR_APPLIED (pixTile p)) 9 0) (bits (s.pixelConfig p).toNat 6 2) charge

/-- The scan that holds a tile, if one does (R75, R76). -/
def scanOf (s : State) (t : Nat) : Option Scan := s.pix.scan.filter (fun c => c.tiles.contains t)

/-- Whether a pulse of a charge fires pixel p, which is enabled (R42, R43, R45, R75): in a tile under a scan at the scan's present DAC
value, the pixel that the scan pulses with trim 16, every other with its own (log entry 125). -/
def edgeFires (s : State) (p charge : Nat) : Bool :=
  match scanOf s (pixTile p) with
  | some c => match c.place s.clock.ticks with
    | some (pass, i) =>
      s.pixelOn p && fires (nth c.points i) (if localQ (pixLocal p) = pass then 16 else bits (s.pixelConfig p).toNat 6 2) charge
    | none => s.firesAt p charge
  | none => s.firesAt p charge

/-- The charge that the injector adds to a pixel's pulse now: under a scan that of the scan, to the pixels that it pulses (R71, R75). -/
def awlPart (s : State) (p : Nat) : Nat :=
  match scanOf s (pixTile p) with
  | some c => if c.pulsing s.clock.ticks p then c.charge else 0
  | none => injected s p

/-- A hit of a pixel that a scan pulses, counted inside the tile (R75). -/
def scanHit (p : Nat) (s : State) : State :=
  match scanOf s (pixTile p) with
  | some c => match c.place s.clock.ticks with
    | some (pass, i) =>
      if localQ (pixLocal p) = pass then s.modPix (fun x => { x with scan := some (c.count p i) }) else s
    | none => s
  | none => s

/-- PIXEL_LEADING_EDGE (R32, R43, R71, R94–R97, R100–R104, R110, R185, R197): a pulse of the sensor of a signed charge, as the
discriminator meets it with the front end's noise and the Awl's error in it, with the charge of the last Awl pulse where that lies in it;
below the threshold it leaves no trace. In a tile under a THRESH_SCAN it may be a hit of the scan (R75). An edge in the tick in which the
window ends falls in the dead time, which is the model's choice (log entry 108). -/
def execPixelLeadingEdge (dt : Nat) (p : Fin 1048576) (fu : Fin 1024) (n : Fin 64) (ovr : Bool) (charge : Int) (awl : Bool)
    (s0 : State) : Host.Outcome State Fault Refusal :=
  let s := s0.elapse dt
  let t := pixTile p
  let d := pixSuper p
  let inj := if awl then awlPart s p else 0
  if s.power.mode ≠ .active || !edgeFires s p (collected s charge + inj) then .next s
  else if s.frameTile t then .next (scanHit p s)
  else
    let s0 := scanHit p s
    let s1 := closeIfOver d (if s.pixelOn p then noteFired t (pixLocal p) s0 else s0)
    let s2 := s1.modDigi d (·.real s.clock.ticks)
    let g := s2.digi d
    let ready := g.phase = .ready || g.phase = .cal
    if ready then
      if (s.tile t).busy s.clock.ticks then .next (busyEdge t s2)
      else .next (touchTile t (startCluster d p fu n ovr inj s2))
    else
      match g.cluster with
      | some c => .next (clusterEdge d p fu n ovr inj c s2)
      | none =>
        if fifthStop g (pixLocal p) s.now then .next (s2.bump (Reg.TDC_STOP_OVF t) 31 0 1)
        else .next (s2.bump (Reg.TDC_DEAD t) 31 0 1)

/-- A pixel's pulse that has not fallen, ended now at a range (R37, R99). -/
def fallIn (lp : Nat) (now : Time) (charge : Int) (c : Cluster) : Cluster :=
  { c with pulses := c.pulses.map (fun q =>
      if q.lp = lp && q.fall.isNone then { q with fall := some now, range := rangeOf q.cfg (collect q.holes charge + q.inj) } else q) }

/-- Whether a cluster holds a pulse of a pixel that has not fallen. -/
def Cluster.open_ (c : Cluster) (lp : Nat) : Bool := c.pulses.any (fun q => q.lp = lp && q.fall.isNone)

/-- The pulse ended in the first waiting cluster that holds it. -/
def fallFirst (lp : Nat) (now : Time) (charge : Int) : List Cluster → List Cluster
  | [] => []
  | c :: r => if c.open_ lp then fallIn lp now charge c :: r else c :: fallFirst lp now charge r

/-- A time in FU from another, held at 0 from below (R98). -/
def fuFrom (c : Time) (fine : Nat) (c0 : Time) (fine0 : Nat) : Nat := since c c0 * 1024 + fine - fine0

/-- PIXEL_TRAILING_EDGE (R95–R99, R32, R34–R38): charge is the largest that the pulse reached of what the sensor gave, in electrons,
positive electrons and negative holes; what the Awl has injected into the pulse adds to it (R71). -/
def execPixelTrailingEdge (dt : Nat) (p : Fin 1048576) (fu : Fin 1024) (n : Fin 64) (ovr : Bool) (charge : Int)
    (s0 : State) : Host.Outcome State Fault Refusal :=
  let s := s0.elapse dt
  let d := pixSuper p
  let lp := pixLocal p
  let s1 := closeIfOver d s
  let g := s1.digi d
  if g.waiting.any (·.open_ lp) then
    .next (s1.modDigi d (fun g => { g with waiting := fallFirst lp s.now charge g.waiting }))
  else
    match g.cluster with
    | some c =>
      if !c.open_ lp then .next s1
      else if c.lp = lp then
        let r := stopFine d fu n ovr s1
        let c1 : Cluster := { fallIn lp s.now charge c with
          trail := some (fuFrom s.now r.1 c.c c.fine)
          taken := c.taken + 1
          last := s.now }
        let s2 := r.2.modDigi d (fun g => { g with cluster := some c1 })
        if c1.taken = 4 then .next (closeCluster d s.now s2) else .next s2
      else .next (s1.modDigi d (fun g => { g with cluster := some (fallIn lp s.now charge c) }))
    | none => .next s1

/-! ### Initial pass and rotation -/

/-- An initial pass begun on tiles, with or without the ETDs (R117, R125). A fill of the background rotation of a
selected tile ends without a result. -/
def beginPass (tiles : List Nat) (ext : Bool) (s : State) : State :=
  let s1 := tiles.foldl (fun u t =>
    if (u.rotation t).active then
      (rotationEnds t u).modDigi (1024 * t + (u.rotation t).cur) (fun g => { g with hist := [], ovr := 0, codes := [] })
    else u) s
  (s1.modTdc (fun k => { k with pass := some ⟨tiles, ext, s.clock.ticks, 0, [], [], [], 0⟩ })).wf
    Reg.TDC_INIT_STATUS 0 0 1

/-- What is out of range in a TDC_CAL (R126). -/
def tdcCalRange (ext : Word) : Bool := ext.toNat < 4 && ext.toNat ≠ 2

/-- TDC_CAL (R125, R126). -/
def execTdcCal (dt : Nat) (c : Ctx) (maskLo maskHi ext : Word) (s : State) : Host.Outcome State Fault Refusal :=
  .next (command dt c (.tdcCal maskLo maskHi ext) (fun _ _ => param (tdcCalRange ext))
    (fun _ s =>
      if s.trg.run ≠ .idle then refuse s .wrongState
      else if calBusy s || s.pix.scan.isSome || s.pix.apply.isSome then refuse s .busy
      else .done (beginPass (if bit ext.toNat 1 then [] else maskOrAll maskLo maskHi) (bit ext.toNat 0) s)
        .accepted 0 []) s)

/-- TDC_INIT_ATTEMPT_START (R117): attempt 1 fills every selected digitizer, a later one those that failed. -/
def execTdcInitAttemptStart (dt : Nat) (s0 : State) : Host.Outcome State Fault Refusal :=
  let s := s0.elapse dt
  match s.tdc.pass with
  | some p =>
    if p.attempt < 3 && p.since + attemptAt p.attempt ≤ s.clock.ticks then
      .next (s.modTdc (fun k => { k with pass := some { p with
        attempt := p.attempt + 1, again := p.failed, failed := [], ended := [] } }))
    else .next s
  | none => .next s

/-- INIT_FILL_TIMEOUT (R118): 96 ms without 2^18 edges; the codes whose clearance has passed enter first. -/
def execInitFillTimeout (dt : Nat) (d : Fin 65540) (s0 : State) : Host.Outcome State Fault Refusal :=
  let s := settleCodes d (s0.elapse dt)
  match s.tdc.pass with
  | some p =>
    if passFills s d && p.since + attemptAt (p.attempt - 1) + 288000000 ≤ s.clock.ticks then .next (calFailure d s)
    else .next s
  | none => .next s

/-- TDC_INIT_PASS_END (R117, R118). The rotation of the pass's tiles waits its GAP from the end of the pass, which is the model's choice
(log entry 108). -/
def execTdcInitPassEnd (dt : Nat) (s0 : State) : Host.Outcome State Fault Refusal :=
  let s := s0.elapse dt
  match s.tdc.pass with
  | some p =>
    if p.since + 900000000 ≤ s.clock.ticks then
      let s1 := p.tiles.foldl (fun u t => u.modRot t (fun r => { r with ended := s.clock.ticks }))
        (s.modTdc (fun k => { k with pass := none }))
      .next (raiseBase 526 sevInfo noInst
        (s1.wr Reg.TDC_INIT_STATUS (BitVec.ofNat 32 (min p.retired 65535 * 2 ^ 16 + 2))))
    else .next s
  | none => .next s

/-- The next digitizer of a tile's rotation: in order of s, retired ones passed over (R119). -/
def nextInRotation (s : State) (t : Nat) : Option Nat :=
  ((List.range 1024).map (fun i => ((s.rotation t).cur + 1 + i) % 1024)).find? (fun k => !s.digiRetired (1024 * t + k))

/-- Whether the initial pass has a tile (R117, R119). -/
def passHas (s : State) (t : Nat) : Bool :=
  match s.tdc.pass with
  | some p => p.tiles.contains t
  | none => false

/-- ROTATION_GAP_END (R119, R121). The tiles that an initial pass does not have go on with their rotation, which is the model's choice
(log entry 108), and so is that CURRENT stands during a pass (log entry 151). -/
def execRotationGapEnd (dt : Nat) (t : Fin 64) (s0 : State) : Host.Outcome State Fault Refusal :=
  let s := s0.elapse dt
  let r := s.rotation t
  let gap := s.rf (Reg.TDC_CAL_CTRL t) 3 1 * 196608000
  if s.power.mode ≠ .active || r.active || passHas s t || s.rb (Reg.TDC_CAL_CTRL t) 0
    || s.clock.ticks < r.ended + gap then .next s
  else
    match nextInRotation s t with
    | some k =>
      .next ((s.modRot t (fun r => { r with cur := k, active := true, first := none })).wf (Reg.TDC_CAL_STATUS t) 9 0 k)
    | none => .next s

/-- FILL_ABANDONED (R120): 1.0 s after the fill's first delivered edge; the codes whose clearance has passed enter first. -/
def execFillAbandoned (dt : Nat) (t : Fin 64) (s0 : State) : Host.Outcome State Fault Refusal :=
  let u := s0.elapse dt
  let s := if (u.rotation t).active then settleCodes (1024 * t.val + (u.rotation t).cur) u else u
  let r := s.rotation t
  match r.first with
  | some f =>
    if r.active && f + 3000000000 ≤ s.clock.ticks then
      .next ((fillOver (1024 * t.val + r.cur) false s).bump (Reg.TDC_CAL_FAIL t) 31 16 1)
    else .next s
  | none => .next s

/-- A write of TDC_CAL_CTRL: PAUSE acts at the end of the present fill (R121). -/
def writeCalCtrl (t : Nat) (v : Word) (s : State) : State :=
  s.wr (Reg.TDC_CAL_CTRL t) (v &&& 0xF)

/-- The digitizer and word of an address in the table window (R123, R588). -/
def tableWord (a : Nat) : Option (Nat × Nat) :=
  if 0x12000000 ≤ a ∧ a < 0x12000000 + 65540 * 0x80 ∧ a % 4 = 0 then
    some ((a - 0x12000000) / 0x80, (a - 0x12000000) % 0x80 / 4)
  else none

/-- What a write of a table entry breaks (R124). -/
def tableRefusal (s : State) : Option Status :=
  if s.trg.run = .running then some .wrongState
  else if s.tdc.pass.isSome then some .busy
  else none

/-! ### External-trigger digitizers -/

/-- Whether FRM_CTRL selects the edges of a pin in one direction as the frame trigger (R143, R168). -/
def extWanted (s : State) (i : Nat) (rising : Bool) : Bool :=
  s.rf Reg.FRM_CTRL 1 0 = 1 && s.rf Reg.FRM_CTRL 5 2 = i && s.rb Reg.FRM_CTRL 9 ≠ rising

/-- Whether a pin is delivered to an ETD whose SRC names it: PPS_IN always, an MP pin with function TRIG_IN that is not
switching (R132, R512–R515). -/
def etdSees (s : State) (src : Nat) : Bool :=
  if src = 12 then true
  else if src < 12 then s.rf (Reg.MP_CTRL src) 3 0 = 1 && !s.rb Reg.MP_IN (16 + src)
  else false

/-- Whether an ETD takes part in calibration: not retired, not paused (R136, R138). -/
def etdCalibrates (s : State) (i : Nat) : Bool := !s.digiRetired (65536 + i) && !s.rb (Reg.TDC_EXT_CTRL i) 6

/-- A time less a number of FU (R133). -/
def minusFu (t : Time) (fine d : Nat) : Time × Nat :=
  let v : Int := (fine : Int) - d
  (t + BitVec.ofInt 64 (v / 1024), (v % 1024).toNat)

/-- ETD_EDGE (R132, R133, R135, R136). The ETDs convert in ACTIVE only, and the stamp of a retired one has the coarse time that its
delay's subtraction from fine 0 leaves: both are the model's choices (log entry 108). -/
def execEtdEdge (dt : Nat) (i : Fin 4) (rising : Bool) (fu : Fin 1024) (n : Fin 64) (s0 : State) :
    Host.Outcome State Fault Refusal :=
  let s := s0.elapse dt
  let ctrl := s.rd (Reg.TDC_EXT_CTRL i)
  let sel := bits ctrl.toNat 5 4
  let wanted := if rising then bit sel 0 else bit sel 1
  let d := 65536 + i.val
  if s.power.mode ≠ .active || !wanted || !etdSees s (bits ctrl.toNat 3 0) then .next s
  else
    let near := match Sparse.get s.tdc.etdLast i none with
      | some t => decide (s.clock.ticks < t + 60)
      | none => false
    let s := s.modDigi d (fun g => { g with
      reals := s.clock.ticks :: g.reals.filter (fun r => decide (etdFrom s d ≤ r + 300)) })
    if near then .next (raiseBase 527 sevNotice i (s.bump (Reg.TDC_EXT_STATUS i) 31 16 1))
    else
      let g := s.digi d
      let at_ := minusFu s.now (g.fine n) (s.rf (Reg.TDC_EXT_DELAY i) 15 0)
      let fine := if g.coarse then 0 else at_.2
      let s1 := (s.bump (Reg.TDC_EXT_STATUS i) 15 0 1).modDigi d (fun g => { g with
        conv := some (convOf s.now fu n false none) })
      .next (s1.modTdc (fun k => { k with
        etdLast := Sparse.set k.etdLast i (some s.clock.ticks) none
        stamps := k.stamps ++ [⟨i, at_.1, fine, rising, s.clock.ticks + 64⟩] }))

/-- The ETD whose turn it is (R136). -/
def etdInTurn (s : State) : Option Nat :=
  ((List.range 4).map (fun k => (s.tdc.etdTurn + k) % 4)).find? (etdCalibrates s)

/-- The fill that delivered edges make: those from tick lo on whose clearance has passed and holds no real edge enter until 2^18 have
(R110, R112, R136). -/
def etdFill (lo now : Nat) (reals : List Nat) (edges : List CalEdge) : List Nat × Nat × Nat :=
  enterCodes (List.replicate 64 0) 0 0
    ((edges.filter (fun e => decide (lo ≤ e.tick) && decide (e.tick + clearance < now) && !nearReal reals e.tick)).map
      (fun e => (e.n.val, e.ovr, e.count)))

/-- ETD_CAL_FILL (R136, R110, R112–R114): the edges that an ETD's generator has delivered since its last fill; when they make a complete
fill it gives a new table, or a calibration failure. DESIGN CHOICE (log entry 150): the ETDs go on with their turns while an initial pass
runs that does not fill them. -/
def execEtdCalFill (dt : Nat) (i : Fin 4) (edges : List CalEdge) (s0 : State) : Host.Outcome State Fault Refusal :=
  let s := s0.elapse dt
  let d := 65536 + i.val
  let q := etdFill (etdBegan s d) s.clock.ticks (s.digi d).reals edges
  if s.power.mode ≠ .active || q.2.1 < fillSize || !(passFills s d || etdInTurn s = some i.val) then .next s
  else
    let s1 := s.modTdc (fun k => { k with etdTurn := (i.val + 1) % 4, etdSince := s.clock.ticks })
    if fillAccepted q.1 q.2.2 then .next (newTable d (reduceFrom 0 q.1) (fillOver d false s1))
    else .next (calFailure d s1)

end Sys2Proof.Machine
end

