-- ==== Sys2Proof/Machine/Tile.lean ====
section
/-!
DEFINITION. Tile readout and squalls (chapter "Tile readout and squalls"): the FIFO and BUSY, cluster groups and units,
EPOCH and RETIRED_MAP words, occupancy summaries, clock gating, tile retirement and the squall detector.
-/

namespace Sys2Proof.Machine

/-! ### BUSY and the FIFO -/

/-- BUSY dropped without an event, at the end of the wait of R531: its span ends there. -/
def settleBusy (t : Nat) (s : State) : State :=
  let k := s.tile t
  match k.spans with
  | (a, none) :: r =>
    if k.busy s.clock.ticks then s
    else
      let back := match k.pllBusy with
        | some (some u) => s.clock.ticks - u
        | _ => 0
      s.modTile t (fun k => { k with spans := (a, some (s.now - BitVec.ofNat 64 back)) :: r, pllBusy := none })
  | _ => s

/-- A change of a tile that may raise or drop BUSY: the spans, and tile event k = 0 at each rise (R184). -/
def withBusy (t : Nat) (f : Tile → Tile) (s : State) : State :=
  let s0 := settleBusy t s
  let was := (s0.tile t).busy s.clock.ticks
  let s1 := s0.modTile t f
  let is := (s1.tile t).busy s.clock.ticks
  if !was && is then
    raiseTile t 0 sevNotice noInst (s1.modTile t (fun k => { k with spans := (s.now, none) :: k.spans }))
  else if was && !is then
    s1.modTile t (fun k => { k with spans := match k.spans with
      | (a, none) :: r => (a, some s.now) :: r
      | l => l })
  else s1

/-- The FIFO level looked at: BUSY of an EVENT tile rises at 3 072 words and drops below 2 048 (R184). -/
def levelCheck (t : Nat) (s : State) : State :=
  let k := s.tile t
  let n := k.fifo.length
  if s.frameTile t then s
  else if !k.full && 3072 ≤ n then withBusy t (fun k => { k with full := true }) s
  else if k.full && n < 2048 then withBusy t (fun k => { k with full := false }) s
  else s

/-- Words put into a tile's FIFO; inUnit of them count for the open unit (R180, R204). -/
def pushSlots (t : Nat) (l : List Slot) (inUnit : Nat) (s : State) : State :=
  let s1 := s.modTile t (fun k => { k with
    fifo := k.fifo ++ l, words := k.words + inUnit, lastAct := s.clock.ticks, gatedAt := none })
  levelCheck t (s1.high (Reg.TIL_FIFO t) 28 16 (s1.tile t).fifo.length)

/-- A word that belongs to no cluster group. -/
def plainSlot (w : Word72) : Slot := ⟨w, 0, 0⟩

/-- The slots of a cluster group (R109). -/
def groupSlots (g : List Word72) : List Slot := g.zipIdx.map (fun q => ⟨q.1, q.2, g.length⟩)

/-! ### Frames on their way into the FIFO (R155, R189) -/

/-- FRAME_END with its count of pair words (R156). -/
def endWord (tail : Word72) (n : Nat) : Word72 := BitVec.ofNat 72 (setBits tail.toNat 31 18 n)

/-- The words that follow a frame unit: what had to wait for its end (R179, R199). DESIGN CHOICE (log entry 37): R179 and R187 both say
directly after FRAME_END; the LOSS word of a truncated frame comes first. -/
def closeFrame (t : Nat) (l : List Word72) (s : State) : State :=
  let k := s.tile t
  pushSlots t ((l ++ k.after).map plainSlot) 0
    (s.modTile t (fun k => { k with frames := k.frames.tail, after := [] }))

/-- The pair words of the first frame that are due at the tick n, with FRAME_END after the last, or truncation where one finds no
room (R182, R189). -/
def feedPairs (t : Nat) (n : Time) (f : FrameOut) (s : State) : State :=
  if !reached n f.at_ then s
  else
    let due := since n f.at_ / 10 + 1
    let room := 4032 - (s.tile t).fifo.length
    let want := min due f.pairs.length
    let m := min want room
    let sent := f.sent + m
    let s1 := pushSlots t ((f.pairs.take m).map plainSlot) 0 s
    if m < want then
      closeFrame t [endWord f.tail sent, lossWord t 0x03 (f.pairs.length - m)]
        ((s1.modTile t (fun k => { k with skipping := true })).tallyAll .truncated 1)
    else if f.pairs.length < due then closeFrame t [endWord f.tail sent] s1
    else s1.modTile t (fun k => { k with frames :=
      { f with pairs := f.pairs.drop m, sent := sent, at_ := f.at_ + BitVec.ofNat 64 (10 * due) } :: k.frames.tail })

/-- The first frame that waits, up to the tick n: its FRAME_START, or the frame skipped (R189). A retired tile writes nothing while it waits for its PLL
(R192). -/
def feedFrame (t : Nat) (n : Time) (s : State) : State :=
  let k := s.tile t
  match k.frames with
  | [] => s
  | f :: rest =>
    if k.waitPll.isSome then s
    else if f.begun then feedPairs t n f s
    else if !reached n f.at_ then s
    else if k.skipping && 1024 ≤ k.fifo.length then
      (s.modTile t (fun k => { k with frames := rest, skipped := k.skipped + 1 })).tallyAll .skipped 1
    else
      let pre := if k.skipped = 0 then [] else [lossWord t 0x04 k.skipped]
      let f1 := { f with begun := true, at_ := f.at_ + 10 }
      let s1 := pushSlots t ((pre ++ [f.head]).map plainSlot) 0
        (s.modTile t (fun k => { k with frames := f1 :: rest, skipped := 0 }))
      feedPairs t n f1 (s1.count (Reg.FRM_FRAMES t) 31 0 1)

/-- The frame words due at the tick n, of a frame and of the one behind it. -/
def feedTo (t : Nat) (n : Time) (s : State) : State := feedFrame t n (feedFrame t n s)

/-- A tile brought up to now: the frame words due, and BUSY. What came due before the present tick is no set of that tick (R14). -/
def settleTile (t : Nat) (s : State) : State :=
  settleBusy t (feedTo t s.now { feedTo t (s.now - 1) s with fresh := s.fresh })

/-- Whether a frame unit stands open in a tile's FIFO (R179). -/
def Tile.frameOpen (k : Tile) : Bool :=
  match k.frames with
  | f :: _ => f.begun
  | [] => false

/-- A tile stops at P (R172, R192): one that is already to stop stops no later. -/
def stopTile (p : Time) (s : State) (t : Nat) : State :=
  match (s.tile t).state with
  | .running => (settleTile t s).modTile t (fun k => { k with state := .stopping, stopAt := some p })
  | .stopping => s.modTile t (fun k => { k with stopAt := k.stopAt.map (fun r => earlier r p) })
  | .idle => s

/-- A tile in STOPPING whose stop tick has come, whose last unit is closed and whose FIFO is empty goes IDLE (R142, R172). -/
def idleCheck (t : Nat) (s : State) : State :=
  let k := s.tile t
  if k.state = .stopping && k.slice.isNone && k.frames = [] && k.after = [] && k.fifo = [] && k.next = []
    && k.waitPll.isNone && (match k.stopAt with | some p => reached s.now p | none => true)
    && !s.frames.sampled.any (fun f => f.left.contains t) then
    s.modTile t (fun k => { k with state := .idle })
  else s

/-- Whether a tile's PLL is unlocked (R531). -/
def Tile.unlocked (k : Tile) : Bool := k.pllBusy = some none

/-- A tile retired (R192): listed, reported, and stopped as at RUN_STOP for it alone. -/
def retireTile (t : Nat) (s : State) : State :=
  if s.tileRetired t then s
  else
    let s1 := wantUpdate { s with bg := { s.bg with inForce := { s.bg.inForce with
      tiles := insertNat t s.bg.inForce.tiles } } }
    let s2 := raiseBase 541 sevFault t s1
    let k := s2.tile t
    if k.state = .idle then s2
    else
      let s3 := if k.state = .running then stopTile (BitVec.ofNat 64 (alignUp 8 s.now.toNat)) s2 t else s2
      if k.unlocked then s3.modTile t (fun k => { k with waitPll := some s.clock.ticks }) else idleCheck t s3

/-- An uncorrectable error of a tile: tile event k = 6, and the tile retired at the third (R190–R192). -/
def tileFault (t : Nat) (s : State) : State :=
  let f := (s.tile t).faults
  let s1 := raiseTile t 6 sevFault noInst s
  if s.tileRetired t then s1
  else if f.third s.now then retireTile t s1 else s1.modTile t (fun k => { k with faults := f.push s.now })

/-- A control word written at the first slot outside any cluster group or frame unit (R178, R179, R199). DESIGN CHOICE (log entry 137): it
is written even where the places of R182 are full. -/
def writeControl (t : Nat) (w : Word72) (s : State) : State :=
  let s1 := settleTile t s
  let k := s1.tile t
  if k.state = .idle then s1
  else if k.frameOpen then s1.modTile t (fun k => { k with after := k.after ++ [w] })
  else pushSlots t [plainSlot w] (b2n k.slice.isSome) s1

/-! ### Units (R174–R178) -/

/-- UNIT_HEAD of slice n (R180). -/
def unitHead (s : State) (t n : Nat) : Word72 :=
  controlWord 0x02 (t * 2 ^ 58 + (s.rf Reg.TIL_SLICE 4 0 - 11) % 8 * 2 ^ 54 + n % 2 ^ 53)

/-- UNIT_TAIL (R180). -/
def unitTail (t n words : Nat) (sq loss busy : Bool) : Word72 :=
  controlWord 0x03 (t * 2 ^ 58 + words % 2 ^ 18 * 2 ^ 40 + b2n sq * 2 ^ 39 + b2n loss * 2 ^ 38 + b2n busy * 2 ^ 37
    + n % 2 ^ 32)

/-- An EPOCH word (R180). -/
def epochWord (e : Time) : Word72 := controlWord 0x01 e.toNat

/-- The groups of the open unit that the next-slice buffer gives up while they fit below 4 032 words, and what stays
(R177). -/
def movable (slice level : Nat) : List (Nat × List Word72) → List (List Word72) × List (Nat × List Word72)
  | [] => ([], [])
  | (n, g) :: r =>
    if n = slice then
      if level + g.length ≤ 4032 then
        let q := movable slice (level + g.length) r
        (g :: q.1, q.2)
      else ([], (n, g) :: r)
    else
      let q := movable slice level r
      (q.1, (n, g) :: q.2)

/-- A group that leaves the next-slice buffer enters the FIFO (R177, R190); found says how each of its words reads. A group with an
uncorrectable word is replaced by one LOSS word; it counts once however many of its words are so, which is a DESIGN CHOICE (log entry 152).
-/
def moveGroup (t : Nat) (g : List Word72) (found : List Upset) (s : State) : State :=
  let bad := found.countP (· = .uncorrectable)
  let good := found.countP (· = .corrected)
  let s1 := if good = 0 then s else (s.bump (Reg.TIL_ECC t) 15 0 good).tallyAll .fifoCorr good
  if bad = 0 then pushSlots t (groupSlots g) g.length s1
  else
    let s2 := pushSlots t [plainSlot (lossWord t 0x06 1)] 1 (s1.modTile t (fun k => { k with lossy := true }))
    tileFault t ((s2.bump (Reg.TIL_ECC t) 23 16 1).tallyAll .fifoUncorr 1)

/-- Groups that leave the next-slice buffer one after another; found says how their words read, a word that it does not reach being
sound. -/
def moveAll (t : Nat) : List (List Word72) → List Upset → State → State
  | [], _, s => s
  | g :: r, found, s => moveAll t r (found.drop g.length) (moveGroup t g (found.take g.length) s)

/-- Groups moved from the next-slice buffer into the FIFO (R177, R190). -/
def moveGroups (t : Nat) (found : List Upset) (s : State) : State :=
  let k := s.tile t
  match k.slice with
  | some n =>
    let q := movable n k.fifo.length k.next
    if q.1 = [] then s else moveAll t q.1 found (s.modTile t (fun k => { k with next := q.2 }))
  | none => s

/-- A unit opened (R174, R176, R177). -/
def openUnit (t n : Nat) (found : List Upset) (s : State) : State :=
  moveGroups t found (pushSlots t [plainSlot (unitHead s t n)] 0
    (s.modTile t (fun k => { k with slice := some n, words := 0, lossy := false })))

/-- The start of slice n, in array time (R6). -/
def sliceStart (s : State) (n : Nat) : Time := BitVec.ofNat 64 (n * s.sliceTicks)

/-- Whether a unit is a tile's last: its slice holds P (R176). -/
def lastUnit (s : State) (k : Tile) (n : Nat) : Bool :=
  match k.stopAt with
  | some p => sliceOf s p = n
  | none => false

/-- The end of a unit's slice, P for the last (R176). -/
def unitEnd (s : State) (k : Tile) (n : Nat) : Time :=
  match k.stopAt with
  | some p => if sliceOf s p = n then p else sliceStart s (n + 1)
  | none => sliceStart s (n + 1)

/-- Whether a digitizer of a tile holds a cluster of this run that started in slice n (R176). -/
def holdsCluster (s : State) (t n : Nat) : Bool :=
  s.tdc.digis.any (fun e => e.1 / 1024 = t && e.1 < 65536 &&
    (e.2.cluster.toList ++ e.2.waiting).any (fun c => (s.tile t).inRun c.c && sliceOf s c.c = n))

/-- Whether an interval of array time shares a tick with another. -/
def overlaps (a b c d : Time) : Bool := a ≠ b && c ≠ d && !reached a d && !reached c b

/-- Whether [a, b) overlaps a squall interval (R202). -/
def squallIn (s : State) (a b : Time) : Bool := s.squall.squalls.any (fun q => overlaps a b q.w0 q.x)

/-- Whether BUSY was up at some tick of [a, b) (R180). -/
def busyIn (k : Tile) (a b : Time) (now : Time) : Bool :=
  k.spans.any (fun q => overlaps a b q.1 (q.2.getD (now + 1)))

/-- The LOSS words of sources 0x00 to 0x02 of a slice (R187, R188). -/
def lossWords (t : Nat) (l : Lost) : List Word72 :=
  (if l.busy = 0 then [] else [lossWord t 0x00 l.busy]) ++
  (if l.squall = 0 then [] else [lossWord t 0x01 l.squall]) ++
  (if l.drop = 0 then [] else [lossWord t 0x02 l.drop])

/-- The EPOCH that a unit must hold before it closes: its slice ends at a multiple of 2^24 (R178). -/
def epochDue (s : State) (k : Tile) (n : Nat) : List Word72 :=
  let e := unitEnd s k n
  if e.toNat % 2 ^ 24 = 0 && e ≠ k.epoch && reached e k.startAt then [epochWord e] else []

/-- Unit n of a tile closed, and the next opened unless it was the last (R176–R178, R180, R188, R202). -/
def closeUnit (t n : Nat) (found : List Upset) (s : State) : State :=
  let k := s.tile t
  let e := unitEnd s k n
  let ep := epochDue s k n
  let losses := lossWords t (Sparse.get k.lost n Lost.zero)
  let words := k.words + ep.length + losses.length
  let tail := unitTail t n words (squallIn s (sliceStart s n) e) (k.lossy || losses ≠ []) (busyIn k (sliceStart s n) e s.now)
  let s1 := pushSlots t ((ep ++ losses ++ [tail]).map plainSlot) 0 s
  let s2 := s1.modTile t (fun k => { k with
    lost := Sparse.del k.lost n
    epoch := if ep = [] then k.epoch else e
    slice := none
    spans := k.spans.filter (fun q => match q.2 with
      | some b => !reached e b
      | none => true) })
  if lastUnit s k n then s2 else openUnit t (n + 1) found s2

/-- UNIT_CLOSE (R174–R180, R190): moved says how the words read that leave the next-slice buffer for the unit that opens. -/
def execUnitClose (dt : Nat) (t : Fin 64) (moved : List Upset) (s0 : State) : Host.Outcome State Fault Refusal :=
  let s := settleTile t (s0.elapse dt)
  let k := s.tile t
  match k.slice with
  | some n =>
    if k.state ≠ .idle && reached s.now (unitEnd s k n + 72) && k.waitPll.isNone && !holdsCluster s t n
      && !k.next.any (fun g => g.1 = n) && k.fifo.length + 6 ≤ 4096 then .next (closeUnit t n moved s)
    else .next s
  | none => .next s

/-- The multiple of 2^24 ticks at or before now (R5). -/
def lastEpoch (now : Time) : Time := now - BitVec.ofNat 64 (now.toNat % 2 ^ 24)

/-- The EPOCH of now written by a tile, where it has one to write (R5, R178, R179): an EVENT tile has one up to its stop tick, and
writes it into the unit of the slice that ends at it; a FRAME tile until it is IDLE. -/
def writeEpoch (s0 : State) (t : Nat) : State :=
  let s := settleTile t s0
  let k := s.tile t
  let e := lastEpoch s.now
  let has := reached e k.startAt && (s.frameTile t || (match k.stopAt with | some p => reached p e | none => true))
  let place := s.frameTile t || (match k.slice with | some n => unitEnd s k n = e | none => false)
  if k.state = .idle || e = k.epoch || !has || !place || 4096 ≤ k.fifo.length || k.waitPll.isSome then s
  else writeControl t (epochWord e) (s.modTile t (fun k => { k with epoch := e }))

/-- EPOCH_WRITE (R178, R179). -/
def execEpochWrite (dt : Nat) (s0 : State) : Host.Outcome State Fault Refusal :=
  .next ((List.range 64).foldl writeEpoch (s0.elapse dt))

/-! ### Run start (R173, R181) -/

/-- Four 16-bit entries to a RETIRED_MAP word, the last filled with empty entries (R181). -/
def mapWords (l : List Nat) : List Word72 :=
  (List.range (max 1 ((l.length + 3) / 4))).map (fun i =>
    controlWord 0x09 (nth l (4 * i) * 2 ^ 48 + nth l (4 * i + 1) * 2 ^ 32 + nth l (4 * i + 2) * 2 ^ 16 + nth l (4 * i + 3)))

/-- Whether a frame ADC is retired (R152). -/
def State.adcRetired (s : State) (d : Nat) : Bool := s.bg.inForce.adcs.contains d || s.bg.unlistedAdcs.contains d

/-- The RETIRED_MAP words of a tile (R181). -/
def retiredMap (s : State) (t : Nat) : List Word72 :=
  let px := ((s.bg.inForce.pixels ++ s.bg.unlisted).filter (fun p => pixTile p = t)).map pixLocal
  let dg := ((s.bg.inForce.digitizers ++ s.bg.unlistedDigis).filter (fun d => d < 65536 && d / 1024 = t)).map (· % 1024)
  let ad := ((s.bg.inForce.adcs ++ s.bg.unlistedAdcs).filter (fun d => d / 1024 = t)).map (· % 1024)
  let sort (l : List Nat) : List Nat := l.foldl (fun m i => insertNat i m) []
  mapWords ((sort px).map (· + 0x4000) ++ (sort dg).map (· + 0x8000) ++ (sort ad).map (· + 0xC000))

/-- A tile starts a run at S (R172, R173, R204); outputs of a pixel that were still blank after a chain error are so no more, which is
the model's choice (log entry 111); BUSY of the first unit counts from S, which is a DESIGN CHOICE too (log entry 152). -/
def startTile (b : Time) (s0 : State) (t : Nat) : State :=
  let s := (s0.wr (Reg.TIL_WORDS t) 0).wr (Reg.FRM_FRAMES t) 0
  if !s.tileOn t then s
  else
    let old := s.tile t
    let k : Tile := { Tile.idle with
      state := .running
      startAt := b
      epoch := lastEpoch b
      pllBusy := old.pllBusy
      spans := if old.busy s.clock.ticks && !old.full then [(b, none)] else []
      bins := old.bins
      lastAct := s.clock.ticks
      faults := old.faults }
    let s1 := { s with tiles := Sparse.set s.tiles t k Tile.idle }
    let s2 := s1.wr (Reg.DEC_PHASE t) 0
    let s3 := pushSlots t ((epochWord b :: retiredMap s t).map plainSlot) 0 s2
    if s.frameTile t then s3 else openUnit t (sliceOf s b) [] s3

/-! ### Clusters into words (R98–R109) -/

/-- The ToT of a pulse from its counter (R99). -/
def Pulse.tot (q : Pulse) : Nat :=
  match q.fall with
  | some f => min 1023 (since f q.lead / 4)
  | none => 1023

/-- Whether a pulse is over for the assembly: its trailing edge, or its counter at 1023, lies 24 ticks back (R101). -/
def Pulse.done (q : Pulse) (now : Time) : Bool :=
  (match q.fall with
    | some f => reached now (f + 24)
    | none => false) || reached now (q.lead + 4117)

/-- Whether a cluster is due for assembly (R101). -/
def Cluster.due (c : Cluster) (now : Time) : Bool :=
  (match c.closed with
    | some t => reached now (t + 24)
    | none => false) && c.pulses.all (·.done now)

/-- The range of a pulse: known at its end; until then a free value, two bits of w for each pixel (log entry 4), among those that its
gain mode has (R38). -/
def Pulse.rangeOr (q : Pulse) (w : Nat) : Nat :=
  let v := w / 4 ^ localQ q.lp % 4
  if q.fall.isSome then q.range
  else match bits q.cfg.toNat 8 7 with
    | 0 => v
    | g => if v % 2 = 0 then g - 1 else 3

/-- One stop of a continuation word (R107). -/
def stopBits (c : Cluster) (w : Nat) (last : Bool) (p : Stop) : Nat :=
  let q := (c.pulses.find? (fun q => localQ q.lp = p.q && q.lp ≠ c.lp)).getD ⟨0, 0, 0, false, 0, some 0, 0⟩
  p.q * 2 ^ 31 + fuFrom p.c p.fine c.c c.fine % 2 ^ 18 * 2 ^ 13 + q.tot * 2 ^ 3 + q.rangeOr w * 2 + b2n last

/-- The continuation words of a cluster (R106–R108). -/
def contWords (c : Cluster) (w : Nat) : List Word72 :=
  let n := c.stops.length
  let b := c.stops.zipIdx.map (fun q => stopBits c w (decide (q.2 + 1 = n)) q.1)
  (List.range ((n + 1) / 2)).map (fun i => BitVec.ofNat 72 (2 ^ 70 + nth b (2 * i) * 2 ^ 35 + nth b (2 * i + 1)))

/-- The ToT of the start pixel (R99). -/
def Cluster.tot (c : Cluster) : Nat :=
  match c.trail with
  | some fu => min 1023 (fu / 4096)
  | none => match c.pulses.head? with
    | some q => q.tot
    | none => 0

/-- The hit word of a cluster (R105). -/
def hitWord (t : Nat) (c : Cluster) (w : Nat) (sq : Bool) : Word72 :=
  let r := match c.pulses.head? with
    | some q => q.rangeOr w
    | none => 0
  BitVec.ofNat 72 (t * 2 ^ 64 + c.lp * 2 ^ 50 + c.c.toNat % 2 ^ 26 * 2 ^ 24 + c.fine * 2 ^ 14 + c.tot * 2 ^ 4 + r * 4
    + b2n sq * 2 + b2n (c.stops ≠ []))

/-- The group of a cluster (R109). -/
def groupOf (t : Nat) (c : Cluster) (w : Nat) (sq : Bool) : List Word72 := hitWord t c w sq :: contWords c w

/-- The declared squall whose interval holds a start (R200). DESIGN CHOICE (log entry 152): where two intervals overlap, the later squall. -/
def squallOf (s : State) (c : Time) : Option Squall :=
  s.squall.squalls.find? (fun q => reached s.now q.declared && reached c q.w0 && !reached c q.x)

/-- The quadrant of a local pixel (R194). -/
def quadrant (lp : Nat) : Nat := lp / 128 / 64 * 2 + lp % 128 / 64

/-- A cluster counted in the present summary (R193, R194). -/
def countCluster (t lp : Nat) (s : State) : State :=
  s.modTile t (fun k => { k with counts := k.counts.set (quadrant lp) (nth k.counts (quadrant lp) + 1) })

/-- The words waiting in the next-slice buffer (R177). -/
def Tile.buffered (k : Tile) : Nat := k.next.foldl (fun a g => a + g.2.length) 0

/-- A lost cluster counted in its slice (R186, R188, R200). -/
def loseCluster (t n : Nat) (f : Lost → Lost) (s : State) : State :=
  s.modTile t (fun k => { k with lost := Sparse.upd k.lost n Lost.zero f })

/-- A group of slice n written into the FIFO or the next-slice buffer, or dropped whole (R177, R182, R186); with it,
whether it was written. -/
def placeGroup (t n : Nat) (g : List Word72) (s : State) : State × Bool :=
  let k := s.tile t
  if k.slice = some n && !k.next.any (fun q => q.1 = n) then
    if k.fifo.length + g.length ≤ 4032 then (pushSlots t (groupSlots g) g.length s, true)
    else ((((s.bump (Reg.TIL_CL_DROP t) 31 0 1).tallyAll .clusterDrop 1)) |> loseCluster t n (fun l =>
      { l with drop := min (l.drop + 1) 0xFFFFFFFF }), false)
  else if k.buffered + g.length ≤ 512 then
    (s.modTile t (fun k => { k with next := k.next ++ [(n, g)], lastAct := s.clock.ticks, gatedAt := none }), true)
  else ((((s.bump (Reg.TIL_CL_DROP t) 31 0 1).tallyAll .clusterDrop 1)) |> loseCluster t n (fun l =>
      { l with drop := min (l.drop + 1) 0xFFFFFFFF }), false)

/-- A cluster of the run assembled: flagged, dropped or written (R105–R109, R186, R194, R200, R201). -/
def assemble (t : Nat) (c : Cluster) (s : State) : State :=
  let n := sliceOf s c.c
  let open_ := c.pulses.any (fun q => q.fall.isNone)
  let w := s.free.toNat
  let s1 := countCluster t c.lp (if open_ then s.took else s)
  let sq := squallOf s c.c
  let policy := match sq with
    | some q => q.policy
    | none => 0
  if policy = 2 then
    loseCluster t n (fun l => { l with squall := min (l.squall + 1) 0xFFFFFFFF })
      ((s1.bump (Reg.TIL_SQ_DROP t) 31 0 1).tallyAll .squallDrop 1)
  else
    let r := placeGroup t n (groupOf t c w (decide (policy ≠ 0))) s1
    if r.2 && sq.isNone then
      { r.1 with squall := { r.1.squall with
        recent := c.c :: r.1.squall.recent.filter (fun e => decide (since s.now e < 4500)) } }
    else r.1

/-- CLUSTER_ASSEMBLED (R76, R101, R105–R109, R173, R174, R177, R186, R200): a tile under a THRESH_SCAN writes nothing of its clusters. -/
def execClusterAssembled (dt : Nat) (gs : Fin 65536) (s0 : State) : Host.Outcome State Fault Refusal :=
  let s := s0.elapse dt
  let t := digiTile gs
  let g := s.digi gs
  match (if (s.tile t).waitPll.isSome then none else g.waiting.findIdx? (·.due s.now)) with
  | some i =>
    match g.waiting[i]? with
    | some c =>
      let s1 := settleTile t (s.modDigi gs (fun g => { g with waiting := g.waiting.eraseIdx i }))
      if (s1.tile t).inRun c.c && (scanOf s t).isNone then .next (assemble t c s1) else .next s1
    | none => .next s
  | none => .next s

/-! ### Occupancy summaries and clock gating -/

/-- A tile's summary (R193). DESIGN CHOICE (log entry 138): of a tile that takes no part, which R171 gives counts of 0, its other bits are
0 too. -/
def summaryOf (s : State) (t : Nat) : Nat :=
  let k := s.tile t
  if k.state = .idle then 0
  else if s.frameTile t then b2n (k.busy s.clock.ticks) * 2 + 1
  else
    min (nth k.counts 3) 511 * 2 ^ 39 + min (nth k.counts 2) 511 * 2 ^ 30 + min (nth k.counts 1) 511 * 2 ^ 21
      + min (nth k.counts 0) 511 * 2 ^ 12 + min k.refused 1023 * 4 + b2n (k.busy s.clock.ticks) * 2

/-- OCCUPANCY_SUMMARY (R171, R193, R194): at a multiple of 32 ticks every tile's summary leaves for the engines, one with all counts 0
for a tile that takes no part. -/
def execOccupancySummary (dt : Nat) (s0 : State) : Host.Outcome State Fault Refusal :=
  let s := (List.range 64).foldl (fun u t => settleTile t u) (s0.elapse dt)
  let m := s.now - BitVec.ofNat 64 (s.now.toNat % 32)
  if m = s.squall.lastSummary || (s.trg.run ≠ .running && s.trg.run ≠ .stopping) then .next s
  else
    let l := (List.range 64).map (summaryOf s)
    let s1 := (List.range 64).foldl (fun u t => u.modTile t (fun k => { k with counts := [0, 0, 0, 0], refused := 0 })) s
    .next ({ s1 with squall := { s1.squall with lastSummary := m } }.modTrg (fun g =>
      { g with coming := g.coming ++ [(m, l)] }))

/-- Whether a tile's logic clock is gated now: no slice boundary has come since (R195). -/
def gated (s : State) (t : Nat) : Bool :=
  match (s.tile t).gatedAt with
  | some g => decide (lastBoundary s ≤ g) && !s.rb (Reg.TIL_CTRL t) 2
  | none => false

/-- TILE_CLOCK_GATE (R195). -/
def execTileClockGate (dt : Nat) (t : Fin 64) (s0 : State) : Host.Outcome State Fault Refusal :=
  let s := settleTile t (s0.elapse dt)
  let k := s.tile t
  if s.power.mode ≠ .active || s.rb (Reg.TIL_CTRL t) 2 || k.fifo ≠ [] || k.next ≠ [] || k.frames ≠ []
    || s.clock.ticks < k.lastAct + 3000 || s.clock.ticks < lastBoundary s + 3000 then .next s
  else .next (s.modTile t (fun k => { k with gatedAt := some s.clock.ticks }))

/-! ### Retirement and the tile PLL -/

/-- TILE_PLL_LOCK_LOST (R531, R192): while the module leaves STANDBY, of a tile that has woken. -/
def execTilePllLockLost (dt : Nat) (t : Fin 64) (s0 : State) : Host.Outcome State Fault Refusal :=
  let s := s0.elapse dt
  let k := s.tile t
  if (s.power.mode ≠ .active && !s.power.on.contains t.val) || k.unlocked then .next s
  else
    let s1 := withBusy t (fun k => { k with pllBusy := some none }) s
    let s2 := { s1 with power := { s1.power with tileLock := s1.power.tileLock.filter (· ≠ t.val) } }
    let s3 := raiseBase 516 sevFault t (s2.bump Reg.PWR_CLK_LOSS 15 0 1)
    if s.tileRetired t then .next s3
    else if k.faults.third s.now then .next (retireTile t s3)
    else .next (s3.modTile t (fun k => { k with faults := k.faults.push s.now }))

/-- TILE_PLL_RELOCK (R531, R192): BUSY drops 3 000 ticks later. -/
def execTilePllRelock (dt : Nat) (t : Fin 64) (s0 : State) : Host.Outcome State Fault Refusal :=
  let s := s0.elapse dt
  if !(s.tile t).unlocked then .next s
  else
    let s1 := s.modTile t (fun k => { k with
      pllBusy := some (some (s.clock.ticks + 3000))
      frames := if k.waitPll.isSome then k.frames.map (fun f => { f with at_ := if reached s.now f.at_ then s.now else f.at_ })
        else k.frames
      waitPll := none })
    .next { s1 with power := { s1.power with tileLock := insertNat t s1.power.tileLock } }

/-! ### Squalls -/

/-- Distinct pixels that fired in the three bins before bin e (R197). -/
def firedIn (k : Tile) (e : Nat) : Nat :=
  ((k.bins.filter (fun b => decide (b.1 < e) && decide (e ≤ b.1 + 3))).foldl
    (fun m b => b.2.foldl (fun l p => insertNat p l) m) []).length

/-- The enabled EVENT tiles with more than 2 048 pixels in the window that ends at bin e (R197). -/
def crowded (s : State) (e : Nat) : List Nat :=
  (List.range 64).filter (fun t => !s.tileOut t && !s.frameTile t && 2048 < firedIn (s.tile t) e)

/-- A mask of tiles in a pair of registers, added to what they hold. -/
def addTiles (l : List Nat) (s : State) : State :=
  let m : BitVec 64 := l.foldl (fun m t => m ||| (1#64 <<< t)) 0
  s.wr64 Reg.TIL_SQ_TILES Reg.TIL_SQ_TILES_4 (s.rd64 Reg.TIL_SQ_TILES Reg.TIL_SQ_TILES_4 ||| m)

/-- Tiles that take part in a squall: tile event k = 1 once each (R199). -/
def squallTiles (l : List Nat) (s : State) : State :=
  addTiles l (l.foldl (fun u t =>
    if (u.tile t).squallSaid then u
    else raiseTile t 1 sevNotice noInst (u.modTile t (fun k => { k with squallSaid := true }))) s)

/-- SQUALL_END with X to every enabled tile (R198, R199). -/
def endSquall (x : Time) (s : State) : State :=
  let s1 := (List.range 64).foldl (fun u t => writeControl t (controlWord 0x07 x.toNat)
    (if (u.tile t).squallSaid then u.modTile t (fun k => { k with squallSaid := false }) else u)) s
  let s2 := s1.wr64 Reg.TIL_SQ_END Reg.TIL_SQ_END_4 x
  { s2 with squall := { s2.squall with
    active := false
    ending := none
    squalls := match s2.squall.squalls with
      | q :: r => { q with x := x } :: r
      | [] => [] } }

/-- The X of the squall in progress (R198). -/
def squallX (s : State) : Option Time := if s.squall.active then (s.squall.squalls.head?).map (·.x) else none

/-- Whether a squall is in progress: the detector stands in SQUALL and has not reached X (R198). -/
def inSquall (s : State) : Bool := (squallX s).any (fun x => !reached s.now x)

/-- The X of a squall that a time has passed, whose SQUALL_END is still to be written (R198). -/
def squallEnded (t : Time) (s : State) : Option Time :=
  match s.squall.ending with
  | some x => some x
  | none => (squallX s).filter (fun x => x ≠ t && reached t x)

/-- QUIET once a window has passed X; SQUALL_END follows at X + 12 (R198). -/
def quietAt (t : Time) (s : State) : State :=
  match squallEnded t s with
  | some x => { s with squall := { s.squall with
      active := false
      ending := some x } }
  | none => s

/-- SQUALL_WINDOW_EVAL (R197–R199): a squall whose X has passed before this window is over. -/
def execSquallWindowEval (dt : Nat) (s0 : State) : Host.Outcome State Fault Refusal :=
  let s := s0.elapse dt
  let e := s.now.toNat / 20
  let tick := BitVec.ofNat 64 (20 * e)
  if s.trg.run ≠ .running || s.squall.lastEval = tick then .next s
  else
    let s1 := quietAt tick s
    let s2 := { s1 with squall := { s1.squall with lastEval := tick } }
    let l := crowded s2 e
    if l.length < 8 then .next s2
    else if s2.squall.active then
      .next (squallTiles l { s2 with squall := { s2.squall with
        squalls := match s2.squall.squalls with
          | q :: r => { q with x := tick + 3000 } :: r
          | [] => [] } })
    else if s2.squall.declare.isSome then .next s2
    else .next { s2 with squall := { s2.squall with declare := some (tick - 60, l) } }

/-- SQUALL_DECLARATION (R198, R199, R201, R203), after the SQUALL_END of the squall before, which was due earlier. -/
def execSquallDeclaration (dt : Nat) (s0 : State) : Host.Outcome State Fault Refusal :=
  let u := s0.elapse dt
  match u.squall.declare with
  | some (b, l) =>
    if !reached u.now (b + 72) then .next u
    else
      let s := match u.squall.ending with
        | some x => endSquall x u
        | none => u
      let policy := s.rf Reg.TIL_SQ_CTRL 1 0
      let early := (s.squall.recent.filter (fun c => reached c b)).length
      let s1 := { s with squall := { s.squall with
        active := true
        declare := none
        squalls := ⟨b, b + 3060, policy, b + 72⟩ :: s.squall.squalls } }
      let s2 := (s1.count Reg.TIL_SQ_STATUS 31 16 1).wf Reg.TIL_SQ_STATUS 2 1 policy
      let s3 := ((s2.wr64 Reg.TIL_SQ_BEGIN Reg.TIL_SQ_BEGIN_4 b).wr64 Reg.TIL_SQ_END Reg.TIL_SQ_END_4 0).wr64
        Reg.TIL_SQ_TILES Reg.TIL_SQ_TILES_4 0
      let s4 := (s3.bump Reg.TIL_SQ_UNFLAGGED 31 0 early).tallyAll .squalls 1
      let s5 := (List.range 64).foldl (fun u t => writeControl t (controlWord 0x06 b.toNat) u) s4
      .next (atTime b (raiseBase 531 sevNotice noInst) (squallTiles l s5))
  | none => .next u

/-- SQUALL_END (R198, R199): at X + 12. -/
def execSquallEnd (dt : Nat) (s0 : State) : Host.Outcome State Fault Refusal :=
  let s := s0.elapse dt
  match squallEnded s.now s with
  | some x => if reached s.now (x + 12) then .next (endSquall x s) else .next s
  | none => .next s

/-- What a write of TIL_CTRL breaks: EN or MODE changed outside IDLE (R170, R447). -/
def tileCtrlRefusal (s : State) (t : Nat) (v : Word) : Option Status :=
  if bits v.toNat 1 0 ≠ s.rf (Reg.TIL_CTRL t) 1 0 && s.trg.run ≠ .idle then some .wrongState else none

end Sys2Proof.Machine
end

