-- ==== Sys2Proof/Machine/Store.lean ====
section
/-!
DEFINITION. The burst store (chapter "Burst store"): the storage word and its codes, the keyed mapping, refresh and
neighbour refresh, rings and what they hold, drains, bandwidth classes, the patrol scrub and the error log.
-/

namespace Sys2Proof.Machine

/-! ### The storage word (R299–R302) -/

/-- The check bits of a byte (R300). -/
def checkOf (d : Nat) : Nat :=
  let b (i : Nat) : Nat := d / 2 ^ i % 2
  let c0 := (b 0 + b 1 + b 3 + b 4 + b 6) % 2
  let c1 := (b 0 + b 2 + b 3 + b 5 + b 6) % 2
  let c2 := (b 1 + b 2 + b 3 + b 7) % 2
  let c3 := (b 4 + b 5 + b 6 + b 7) % 2
  c3 * 8 + c2 * 4 + c1 * 2 + c0

/-- The 9 byte fields of 12 bits of a payload word, byte 0 uppermost (R299). -/
def byteFields (w : Word72) : Nat := (wordBytes w).foldl (fun a d => a * 4096 + d * 16 + checkOf d) 0

/-- A storage word of a class, whole and fresh (R299, R303). -/
def encodeStore (cls : Nat) (w : Word72) : BitVec 120 :=
  BitVec.ofNat 120 (2 ^ 119 + cls % 4 * 2 ^ 116 + crc8 (wordBytes w) * 2 ^ 108 + byteFields w)

/-- A storage word as byte masks write it: CLASS 11, and no CRC (R303). -/
def encodeBytes (w : Word72) : BitVec 120 := BitVec.ofNat 120 (2 ^ 119 + 3 * 2 ^ 116 + byteFields w)

/-- The bits of a storage word that a write of some of its byte fields changes: the fields, and the tag, POISON with it, since nothing is
read first (R303; log entry 118). -/
def writeBits (m : BitVec 9) : BitVec 120 :=
  (List.range 9).foldl (fun a b => if m.getLsbD b then a ||| (0xFFF#120 <<< (96 - 12 * b)) else a) (0xFFF#120 <<< 108)

/-- A storage word with the byte fields that a write names taken from it. -/
def mixStore (m : BitVec 9) (new old : BitVec 120) : BitVec 120 :=
  if m = 0 then old else (old &&& ~~~writeBits m) ||| (new &&& writeBits m)

/-- The part of a granule's mask that is of word w (R315). -/
def wordMask (m : BitVec 72) (w : Nat) : BitVec 9 := (m >>> (9 * w)).setWidth 9

/-- The mask of the first n words of a granule, whole (R315). -/
def wholeMask (n : Nat) : BitVec 72 := BitVec.ofNat 72 (2 ^ (9 * n) - 1)

/-- A storage word with POISON set and fresh codes (R340). -/
def poisonStore (cls : Nat) (w : Word72) : BitVec 120 := encodeStore cls w ||| (1#120 <<< 118)

/-- What the decoding of a storage word gives (R302): payload, whether it was corrected or is uncorrectable, and the LANE
of the error log (R347). -/
structure StoreRead where
  word : Word72
  corrected : Bool
  bad : Bool
  lane : Nat
deriving DecidableEq, Repr

/-- The data bit that a syndrome points at: positions 3, 5, 6, 7, 9 to 12 hold bits 0 to 7 (R300). -/
def syndromeBit (s : Nat) : Option Nat := [3, 5, 6, 7, 9, 10, 11, 12].findIdx? (· = s)

/-- One byte field decoded (R302): the byte, whether it was corrected, whether it is bad. -/
def decodeByte (f : Nat) : Nat × Bool × Bool :=
  let d := f / 16
  let s := checkOf d ^^^ (f % 16)
  if s = 0 then (d, false, false)
  else
    match syndromeBit s with
    | some i => (d ^^^ 2 ^ i, true, false)
    | none => if [1, 2, 4, 8].contains s then (d, true, false) else (d, false, true)

/-- A storage word decoded (R302); one that has never been written reads as zeros, without error (R346). -/
def decodeStore (v : BitVec 120) : StoreRead :=
  let n := v.toNat
  if !n.testBit 119 then ⟨0, false, false, 0⟩
  else
    let bs := (List.range 9).map (fun b => decodeByte (bits n (107 - 12 * b) (96 - 12 * b)))
    let data := bs.map (·.1)
    let fixed := bs.any (·.2.1)
    let bad := bs.any (·.2.2)
    let crcOff := !bad && bits n 117 116 ≠ 3 && crc8 data ≠ bits n 115 108
    let bad2 := bad || (crcOff && fixed) || n.testBit 118
    let touched := (List.range 9).filter (fun b => match bs[b]? with
      | some q => q.2.1 || q.2.2
      | none => false)
    let lane := match touched with
      | [] => if crcOff then 9 else 15
      | [b] => if crcOff then 15 else b
      | _ => 15
    ⟨BitVec.ofNat 72 (ofBytesBE data), fixed || crcOff, bad2, lane⟩

/-! ### Channel mapping (R306) -/

/-- The 9 bits that the keyed function XORs into a granule address (R306). -/
def keyFold (k1 k2 hi : Nat) : Nat := (hi * k1 + k2) % 2 ^ 32 / 2 ^ 23

/-- The physical location of granule g: channel in [26:23], bank in [22:18], row in [17:5], column in [4:0] (R306). -/
def mapGranule (k1 k2 g : Nat) : Nat :=
  let hi := g / 512
  let m := (g % 512) ^^^ keyFold k1 k2 hi
  m % 16 * 2 ^ 23 + m / 16 * 2 ^ 18 + hi

/-- The granule address at a physical location: the inverse of mapGranule. -/
def unmapGranule (k1 k2 loc : Nat) : Nat :=
  let hi := loc % 2 ^ 18
  hi * 512 + ((loc / 2 ^ 18 % 32 * 16 + loc / 2 ^ 23) ^^^ keyFold k1 k2 hi)

/-- The channel of a location. -/
def locChan (loc : Nat) : Nat := loc / 2 ^ 23
/-- The bank of a location. -/
def locBank (loc : Nat) : Nat := loc / 2 ^ 18 % 32
/-- The row of a location. -/
def locRow (loc : Nat) : Nat := loc / 32 % 8192
/-- The granule within the row of a location. -/
def locCol (loc : Nat) : Nat := loc % 32

/-! ### State of one side's store -/

/-- Side x's store. -/
def State.bst (s : State) (x : Side) : Bst := (s.side x).bst

/-- A channel of side x. -/
def State.chan (s : State) (x : Side) (ch : Nat) : Chan := Sparse.get (s.bst x).chans ch Chan.idle

/-- A channel of side x changed by f. -/
def State.modChan (s : State) (x : Side) (ch : Nat) (f : Chan → Chan) : State :=
  s.modBst x (fun b => { b with chans := Sparse.upd b.chans ch Chan.idle f })

/-- A ring of side x. -/
def State.ring (s : State) (x : Side) (r : Nat) : Ring := Sparse.get (s.bst x).rings r Ring.idle

/-- A ring of side x changed by f. -/
def State.modRing (s : State) (x : Side) (r : Nat) (f : Ring → Ring) : State :=
  s.modBst x (fun b => { b with rings := Sparse.upd b.rings r Ring.idle f })

/-- Whether a channel is retired (R339). -/
def chanRetired (s : State) (x : Side) (ch : Nat) : Bool := s.bg.inForce.channels.contains (sideNum x * 16 + ch)

/-- The entry of a row in the retirement list: side, then the P2 encoding of R467. -/
def rowNo (x : Side) (ch bank row : Nat) : Nat := sideNum x * 2 ^ 22 + row * 512 + bank * 16 + ch

/-- Whether a location lies in a retired row (R338). -/
def rowRetired (s : State) (x : Side) (loc : Nat) : Bool :=
  s.bg.inForce.rows.contains (rowNo x (locChan loc) (locBank loc) (locRow loc))

/-- The retired rows of a channel (R338). -/
def retiredRows (s : State) (x : Side) (ch : Nat) : List Nat :=
  s.bg.inForce.rows.filter (fun n => n / 2 ^ 22 = sideNum x && n % 16 = ch)

/-- The channels in service. -/
def chansIn (s : State) (x : Side) : List Nat := (List.range 16).filter (fun ch => !chanRetired s x ch)

/-- The guaranteed service figure in 0.5 GB/s, rounded down (R305). -/
def serviceFigure (s : State) (x : Side) : Nat :=
  (chansIn s x).foldl (fun a ch => a + 60 * (262144 - (retiredRows s x ch).length)) 0 / 262144

/-- The location of a granule under an old key, or under the key in use (R308). -/
def keyLoc (b : Bst) (old : Option (Nat × Nat)) (g : Nat) : Nat :=
  match old with
  | some k => mapGranule k.1 k.2 g
  | none => mapGranule b.k1 b.k2 g

/-- The location of a granule of an item: under the old key for an item marked so (R308). -/
def itemLoc (b : Bst) (i : RingItem) (g : Nat) : Nat := keyLoc b i.old g

/-- The location of a granule of the management controller's areas, under the key that it was written under (R303, R308). -/
def areaLoc (b : Bst) (g : Nat) : Nat :=
  match Sparse.get b.areas g none with
  | some old => keyLoc b old g
  | none => keyLoc b none g

/-- The locations that items marked under an old key occupy, and the management controller's areas (R308). -/
def oldLocs (b : Bst) : List Nat :=
  b.rings.flatMap (fun e => (e.2.items.filter (·.old.isSome)).flatMap (fun i => i.granules.map (itemLoc b i)))
    ++ b.areas.map (fun e => areaLoc b e.1)

/-- Whether allocation skips a granule: a retired row or channel, or a location under the old key (R308, R321). -/
def skipped (s : State) (x : Side) (g : Nat) : Bool :=
  let b := s.bst x
  let loc := mapGranule b.k1 b.k2 g
  chanRetired s x (locChan loc) || rowRetired s x loc || (oldLocs b).contains loc

/-- The granules of a range that lie in retired channels: 32 of each aligned run of 512 per channel, and those of the
partial runs one by one. -/
def chanLoss (s : State) (x : Side) (base size : Nat) : Nat :=
  let n := 16 - (chansIn s x).length
  if n = 0 then 0
  else
    let first := alignUp 512 base
    let last := (base + size) / 512 * 512
    let b := s.bst x
    let out (g : Nat) : Bool := chanRetired s x (locChan (mapGranule b.k1 b.k2 g))
    if last ≤ first then ((List.range size).filter (fun i => out (base + i))).length
    else n * 32 * ((last - first) / 512) + ((List.range (first - base)).filter (fun i => out (base + i))).length
      + ((List.range (base + size - last)).filter (fun i => out (last + i))).length

/-- The usable granules of a range (R322). -/
def usable (s : State) (x : Side) (base size : Nat) : Nat :=
  let b := s.bst x
  let rows := (chansIn s x).flatMap (fun ch => (retiredRows s x ch).flatMap (fun n =>
    (List.range 32).map (fun c => ch * 2 ^ 23 + n / 16 % 32 * 2 ^ 18 + n / 512 % 8192 * 32 + c)))
  let locs := rows ++ (oldLocs b).filter (fun l => !rowRetired s x l && !chanRetired s x (locChan l))
  let inside := locs.filter (fun l =>
    let g := unmapGranule b.k1 b.k2 l
    decide (base ≤ g) && decide (g < base + size))
  size - chanLoss s x base size - inside.length

/-- The usable granules of a ring (R322). -/
def ringCap (s : State) (x : Side) (r : Nat) : Nat :=
  usable s x (s.rf (Reg.BST_RING_BASE x r) 26 0) (s.rf (Reg.BST_RING_SIZE x r) 27 0)

/-- The granules that hold items of a ring. -/
def Ring.fill (k : Ring) : Nat := k.items.foldl (fun a i => a + i.granules.length) 0

/-- The ring that takes the data of a stream (R319). -/
def ringOf (s : State) (x : Side) (st : Nat) : Nat :=
  ((List.range 8).find? (fun r => s.rb (Reg.BST_RING_CTRL x r) 0 && s.rb (Reg.BST_RING_CTRL x r) (4 + streamSlot st))).getD 0

/-- Whether a stream has a ring (R320). -/
def hasRing (s : State) (x : Side) (st : Nat) : Bool := s.rb (Reg.BST_RING_CTRL x (ringOf s x st)) 0

/-! ### Activates, reads and writes -/

/-- One bank's table after an activate of a row, and whether it calls for a neighbour refresh (R313). -/
def activate (row : Nat) (l : List (Nat × Nat)) : List (Nat × Nat) × Bool :=
  let least := l.foldl (fun m e => min m e.2) (2 ^ 32)
  let l1 :=
    if l.any (·.1 = row) then l
    else if l.length < 16 then l ++ [(row, 0)]
    else
      match l.findIdx? (·.2 = least) with
      | some i => l.set i (row, least)
      | none => l
  let l2 := l1.map (fun e => if e.1 = row then (row, e.2 + 1) else e)
  if l2.any (fun e => e.1 = row && decide (2048 ≤ e.2)) then
    (l2.map (fun e => if e.1 = row then (row, 0) else e), true)
  else (l2, false)

/-- An access to a location: its activate (R313, R314), and its part in the traffic (R309, R329). -/
def accessLoc (x : Side) (cls loc : Nat) (s : State) : State :=
  let k := locChan loc * 32 + locBank loc
  let r := activate (locRow loc) (Sparse.get (s.bst x).acts k [])
  let s1 := (s.modBst x (fun b => { b with
    acts := Sparse.set b.acts k r.1 []
    classUse := b.classUse.set cls (nth b.classUse cls + 1) })).modChan x (locChan loc) (fun c => { c with
      traffic := c.traffic + 1 })
  if r.2 then s1.bump (Reg.BST_REFRESH_8 x (locChan loc)) 31 0 1 else s1

/-- The byte fields that a write names put into the DRAM (R303, R315). -/
def putWords (x : Side) (q : Queued) (s : State) : State :=
  s.modBst x (fun b => { b with
    dram := q.words.zipIdx.foldl (fun d w => Sparse.upd d (q.loc * 8 + w.2) 0 (mixStore (wordMask q.mask w.2) w.1)) b.dram })

/-- A write to one granule (R312, R315): into its channel's queue and staging SRAM during a refresh, else into the DRAM. All that waits counts
as staged, up to what the staging SRAM holds. -/
def writeGranule (x : Side) (q : Queued) (s : State) : State :=
  let ch := locChan q.loc
  let s1 := if q.cls = 0 then s.modChan x ch (fun c => { c with lastIngest := some s.clock.ticks }) else s
  if (s1.chan x ch).refresh.isSome then
    let n := (s1.chan x ch).queue.length + 1
    (s1.modChan x ch (fun c => { c with queue := c.queue ++ [q] })).high (Reg.BST_REFRESH_C x ch) 9 0 (min n 910)
  else putWords x q (accessLoc x q.cls q.loc s1)

/-- Whether the queues and staging SRAMs have room for writes to some locations (R312, R315). -/
def stagingRoom (s : State) (x : Side) (locs : List Nat) : Bool :=
  (List.range 16).all (fun ch => (s.chan x ch).refresh.isNone ||
    decide ((s.chan x ch).queue.length + (locs.filter (fun l => locChan l = ch)).length ≤ 64 + 910))

/-- The storage word w of a location as a read sees it: each byte from the youngest queued write whose mask covers it, else from the DRAM
(R316). -/
def rawWord (s : State) (x : Side) (loc w : Nat) : BitVec 120 :=
  ((s.chan x (locChan loc)).queue.filter (fun e => e.loc = loc)).foldl
    (fun v e => mixStore (wordMask e.mask w) (e.words.getD w 0) v) (Sparse.get (s.bst x).dram (loc * 8 + w) 0)

/-- Whether a write that waits covers a byte of word w of a location. -/
def wordQueued (s : State) (x : Side) (loc w : Nat) : Bool :=
  (s.chan x (locChan loc)).queue.any (fun e => e.loc = loc && wordMask e.mask w ≠ 0)

/-- Whether a channel's refresh is in progress, which closes it to every other access (R310). -/
def refreshing (s : State) (x : Side) (loc : Nat) : Bool := (s.chan x (locChan loc)).refresh.isSome

/-- An entry of a channel's error log, or the count of what it cannot hold (R336). -/
def logError (x : Side) (loc w lane : Nat) (bad : Bool) (s : State) : State :=
  let ch := locChan loc
  let st := Reg.BST_LOG_STATUS x ch
  let n := s.rf st 20 16
  if n < 16 then
    ((s.wr (Reg.BST_LOG x ch n) (BitVec.ofNat 32 (2 ^ 31 + b2n bad * 2 ^ 30 + locBank loc * 2 ^ 25 + locRow loc * 2 ^ 12
      + locCol loc * 2 ^ 7 + w * 16 + lane))).wr (Reg.BST_LOG_4 x ch n) ((s.now >>> 16).setWidth 32)).wf st 20 16 (n + 1)
  else
    let first := s.rf st 15 0 = 0
    let s1 := (s.raiseBit st 31).bump st 15 0 1
    if first then raiseSide x 592 sevNotice ch s1 else s1

/-- An uncorrectable word counted, logged and reported (R336, R340). -/
def badWord (x : Side) (loc w lane : Nat) (s : State) : State :=
  let ch := locChan loc
  logError x loc w lane true (raiseSide x 590 sevFault ch ((s.bump (Reg.BST_ECC x ch) 31 16 1).tally x .storeUncorr 1))

/-- What is written back of a storage word that has been read: it corrected, poisoned, or out of CLASS 11 (R302, R303, R340). -/
def rewriteOf (raw : BitVec 120) : Option (BitVec 120) :=
  let d := decodeStore raw
  let old := bits raw.toNat 117 116
  let cls := if old = 3 then 0 else old
  if d.bad then some (poisonStore cls d.word)
  else if d.corrected then some (encodeStore cls d.word)
  else if old = 3 && raw.getLsbD 119 then some (encodeStore 0 d.word)
  else none

/-- How a storage word has read. -/
def gotOf (raw : BitVec 120) : GotWord :=
  let d := decodeStore raw
  ⟨d.word, if !d.bad then 0 else if raw.getLsbD 118 then 2 else 1⟩

/-- One word of an access decoded: counted, logged and, where no later write of it waits, put right (R302, R303, R317, R336, R340); with
whether it has been written back. -/
def judgeWord (x : Side) (loc w : Nat) (a : List GotWord × Bool × State) : List GotWord × Bool × State :=
  let s := a.2.2
  let raw := rawWord s x loc w
  let d := decodeStore raw
  let ch := locChan loc
  let s1 := if d.bad then badWord x loc w d.lane s
    else if d.corrected then logError x loc w d.lane false ((s.bump (Reg.BST_ECC x ch) 15 0 1).tally x .storeCorr 1)
    else s
  match rewriteOf raw with
  | some v =>
    if wordQueued s x loc w then (gotOf raw :: a.1, a.2.1, s1)
    else (gotOf raw :: a.1, true, s1.modBst x (fun b => { b with dram := Sparse.set b.dram (loc * 8 + w) v 0 }))
  | none => (gotOf raw :: a.1, a.2.1, s1)

/-- One granule read in a class (R302, R304, R313, R329, R339): an access, its 8 words decoded, and one access more where a word is written
back. A retired channel takes no access, and the words that live in it, those of l, end as uncorrectable. -/
def readGranule (x : Side) (cls loc : Nat) (l : List Nat) (s : State) : List GotWord × State :=
  if chanRetired s x (locChan loc) then
    (List.replicate 8 ⟨0, 2⟩, l.foldl (fun t w => badWord x loc w 15 t) s)
  else
    let r := (List.range 8).foldl (fun a w => judgeWord x loc w a) ([], false, accessLoc x cls loc s)
    (r.1.reverse, if r.2.1 then accessLoc x cls loc r.2.2 else r.2.2)

/-! ### Ring items -/

/-- The next granule of a range from `at_` on that a test allows. -/
def findFree (ok : Nat → Bool) (base size : Nat) : Nat → Nat → Option Nat
  | 0, _ => none
  | n + 1, g =>
    let h := if g < base || base + size ≤ g then base else g
    if ok h then some h else findFree ok base size n (h + 1)

/-- n granules allocated in increasing address (R321), and the place after them. -/
def allocate (ok : Nat → Bool) (base size : Nat) : Nat → Nat → Option (List Nat × Nat)
  | 0, g => some ([], g)
  | n + 1, g =>
    match findFree ok base size size g with
    | none => none
    | some h =>
      match allocate (fun i => ok i && i ≠ h) base size n (h + 1) with
      | none => none
      | some q => some (h :: q.1, q.2)

/-- The granules of an item of n words: at least one (R321). -/
def granulesFor (n : Nat) : Nat := (n + 7) / 8

/-- The granules that a new item of n words gets in ring r, when the ring has room (R321, R323). -/
def ringFits (s : State) (x : Side) (r n : Nat) : Option (List Nat × Nat) :=
  let k := s.ring x r
  let used := k.items.flatMap (·.granules)
  if ringCap s x r < k.fill + granulesFor n then none
  else allocate (fun g => !skipped s x g && !used.contains g) (s.rf (Reg.BST_RING_BASE x r) 26 0)
    (s.rf (Reg.BST_RING_SIZE x r) 27 0) (granulesFor n) k.at_

/-- The granules that a new item of n words gets in ring r now: the ring and the write queues have room (R312, R321, R323). -/
def ringPlace (s : State) (x : Side) (r n : Nat) : Option (List Nat × Nat) :=
  (ringFits s x r n).filter (fun q => stagingRoom s x (q.1.map (mapGranule (s.bst x).k1 (s.bst x).k2)))

/-- The words of an item written granule by granule. -/
def writeItem (x : Side) (cls kind : Nat) (gs : List Nat) (ws : List Word72) (s : State) : State :=
  gs.zipIdx.foldl (fun t q =>
    let l := ((ws.drop (8 * q.2)).take 8).map (encodeStore kind)
    writeGranule x ⟨keyLoc (t.bst x) none q.1, cls, l, wholeMask l.length⟩ t) s

/-- An item put into a ring at the granules allocated for it, with its number. -/
def putItem (x : Side) (r cls kind : Nat) (what : Stored) (ws : List Word72) (q : List Nat × Nat) (s : State) :
    State × Nat :=
  let id := (s.bst x).nextId
  let s1 := writeItem x cls kind q.1 ws s
  let s2 := (s1.modBst x (fun b => { b with nextId := id + 1 })).modRing x r (fun k => { k with
    items := k.items ++ [⟨id, what, q.1, ws.length, false, false, none, []⟩], at_ := q.2 })
  (s2.high (Reg.BST_RING_MAX x r) 27 0 (s2.ring x r).fill, id)

/-- A writer of n words that waits on a ring: the first wait of a run for want of room in it is reported (R323). -/
def ringFull (x : Side) (r n : Nat) (s : State) : State :=
  if (s.ring x r).fullSaid || (ringFits s x r n).isSome then s
  else raiseSide x 596 sevNotice r (s.modRing x r (fun k => { k with fullSaid := true }))

/-- A lace frame put into the ring of stream 6, when that ring is there and has room (R319, R320, R432). -/
def storeLace (x : Side) (p : Nat) (f : Frame) (s : State) : Option (State × Nat) :=
  let r := ringOf s x 6
  if !s.rb (Reg.BST_RING_CTRL x r) 0 then none
  else (ringPlace s x r f.words.length).map (fun q => putItem x r 3 0 (.lace f p) f.words q s)

/-- A held unit or an output put into its ring, when it has room (R319, R323, R329). -/
def storeWords (x : Side) (st cls : Nat) (what : Stored) (ws : List Word72) (s : State) : Option (State × Nat) :=
  let r := ringOf s x st
  match ringPlace s x r ws.length with
  | some q => some (putItem x r cls 1 what ws q s)
  | none => none

/-- An item's ring and the item, by its number. -/
def findItem (s : State) (x : Side) (id : Nat) : Option (Nat × RingItem) :=
  (s.bst x).rings.findSome? (fun e => (e.2.items.find? (·.id = id)).map (fun i => (e.1, i)))

/-- Item id of a side changed by f. -/
def State.modItem (s : State) (x : Side) (id : Nat) (f : RingItem → RingItem) : State :=
  s.modBst x (fun b => { b with rings := b.rings.map (fun e =>
    (e.1, { e.2 with items := e.2.items.map (fun i => if i.id = id then f i else i) })) })

/-- An item freed (R321); an old key is dropped with the last item marked under it (R308). -/
def dropItem (x : Side) (id : Nat) (s : State) : State :=
  s.modBst x (fun b => { b with
    rings := b.rings.map (fun e => (e.1, { e.2 with items := e.2.items.filter (·.id ≠ id) })) })

/-- A granule of an item read, unless the item's read has it already or a refresh closes its channel (R310, R316). -/
def fetchGranule (x : Side) (cls : Nat) (i : RingItem) (s : State) (q : Nat × Nat) : State :=
  let loc := itemLoc (s.bst x) i q.1
  if i.got.any (·.1 = q.2) || (refreshing s x loc && !chanRetired s x (locChan loc)) then s
  else
    let r := readGranule x cls loc (List.range (min 8 (i.size - 8 * q.2))) s
    r.2.modItem x i.id (fun k => { k with got := k.got ++ [(q.2, r.1)] })

/-- What a whole read has found of an item: its words in order, and the places of those that are uncorrectable (R340, R344); and whether
one of them was found so by this read in a channel in service, not poisoned before it nor in a retired channel (R266, R339). -/
structure ItemRead where
  words : List Word72
  bad : List Nat
  newBad : Bool
deriving DecidableEq, Repr

/-- The item as its read has found it, once all its granules have been read. -/
def RingItem.whole (i : RingItem) : Option ItemRead :=
  if (List.range i.granules.length).all (fun k => i.got.any (·.1 = k)) then
    let l := ((List.range i.granules.length).flatMap (fun k =>
      ((i.got.find? (·.1 = k)).map (·.2)).getD [])).take i.size
    some ⟨l.map (·.word), (l.zipIdx.filter (fun q => q.1.state ≠ 0)).map (·.2), l.any (fun q => q.state = 1)⟩
  else none

/-- An item read as far as its channels allow (R310): what it holds, or none while a refresh keeps a granule back. -/
def fetchItem (x : Side) (cls : Nat) (i : RingItem) (s : State) : State × Option ItemRead :=
  let t := i.granules.zipIdx.foldl (fetchGranule x cls i) s
  (t, (findItem t x i.id).bind (fun q => q.2.whole))

/-- The storage word n of an item changed by an upset, by XOR. -/
def upsetItem (x : Side) (i : RingItem) (n : Nat) (mask : BitVec 120) (s : State) : State :=
  match i.granules[n / 8]? with
  | some g =>
    let k := itemLoc (s.bst x) i g * 8 + n % 8
    if n < i.size then s.modBst x (fun b => { b with dram := Sparse.upd b.dram k 0 (· ^^^ mask) }) else s
  | none => s

/-! ### Blocks: cut-through, spill, drain -/

/-- The words in the egress buffer: blocks not yet assigned, and those of the ports (R327). -/
def egressWords (s : State) (x : Side) : Nat :=
  let add (a : Nat) (b : Block) : Nat := a + b.words.length
  (s.side x).lnk.ports.foldl (fun a e => e.2.blocks.foldl add a) ((s.side x).lnk.egress.foldl add 0)

/-- Whether the egress buffer of 4 MiB has room for n more words. -/
def egressRoom (s : State) (x : Side) (n : Nat) : Bool := decide (9 * (egressWords s x + n) ≤ 4194304)

/-- The block of an item, if it is one. -/
def RingItem.block? (i : RingItem) : Option Block :=
  match i.what with
  | .block b => some b
  | _ => none

/-- Whether an item is a block of a stream that still awaits drain. -/
def RingItem.awaits (i : RingItem) (st : Nat) : Bool :=
  match i.block? with
  | some b => b.id.stream = st && !i.read
  | none => false

/-- Whether a finished block goes cut-through (R327). -/
def cutThrough (s : State) (x : Side) (b : Block) : Bool :=
  let k := s.ring x (ringOf s x b.id.stream)
  !k.items.any (·.awaits b.id.stream) && !k.waiting.any (fun w => w.id.stream = b.id.stream)
    && egressRoom s x b.words.length

/-- A NOTICE of a block lost in the store, on the ports that carry its stream (R325, R431). -/
def ringLoss (x : Side) (source : Nat) (b : Block) (s : State) : State :=
  sendNotice x 0x01 b.id.stream (lossNotice b source) (carryPorts s x b.id.stream) s

/-- The item that a halted drain stands on, or none (R341). -/
def haltedItem (k : Ring) : Option Nat :=
  if k.halted then (k.items.find? (fun i => i.block?.isSome && !i.read)).map (·.id) else none

/-- The ring's oldest block that RING may free: neither begun nor moved (R324). -/
def oldestFree (k : Ring) : Option (Nat × Block) :=
  k.items.findSome? (fun i => match i.block? with
    | some b => if i.read || i.begun || haltedItem k = some i.id then none else some (i.id, b)
    | none => none)

/-- Blocks freed under RING until n words fit or no block is left to free (R324). -/
def overwrite (x : Side) (r n : Nat) : Nat → State → State
  | 0, s => s
  | fuel + 1, s =>
    if (ringFits s x r n).isSome then s
    else
      match oldestFree (s.ring x r) with
      | none => s
      | some (id, b) =>
        let s1 := ringLoss x 0x13 b ((((dropItem x id s).bump (Reg.BST_RING_LOSS x r) 10 0 1)).tally x .overwritten 1)
        let said := (s1.bst x).rings.any (fun e => e.2.overSaid)
        let s2 := if said then s1
          else raiseSide x 597 sevNotice r (s1.modRing x r (fun k => { k with overSaid := true }))
        overwrite x r n fuel s2

/-- A block spilled into its ring, if room is there or can be made, and whether it has been (R323, R324). -/
def spillBlock (x : Side) (b : Block) (s : State) : State × Bool :=
  let r := ringOf s x b.id.stream
  let s1 := if s.rb (Reg.BST_RING_CTRL x r) 1 then overwrite x r b.words.length (s.ring x r).items.length s else s
  match ringPlace s1 x r b.words.length with
  | some q => ((putItem x r 0 0 (.block b) b.words q s1).1, true)
  | none => (s1, false)

/-- The compressor that holds a finished block, where one does, given up by it (R323). -/
def freeCompressor (x : Side) (b : Block) (s : State) : State :=
  s.modCmp x (fun c => { c with engines := Sparse.upd c.engines b.maker Compressor.idle (fun k =>
    if k.block.any (fun h => h.id = b.id && h.reissue = b.reissue) && !k.redo then { k with block := none } else k) })

/-- A finished block passed on: cut-through, spilled, or waiting with its compressor (R323, R327); with it, whether the
compressor is free. -/
def passBlock (x : Side) (b : Block) (s : State) : State × Bool :=
  let r := ringOf s x b.id.stream
  if cutThrough s x b then (s.modLnk x (fun l => { l with egress := l.egress ++ [b] }), true)
  else
    let q := if (s.ring x r).waiting = [] then spillBlock x b s else (s, false)
    if q.2 then q
    else (ringFull x r b.words.length (q.1.modRing x r (fun k => { k with waiting := k.waiting ++ [b] })), false)

/-- The spills that wait on a ring taken up in order while room is there (R323). -/
def admitWaiting (x : Side) (r : Nat) : Nat → State → State
  | 0, s => s
  | n + 1, s =>
    match (s.ring x r).waiting with
    | [] => s
    | b :: rest =>
      let pass (t : State) : State := admitWaiting x r n (freeCompressor x b (t.modRing x r (fun k => { k with waiting := rest })))
      if !(s.ring x r).items.any (·.awaits b.id.stream) && egressRoom s x b.words.length then
        pass (s.modLnk x (fun l => { l with egress := l.egress ++ [b] }))
      else
        let q := spillBlock x b s
        if q.2 then pass q.1 else ringFull x r b.words.length q.1

/-- Items of blocks that have left on the ports freed, and the spills that wait taken up (R321, R323). -/
def settleStore (x : Side) (s : State) : State :=
  let l := (s.side x).lnk
  let held (b : Block) : Bool :=
    let same (c : Block) : Bool := c.id = b.id && c.reissue = b.reissue && c.fwd.isNone
    l.egress.any same || l.ports.any (fun e => e.2.blocks.any same)
  let gone := (s.bst x).rings.flatMap (fun e => (e.2.items.filter (fun i => i.read && (match i.block? with
    | some b => !held b
    | none => false))).map (·.id))
  let s1 := gone.foldl (fun t id => dropItem x id t) s
  (List.range 8).foldl (fun t r => admitWaiting x r (t.ring x r).waiting.length t) s1

/-- An item freed, and the spills that wait for its room taken up. -/
def freeItem (x : Side) (id : Nat) (s : State) : State := settleStore x (dropItem x id s)

/-- The halted block of a ring freed unsent (R342, R343). -/
def skipHalted (x : Side) (r : Nat) (s : State) : State :=
  let k := s.ring x r
  let s1 := s.modRing x r (fun k => { k with halted := false })
  match haltedItem k with
  | none => s1
  | some id =>
    match (k.items.find? (·.id = id)).bind RingItem.block? with
    | none => s1
    | some b =>
      let s2 := (s1.bump (Reg.BST_RING_LOSS x r) 21 11 1).tally x .blocksSkipped 1
      freeItem x id (ringLoss x 0x14 b s2)

/-- A drain halted at a block whose read found poison (R341, R343). -/
def haltDrain (x : Side) (r : Nat) (i : RingItem) (b : Block) (n : Nat) (s : State) : State :=
  let loc := itemLoc (s.bst x) i (i.granules.getD (n / 8) 0)
  let u := b.id.unit.toNat
  let s1 := (s.wr (Reg.BST_DRAIN_HALT x r) b.id.record).wr (Reg.BST_DRAIN_HALT_4 x r) (BitVec.ofNat 32 u)
  let s2 := s1.wr (Reg.BST_DRAIN_HALT_8 x r)
    (BitVec.ofNat 32 (b.id.part % 256 * 2 ^ 24 + b.id.stream * 2 ^ 16 + u / 2 ^ 32))
  let s3 := s2.wr (Reg.BST_DRAIN_HALT_C x r) (BitVec.ofNat 32 (locRow loc * 512 + locBank loc * 16 + locChan loc))
  let s4 := raiseSide x 591 sevFault r ((s3.modItem x i.id (fun k => { k with got := [] })).modRing x r (fun k => { k with
    halted := true }))
  if s4.rb (Reg.BST_DRAIN_CTRL x) 0 then skipHalted x r s4 else s4

/-- DRAIN_READ (R310, R328, R340, R341): the ring's oldest block read into the egress buffer, whole before its first frame; what a refresh
closes is read by a later row. bad names a storage word of the item, and the bits of it that an upset has changed. -/
def execDrainRead (dt : Nat) (x : Side) (r : Fin 8) (bad : Option (Nat × BitVec 120)) (s0 : State) :
    Host.Outcome State Fault Refusal :=
  let s := settleStore x (s0.elapse dt)
  let k := s.ring x r
  if !s.live x || k.halted then .next s
  else
    match k.items.find? (fun i => i.block?.isSome && !i.read) with
    | none => .next s
    | some i =>
      match i.block? with
      | none => .next s
      | some b =>
        if !egressRoom s x i.size then .next s
        else
          let s1 := match bad with
            | some q => upsetItem x i q.1 q.2 s
            | none => s
          let d := fetchItem x 2 i (s1.modItem x i.id (fun j => { j with begun := true }))
          match d.2 with
          | none => .next d.1
          | some g =>
            match g.bad with
            | n :: _ => .next (haltDrain x r i b n d.1)
            | [] =>
              .next ((d.1.modItem x i.id (fun j => { j with read := true })).modLnk x (fun l =>
                { l with egress := l.egress ++ [{ b with words := g.words, ring := some r.val }] }))

/-- RESUME_DRAIN (R342). -/
def execResumeDrain (dt : Nat) (c : Ctx) (p1 : Word) (s : State) : Host.Outcome State Fault Refusal :=
  let r := p1.toNat % 8
  .next (command dt c (.resumeDrain p1)
    (fun _ s => param (s.rb (Reg.BST_RING_CTRL (namedSide s c) r) 0))
    (fun _ s =>
      let y := namedSide s c
      if !(s.ring y r).halted then refuse s .wrongState
      else if bit p1.toNat 8 then okRes (skipHalted y r s)
      else okRes (s.modRing y r (fun k => { k with halted := false }))) s)

/-! ### RUN_ARM and RUN_START (R307, R308, R322, R326) -/

/-- Every ring emptied of what the last run left, and its blocks counted; lace frames stay (R308, R326). A block that waited for room is
dropped with its ring's, and not counted, since it was no item of the ring (log entry 139). -/
def emptyRings (x : Side) (s : State) : State :=
  let s1 := (List.range 8).foldl (fun t r => (t.ring x r).waiting.foldl (fun u b => freeCompressor x b u)
    (t.bump (Reg.BST_RING_LOSS x r) 31 22
      ((t.ring x r).items.filter (fun i => i.block?.isSome)).length)) s
  s1.modBst x (fun b => { b with rings := b.rings.map (fun e => (e.1, { e.2 with
    items := e.2.items.filter (fun i => match i.what with
      | .lace _ _ => true
      | _ => false)
    fullSaid := false
    overSaid := false
    halted := false
    waiting := [] })) })

/-- A new key drawn: a free value with bit 0 of k1 set; items and areas in the store are marked as written under the key before it, but for
those marked already, which keep theirs (R307, R308). -/
def drawKey (x : Side) (s : State) : State :=
  let v := s.free
  let k1 := (v.setWidth 32 ||| 1#32 : Word)
  let k2 := ((v >>> 32).setWidth 32 : Word)
  let s1 := s.took.modBst x (fun b =>
    let mark (o : Option (Nat × Nat)) : Option (Nat × Nat) := some (o.getD (b.k1, b.k2))
    { b with
      k1 := k1.toNat
      k2 := k2.toNat
      areas := b.areas.map (fun e => (e.1, e.2.map mark))
      rings := b.rings.map (fun e => (e.1, { e.2 with items := e.2.items.map (fun i => { i with old := mark i.old }) })) })
  (s1.wr (Reg.BST_HASH_KEY x) k1).wr (Reg.BST_HASH_KEY_4 x) k2

/-! ### Classes (R330–R333) -/

/-- The guarantee of class c (R330). -/
def guaranteeOf (s : State) (x : Side) (c : Nat) : Nat := s.rf (Reg.BST_CLASS x c) 9 0

/-- The sum of the five guarantees (R331). -/
def guaranteeSum (s : State) (x : Side) : Nat := (List.range 5).foldl (fun a c => a + guaranteeOf s x c) 0

/-- RUN_ARM restores the effective guarantees (R332). -/
def restoreClasses (x : Side) (s : State) : State :=
  s.modBst x (fun b => { b with
    effective := (List.range 5).map (guaranteeOf s x), shed := [false, false, false, false, false] })

/-- One class cut by what is still needed (R332, R333). -/
def shedClass (x : Side) (q : State × Nat) (c : Nat) : State × Nat :=
  if q.2 = 0 then q
  else
    let b := q.1.bst x
    let cut := min (nth b.effective c) q.2
    let s1 := q.1.modBst x (fun b => { b with
      effective := b.effective.set c (nth b.effective c - cut), shed := b.shed.set c true })
    (if c = 0 then raiseSide x 594 sevFault noInst s1 else raiseSide x 593 sevNotice noInst s1, q.2 - cut)

/-- Guarantees shed in a run when the service figure falls below their sum (R332, R333). -/
def shedGuarantees (x : Side) (s : State) : State :=
  let need := (s.bst x).effective.foldl (· + ·) 0 - serviceFigure s x
  if s.trg.run = .running || s.trg.run = .stopping then ([4, 3, 2, 1, 0].foldl (shedClass x) (s, need)).1 else s

/-! ### Refresh (R310–R314) -/

/-- Whether ingest is active on a channel (R311). -/
def ingestActive (s : State) (x : Side) (ch : Nat) : Bool :=
  let c := s.chan x ch
  c.queue.any (fun e => e.cls = 0) || (match c.lastIngest with
    | some t => decide (s.clock.ticks < t + 600)
    | none => false)

/-- The rule of R311, looked at while no refresh is in progress; a retired channel takes none (R339). -/
def tryRefresh (x : Side) (ch : Nat) (s : State) : State :=
  let c := s.chan x ch
  if c.refresh.isSome || chanRetired s x ch then s
  else if 9 ≤ c.owed then
    (s.modChan x ch (fun c => { c with owed := c.owed - 1, refresh := some s.clock.ticks })).bump
      (Reg.BST_REFRESH_4 x ch) 31 0 1
  else if 0 < c.owed && !ingestActive s x ch then
    s.modChan x ch (fun c => { c with owed := c.owed - 1, refresh := some s.clock.ticks })
  else s

/-- Whether a side's store runs: initialised, and not refreshing itself in STANDBY (R312, R346). -/
def storeRuns (s : State) (x : Side) : Bool := s.live x && s.power.mode = .active

/-- REFRESH_DUE (R310, R311). -/
def execRefreshDue (dt : Nat) (x : Side) (ch : Fin 16) (s0 : State) : Host.Outcome State Fault Refusal :=
  let s := s0.elapse dt
  let t := s.clock.ticks
  let off := 731 * ch.val
  let due := t - (t + 11700 - off) % 11700
  if !storeRuns s x || chanRetired s x ch || t < off || due ≤ (s.chan x ch).lastDue then .next s
  else
    let s1 := s.modChan x ch (fun c => { c with owed := c.owed + 1, lastDue := due })
    .next (tryRefresh x ch (s1.high (Reg.BST_REFRESH x ch) 15 8 (s1.chan x ch).owed))

/-- The writes that waited out a refresh, oldest first (R312); a retired channel takes none of them (R339). -/
def drainQueue (x : Side) (ch : Nat) (s : State) : State :=
  let s1 := s.modChan x ch (fun c => { c with queue := [] })
  if chanRetired s x ch then s1
  else (s.chan x ch).queue.foldl (fun t e => putWords x e (accessLoc x e.cls e.loc t)) s1

/-- REFRESH_END (R310–R312): 885 ticks after its start. -/
def execRefreshEnd (dt : Nat) (x : Side) (ch : Fin 16) (s0 : State) : Host.Outcome State Fault Refusal :=
  let s := s0.elapse dt
  match (s.chan x ch).refresh with
  | none => .next s
  | some t =>
    if s.clock.ticks < t + 885 then .next s
    else
      let s1 := s.modChan x ch (fun c => { c with refresh := none })
      .next (settleStore x (tryRefresh x ch (drainQueue x ch s1)))

/-- INGEST_QUIET (R311): 600 ticks without an ingest write. -/
def execIngestQuiet (dt : Nat) (x : Side) (ch : Fin 16) (s0 : State) : Host.Outcome State Fault Refusal :=
  let s := s0.elapse dt
  if storeRuns s x && !chanRetired s x ch then .next (tryRefresh x ch s) else .next s

/-- ACTIVATE_TABLE_CLEAR (R313): every 32 ms. -/
def execActivateTableClear (dt : Nat) (x : Side) (s0 : State) : Host.Outcome State Fault Refusal :=
  let s := s0.elapse dt
  let n := s.clock.ticks / 96000000
  if n ≤ (s.bst x).actsTick then .next s
  else .next (s.modBst x (fun b => { b with acts := [], actsTick := n }))

/-! ### Imbalance (R309) -/

/-- A rate over 1 ms in 0.5 GB/s, of granules of 72 bytes, at most what 10 bits hold. -/
def rateOver (n : Nat) : Nat := min 1023 (n * 72 / 500000)

/-- One channel at the end of an interval, n channels being in service: none is judged against 0, as a retired one is (R309). -/
def imbalanceOf (x : Side) (total n : Nat) (s : State) (ch : Nat) : State :=
  let c := s.chan x ch
  let off := decide (2 * total < c.traffic * n) && decide (1000000 ≤ total * 72)
  let c1 := if off then { c with bad := c.bad + 1, good := 0, traffic := 0 }
    else { c with bad := 0, good := c.good + 1, traffic := 0 }
  let set := s.rb (Reg.BST_IMBALANCE x) ch
  let s1 := (s.modChan x ch (fun _ => c1)).wf (Reg.BST_CHAN_USE x ch) 9 0 (rateOver c.traffic)
  if 1000 ≤ c1.bad && !set then raiseSide x 595 sevNotice ch (s1.wf (Reg.BST_IMBALANCE x) ch ch 1)
  else if 1000 ≤ c1.good && set then s1.wf (Reg.BST_IMBALANCE x) ch ch 0
  else s1

/-- IMBALANCE_INTERVAL (R309, R347): every 1 ms, with the rates of that interval. -/
def execImbalanceInterval (dt : Nat) (x : Side) (s0 : State) : Host.Outcome State Fault Refusal :=
  let s := s0.elapse dt
  let k := s.clock.ticks / 3000000
  if !s.live x || k ≤ (s.bst x).intervalTick then .next s
  else
    let l := chansIn s x
    let total := l.foldl (fun a ch => a + (s.chan x ch).traffic) 0
    let s0 := ((List.range 16).filter (chanRetired s x)).foldl (imbalanceOf x total 0) s
    let s1 := l.foldl (imbalanceOf x total l.length) s0
    let s2 := (List.range 5).foldl (fun t c =>
      t.wf (Reg.BST_CLASS_USE x c) 9 0 (rateOver (nth (s.bst x).classUse c))) s1
    .next (s2.modBst x (fun b => { b with intervalTick := k, classUse := [0, 0, 0, 0, 0] }))

/-! ### The management controller's accesses (R303, R329) -/

/-- Whether an item of a ring occupies a location (R321). -/
def itemAt (s : State) (x : Side) (loc : Nat) : Bool :=
  (s.bst x).rings.any (fun e => e.2.items.any (fun i => i.granules.any (fun g => itemLoc (s.bst x) i g = loc)))

/-- The words of a granule that have been written, as far as they can tell (R299, R339). -/
def liveWords (s : State) (x : Side) (loc : Nat) : List Nat :=
  (List.range 8).filter (fun w => (rawWord s x loc w).getLsbD 119)

/-- The write that a management controller's access makes: a whole word, or the named byte fields (R303). -/
def mgtWrite (loc w : Nat) (mask : BitVec 9) (data : Word72) : Queued :=
  ⟨loc, 4, List.replicate w 0 ++ [if mask = 0x1FF then encodeStore 0 data else encodeBytes data],
    BitVec.ofNat 72 (mask.toNat * 2 ^ (9 * w))⟩

/-- Whether a write of the management controller can be made (R303, R316, R322). -/
def mgtMay (x : Side) (loc : Nat) (mask : BitVec 9) (s : State) : Bool :=
  !(itemAt s x loc || chanRetired s x (locChan loc) || rowRetired s x loc || !stagingRoom s x [loc] || mask = 0)

/-- An access of the management controller, in the BACKGROUND class (R303, R329). Its areas lie where no item of a ring does; an access
that a refresh, a full staging SRAM or the retirement of what it writes keeps back is not made (log entry 117). -/
def mgtAccess (x : Side) (s : State) (a : MgtAccess) : State :=
  match a with
  | .read g =>
    let loc := areaLoc (s.bst x) g
    if refreshing s x loc && !chanRetired s x (locChan loc) then s else (readGranule x 4 loc (liveWords s x loc) s).2
  | .write g w mask data =>
    let loc := areaLoc (s.bst x) g
    if !mgtMay x loc mask s then s
    else writeGranule x (mgtWrite loc w mask data) (s.modBst x (fun b => { b with
      areas := Sparse.upd b.areas g.val none (fun o => some (o.getD none)) }))

/-- An access of the management controller, with the words (location × 8 + word) that it and those before it have written. -/
def mgtNoted (x : Side) (a : State × List Nat) (m : MgtAccess) : State × List Nat :=
  (mgtAccess x a.1 m, match m with
    | .read _ => a.2
    | .write g w mask _ =>
      let loc := areaLoc (a.1.bst x) g
      if mgtMay x loc mask a.1 then (loc * 8 + w.val) :: a.2 else a.2)

/-! ### Patrol scrub (R334) -/

/-- The granule at or after g that the patrol visits next: retired rows and channels are skipped (R334). -/
def patrolFrom (s : State) (x : Side) : Nat → Nat → Option Nat
  | 0, _ => none
  | n + 1, g =>
    let b := s.bst x
    let loc := mapGranule b.k1 b.k2 g
    if g < 2 ^ 27 then
      if chanRetired s x (locChan loc) || rowRetired s x loc then patrolFrom s x n (g + 1) else some g
    else none

/-- The patrol's place moved past granule g, or the pass over. -/
def patrolNext (x : Side) (g : Nat) (s : State) : State :=
  match patrolFrom s x (2 ^ 27) (g + 1) with
  | some h => s.modBst x (fun b => { b with patrol := some h })
  | none => (s.modBst x (fun b => { b with patrol := none })).count (Reg.BST_SCRUB_STATUS x) 31 16 1

/-- The patrol's period in ticks (R334). -/
def patrolPeriod (s : State) (x : Side) : Nat := max 60 (s.rf (Reg.BST_SCRUB_CTRL x) 15 0) * 3000000000

/-- The granule at which the patrol stands: in its pass, or at the start of a new one, which begins a period after the last began, or at
once when that has taken longer (R334). -/
def patrolAt (s : State) (x : Side) : Option Nat :=
  match (s.bst x).patrol with
  | some g => some g
  | none =>
    match (s.bst x).patrolTick with
    | some t => if s.clock.ticks < t + patrolPeriod s x then none else some 0
    | none => some 0

/-- One access of the patrol to granule g; raw is its 8 storage words as the DRAM gives them, but for those that a write that waits covers,
and those that the management controller has written in the same cycle (R317). -/
def patrolRead (x : Side) (g : Nat) (raw : List (BitVec 120)) (wrote : List Nat) (s : State) : State :=
  let loc := mapGranule (s.bst x).k1 (s.bst x).k2 g
  (readGranule x 4 loc (List.range 8) (s.modBst x (fun b => { b with
    dram := raw.zipIdx.foldl (fun d q => if wordQueued s x loc q.2 || wrote.contains (loc * 8 + q.2) then d else Sparse.set d (loc * 8 + q.2) q.1 0) b.dram }))).2

/-- Accesses of one cycle: the writes come first (R317). -/
def writesFirst (l : List MgtAccess) : List MgtAccess :=
  let isWrite (a : MgtAccess) : Bool := match a with
    | .write .. => true
    | .read _ => false
  l.filter isWrite ++ l.filter (fun a => !isWrite a)

/-- PATROL_SCRUB_ACCESS (R303, R310, R317, R329, R334, R336, R340): an access of the BACKGROUND class. mgt lists the management controller's
own, which come first, writes before reads; raw is the granule's 8 storage words as the patrol reads them. -/
def execPatrolScrubAccess (dt : Nat) (x : Side) (raw : List (BitVec 120)) (mgt : List MgtAccess) (s0 : State) :
    Host.Outcome State Fault Refusal :=
  let s1 := s0.elapse dt
  if !storeRuns s1 x then .next s1
  else
    let m := (writesFirst mgt).foldl (mgtNoted x) (s1, [])
    let s := m.1
    if s.rb (Reg.BST_SCRUB_CTRL x) 16 || raw.length ≠ 8 then .next s
    else
      match patrolAt s x with
      | none => .next s
      | some g0 =>
        let t := if (s.bst x).patrol.isSome then s
          else s.modBst x (fun b => { b with patrol := some 0, patrolTick := some s.clock.ticks })
        match patrolFrom t x (2 ^ 27) g0 with
        | none => .next (patrolNext x (2 ^ 27) t)
        | some g =>
          if refreshing t x (mapGranule (t.bst x).k1 (t.bst x).k2 g) then .next t
          else .next (patrolNext x g (patrolRead x g raw m.2 t))

end Sys2Proof.Machine
end

