-- ==== Sys2Proof/Machine/Compress.lean ====
section
/-!
DEFINITION. Compression (chapter "Compression and decompression"): the assembly buffer, substitute units, sequences and
where they are cut into blocks, the words of a block, VERIFY, and decompression jobs.
-/

namespace Sys2Proof.Machine

/-! ### Unit numbers (R270) -/

/-- The kind of a unit number (R270). -/
def unitKind (u : Nat) : Nat := u / 2 ^ 46
/-- The tile of a kind 00 or 01 unit (R270). -/
def unitTile (u : Nat) : Nat := u % 64
/-- The relative slice or the output frame number of a unit (R270). -/
def unitIndex (u : Nat) : Nat := u % 2 ^ 46 / 64

/-- The unit number of slice n of tile t (R270). -/
def eventUnit (s : State) (n t : Nat) : Nat := (n + 2 ^ 40 - sliceOf s s.runStart % 2 ^ 40) % 2 ^ 40 * 64 + t

/-- The slice of a kind 00 unit number (R270). -/
def unitSlice (s : State) (u : Nat) : Nat := sliceOf s s.runStart + unitIndex u

/-- The start of a kind 00 unit's span. -/
def unitBegin (s : State) (u : Nat) : Time := sliceStart s (unitSlice s u)

/-! ### Substitute units (R261) -/

/-- Whether a word opens a unit: UNIT_HEAD or FRAME_START. -/
def opens (w : Word72) : Bool := bits w.toNat 71 64 = 0xC2 || bits w.toNat 71 64 = 0xC4

/-- Whether a word closes a unit: UNIT_TAIL or FRAME_END. -/
def closes (w : Word72) : Bool := bits w.toNat 71 64 = 0xC3 || bits w.toNat 71 64 = 0xC5

/-- A run of words cut into those before a unit, the unit's own, and those after it (R241, R261). -/
def splitUnit (l : List Word72) : List Word72 × List Word72 × List Word72 :=
  let pre := l.takeWhile (fun w => !opens w)
  let rest := l.drop pre.length
  match rest.findIdx? closes with
  | some i => (pre, rest.take (i + 1), rest.drop (i + 1))
  | none => (pre, rest, [])

/-- Words without those at some places. -/
def dropAt (base : Nat) (bad : List Nat) (l : List Word72) : List Word72 :=
  (l.zipIdx.filter (fun q => !bad.contains (base + q.2))).map (·.1)

/-- A substitute unit for a unit of tile t (R261, R266, R286, R344): bad lists the places of unreadable words. A
CLUSTER_HEAD is no word of the tile. -/
def substitute (t source : Nat) (bad : List Nat) (pre own post : List Word72) : List Word72 :=
  let pre1 := dropAt 0 bad pre
  let post1 := dropAt (pre.length + own.length) bad post
  let n := (own.filter (fun w => bits w.toNat 71 64 ≠ 0xCA)).length + (pre.length - pre1.length) + (post.length - post1.length)
  let head := own.headD 0
  let tail := own.getLastD 0
  let loss := lossWord t source n
  let body := if bits head.toNat 71 64 = 0xC4 then [head, endWord tail 0, loss]
    else [head, loss, BitVec.ofNat 72 (setBits (setBits tail.toNat 57 40 1) 38 38 1)]
  pre1 ++ body ++ post1

/-! ### The assembly buffer (R284) -/

/-- The block of a VERIFY item. -/
def Work.verified : Work → Option Block
  | .verify b => some b
  | _ => none

/-- The blocks of the VERIFY items that a side holds. -/
def verifyBlocks (d : Dsp) : List Block :=
  (d.ready.map (·.2.work) ++ d.held.map (·.work) ++ d.again.map (·.1)
    ++ d.engines.flatMap (fun e => (e.2.item.toList ++ e.2.saved.toList).map (·.1.work))).filterMap Work.verified

/-- The blocks whose input a side keeps: being built, to be made again, retained or verified (R284, R287, R387). -/
def keptBlocks (s : State) (x : Side) : List Block :=
  let c := (s.side x).cmp
  c.ready.filterMap (fun r => match r with
    | .again b => some b
    | .redo b => some b
    | .seq _ => none) ++ c.engines.filterMap (fun e => e.2.block) ++ (s.side x).wlt.retained ++ verifyBlocks (s.side x).dsp

/-- GROUP in use: that of the run (R296, R297). -/
def groupBits (s : State) : Nat := min 4 (bits (s.side s.arb.primary).cmp.runCtrl.toNat 3 1)

/-- The sequence of an output, g the GROUP in use (R272); late words go on in a block of their own (log entry 52). -/
def keyOf (g : Nat) (o : Output) : SeqKey :=
  let u := o.unit.toNat
  if o.late then ⟨o.stream, o.record, 2 ^ 48 + u⟩
  else if o.stream = 0 then ⟨0, o.record, unitTile u + 64 * (unitIndex u / 2 ^ g)⟩
  else if o.stream = 2 && unitKind u = 0 then ⟨2, o.record, 0⟩
  else ⟨o.stream, o.record, u⟩

/-- The words of an output that blocks have taken already (R274). -/
def takenOf (s : State) (x : Side) (o : Output) : Nat :=
  match (s.side x).cmp.progress.find? (fun p => p.key = keyOf (groupBits s) o) with
  | some p => if p.next = o.unit.toNat then p.taken else 0
  | none => 0

/-- The bytes in a side's assembly buffer: outputs but for what blocks have taken, and the input of each block that is kept, once however
many keep it (R284, R287, R387). -/
def assemblyBytes (s : State) (x : Side) : Nat :=
  let a := (s.side x).cmp.outputs.foldl (fun a o => if o.spill.isNone then a + (o.words.length - takenOf s x o) else a) 0
  9 * (((keptBlocks s x).map (fun b => (b.id, b.input.length))).eraseDups.foldl (fun a q => a + q.2) a)

/-- The level in KiB. -/
def assemblyLevel (s : State) (x : Side) : Nat := assemblyBytes s x / 1024

/-- CMP_ASSEMBLY.MAX brought up to the level (R296). -/
def noteLevel (x : Side) (s : State) : State := s.high (Reg.CMP_ASSEMBLY x) 31 16 (assemblyLevel s x)

/-- The stream whose ring takes the overflow of an output (R319). -/
def overflowStream (o : Output) : Nat :=
  match unitKind o.unit.toNat with
  | 0 => 0
  | 1 => 1
  | _ => 2

/-- A completed output put into the assembly buffer, or into overflow; none while the overflow finds no room (R284). -/
def enterOutput (x : Side) (o : Output) (s : State) : Option State :=
  if assemblyBytes s x + 9 * o.words.length ≤ 33554432 then
    some (noteLevel x (s.modCmp x (fun c => { c with outputs := c.outputs ++ [o] })))
  else
    match storeWords x (overflowStream o) 0 .output o.words s with
    | some q =>
      some ((q.1.bump (Reg.CMP_OVERFLOW x) 31 0 1).modCmp x (fun c => { c with
        outputs := c.outputs ++ [{ o with spill := some q.2 }] }))
    | none => none

/-- An output of a member unit of a TRIGGERED record put into the store until its records are built; none while its ring has no room
(R253, R329). -/
def enterMember (x : Side) (o : Output) (s : State) : Option State :=
  (storeWords x 2 1 .output o.words s).map (fun q =>
    q.1.modCmp x (fun c => { c with members := c.members ++ [{ o with spill := some q.2 }] }))

/-- An output entered as a member's or into the assembly buffer. -/
def enterAs (x : Side) (member : Bool) (o : Output) (s : State) : Option State :=
  if member then enterMember x o s else enterOutput x o s

/-- The wait of an output for its ring (R284, R323). -/
def outputWaits (x : Side) (member : Bool) (o : Output) (s : State) : State :=
  ringFull x (ringOf s x (if member then 2 else overflowStream o)) o.words.length s

/-- An output of no item, which waits beside the buffer while it finds no room (R284). -/
def enterLater (x : Side) (member : Bool) (o : Output) (s : State) : State :=
  match enterAs x member o s with
  | some t => t
  | none => (outputWaits x member o s).modCmp x (fun c => { c with entering := c.entering ++ [(member, o)] })

/-- The outputs that wait beside the buffer offered again, in order (R284). -/
def retryEntering (x : Side) (s : State) : State :=
  (s.side x).cmp.entering.foldl (fun t q => enterLater x q.1 q.2 t) (s.modCmp x (fun c => { c with entering := [] }))

/-! ### Sequences and blocks (R272–R275) -/

/-- Whether a sequence holds the event units of a tile's group (R272). -/
def SeqKey.grouped (k : SeqKey) : Bool := k.stream = 0 && decide (k.seq < 2 ^ 48)

/-- The unit whose late words a sequence holds (R241). -/
def SeqKey.lateOf (k : SeqKey) : Option Nat := if k.seq < 2 ^ 48 then none else some (k.seq - 2 ^ 48)

/-- Whether a sequence is cut by FLUSH (R275). -/
def SeqKey.flushes (k : SeqKey) : Bool := k.grouped || (k.stream = 2 && k.seq = 0)

/-- A number put into a rising list. -/
def sortNats (l : List Nat) : List Nat := l.foldl (fun m i => insertNat i m) []

/-- The members of a sequence from number `next` on (R272). -/
def slotsOf (s : State) (x : Side) (k : SeqKey) (next : Nat) : List Nat :=
  let g := groupBits s
  let all :=
    if k.grouped then
      (List.range (2 ^ g)).map (fun i => (k.seq / 64 * 2 ^ g + i) * 64 + k.seq % 64)
    else sortNats (((s.side x).cmp.outputs.filter (fun o => keyOf g o = k)).map (·.unit.toNat))
  all.filter (fun u => decide (next ≤ u))

/-- Whether a tile has sent side x all its words of the run (R273). -/
def tileDone (s : State) (x : Side) (t : Nat) : Bool :=
  (s.tile t).state = .idle && Sparse.get (s.side x).dsp.intake t [] = []

/-- The highest number of a kind that the intake of side x has received from a tile. -/
def topUnit (s : State) (x : Side) (u : Nat) : Option Nat :=
  Sparse.get (s.side x).dsp.top (unitKind u * 64 + unitTile u) none

/-- Whether a unit of a tile will never exist for side x, given that it is neither at the side nor an output (R273). -/
def unitAbsent (s : State) (x : Side) (u : Nat) : Bool :=
  let t := unitTile u
  (match topUnit s x u with
    | some n => decide (u ≤ n)
    | none => false) ||
  tileDone s x t ||
  (match (s.tile t).stopAt with
    | some p => unitKind u = 0 && decide (sliceOf s p < unitSlice s u)
    | none => false)

/-- What stands at a member's place (R273): an output, nothing for ever, or nothing yet. -/
inductive Slotted
  | present (o : Output)
  | absent
  | unsettled

/-- Whether words of a unit have still to go out before its late ones do (R241): its item, or its output. -/
def mainAhead (s : State) (x : Side) (k : SeqKey) (u : Nat) : Bool :=
  let here (o : Output) : Bool := o.unit.toNat = u && o.stream = k.stream && o.record = k.record && !o.late
  (s.side x).dsp.units.any (fun v => v.number.toNat = u) || (s.side x).cmp.outputs.any here
    || (s.side x).cmp.entering.any (fun q => here q.2)

/-- The state of member u of a sequence (R273). -/
def slotted (s : State) (x : Side) (k : SeqKey) (u : Nat) : Slotted :=
  let g := groupBits s
  match (s.side x).cmp.outputs.find? (fun o => o.unit.toNat = u && keyOf g o = k) with
  | some o => if k.lateOf.isSome && mainAhead s x k u then .unsettled else .present o
  | none =>
    if (s.side x).dsp.units.any (fun v => v.number.toNat = u)
        || (s.side x).cmp.entering.any (fun q => q.2.unit.toNat = u && keyOf g q.2 = k) then .unsettled
    else if unitAbsent s x u then .absent else .unsettled

/-- The words of a block as they are gathered (R274): words, units, first unit, and its PART. -/
structure Gather where
  words : List Word72
  units : Nat
  first : Nat
  part : Nat

/-- A block cut from a sequence: what it holds, how it ended, and how far the sequence has been cut. -/
structure CutBlock where
  got : Gather
  flushed : Bool
  splitOut : Bool
  next : Nat
  taken : Nat
  part : Nat

/-- Whether unit u's span can begin in the run: no stop known for the run or its tile comes before it (R172, R207). -/
def begins (s : State) (u : Nat) : Bool :=
  [s.trg.stopAt, (s.tile (unitTile u)).stopAt].all (fun p =>
    match p with
    | some p => !reached (unitBegin s u) p
    | none => true)

/-- Whether a FLUSH cut falls after the start of unit a and not after that of unit b, which the run can hold (R275). -/
def flushBetween (s : State) (a b : Nat) : Bool :=
  begins s b && s.trg.cutsMade.any (fun t => !reached (unitBegin s a) t && reached (unitBegin s b) t)

/-- Whether a member is settled as absent. -/
def Slotted.missing : Slotted → Bool
  | .absent => true
  | .present _ => false
  | .unsettled => false

/-- The block that begins a run of members, when all it needs is settled (R274). -/
def gather (s : State) (x : Side) (k : SeqKey) : List Nat → Nat → Nat → Gather → Option CutBlock
  | [], _, _, g => if g.units = 0 then none else some ⟨g, false, false, 2 ^ 48, 0, 0⟩
  | u :: rest, taken, part, g =>
    if g.units ≠ 0 && k.flushes && !(slotted s x k u).missing && flushBetween s g.first u then some ⟨g, true, false, u, taken, part⟩
    else
      match slotted s x k u with
      | .unsettled => none
      | .absent => gather s x k rest 0 0 g
      | .present o =>
        let ws := o.words.drop taken
        let room := 7281 - g.words.length
        let g1 : Gather := ⟨g.words ++ ws.take room, g.units + 1, if g.units = 0 then u else g.first,
          if g.units = 0 then part else g.part⟩
        if room < ws.length then some ⟨g1, false, true, u, taken + room, part + 1⟩
        else if g1.units = 16 || g1.words.length = 7281 then some ⟨g1, false, false, u + 1, 0, 0⟩
        else gather s x k rest 0 0 g1

/-- The blocks that hold words of a tile's last unit so far (R271). -/
def partsOf (s : State) (x : Side) (k : SeqKey) (u : Nat) : Nat :=
  (((s.side x).cmp.parts.find? (fun q => q.stream = k.stream && q.record = k.record && q.unit.toNat = u)).map (·.count)).getD 0

/-- How far a sequence has been cut; late words begin with the PART that follows those of their unit (R271, R274). -/
def progressOf (s : State) (x : Side) (k : SeqKey) : Progress :=
  ((s.side x).cmp.progress.find? (fun p => p.key = k)).getD
    ⟨k, 0, 0, match k.lateOf with
      | some u => partsOf s x k u
      | none => 0⟩

/-- The next block of a sequence after a progress, if it is ready (R274). -/
def nextCut (s : State) (x : Side) (p : Progress) : Option CutBlock :=
  gather s x p.key (slotsOf s x p.key p.next) p.taken p.part ⟨[], 0, 0, 0⟩

/-- The ready blocks of a sequence after a progress. -/
def readyCount (s : State) (x : Side) : Nat → Progress → Nat
  | 0, _ => 0
  | n + 1, p =>
    match nextCut s x p with
    | some c => readyCount s x n ⟨p.key, c.next, c.taken, c.part⟩ + 1
    | none => 0

/-- The ready blocks of a sequence that are not in the list yet, put at its end (R285). -/
def noteReady (x : Side) (s : State) (k : SeqKey) : State :=
  let have_ := ((s.side x).cmp.ready.filter (fun r => r = .seq k)).length
  let l := (s.side x).cmp.outputs.filter (fun o => keyOf (groupBits s) o = k)
  let n := readyCount s x (l.foldl (fun a o => a + o.words.length / 7281 + 1) 1) (progressOf s x k)
  s.modCmp x (fun c => { c with ready := c.ready ++ List.replicate (n - have_) (.seq k) })

/-- Every sequence looked at for blocks that have become ready (R273, R274). -/
def scanReady (x : Side) (s : State) : State :=
  ((s.side x).cmp.outputs.map (keyOf (groupBits s))).eraseDups.foldl (noteReady x) s

/-- Ring items of outputs that nothing holds any more freed (R321). -/
def freeSpill (x : Side) (id : Option Nat) (s : State) : State :=
  match id with
  | some n =>
    if ((s.side x).cmp.outputs ++ (s.side x).cmp.members).any (fun o => o.spill = some n) then s else freeItem x n s
  | none => s

/-- The highest number of a kind and tile that a side has received. -/
def isLastUnit (s : State) (x : Side) (u : BitVec 48) : Bool := decide (unitKind u.toNat < 2) && topUnit s x u.toNat = some u.toNat

/-- A block of a sequence counted for the tile's last unit, when that is one of those whose words it holds (R271). -/
def noteParts (x : Side) (k : SeqKey) (l : List Output) (s : State) : State :=
  let mine (o : Output) (q : Parted) : Bool := q.stream = k.stream && q.record = k.record && q.unit = o.unit
  let one (c : Cmp) (o : Output) : Cmp :=
    if !isLastUnit s x o.unit then c
    else if c.parts.any (mine o) then
      { c with parts := c.parts.map (fun q => if mine o q then { q with count := q.count + 1 } else q) }
    else { c with parts := c.parts ++ [⟨k.stream, k.record, o.unit, 1⟩] }
  s.modCmp x (fun c => l.foldl one { c with parts := c.parts.filter (fun q => isLastUnit s x q.unit) })

/-- A block taken out of its sequence: outputs used up leave, and the sequence goes on from there. -/
def commitCut (x : Side) (k : SeqKey) (c : CutBlock) (s : State) : State :=
  let g := groupBits s
  let gone := (s.side x).cmp.outputs.filter (fun o => keyOf g o = k && decide (o.unit.toNat < c.next))
  let cut := (s.side x).cmp.outputs.filter (fun o => keyOf g o = k && c.splitOut && decide (o.unit.toNat = c.next))
  let s1 := (noteParts x k (gone ++ cut) s).modCmp x (fun m => { m with
    outputs := m.outputs.filter (fun o => !(keyOf g o = k && decide (o.unit.toNat < c.next)))
    progress := m.progress.filter (fun p => p.key ≠ k) ++ [⟨k, c.next, c.taken, c.part⟩] })
  let s2 := if slotsOf s1 x k c.next = [] then
      s1.modCmp x (fun m => { m with progress := m.progress.filter (fun p => p.key ≠ k) })
    else s1
  gone.foldl (fun t o => freeSpill x o.spill t) s2

/-- An output replaced by its substitute, from the words not yet taken on, and counted (R286, R344, R493); of late words the unreadable ones
drop out (R261, log entry 52). -/
def replaceOutput (x : Side) (o : Output) (source taken : Nat) (bad : List Nat) (s : State) : State :=
  let q := splitUnit o.words
  let sub := if o.late then dropAt 0 bad o.words
    else o.words.take taken ++ substitute (unitTile o.unit.toNat) source bad q.1 q.2.1 q.2.2
  let s1 := s.modCmp x (fun c => { c with
    outputs := c.outputs.map (fun p => if p = o then { o with words := sub, spill := none } else p) })
  noteLevel x (freeSpill x o.spill (if o.late then s1 else s1.tally x .substitutes 1))

/-- An overflow output read back, in the RECORD class, into its words, as far as its channels allow, and whether that is done; a poisoned one
is replaced (R284, R310, R344). -/
def readBack (x : Side) (o : Output) (taken : Nat) (s : State) : State × Bool :=
  match o.spill.bind (findItem s x) with
  | none =>
    (s.modCmp x (fun c => { c with outputs := c.outputs.map (fun p => if p = o then { o with spill := none } else p) }), true)
  | some (_, i) =>
    let d := fetchItem x 1 i s
    match d.2 with
    | none => (d.1, false)
    | some g =>
      if g.bad = [] then
        (noteLevel x (freeSpill x o.spill (d.1.modCmp x (fun c => { c with
          outputs := c.outputs.map (fun p => if p = o then { o with words := g.words, spill := none } else p) }))), true)
      else (replaceOutput x o 0x15 taken g.bad d.1, true)

/-- The next block of a sequence with every overflow output that it needs read back first. -/
def readyCut (x : Side) (k : SeqKey) : Nat → State → State × Option CutBlock
  | 0, s => (s, none)
  | n + 1, s =>
    let p := progressOf s x k
    match nextCut s x p with
    | none => (s, none)
    | some c =>
      let used := if c.splitOut then c.next + 1 else c.next
      match (s.side x).cmp.outputs.find? (fun o => keyOf (groupBits s) o = k && o.spill.isSome && decide (p.next ≤ o.unit.toNat)
          && decide (o.unit.toNat < used)) with
      | some o =>
        let q := readBack x o (if o.unit.toNat = p.next then p.taken else 0) s
        if q.2 then readyCut x k n q.1 else (q.1, none)
      | none => (s, some c)

/-- A block of a sequence, as compressor e takes it, with the transform on or off for good. -/
def blockOf (xform : Bool) (k : SeqKey) (c : CutBlock) (e : Nat) : Block :=
  ⟨⟨k.stream, k.record, BitVec.ofNat 48 c.got.first, c.got.part⟩, false, c.flushed, c.splitOut, c.got.units, c.got.words, [], e, none, none, xform⟩

/-! ### Compressors (R285–R289) -/

/-- Compressor e of side x. -/
def State.comp (s : State) (x : Side) (e : Nat) : Compressor := Sparse.get (s.side x).cmp.engines e Compressor.idle

/-- Compressor e of side x changed by f. -/
def State.modComp (s : State) (x : Side) (e : Nat) (f : Compressor → Compressor) : State :=
  s.modCmp x (fun c => { c with engines := Sparse.upd c.engines e Compressor.idle f })

/-- Whether a compressor is retired (R289). -/
def compRetired (s : State) (x : Side) (e : Nat) : Bool := s.bg.inForce.compressors.contains (sideNum x * 32 + e)

/-- The compressors in service. -/
def compsIn (s : State) (x : Side) : List Nat := (List.range 32).filter (fun e => !compRetired s x e)

/-- The lowest-numbered free compressor that may take a block: another than the maker's for a reissue or a recompute, unless no other
is in service (R285, R288, R388). -/
def freeComp (s : State) (x : Side) (r : Ready) : Option Nat :=
  let l := compsIn s x
  l.find? (fun e => (s.comp x e).block.isNone && (match r with
    | .seq _ => true
    | .again b => e ≠ b.maker || l = [e]
    | .redo b => e ≠ b.maker || l = [e]))

/-- The oldest ready block that a free compressor may take, taken (R285). -/
def takeBlock (x : Side) : List Ready → State → State
  | [], s => s
  | r :: rest, s =>
    match freeComp s x r with
    | none => takeBlock x rest s
    | some e =>
      let leave (t : State) : State := t.modCmp x (fun c => { c with ready := c.ready.erase r })
      match r with
      | .again b => (leave s).modComp x e (fun k => { k with block := some { b with maker := e } })
      | .redo b => (leave s).modComp x e (fun k => { k with block := some b, redo := true })
      | .seq k =>
        match readyCut x k 64 s with
        | (s1, some c) => (commitCut x k c (leave s1)).modComp x e (fun q => { q with block := some (blockOf ((s1.side x).cmp.runCtrl.getLsbD 0) k c e) })
        | (s1, none) => takeBlock x rest (if (nextCut s1 x (progressOf s1 x k)).isSome then s1 else leave s1)

/-- What the reads of an output's words find, before its block is taken (R286, R344). -/
def outputFault (x : Side) (unit : BitVec 48) (bad : InputFault) (s : State) : State :=
  match (s.side x).cmp.outputs.find? (fun o => o.unit = unit) with
  | none => s
  | some o =>
    let p := progressOf s x (keyOf (groupBits s) o)
    let taken := if p.next = unit.toNat then p.taken else 0
    match bad with
    | .none => s
    | .sram i =>
      if o.spill.isSome || 2 ≤ unitKind unit.toNat || i < taken || o.words.length ≤ i then s
      else raiseSide x 578 sevFault noInst (replaceOutput x o 0x12 taken [i] s)
    | .store i m =>
      match o.spill.bind (findItem s x) with
      | some (_, k) => upsetItem x k i m s
      | none => s

/-- COMPRESSOR_TAKES_BLOCK (R284–R286, R344). unit and bad say what the read of one output's words finds. -/
def execCompressorTakesBlock (dt : Nat) (x : Side) (unit : BitVec 48) (bad : InputFault) (s0 : State) :
    Host.Outcome State Fault Refusal :=
  let s := s0.elapse dt
  if !s.live x then .next s
  else
    let s1 := scanReady x (retryEntering x (outputFault x unit bad s))
    .next (scanReady x (takeBlock x (s1.side x).cmp.ready s1))

/-- A compressor retired (R289): one at work finishes its block. -/
def retireCompressor (x : Side) (e : Nat) (s : State) : State :=
  if compRetired s x e then s
  else raiseSide x 577 sevFault e (wantUpdate { s with bg := { s.bg with inForce := { s.bg.inForce with
    compressors := insertNat (sideNum x * 32 + e) s.bg.inForce.compressors } } })

/-! ### The words of a block (R281–R283) -/

/-- A block's words from its input, and how many DEFLATE blocks are stored (R277–R283). -/
def packBlock (b : Block) : List Word72 × Nat :=
  let xform := b.xform
  let input := transform xform b.input
  let d := deflate input
  let p := (d.1.length + 8) / 9
  let pad := 9 * p - d.1.length
  let head0 := controlWord 0x20 (b.id.record.toNat * 2 ^ 32 + b.id.stream * 2 ^ 29 + b.units % 32 * 2 ^ 24
    + b.id.part % 256 * 2 ^ 16 + pad * 2 ^ 12 + b2n b.reissue * 16 + b2n b.flushed * 8 + b2n b.splitOut * 4
    + b2n (decide (d.2 = deflateCount input)) * 2 + b2n xform)
  let head1 := controlWord 0x20 (p * 2 ^ 48 + b.id.unit.toNat)
  let payload := (pieces 9 p (d.1 ++ List.replicate pad 0)).map (fun q => BitVec.ofNat 72 (ofBytesBE q))
  let check := controlWord 0x21 (crc32c (wordsBytes b.input) * 2 ^ 32 + b.input.length)
  (head0 :: head1 :: payload ++ [check], d.2)

/-- A block with its words built by a compressor; an upset flips a bit of its first payload word. -/
def buildBlock (b : Block) (flip : Option (Fin 72)) : Block × Nat :=
  let r := packBlock b
  let ws := match flip with
    | some i => r.1.set 2 (r.1.getD 2 0 ^^^ (1#72 <<< i.val))
    | none => r.1
  ({ b with words := ws }, r.2)

/-- A 64-bit count in two registers raised by n. -/
def count64 (a b n : Nat) (s : State) : State := s.wr64 a b (s.rd64 a b + BitVec.ofNat 64 n)

/-- The counts of a finished block (R296, R493). -/
def countBlock (x : Side) (b : Block) (stored : Nat) (s : State) : State :=
  let i := 9 * b.input.length
  let o := 9 * b.words.length
  let s1 := count64 (Reg.CMP_OUT_BYTES x) (Reg.CMP_OUT_BYTES_4 x) o
    (count64 (Reg.CMP_IN_BYTES x) (Reg.CMP_IN_BYTES_4 x) i s)
  (((s1.count (Reg.CMP_BLOCKS x) 31 0 1).bump (Reg.CMP_STORED x) 31 0 stored).tally x .compIn i).tally x .compOut o

/-- Whether a block is sampled for VERIFY, by the N of the run (R287, R297). -/
def sampled (s : State) (x : Side) (b : Block) : Bool :=
  let n := bits (s.side x).cmp.runVerify.toNat 15 0
  n ≠ 0 && bits (b.words.getLastD 0).toNat 63 32 % n = 0

/-- What a VERIFY of a block finds (R287, R292). -/
def verifyHalt (b : Block) : Halt := (unpackBlock 0 8192 (wordsBytes b.words)).stop

/-- The status code of a stop (R292, R451). -/
def Halt.status : Halt → Status
  | .done => .ok
  | .need => .ok
  | .full => .outputFull
  | .illegal => .illegalCode
  | .distance => .distanceBeyondHistory
  | .overrun => .lengthOverrun
  | .mismatch => .checkMismatch

/-- A failed VERIFY (R288, R289); while a dispute about the block is open its verdict governs (R390). -/
def verifyFails (x : Side) (b : Block) (h : Halt) (s : State) : State :=
  let u := b.id.unit.toNat
  let code := if h = .need then Status.illegalCode.code else h.status.code
  let s1 := ((s.bump (Reg.CMP_VERIFY_STATUS x) 31 16 1).tally x .verifyFail 1).wr (Reg.CMP_VERIFY_LAST x) b.id.record
  let s2 := (s1.wr (Reg.CMP_VERIFY_LAST_4 x) (BitVec.ofNat 32 u)).wr (Reg.CMP_VERIFY_LAST_8 x) (BitVec.ofNat 32 (u / 2 ^ 32))
  let s3 := s2.wr (Reg.CMP_VERIFY_LAST_C x)
    (BitVec.ofNat 32 (code * 2 ^ 24 + b.maker * 2 ^ 16 + b.id.stream * 2 ^ 8 + b.id.part % 256))
  let s4 := raiseSide x 576 sevFault b.maker s3
  let s5 := if (s4.side x).wlt.disputes.any (fun d => d.id = b.id) then s4
    else s4.modCmp x (fun c => { c with ready := c.ready ++ [.again { b with reissue := true, words := [], ring := none }] })
  let k := s.comp x b.maker
  if compRetired s x b.maker then s5
  else if k.faults.third s.now then retireCompressor x b.maker s5
  else s5.modComp x b.maker (fun k => { k with faults := k.faults.push s.now })

/-- A VERIFY item's work (R287, R288). -/
def verifyBlock (x : Side) (b : Block) (s : State) : State :=
  let s1 := s.bump (Reg.CMP_VERIFY_STATUS x) 15 0 1
  match verifyHalt b with
  | .done => s1
  | h => verifyFails x b h s1

/-! ### Decompressors (R290) -/

/-- Whether an engine runs or has saved a VERIFY. -/
def Engine.verifies (g : Engine) : Bool :=
  (g.item.toList ++ g.saved.toList).any (fun i => i.1.work.kind = 4)

/-- The decompressor that serves an engine's VERIFY. -/
def decOf (c : Cmp) (e : Nat) : Option Nat := [2, 3, 0, 1].find? (fun d => Sparse.get c.decs d none = some e)

/-- The decompressors of a side after its engines have changed: those of VERIFYs that are over are free, and free ones serve the VERIFYs that
have none, 2 and 3 before 0 and 1 (R290). -/
def settleDecs (x : Side) (s : State) : State :=
  let d := (s.side x).dsp
  let on (e : Nat) : Bool := (Sparse.get d.engines e Engine.idle).verifies
  s.modCmp x (fun c =>
    let c1 := { c with
      decs := c.decs.filter (fun q => match q.2 with | some e => on e | none => false)
      checked := c.checked.filter on }
    (List.range 48).foldl (fun c e =>
      if !on e || (decOf c e).isSome || c.checked.contains e then c
      else match [2, 3, 0, 1].find? (fun k => Sparse.get c.decs k none = none) with
        | some k => { c with decs := Sparse.set c.decs k (some e) none }
        | none => c) c1)

/-- Decompressor d taken by its own user: a VERIFY gives it up at the end of its block, which the model, without durations, takes to have come
(R290; log entry 116). -/
def claimDec (x : Side) (d : Nat) (s : State) : State :=
  s.modCmp x (fun c => match Sparse.get c.decs d none with
    | some e => { c with decs := Sparse.set c.decs d none none, checked := insertNat e c.checked }
    | none => c)

/-- Whether an engine's VERIFY has, or no longer needs, a decompressor. -/
def hasDec (s : State) (x : Side) (e : Nat) : Bool :=
  (decOf (s.side x).cmp e).isSome || (s.side x).cmp.checked.contains e

/-! ### Decompression jobs (R291–R295) -/

/-- Byte j of the job input window (R295). -/
def jobByte (s : State) (x : Side) (j : Nat) : Nat :=
  bits (s.rd (Reg.CMP_JOB_IN x (j / 4))).toNat (8 * (j % 4) + 7) (8 * (j % 4))

/-- Bytes put into the job output window from its start (R295). -/
def putJobOut (x : Side) (l : List Nat) (s : State) : State :=
  l.zipIdx.foldl (fun t q =>
    t.wf (Reg.CMP_JOB_OUT x (q.2 / 4)) (8 * (q.2 % 4) + 7) (8 * (q.2 % 4)) q.1) s

/-- The bytes of output that a call may hand out (R291). -/
def Job.room (j : Job) : Nat :=
  let n := if j.limit = 0 then 16384 else min j.limit 16384
  if j.block then n / 9 * 9 else n

/-- A call on a job: decompressed from its start as far as the output of all calls allows; its reply and registers
(R291–R293, R439; log entry 11). -/
def runJob (x : Side) (j : Job) (s : State) : Res :=
  let lim := j.written + j.room
  let u := if j.block then unpackBlock j.declared (lim / 9) j.input else unpackRaw j.declared lim j.input
  let new := u.out.drop j.written
  let stopped := if u.stop = .full then 1 else if u.stop = .need then 2 else 0
  let s1 := putJobOut x new ((claimDec x 1 s).modCmp x (fun c => { c with job := { j with written := u.out.length, stopped := stopped } }))
  let st := u.stop.status
  let s2 := s1.wr (Reg.CMP_JOB_STATUS x) (BitVec.ofNat 32 (st.code * 2 ^ 24 + b2n (decide (stopped ≠ 0)) * 2))
  let s3 := (s2.wr (Reg.CMP_JOB_CONSUMED x) (BitVec.ofNat 32 u.used)).wr (Reg.CMP_JOB_PRODUCED x) (BitVec.ofNat 32 u.out.length)
  .done s3 st (BitVec.ofNat 32 u.used)
    ([new.length, u.out.length, b2n (decide (u.stop = .done)) + 2 * b2n (decide (u.stop = .need))].map (BitVec.ofNat 72))

/-- DECOMPRESS_JOB (R291–R293). -/
def execDecompressJob (dt : Nat) (c : Ctx) (p1 p2 p3 : Word) (s : State) : Host.Outcome State Fault Refusal :=
  let n := p1.toNat % 65536
  .next (command dt c (.decompressJob p1 p2 p3)
    (fun _ _ => param (decide (1 ≤ n) && decide (n ≤ 16384)))
    (fun _ s =>
      let y := namedSide s c
      runJob y ⟨bit p1.toNat 16, (List.range n).map (jobByte s y), n, 0, p3.toNat, 0, p2.toNat % 65536⟩ s) s)

/-- Whether a JOB_RESUME's length fits the stop it follows (R294). -/
def resumeFits (j : Job) (n : Nat) : Bool :=
  if j.stopped = 1 then n = 0 else decide (1 ≤ n) && decide (n ≤ 16384)

/-- JOB_RESUME (R294). -/
def execJobResume (dt : Nat) (c : Ctx) (p1 : Word) (s : State) : Host.Outcome State Fault Refusal :=
  let n := p1.toNat % 65536
  .next (command dt c (.jobResume p1)
    (fun _ s =>
      let j := (s.side (namedSide s c)).cmp.job
      if j.stopped = 0 then none else param (resumeFits j n))
    (fun _ s =>
      let y := namedSide s c
      let j := (s.side y).cmp.job
      if j.stopped = 0 then refuse s .wrongState
      else runJob y { j with input := j.input ++ (List.range n).map (jobByte s y), given := j.input.length } s) s)

end Sys2Proof.Machine
end

