-- ==== Sys2Proof/Machine/Frame.lean ====
section
/-!
DEFINITION. Frame mode and the decimation chain (chapter "Frame mode and the decimation chain"): frame triggers, pair
words and frame units, the chain, FA_CAL and frame-ADC retirement.
-/

namespace Sys2Proof.Machine

/-- Frame mode changed by f. -/
def State.modFrames (s : State) (f : Frames → Frames) : State := { s with frames := f s.frames }

/-! ### Frame triggers -/

/-- FRM_PERIOD after its clamp (R144). -/
def framePeriod (s : State) : Nat := max 93750 (s.rd Reg.FRM_PERIOD).toNat

/-- The latest periodic sampling tick at or before now (R143). -/
def periodicTick (s : State) : Time :=
  s.now - BitVec.ofNat 64 ((s.now - s.rd64 Reg.FRM_ORIGIN Reg.FRM_ORIGIN_4).toNat % framePeriod s)

/-- The effective time of the latest assertion of a bus line that has taken effect (R143, R425). -/
def busTick (s : State) (line : Nat) : Option Time :=
  (s.trg.bus.reverse.find? (fun b => b.1 = line && reached s.now b.2)).map (·.2)

/-- The sampling tick E + 12 of the oldest edge of a pin in one direction that is delivered and not yet a frame trigger, when it has come
(R143). -/
def extTick (s : State) (i : Nat) (rising : Bool) : Option Time :=
  match s.frames.ext.find? (fun e => e.1 = i && e.2.1 = rising) with
  | some e => if reached s.now (e.2.2 + 12) then some (e.2.2 + 12) else none
  | none => none

/-- The sampling tick of a trigger from a source now, when that source is selected and has one (R143, R168). -/
def triggerTick (s : State) (src : FrameSource) : Option Time :=
  let sel := s.rf Reg.FRM_CTRL 1 0
  match src with
  | .periodic => if sel = 0 then some (periodicTick s) else none
  | .ext i rising =>
    if extWanted s i.val rising then extTick s i.val rising else none
  | .bus => if sel = 2 then busTick s (s.rf Reg.FRM_CTRL 8 6) else none

/-- The FRAME tiles that a trigger at a tick samples: the enabled ones, each until its own stop tick (R139, R142, R192). -/
def frameTiles (s : State) (c : Time) : List Nat :=
  (List.range 64).filter (fun t => s.frameTile t && (s.tile t).inRun c)

/-- An input frame put on its hold capacitors: even frames on H0, odd ones on H1 (R140); one that no tile has to convert is not held. -/
def holdFrame (one : Sampled) (h : Two (Option Sampled)) : Two (Option Sampled) :=
  if one.left = [] then h else if one.number % 2 = 0 then { h with a := some one } else { h with b := some one }

/-- An accepted frame trigger (R139–R141, R216); the Awl pulses that fell in the integration that it ends go with its sample (R71). -/
def acceptTrigger (t : Time) (s : State) : State :=
  let f := s.frames
  let s1 := s.modTrg (fun g => { g with hits := g.hits ++ [⟨0xB, 0, t, 0, t⟩] })
  let s2 := ((frameTiles s t).foldl (fun u k => touchTile k u) s1).modPix (fun x => { x with
    shots := x.shots.filter (fun k => reached k.at_ t || decide (since s.now k.at_ < 3000)) })
  match f.started, f.lastTrig with
  | true, some t0 =>
    let one : Sampled := ⟨f.next, t0, t, f.image, f.holes, s.pix.shots.filter (fun k => reached k.at_ t0 && !reached k.at_ t),
      s.bg.inForce.adcs ++ s.bg.unlistedAdcs, frameTiles s t⟩
    ((s2.modFrames (fun f => { f with
      lastTrig := some t, image := s.pix.latches, holes := s.holes, next := f.next + 1
      hold := holdFrame one f.hold })).count Reg.FRM_NUMBER 31 0 1).wr64
      Reg.FRM_LAST_TIME Reg.FRM_LAST_TIME_4 t
  | _, _ => s2.modFrames (fun f => { f with lastTrig := some t, image := s.pix.latches, holes := s.holes, started := true })

/-- An edge of the EXT source that has been a frame trigger, accepted or ignored, is none again. -/
def usedEdge (src : FrameSource) (t : Time) (s : State) : State :=
  match src with
  | .ext i rising => s.modFrames (fun f => { f with ext := f.ext.erase (i.val, rising, t - 12) })
  | _ => s

/-- A bus assertion or an edge that has been a frame trigger, accepted or ignored, is none again. -/
def usedTrigger (src : FrameSource) (t : Time) (s : State) : State :=
  if src = .bus then s.modTrg (fun g => { g with
    bus := g.bus.filter (fun b => !(b.1 = s.rf Reg.FRM_CTRL 8 6 && b.2 = t)) })
  else usedEdge src t s

/-- FRAME_TRIGGER (R139–R144). -/
def execFrameTrigger (dt : Nat) (src : FrameSource) (s0 : State) : Host.Outcome State Fault Refusal :=
  let s := s0.elapse dt
  match triggerTick s src with
  | none => .next s
  | some t =>
    let new := match s.frames.lastTrig with
      | some l => l ≠ t && reached t l
      | none => true
    if s.trg.run ≠ .running || !new || !reached t s.runStart || !beforeStop s t then .next (usedEdge src t s)
    else
      let near := match s.frames.lastTrig with
        | some l => since t l < 93750
        | none => false
      let s1 := usedTrigger src t s
      if near && src ≠ .periodic then .next (raiseBase 529 sevNotice noInst (s1.bump Reg.FRM_STATUS 31 16 1))
      else .next (acceptTrigger t s1)

/-! ### The decimation chain -/

/-- The ratio of a preset (R160). -/
def ratioOf (preset : Nat) : Nat := nth [1, 4, 16, 64] preset
/-- The CIC order of a preset (R160). -/
def orderOf (preset : Nat) : Nat := nth [0, 2, 3, 3] preset
/-- k = N log2 R of a preset (R160). -/
def shiftOf (preset : Nat) : Nat := nth [0, 4, 12, 18] preset
/-- 2D of a preset (R160). -/
def delayOf (preset : Nat) : Nat := nth [0, 10, 61, 253] preset
/-- How many sections a preset has (R160). -/
def sectionsOf (preset : Nat) : Nat := nth [0, 1, 2, 2] preset

/-- The coefficients b0, b1, b2, a1, a2 of a section (R163). -/
def coeffs (sec : Nat) : Int × Int × Int × Int × Int :=
  if sec = 0 then (12288, -4096, 0, -8192, 0) else (8192, 8192, -4096, -8192, 4096)

/-- The nominal-linear value of a sample (R159). -/
def linear (present : Bool) (range code : Nat) : Nat :=
  if !present then 0 else if range = 3 then 1048512 else code * 8 ^ range

/-- The integrators after an input (R162): each takes the sum of itself and the one before. -/
def integrate (n x : Nat) : List Nat → List Nat
  | [] => []
  | v :: r =>
    match n with
    | 0 => v :: r
    | m + 1 =>
      let w := (v + x) % 2 ^ 38
      w :: integrate m w r

/-- The combs at the end of a window (R162): the value that leaves them, and their new states. -/
def combs (n v : Nat) : List Nat → Nat × List Nat
  | [] => (v, [])
  | c :: r =>
    match n with
    | 0 => (v, c :: r)
    | m + 1 =>
      let q := combs m ((v + 2 ^ 38 - c) % 2 ^ 38) r
      (q.1, v :: q.2)

/-- The sections of a preset, in order (R162): the value that leaves them, and their new states. -/
def sections (k n : Nat) (u : Int) (s1 s2 : List Int) : Int × List Int × List Int :=
  match n with
  | 0 => (u, s1, s2)
  | m + 1 =>
    let c := coeffs k
    let acc := c.1 * u + s1.getD k 0
    let y := (acc + 8192) / 16384
    sections (k + 1) m y (s1.set k (c.2.1 * u - c.2.2.2.1 * y + s2.getD k 0)) (s2.set k (c.2.2.1 * u - c.2.2.2.2 * y))

/-- One input sample into a pixel's chain (R162). -/
def chainIn (preset : Nat) (c : Chain) (present : Bool) (range code : Nat) : Chain :=
  { c with
    integ := integrate (orderOf preset) (linear present range code) c.integ
    rmax := max c.rmax range
    allp := c.allp && present }

/-- The end of a pixel's decimation window (R162, R165): its output as (present, range, value), whether it was
clamped, and the chain. -/
def chainOut (preset : Nat) (c : Chain) : (Bool × Nat × Int) × Bool × Chain :=
  let q := combs (orderOf preset) (c.integ.getD (orderOf preset - 1) 0) c.comb
  let u := (q.1 + 2 ^ (shiftOf preset - 1)) / 2 ^ shiftOf preset
  let r := sections 0 (sectionsOf preset) u c.sos1 c.sos2
  let v := clampI (-1048576) 1048575 r.1
  let ok := c.allp && c.blank = 0
  ((if ok then (true, c.rmax, v) else (false, 0, 0)), decide (v ≠ r.1),
    { c with comb := q.2, sos1 := r.2.1, sos2 := r.2.2, rmax := 0, allp := true, blank := c.blank - 1 })

/-- The first n entries of a sparse table from index i on, those not listed at their default. -/
def denseFrom {α : Type} (d : α) (i n : Nat) (m : Sparse α) : List α :=
  match n with
  | 0 => []
  | k + 1 =>
    match m with
    | (j, v) :: r => if j = i then v :: denseFrom d (i + 1) k r else d :: denseFrom d (i + 1) k m
    | [] => d :: denseFrom d (i + 1) k []

/-- A list as a sparse table. -/
def sparseOf {α : Type} [DecidableEq α] (d : α) (l : List α) : Sparse α :=
  (l.zipIdx.filter (fun q => q.1 ≠ d)).map (fun q => (q.2, q.1))

/-! ### Input frames -/

/-- The super-pixel of local pixel lp as an ADC of tile t. -/
def adcOf (t lp : Nat) : Nat := t * 1024 + localSuper lp

/-- Whether a pixel of an input frame is present (R42, R45, R46, R152): the latches its integration ran under, its
retirement, and the frame ADCs retired at its trigger. -/
def presentIn (s : State) (f : Sampled) (t lp : Nat) : Bool :=
  let p := globalPix t lp
  let w := imageWord f.image p
  w.getLsbD 0 && !w.getLsbD 9 && !s.pixelRetired p && !f.adcs.contains (adcOf t lp)

/-- The charge in electrons that a pixel of an input frame integrated of a signed charge: what its polarity collects, and what the Awl
injected into it (R32, R54, R66, R71). -/
def integrated (s : State) (f : Sampled) (p : Nat) (charge : Int) : Nat :=
  f.shots.foldl (fun a k => if s.pulsed k p then a + k.charge else a) (collect f.holes charge)

/-- One pixel's sample as range and code, from the charge and the code that its ADC converted (R33, R35, R38, R39): charge of the other
polarity integrates as zero, and a code of range 3 is 16 383. -/
def sampleOf (s : State) (f : Sampled) (p : Nat) (charge : Int) (code : Nat) : Nat × Nat :=
  let n := integrated s f p charge
  let r := rangeOf (imageWord f.image p) n
  (r, if r = 3 then 16383 else if n = 0 && charge ≠ 0 then 0 else code)

/-- A tile's samples as present, range, code (R39, R154). -/
def samplesOf (s : State) (f : Sampled) (t : Nat) (l : List Sample) : List (Bool × Nat × Nat) :=
  let m : Sparse (Int × Nat) := l.foldl (fun m q => Sparse.ins m q.lp.val (q.charge, q.code.toNat)) []
  (denseFrom (0, 0) 0 16384 m).zipIdx.map (fun q =>
    if presentIn s f t q.2 then (true, sampleOf s f (globalPix t q.2) q.1.1 q.1.2) else (false, 0, 0))

/-- The 24 bits of a sample (R154). -/
def sampleBits (q : Bool × Nat × Int) : Nat :=
  if q.1 then 2 ^ 23 + q.2.1 % 4 * 2 ^ 21 + unsigned 21 q.2.2 else 0

/-- Whether a pair passes zero suppression (R157). -/
def passesZs (thresh : Int) (a b : Bool × Nat × Int) : Bool :=
  (a.1 && (decide (1 ≤ a.2.1) || decide (thresh < a.2.2))) || (b.1 && (decide (1 ≤ b.2.1) || decide (thresh < b.2.2)))

/-- The pairs of a list of samples, with their indices. -/
def pairsOf {α : Type} (k : Nat) : List α → List (Nat × α × α)
  | a :: b :: r => (k, a, b) :: pairsOf (k + 1) r
  | _ => []

/-- A pair word (R154). -/
def pairWord (k frame : Nat) (sq : Bool) (a b : Bool × Nat × Int) : Word72 :=
  BitVec.ofNat 72 (2 * 2 ^ 70 + k * 2 ^ 57 + frame % 256 * 2 ^ 49 + b2n sq * 2 ^ 48 + sampleBits b * 2 ^ 24 + sampleBits a)

/-- Whether an integration overlaps a squall whose policy is FLAG or DROP (R158). -/
def frameSquall (s : State) (f : Sampled) : Bool :=
  s.squall.squalls.any (fun q => q.policy ≠ 0 && overlaps f.t0 f.t1 q.w0 q.x)

/-- An output frame set on its way (R155–R158, R161): its stamp, span, samples and flags. -/
def emitFrame (t preset : Nat) (stamp u0 u1 : Time) (sq : Bool) (clamps : Nat) (l : List (Bool × Nat × Int)) (s : State) :
    State :=
  let k := s.tile t
  let zs := s.rb (Reg.FRM_ZS t) 31
  let thresh := signed 21 (s.rf (Reg.FRM_ZS t) 20 0)
  let all := pairsOf 0 l
  let kept := if zs then all.filter (fun q => passesZs thresh q.2.1 q.2.2) else all
  let no := k.outNo
  let tail := controlWord 0x05 (no % 2 ^ 32 * 2 ^ 32 + preset * 2 ^ 16 + b2n sq * 2 ^ 15
    + b2n (decide (preset ≠ 0) && decide (no < 8)) * 2 ^ 14 + b2n zs * 2 ^ 13 + b2n (decide (clamps ≠ 0)) * 2 ^ 12)
  let out : FrameOut := ⟨u1 + 6024, false, controlWord 0x04 stamp.toNat,
    kept.map (fun q => pairWord q.1 no sq q.2.1 q.2.2), 0, tail⟩
  let s1 := (s.bump (Reg.FRM_SUPP t) 31 0 (all.length - kept.length)).bump (Reg.DEC_STATUS t) 31 16 clamps
  (s1.modTile t (fun k => { k with frames := k.frames ++ [out], outNo := no + 1 })).modFrames (fun f =>
    { f with spans := f.spans ++ [(BitVec.ofNat 48 (2 ^ 46 + no % 2 ^ 32 * 64 + t), u0, u1)] })

/-- A pixel's chain state found uncorrectable (R165). -/
def chainError (t lp : Nat) (s : State) : State :=
  raiseTile t 5 sevFault lp ((s.bump (Reg.DEC_STATUS t) 15 0 1).modTile t (fun k =>
    { k with chains := Sparse.set k.chains lp { Chain.zero with blank := 8 } Chain.zero }))

/-- An input frame through the chain of a tile; an output frame at the window's end (R161, R162, R166). -/
def decimate (t preset : Nat) (f : Sampled) (l : List (Bool × Nat × Nat)) (s : State) : State :=
  let k := s.tile t
  let r := ratioOf preset
  let sq := k.windowSq || frameSquall s f
  let u0 := if k.phase = 0 then f.t0 else k.windowStart
  let fed := (denseFrom Chain.zero 0 16384 k.chains).zipWith (fun c q => chainIn preset c q.1 q.2.1 q.2.2) l
  if k.phase + 1 = r then
    let outs := fed.map (chainOut preset)
    let clamps := (outs.filter (fun o => o.2.1)).length
    let stamp := f.t1 - BitVec.ofNat 64 (delayOf preset * framePeriod s / 2)
    let s1 := s.modTile t (fun k => { k with
      phase := 0, windowSq := false, chains := sparseOf Chain.zero (outs.map (·.2.2)) })
    emitFrame t preset stamp u0 f.t1 sq clamps (outs.map (·.1)) (s1.wr (Reg.DEC_PHASE t) 0)
  else
    (s.modTile t (fun k => { k with
      phase := k.phase + 1, windowSq := sq, windowStart := u0, chains := sparseOf Chain.zero fed })).wr
      (Reg.DEC_PHASE t) (BitVec.ofNat 32 (k.phase + 1))

/-- Tile t removed from the tiles that have still to convert frame n. -/
def converted (t n : Nat) (h : Two (Option Sampled)) : Two (Option Sampled) :=
  let f (q : Sampled) : Option Sampled := if q.number = n then q.without t else some q
  ⟨h.a.bind f, h.b.bind f⟩

/-- FRAME_CONVERSION_END (R147, R154–R166): 6 000 ticks after the trigger. bad lists the pixels whose chain state reads
uncorrectable. -/
def execFrameConversionEnd (dt : Nat) (t : Fin 64) (samples : List Sample) (bad : List (Fin 16384)) (s0 : State) :
    Host.Outcome State Fault Refusal :=
  let s := settleTile t (s0.elapse dt)
  match s.frames.sampled.find? (fun f => f.left.contains t.val) with
  | none => .next s
  | some f =>
    if !reached s.now (f.t1 + 6000) then .next s
    else
      let preset := s.rf (Reg.DEC_CTRL t) 1 0
      let s1 := s.modFrames (fun g => { g with hold := converted t f.number g.hold })
      let l := samplesOf s f t samples
      let out := if preset = 0 then
          emitFrame t 0 f.t1 f.t0 f.t1 (frameSquall s f) 0 (l.map (fun q => (q.1, q.2.1, (q.2.2 : Int)))) s1
        else decimate t preset f l ((bad.map (·.val)).foldl (fun u lp => chainError t lp u) s1)
      .next (idleCheck t (settleTile t out))

/-! ### FA_CAL -/

/-- FA_CAL (R148, R149). -/
def execFaCal (dt : Nat) (c : Ctx) (maskLo maskHi : Word) (s : State) : Host.Outcome State Fault Refusal :=
  .next (command dt c (.faCal maskLo maskHi) noPar
    (fun _ s =>
      if s.trg.run ≠ .idle then refuse s .wrongState
      else if calBusy s || s.pix.scan.isSome then refuse s .busy
      else
        let s1 := (s.modFrames (fun f => { f with
          cal := some ⟨maskOrAll maskLo maskHi, s.clock.ticks, 1, 0, []⟩ })).wf Reg.FRM_STATUS 0 0 1
        .done (s1.wr Reg.FRM_FA_STATUS 0) .accepted 0 []) s)

/-- The tick of phase k of an attempt, from FA_CAL's acceptance (R149). -/
def faPhaseAt (attempt k : Nat) : Nat := (attempt - 1) * 1800000000 + nth [0, 900000000, 1350000000, 1800000000] k

/-- FA_CAL_PHASE_START (R149). -/
def execFaCalPhaseStart (dt : Nat) (s0 : State) : Host.Outcome State Fault Refusal :=
  let s := s0.elapse dt
  match s.frames.cal with
  | some c =>
    if c.phase < 2 && c.since + faPhaseAt c.attempt (c.phase + 1) ≤ s.clock.ticks then
      .next (s.modFrames (fun f => { f with cal := some { c with phase := c.phase + 1 } }))
    else .next s
  | none => .next s

/-- The factors of an ADC from its means in 1/16 code (R150). -/
def faFactors (m : AdcMeas) : Int × Int := (roundDiv m.m0 16, roundDiv (32768 * 15000 * 16) (m.m1 - m.m0).toNat)

/-- Whether an attempt passes (R150). -/
def faPasses (m : AdcMeas) : Bool :=
  let f := faFactors m
  m.converged && decide (m.m0 < m.m1) && decide (f.1.natAbs ≤ 400) && decide (29491 ≤ f.2) && decide (f.2 ≤ 36045)

/-- The register word of a passed ADC (R150, R169). -/
def faWord (m : AdcMeas) : Word :=
  let f := faFactors m
  BitVec.ofNat 32 (f.2.toNat * 2 ^ 16 + 2 ^ 15 + unsigned 12 f.1)

/-- A frame ADC retired (R152). -/
def retireAdc (d : Nat) (s : State) : State :=
  if s.adcRetired d then s
  else
    let s1 : State :=
      if 4096 ≤ (s.entries (·.adcs)).length then
        raiseBase 524 sevFault noInst { s with bg := { s.bg with unlistedAdcs := insertNat d s.bg.unlistedAdcs } }
      else wantUpdate { s with bg := { s.bg with inForce := { s.bg.inForce with
        adcs := insertNat d s.bg.inForce.adcs } } }
    raiseTile (d / 1024) 4 sevFault (d % 1024) s1

/-- A failed attempt of an ADC (R150, R152); that of one retired since is not counted (R549). -/
def faFailure (s : State) (d : Nat) : State :=
  if s.adcRetired d then s else
  let h := Sparse.get s.frames.faults d Faults.clear
  let s1 := raiseTile (d / 1024) 4 sevNotice (d % 1024) (s.bump Reg.FRM_FA_STATUS 15 0 1)
  let s2 := s1.modFrames (fun f => { f with
    faults := Sparse.set f.faults d (if h.third s.now then Faults.clear else h.push s.now) Faults.clear
    cal := f.cal.map (fun c => { c with failed := insertNat d c.failed }) })
  if h.third s.now then (retireAdc d s2).bump Reg.FRM_FA_STATUS 31 16 1 else s2

/-- A passed attempt of an ADC: its factors written (R150). -/
def faPass (s : State) (m : AdcMeas) : State := s.wr (Reg.FRM_ADC_CAL (m.gs.val / 1024) (m.gs.val % 1024)) (faWord m)

/-- The ADCs that an attempt of an FA_CAL includes (R149): all of its tiles, then those that failed the attempt before, as the CAL_REDUCE
items of their tiles found (R237). That an ADC which
is retired takes no part is the model's choice (log entry 110). -/
def faIncluded (s : State) (c : FaCal) : List Nat :=
  (if c.attempt = 1 then c.tiles.flatMap (fun t => (List.range 1024).map (t * 1024 + ·)) else c.failed).filter
    (fun d => !s.adcRetired d)

/-- One ADC evaluated (R150); one that no measurement came from has not converged. -/
def faEvaluate (s : State) (q : Nat × Option AdcMeas) : State :=
  match q.2 with
  | some m => if faPasses m then faPass s m else faFailure s q.1
  | none => faFailure s q.1

/-- What an ended attempt measured on a tile's ADCs kept for its CAL_REDUCE item, which is created (R237). -/
def faMeasured (included : List Nat) (meas : List AdcMeas) (s : State) (t : Nat) : State :=
  let l := included.filter (fun d => d / 1024 = t)
  if l = [] then s
  else wantReduce t (s.modFrames (fun f => { f with
    measured := Sparse.upd f.measured t [] (fun k => k ++ l.map (fun d => (d, meas.find? (fun m => m.gs.val = d)))) }))

/-- FA_CAL_ATTEMPT_END (R149, R237): what the attempt measured on the ADCs that it includes goes to the CAL_REDUCE items of their tiles. -/
def execFaCalAttemptEnd (dt : Nat) (meas : List AdcMeas) (s0 : State) : Host.Outcome State Fault Refusal :=
  let s := s0.elapse dt
  match s.frames.cal with
  | none => .next s
  | some c =>
    if s.clock.ticks < c.since + c.attempt * 1800000000 then .next s
    else
      let s1 := (List.range 64).foldl (faMeasured (faIncluded s c) meas) s
      if c.attempt < 3 then
        .next (s1.modFrames (fun f => { f with
          cal := some { c with attempt := c.attempt + 1, phase := 0, failed := [] } }))
      else
        .next (raiseBase 530 sevInfo noInst
          ((s1.modFrames (fun f => { f with cal := none })).wf Reg.FRM_STATUS 1 0 2))

/-! ### Writes of the frame registers -/

/-- What a write of FRM_CTRL, FRM_PERIOD, FRM_ORIGIN, FRM_ZS or DEC_CTRL breaks: a change outside IDLE (R145, R447). -/
def frameRegRefusal (s : State) (a : Nat) (mask v : Word) : Option Status :=
  if s.trg.run ≠ .idle && (v &&& mask) ≠ (s.rd a &&& mask) then some .wrongState else none

/-- FRM_PERIOD written (R144). -/
def writeFramePeriod (v : Word) (s : State) : State :=
  let s1 := s.wr Reg.FRM_PERIOD v
  if v.toNat < 93750 then s1.raiseBit Reg.FRM_STATUS 2 else s1

/-- Frame mode as a run starts at S: integrators cleared, frames numbered from 0 (R141, R161). The spacing of R144 does not reach back to
the run before, which is the model's choice (log entry 109). -/
def startFrames (b : Time) (s : State) : State :=
  (s.modFrames (fun f => { f with
    lastTrig := none, image := [], started := false, next := 0, hold := ⟨none, none⟩, spans := [],
    ext := f.ext.filter (fun e => reached (e.2.2 + 12) b) })).wr Reg.FRM_NUMBER 0

end Sys2Proof.Machine
end

