-- ==== Sys2Proof/Machine/Intake.lean ====
section
/-!
DEFINITION. The tile links and the intake of each side (chapters "Tile readout and squalls", "Trigger and acquisition
engine" and "Stream engines and the work dispatcher"): words taken from the FIFOs, units collected, held, decided and
handed to the dispatcher.
-/

namespace Sys2Proof.Machine

/-- Side x's intake and dispatcher. -/
def State.dsp (s : State) (x : Side) : Dsp := (s.side x).dsp

/-- The acquisition mode (R212). -/
def State.acq (s : State) : Nat := s.rf (Reg.TRG_CTRL s.arb.primary) 1 0

/-- The words that side x holds of a tile and has not yet closed into a unit. -/
def State.intake (s : State) (x : Side) (t : Nat) : List Word72 := Sparse.get (s.dsp x).intake t []

/-- The words of a tile at side x's intake changed by f. -/
def State.modIntake (s : State) (x : Side) (t : Nat) (f : List Word72 → List Word72) : State :=
  s.modDsp x (fun d => { d with intake := Sparse.upd d.intake t [] f })

/-! ### Which sides take a tile's words (R183, R244, R395, R398) -/

/-- The sides for which a tile's FIFO waits. -/
def takers (s : State) (t : Nat) : List Side :=
  match s.serving .a, s.serving .b with
  | true, true => if s.arb.twin then [if t < 32 then .a else .b] else [.a, .b]
  | true, false => [.a]
  | false, true => [.b]
  | false, false => []

/-- The words in a side's staging memory: those of its intake, of units that are not held, and attached words that
followed (R241, R242). -/
def stagedWords (d : Dsp) : Nat :=
  d.units.foldl (fun a u => a + u.post.length + (if u.held.isNone then u.pre.length + u.words.length else 0))
    (d.intake.foldl (fun a e => a + e.2.length) 0)

/-- The words that 24 MiB of staging memory holds (R241). -/
def stagingCap : Nat := 2796202

/-- The first complete unit in a run of words: the words before it, its own, and those after (R241). -/
def findUnit (l : List Word72) : Option (List Word72 × List Word72 × List Word72) :=
  match l.findIdx? opens with
  | none => none
  | some a =>
    match (l.drop a).findIdx? closes with
    | none => none
    | some n =>
      let upto := l.take (a + n + 1)
      let o := upto.length - (upto.reverse.takeWhile (fun w => !opens w)).length - 1
      some (upto.take o, upto.drop o, l.drop (a + n + 1))

/-- The stream whose ring holds a unit (R319). -/
def holdStream (own : List Word72) : Nat := if bits (own.headD 0).toNat 71 64 = 0xC4 then 1 else 0

/-- Whether a hold write waits for room, which stops the intake (R323). -/
def holdWaits (s : State) (x : Side) : Bool :=
  s.acq ≠ 0 && (s.dsp x).intake.any (fun e => match findUnit e.2 with
    | some q => (ringPlace s x (ringOf s x (holdStream q.2.1)) (q.1.length + q.2.1.length)).isNone
    | none => false)

/-- Whether an item is one of a tile's units. -/
def Work.ofTile (w : Work) (t : Nat) : Bool :=
  match w with
  | .sort u => u.toNat % 64 = t
  | .cluster u => u.toNat % 64 = t
  | _ => false

/-- Whether a side takes words of a tile (R183, R243, R260, R323). -/
def intakeOpen (s : State) (x : Side) (t : Nat) : Bool :=
  decide (stagedWords (s.dsp x) < stagingCap) && !holdWaits s x && !(s.dsp x).held.any (fun i => i.work.ofTile t)

/-! ### Units received (R213, R214, R241, R242) -/

/-- The number of a unit of tile t from its own words (R180, R270). -/
def numberOf (s : State) (t : Nat) (own : List Word72) : Nat :=
  if holdStream own = 1 then 2 ^ 46 + bits (own.getLastD 0).toNat 63 32 * 64 + t
  else eventUnit s (bits (own.headD 0).toNat 52 0) t

/-- The span of a unit (chapter "Trigger and acquisition engine", Acquisition modes). -/
def unitSpan (s : State) (u : Nat) : Time × Time :=
  if unitKind u = 0 then (unitBegin s u, sliceStart s (unitSlice s u + 1))
  else
    match s.frames.spans.find? (fun q => q.1.toNat = u) with
    | some q => q.2
    | none => (s.now, s.now)

/-- PRE_MAX (R213). -/
def preMax (s : State) : Nat :=
  (List.range 4).foldl (fun m w => max m (s.rd (Reg.TRG_WIN s.arb.primary w)).toNat) 0

/-- The decision time of a unit (R213). -/
def decisionTime (s : State) (v : UnitIn) : Time := v.u1 + BitVec.ofNat 64 (preMax s + 1024)

/-- Whether a record's window shares a tick with an interval (R225). -/
def Rec.meets (r : Rec) (a b : Time) : Bool :=
  match r.stop with
  | some e => overlaps r.start e a b
  | none => a ≠ b && !reached r.start b

/-- The records that can claim data: open and closed ones. -/
def liveRecs (s : State) : List Rec := s.trg.opened ++ s.trg.closed

/-- The item of a unit (R237). -/
def unitWork (s : State) (x : Side) (v : UnitIn) : Work :=
  if s.rb (Reg.SE_CTRL x) 0 && unitKind v.number.toNat = 0 then .cluster v.number else .sort v.number

/-- A unit removed from a side, with its room in the store (R242, R321). -/
def removeUnit (x : Side) (v : UnitIn) (s : State) : State :=
  let s1 := s.modDsp x (fun d => { d with units := d.units.filter (fun w => w.number ≠ v.number) })
  match v.held with
  | some id => freeItem x id s1
  | none => s1

/-- A unit released or discarded: words that follow it leave with it (log entry 52). -/
def noteLost (x : Side) (u : Nat) (s : State) : State :=
  s.modDsp x (fun d => { d with lost := Sparse.set d.lost (unitKind u * 64 + unitTile u) (some u) none })

/-- A unit decided (R213, R242): its item is created, or it is released. -/
def decideUnit (x : Side) (v : UnitIn) (s : State) : State :=
  let claimed := (liveRecs s).any (fun r => r.meets v.u0 v.u1)
  if s.acq = 0 || claimed then
    let s1 := if s.acq = 0 then s else s.bump (Reg.TRG_UNITS_KEPT x) 31 0 1
    enqueueItem x (unitWork s x v) (s1.modDsp x (fun d => { d with
      units := d.units.map (fun w => if w.number = v.number then { w with decided := true, queued := true } else w) }))
  else scanReady x (removeUnit x v (noteLost x v.number.toNat (s.bump (Reg.TRG_UNITS_RELEASED x) 31 0 1)))

/-- A unit that is at hand decided when its time has come. -/
def decideIfDue (x : Side) (v : UnitIn) (s : State) : State :=
  if reached s.now (decisionTime s v) then decideUnit x v s else s

/-- A unit entered at a side, and decided when its time has come. -/
def enterUnit (x : Side) (v : UnitIn) (s : State) : State :=
  decideIfDue x v (s.modDsp x (fun d => { d with units := d.units ++ [v] }))

/-- The highest number of a tile and kind that a side has received raised to u. -/
def noteTop (x : Side) (u : Nat) (s : State) : State :=
  s.modDsp x (fun d => { d with top := Sparse.upd d.top (unitKind u * 64 + unitTile u) none (fun o =>
    some (max u (o.getD 0))) })

/-- The number of the last unit that a side has received of a tile. -/
def lastReceived (s : State) (x : Side) (t : Nat) : Option Nat :=
  match Sparse.get (s.dsp x).top (64 + t) none, Sparse.get (s.dsp x).top t none with
  | some f, _ => some f
  | none, o => o

/-- Where late words of a unit go (R241, R253, R271): beside what that unit puts out, and in TRIGGERED to every record that has taken it up
already. -/
def lateOutputs (s : State) (x : Side) (u : BitVec 48) (l : List Word72) : List (Bool × Output) :=
  if s.acq = 2 then
    (true, ⟨2, 0, u, l, none, true⟩) ::
      ((s.side x).cmp.parts.filter (fun q => q.stream = 2 && q.unit = u)).map (fun q => (false, ⟨2, q.record, u, l, none, true⟩))
  else [(false, ⟨unitKind u.toNat, 0xFFFFFFFF, u, l, none, true⟩)]

/-- Words that follow a tile's last unit of a run put behind that unit (R241): behind the words that wait for its item, or, once that is
created, as late words of the unit, in a block of their own, whatever the item has come to (R238, R378; log entry 52). -/
def trailing (x : Side) (t : Nat) (s : State) : State :=
  let l := s.intake x t
  if l = [] || (s.tile t).state ≠ .idle || (findUnit l).isSome then s
  else
    let s1 := s.modIntake x t (fun _ => [])
    match lastReceived s x t with
    | none => s1
    | some u =>
      if Sparse.get (s.dsp x).lost (unitKind u * 64 + unitTile u) none = some u then s1
      else if (s.dsp x).units.any (fun v => v.number.toNat = u && !v.queued) then
        s1.modDsp x (fun d => { d with
          units := d.units.map (fun w => if w.number.toNat = u then { w with post := w.post ++ l } else w) })
      else scanReady x ((lateOutputs s x (BitVec.ofNat 48 u) l).foldl (fun t q => enterLater x q.1 q.2 t) s1)

/-- Whether a unit begins before the tick from which a side keeps its tile (R395, R398). -/
def tooEarly (s : State) (x : Side) (t : Nat) (u0 : Time) : Bool :=
  match Sparse.get (s.dsp x).keepFrom t none with
  | some b => !reached u0 b
  | none => false

/-- Whether a frame unit is prescaled away (R214). -/
def prescaled (s : State) (u : Nat) : Bool :=
  let n := max 1 (s.rf (Reg.TRG_FRAME_PRESCALE s.arb.primary) 15 0)
  unitKind u = 1 && unitIndex u % n ≠ 0

/-- A complete unit of a tile at a side's intake taken up (R213, R214, R241, R242, R323). -/
def arriveUnit (x : Side) (t : Nat) (s : State) : State :=
  match findUnit (s.intake x t) with
  | none => trailing x t s
  | some (pre, own, rest) =>
    let u := numberOf s t own
    let sp := unitSpan s u
    let leave (k : State) : State := noteTop x u (k.modIntake x t (fun _ => rest))
    if tooEarly s x t sp.1 then scanReady x (noteLost x u (leave s))
    else if prescaled s u then scanReady x (noteLost x u (leave (s.bump (Reg.TRG_FRAMES_PRESCALED x) 31 0 1)))
    else
      let v : UnitIn := ⟨BitVec.ofNat 48 u, sp.1, sp.2, pre, own, [], none, false, false, [], s.acq, s.rf (Reg.SE_CTRL x) 15 8⟩
      if s.acq = 0 then scanReady x (enterUnit x v (leave s))
      else
        match storeWords x (unitKind u) 0 (.unit v.number) (pre ++ own) s with
        | some q => scanReady x (enterUnit x { v with held := some q.2 } (leave q.1))
        | none => ringFull x (ringOf s x (unitKind u)) (pre ++ own).length s

/-- The units of a tile that wait in staging memory for room in the store moved into the hold, in order, as far as there is room (R213,
R242, R323). -/
def holdUnits (x : Side) : List UnitIn → State → State
  | [], s => s
  | v :: r, s =>
    match storeWords x (unitKind v.number.toNat) 0 (.unit v.number) (v.pre ++ v.words) s with
    | some q => holdUnits x r (q.1.modDsp x (fun d => { d with
        units := d.units.map (fun w => if w.number = v.number then { w with held := some q.2 } else w) }))
    | none => ringFull x (ringOf s x (unitKind v.number.toNat)) (v.pre ++ v.words).length s

/-- The units of a tile that are to be held and are not yet (R213). -/
def unheld (s : State) (x : Side) (t : Nat) : List UnitIn :=
  (s.dsp x).units.filter (fun v => unitTile v.number.toNat = t && v.acq ≠ 0 && v.held.isNone && !v.decided)

/-- UNIT_ARRIVAL (R213, R242): the intake meets a unit's closing word. -/
def execUnitArrival (dt : Nat) (x : Side) (t : Fin 64) (s0 : State) : Host.Outcome State Fault Refusal :=
  let s := s0.elapse dt
  if s.serving x then .next (arriveUnit x t (holdUnits x (unheld s x t) s)) else .next s

/-- UNIT_DECIDED (R213): at U1 + PRE_MAX + 1 024 ticks. -/
def execUnitDecided (dt : Nat) (x : Side) (unit : BitVec 48) (s0 : State) : Host.Outcome State Fault Refusal :=
  let s := s0.elapse dt
  match (s.dsp x).units.find? (fun v => v.number = unit && !v.decided) with
  | some v => .next (decideIfDue x v s)
  | none => .next s

/-! ### The tile link (R183, R190, R191) -/

/-- Whether a side gives up the words of a tile that reach it now: in RESYNC, before the tick from which it keeps the
tile, or inside a unit begun before (R395, R398). -/
def givesUp (s : State) (x : Side) (t : Nat) : Bool :=
  s.arb.svc.get x = .resync || tooEarly s x t s.now || (s.dsp x).inside.contains t

/-- One word received by a side; within: whether the link then stands inside a unit. -/
def receiveWord (x : Side) (t : Nat) (w : Word72) (within : Bool) (s : State) : State :=
  let s1 := s.tally x .linkWords 1
  if givesUp s x t then
    s1.modDsp x (fun d => { d with
      inside := if !within then d.inside.filter (· ≠ t)
        else if s.arb.svc.get x = .resync || tooEarly s x t s.now then insertNat t d.inside else d.inside })
  else
    let s2 := if bits w.toNat 71 70 = 0 then s1.tally x .hits 1
      else if bits w.toNat 71 64 = 0xC5 then s1.tally x .outFrames 1 else s1
    s2.modIntake x t (fun l => l ++ [w])

/-- A word sent to a side, and what the link does to it (R191). -/
def linkWord (x : Side) (t : Nat) (w : Word72) (within : Bool) (found : Upset) (s : State) : State :=
  if found = .uncorrectable then
    tileFault t (receiveWord x t (lossWord t 0x05 1) within
      ((s.bump (Reg.TIL_ECC t) 31 24 1).tally x .linkSubst 1))
  else receiveWord x t w within s

/-- Whether a word counts in the WORDS of the closing word: any word of an EVENT unit, a pair word of a frame unit
(R180, R190). -/
def travels (frame : Bool) (w : Word72) : Bool := !frame || bits w.toNat 71 70 = 2

/-- The tile's account of a word that travels (R190). -/
def Tile.sent (k : Tile) (frame : Bool) (w : Word72) : Tile :=
  if opens w then { k with
    sending := true
    travelled := 0
    travelLoss := false }
  else if closes w then { k with sending := false }
  else if k.sending && travels frame w then { k with travelled := k.travelled + 1 } else k

/-- A closing word corrected when a FIFO_ERROR word stands in its unit (R190). -/
def fixClose (k : Tile) (w : Word72) : Word72 :=
  if !closes w || !k.travelLoss then w
  else if bits w.toNat 71 64 = 0xC5 then endWord w k.travelled
  else BitVec.ofNat 72 (setBits (setBits w.toNat 57 40 k.travelled) 38 38 1)

/-- One word from a tile to every side that receives it: those that take it, and one in RESYNC, in TWIN of the tiles it takes back (R398). -/
def sendWord (t : Nat) (w : Word72) (linkA linkB : Upset) (s : State) : State :=
  let s1 := (s.modTile t (fun k => k.sent (s.frameTile t) w)).count (Reg.TIL_WORDS t) 31 0 1
  let within := (s1.tile t).sending
  let back (x : Side) : Bool := s.arb.svc.get x = .resync && (!s.arb.twin || x = (if t < 32 then .a else .b))
  let gets (x : Side) : Bool := (takers s t).contains x || back x
  let s2 := if gets .a then linkWord .a t w within linkA s1 else s1
  if gets .b then linkWord .b t w within linkB s2 else s2

/-- The words of a group that have already crossed taken back, and counted no more, when the whole group is replaced (R190). -/
def retract (t n : Nat) (s : State) : State :=
  let gone (x : Side) (k : State) : State := k.modSide x (fun d => { d with
    tally := Sparse.upd (Sparse.upd d.tally Tally.linkWords.ctorIdx 0 (· - n)) Tally.hits.ctorIdx 0 (· - min n 1) })
  (s.both (fun x k =>
    if (takers s t).contains x && !givesUp s x t then gone x (k.modIntake x t (fun l => l.take (l.length - n)))
    else k)).wr (Reg.TIL_WORDS t) (s.rd (Reg.TIL_WORDS t) - BitVec.ofNat 32 n)

/-- What an uncorrectable FIFO word sends in its place (R190): one LOSS word for a word or its whole group, or the
rebuilt boundary word and the LOSS word. -/
def badSlot (t : Nat) (q : Slot) (linkA linkB : Upset) (s : State) : State :=
  let loss := lossWord t 0x06 1
  let s1 := tileFault t ((s.bump (Reg.TIL_ECC t) 23 16 1).tallyAll .fifoUncorr 1)
  let mark (k : State) : State := k.modTile t (fun k => { k with travelLoss := k.sending })
  if opens q.word || closes q.word then
    let s2 := sendWord t (fixClose (s1.tile t) q.word) linkA linkB s1
    mark (sendWord t loss .sound .sound s2)
  else
    let s2 := (retract t q.place s1).modTile t (fun k => { k with
      fifo := k.fifo.drop (q.size - 1 - q.place)
      travelled := k.travelled - q.place })
    mark (sendWord t loss linkA linkB s2)

/-- What follows the release of a word: BUSY, waiting groups, and the end of the tile's run. -/
def afterWord (t : Nat) (moved : List Upset) (s : State) : State :=
  let s1 := idleCheck t (moveGroups t moved (levelCheck t s))
  s1.both (fun x k => if k.serving x then trailing x t k else k)

/-- Whether a tile sends no words: a threshold scan, an initial time-calibration pass or an FA_CAL has it (R76, R117, R149), or it waits
for its PLL (R192). Its words wait in its FIFO, which is the model's choice (log entry 112). -/
def tileSilent (s : State) (t : Nat) : Bool :=
  (s.tile t).waitPll.isSome || (match s.pix.scan with | some c => c.tiles.contains t | none => false)
    || (match s.tdc.pass with | some c => c.tiles.contains t | none => false)
    || (match s.frames.cal with | some c => c.tiles.contains t | none => false)

/-- TILE_LINK_WORD (R183, R184, R190–R192): fifo says what the read of the FIFO finds, linkA and linkB what each side's
end of the link finds, and moved how the words read that leave the next-slice buffer for the room. -/
def execTileLinkWord (dt : Nat) (t : Fin 64) (fifo linkA linkB : Upset) (moved : List Upset) (s0 : State) :
    Host.Outcome State Fault Refusal :=
  let s := settleTile t (s0.elapse dt)
  match (s.tile t).fifo with
  | [] => .next (afterWord t moved s)
  | q :: rest =>
    if tileSilent s t || takers s t = [] || !(takers s t).all (fun x => intakeOpen s x t) then .next s
    else
      let s1 := s.modTile t (fun k => { k with fifo := rest, lastAct := s.clock.ticks })
      let s2 := match fifo with
        | .sound => sendWord t (fixClose (s1.tile t) q.word) linkA linkB s1
        | .corrected => sendWord t (fixClose (s1.tile t) q.word) linkA linkB
            ((s1.bump (Reg.TIL_ECC t) 15 0 1).tallyAll .fifoCorr 1)
        | .uncorrectable => badSlot t q linkA linkB s1
      .next (afterWord t moved s2)

/-! ### A retired tile whose PLL does not relock (R192) -/

/-- A run of words cut at its units: the words before each, and its own, the last perhaps unfinished. -/
def unitRuns (pre : List Word72) (own : Option (List Word72)) : List Word72 → List (List Word72 × List Word72)
  | [] => match own with
    | some l => [(pre, l)]
    | none => []
  | w :: r =>
    match own with
    | none => if opens w then unitRuns pre (some [w]) r else unitRuns (pre ++ [w]) none r
    | some l => if closes w then (pre, l ++ [w]) :: unitRuns [] none r else unitRuns pre (some (l ++ [w])) r

/-- The substitutes of the EVENT units that a side has not received complete (R192). -/
def lostEvents (s : State) (x : Side) (t : Nat) (l : List Word72) : List UnitIn :=
  let k := s.tile t
  let first := match topUnit s x t with
    | some u => unitIndex u + 1
    | none => 0
  let last := match k.stopAt with
    | some p => unitIndex (eventUnit s (sliceOf s p) t) + 1
    | none => 0
  (List.range (last - first)).map (fun i =>
    let u := (first + i) * 64 + t
    let n := unitSlice s u
    let own := (unitRuns [] none l).find? (fun r => bits (r.2.headD 0).toNat 52 0 = n % 2 ^ 53)
    let body := match own with
      | some r => r.2
      | none => []
    let sp := unitSpan s u
    let tail := unitTail t n 1 (squallIn s sp.1 sp.2) true (busyIn k sp.1 sp.2 s.now)
    ⟨BitVec.ofNat 48 u, sp.1, sp.2, (own.map (·.1)).getD [], [body.headD (unitHead s t n), lossWord t 0x10 body.length, tail],
      [], none, false, false, [], s.acq, s.rf (Reg.SE_CTRL x) 15 8⟩)

/-- The substitutes of the frame units that a side has not received complete (R192). -/
def lostFrames (s : State) (x : Side) (t : Nat) (l : List Word72) : List UnitIn :=
  let k := s.tile t
  let runs := unitRuns [] none l
  let make (pre : List Word72) (head tail : Word72) (n : Nat) : UnitIn :=
    let u := 2 ^ 46 + bits tail.toNat 63 32 * 64 + t
    let sp := unitSpan s u
    ⟨BitVec.ofNat 48 u, sp.1, sp.2, pre, [head, endWord tail 0, lossWord t 0x10 n], [], none, false, false, [],
      s.acq, s.rf (Reg.SE_CTRL x) 15 8⟩
  runs.map (fun r =>
    let tail := if closes (r.2.getLastD 0) then r.2.getLastD 0 else (k.frames.head?.map (·.tail)).getD 0
    make r.1 (r.2.headD 0) tail r.2.length) ++
  (k.frames.filter (fun f => !f.begun)).map (fun f => make [] f.head f.tail 0)

/-- One side puts out substitutes for what it has not received of a tile, but for units that it discards (R192, R214); they are held and
decided as units are (R213). -/
def substituteRest (t : Nat) (x : Side) (s : State) : State :=
  if !(takers s t).contains x then s
  else
    let l := s.intake x t ++ (s.tile t).fifo.map (·.word)
    let lost := if s.frameTile t then lostFrames s x t l else lostEvents s x t l
    let s1 := s.modIntake x t (fun _ => [])
    let s2 := lost.foldl (fun k v =>
      let k1 := noteTop x v.number.toNat k
      if tooEarly k1 x t v.u0 then noteLost x v.number.toNat k1
      else if prescaled k1 v.number.toNat then noteLost x v.number.toNat (k1.bump (Reg.TRG_FRAMES_PRESCALED x) 31 0 1)
      else (k1.modDsp x (fun d => { d with units := d.units ++ [v] })).tally x .substitutes 1) s1
    lost.foldl (fun k v => match (k.dsp x).units.find? (fun w => w.number = v.number) with
      | some w => decideIfDue x w k
      | none => k) (holdUnits x (unheld s2 x t) s2)

/-- TILE_PLL_RELOCK_TIMEOUT (R192): 10 ms after the retirement of a tile whose PLL has not relocked. -/
def execTilePllRelockTimeout (dt : Nat) (t : Fin 64) (s0 : State) : Host.Outcome State Fault Refusal :=
  let s := s0.elapse dt
  match (s.tile t).waitPll with
  | none => .next s
  | some r =>
    if s.clock.ticks < r + 30000000 || !(s.tile t).unlocked then .next s
    else
      let s1 := s.both (substituteRest t)
      let s2 := s1.modTile t (fun k => { k with
        state := .idle
        fifo := []
        next := []
        slice := none
        frames := []
        after := []
        sending := false
        waitPll := none
        lastAct := if k.fifo = [] && k.next = [] then k.lastAct else s.clock.ticks })
      let s3 := s2.modFrames (fun f => { f with
        hold := ⟨f.hold.a.bind (Sampled.without t.val), f.hold.b.bind (Sampled.without t.val)⟩ })
      .next ((levelCheck t s3).both (fun x k => if k.serving x then scanReady x k else k))

end Sys2Proof.Machine
end

