-- ==== Sys2Proof/Machine/Engines.lean ====
section
/-!
DEFINITION. The dispatcher and the engines (chapter "Stream engines and the work dispatcher"): SLICE_SORT, CLUSTER,
record contributions and RECORD_BUILD, VERIFY, CAL_REDUCE, dispatch, pre-emption, flushes, traps and retirement.
-/

namespace Sys2Proof.Machine

/-! ### Words of a unit -/

/-- A hit word (R105). -/
def isHit (w : Word72) : Bool := bits w.toNat 71 70 = 0
/-- A continuation word (R106). -/
def isCont (w : Word72) : Bool := bits w.toNat 71 70 = 1
/-- The control subtype byte of a word. -/
def topByte (w : Word72) : Nat := bits w.toNat 71 64
/-- A LOSS word of a source (R187). -/
def isLossOf (source : Nat) (w : Word72) : Bool := topByte w = 0xC8 && bits w.toNat 57 52 = source

/-- Whether a group has all its words: no continuation, or one whose stop is marked LAST (R107, R108). -/
def groupWhole (g : List Word72) : Bool :=
  !bit (g.headD 0).toNat 0 || g.tail.any (fun w => isCont w && (bit w.toNat 35 || bit w.toNat 0))

/-- Whether a word stays behind the chunk before it (R245): a continuation behind its hit, or behind the LINK_ERROR word
in its hit's place; a LINK_ERROR word in a continuation's place. -/
def staysWith (g : List Word72) (w : Word72) : Bool :=
  let h := g.headD 0
  (isCont w && (isHit h || isLossOf 0x05 h)) || (isLossOf 0x05 w && isHit h && !groupWhole g && g.length < 3)

/-- Words gathered into chunks: cluster groups with what stays with them, and single words; last chunk first. -/
def chunkStep (acc : List (List Word72)) (w : Word72) : List (List Word72) :=
  match acc with
  | g :: r => if staysWith g w then (g ++ [w]) :: r else [w] :: g :: r
  | [] => [[w]]

/-- The chunks of a unit's words between its head and its tail, in order. -/
def chunks (l : List Word72) : List (List Word72) := (l.foldl chunkStep []).reverse

/-- An element put into a sorted list, before the first that it does not follow. -/
def insertBy {α : Type} (le : α → α → Bool) (a : α) : List α → List α
  | [] => [a]
  | b :: r => if le a b then a :: b :: r else b :: insertBy le a r

/-- A list sorted; elements that compare equal keep their order. -/
def sortBy {α : Type} (le : α → α → Bool) (l : List α) : List α := l.foldr (insertBy le) []

/-- The full start tick of a hit word in a unit that begins at u0 (R7, R247). -/
def hitTime (u0 : Time) (w : Word72) : Time :=
  u0 + BitVec.ofNat 64 ((bits w.toNat 49 24 + 2 ^ 26 - u0.toNat % 2 ^ 26) % 2 ^ 26)

/-- The start of a hit word in FU from the unit's beginning. -/
def hitFu (u0 : Time) (w : Word72) : Nat := since (hitTime u0 w) u0 * 1024 + bits w.toNat 23 14

/-- The order of cluster groups (R245): start in FU, then LP. -/
def groupLe (u0 : Time) (a b : List Word72) : Bool :=
  let x := a.headD 0
  let y := b.headD 0
  decide (hitFu u0 x < hitFu u0 y) || (hitFu u0 x = hitFu u0 y && decide (bits x.toNat 63 50 ≤ bits y.toNat 63 50))

/-- An EVENT unit's chunks by the items of R245: squall words, groups in order, LOSS words in order, EPOCH words, others. -/
structure Sorted where
  squalls : List Word72
  groups : List (List Word72)
  losses : List Word72
  epochs : List Word72
  others : List Word72

/-- The words between an EVENT unit's head and tail, sorted (R245). -/
def sortUnit (u0 : Time) (l : List Word72) : Sorted :=
  let c := chunks l
  let top (n : Nat) (g : List Word72) : Bool := topByte (g.headD 0) = n
  let squall (g : List Word72) : Bool := top 0xC6 g || top 0xC7 g
  let hit (g : List Word72) : Bool := isHit (g.headD 0)
  let src (g : List Word72) : Nat := bits (g.headD 0).toNat 57 52
  ⟨(c.filter squall).flatten, sortBy (groupLe u0) (c.filter hit),
    (sortBy (fun a b => decide (src a ≤ src b)) (c.filter (top 0xC8))).flatten, (c.filter (top 0xC1)).flatten,
    (c.filter (fun g => !squall g && !hit g && !top 0xC8 g && !top 0xC1 g)).flatten⟩

/-! ### Clusters (R248–R251) -/

/-- The local pixel at place q of the super-pixel of lp (R106). -/
def pixelAt (lp q : Nat) : Nat := (lp / 128 / 4 * 4 + q / 4) * 128 + lp % 128 / 4 * 4 + q % 4

/-- The stops of a continuation word: place in the super-pixel and ToT (R107). -/
def stopsOf (w : Word72) : List (Nat × Nat) :=
  let n := w.toNat
  (bits n 69 66, bits n 47 38) :: (if bit n 35 then [] else [(bits n 34 31, bits n 12 3)])

/-- A group's pixels with their ToT: start, then stops (R106). -/
def groupPixels (g : List Word72) : List (Nat × Nat) :=
  let h := (g.headD 0).toNat
  let lp := bits h 63 50
  (lp, bits h 13 4) :: ((g.tail.filter isCont).flatMap stopsOf).map (fun q => (pixelAt lp q.1, q.2))

/-- Whether two numbers differ by at most n. -/
def near (n a b : Nat) : Bool := decide (a ≤ b + n) && decide (b ≤ a + n)

/-- Whether two groups are linked (R248). -/
def linked (dt : Nat) (u0 : Time) (a b : List Word72) : Bool :=
  near (dt * 1024) (hitFu u0 (a.headD 0)) (hitFu u0 (b.headD 0)) &&
  (groupPixels a).any (fun p => (groupPixels b).any (fun q =>
    near 1 (p.1 % 128) (q.1 % 128) && near 1 (p.1 / 128) (q.1 / 128)))

/-- One more group joined to the clusters it is linked with (R248). -/
def joinGroup (dt : Nat) (u0 : Time) (cs : List (List (Nat × List Word72))) (g : Nat × List Word72) :
    List (List (Nat × List Word72)) :=
  let hit (c : List (Nat × List Word72)) : Bool := c.any (fun h => linked dt u0 h.2 g.2)
  ((cs.filter hit).flatten ++ [g]) :: cs.filter (fun c => !hit c)

/-- The clusters of sorted groups, in order (R248, R249). -/
def clustersOf (dt : Nat) (u0 : Time) (gs : List (List Word72)) : List (List (List Word72)) :=
  let le (a b : Nat × List Word72) : Bool := decide (a.1 ≤ b.1)
  let cs := (gs.zipIdx.foldl (fun a q => joinGroup dt u0 a (q.2, q.1)) []).map (sortBy le)
  (sortBy (fun a b => decide ((a.head?.map (·.1)).getD 0 ≤ (b.head?.map (·.1)).getD 0)) cs).map (·.map (·.2))

/-- CLUSTER_HEAD of a cluster of tile t in a unit [u0, u1) (R250). -/
def clusterHead (dt t : Nat) (u0 u1 : Time) (c : List (List Word72)) : Word72 :=
  let ps := c.flatMap groupPixels
  let xs := ps.map (·.1 % 128)
  let ys := ps.map (·.1 / 128)
  let len := since u1 u0 * 1024
  let split := c.any (fun g =>
    let f := hitFu u0 (g.headD 0)
    decide (f ≤ dt * 1024) || decide (len ≤ f + dt * 1024))
  let least (l : List Nat) : Nat := l.foldl min 127
  let most (l : List Nat) : Nat := l.foldl max 0
  controlWord 0x0A (min ps.length 2047 * 2 ^ 53 + b2n split * 2 ^ 52
    + b2n (ys.contains 127 && decide (t + 8 < 64)) * 2 ^ 51 + b2n (ys.contains 0 && decide (8 ≤ t)) * 2 ^ 50
    + b2n (xs.contains 127 && decide (t % 8 < 7)) * 2 ^ 49 + b2n (xs.contains 0 && decide (0 < t % 8)) * 2 ^ 48
    + least xs * 2 ^ 41 + most xs * 2 ^ 34 + least ys * 2 ^ 27 + most ys * 2 ^ 20
    + min (ps.foldl (fun a p => a + p.2) 0) 1048575)

/-- The words that a unit's item puts out, from its own words and the configuration of its run alone (R238, R245, R246, R249, R251). -/
def unitOut (cluster : Bool) (v : UnitIn) (pre own : List Word72) : List Word72 :=
  if unitKind v.number.toNat ≠ 0 then pre ++ own ++ v.post
  else
    let q := sortUnit v.u0 own.tail.dropLast
    let dt := v.dt
    let hits := if cluster then
        (clustersOf dt v.u0 q.groups).flatMap (fun c =>
          if c.length < 2 then c.flatten
          else clusterHead dt (unitTile v.number.toNat) v.u0 v.u1 c :: c.flatten)
      else q.groups.flatten
    let body := q.squalls ++ hits ++ q.losses ++ q.epochs ++ q.others
    let tail := own.getLastD 0
    let tail1 := if cluster then BitVec.ofNat 72 (setBits tail.toNat 57 40 body.length) else tail
    pre ++ [own.headD 0] ++ body ++ [tail1] ++ v.post

/-! ### Record contributions (R247) -/

/-- The earlier of two times, or the later. -/
def pickTime (later : Bool) (o : Option Time) (t : Time) : Option Time :=
  match o with
  | none => some t
  | some u => if reached t u = later then some t else some u

/-- A group's contribution to an accumulator (R228, R247). -/
def Acc.add (a : Acc) (t : Time) (tots : List Nat) : Acc :=
  ⟨a.hits + tots.length, a.totSum + tots.foldl (· + ·) 0, tots.foldl max a.totMax, pickTime false a.first t,
    pickTime true a.last t⟩

/-- Whether a tick lies in a record's window. -/
def Rec.holds (r : Rec) (t : Time) : Bool :=
  reached t r.start && (match r.stop with
    | some e => !reached t e
    | none => true)

/-- A unit's contribution to every record that it overlaps (R247). -/
def contribute (x : Side) (v : UnitIn) (own : List Word72) (s : State) : State :=
  if unitKind v.number.toNat ≠ 0 then s
  else
    let gs := (chunks own.tail.dropLast).filter (fun g => isHit (g.headD 0))
    (liveRecs s).foldl (fun k r =>
      if r.alloc.get x && r.meets v.u0 v.u1 then
        k.modDsp x (fun d => { d with accs := Sparse.upd d.accs r.id Acc.zero (fun a =>
          gs.foldl (fun a g =>
            let t := hitTime v.u0 (g.headD 0)
            if r.holds t then a.add t ((groupPixels g).map (·.2)) else a) a) })
      else k) s

/-! ### Completed units -/

/-- What comes of an item's work: it is done, or the item waits and completes later. -/
inductive Passed
  | done (s : State)
  | waits (s : State)

/-- Whether an item's work is done. -/
def Passed.isDone : Passed → Bool
  | .done _ => true
  | .waits _ => false

/-- Where the output of a unit goes: whether into the store, as a member's (R253), and the output. -/
def outputOf (v : UnitIn) (out : List Word72) : Bool × Output :=
  if v.acq = 2 then (true, ⟨2, 0, v.number, out, none, false⟩)
  else (false, ⟨unitKind v.number.toNat, 0xFFFFFFFF, v.number, out, none, false⟩)

/-- A completed unit's output passed on: into assembly, or, in TRIGGERED, into the store until its records are built
(R239, R253, R284); f is done with it. While it finds no room, the item waits in state s0 (R323). -/
def passUnit (x : Side) (v : UnitIn) (out : List Word72) (f : State → State) (s0 s : State) : Passed :=
  let o := outputOf v out
  match enterAs x o.1 o.2 s with
  | some t => .done (f t)
  | none => .waits (outputWaits x o.1 o.2 s0)

/-- A unit as its item has read it: the words before and its own, the source of a substitute if it must be given
up, and the places of unreadable words. -/
structure UnitRead where
  pre : List Word72
  own : List Word72
  source : Option Nat
  bad : List Nat

/-- A unit's words read by its item (R242, R266, R344), from staging memory, or from the store as far as its channels allow (R310): none while
a refresh keeps words back. A hold word that this read finds uncorrectable gives SOURCE 0x11 like a word of staging memory (R266); one
poisoned before, or in a retired channel, gives 0x15 (R339, R344). DEDUCED, log entry 154. -/
def readUnit (x : Side) (v : UnitIn) (bad : InputFault) (s : State) : State × Option UnitRead :=
  let marks := match bad with
    | .sram i => insertNat i v.bad
    | _ => v.bad
  match v.held.bind (findItem s x) with
  | none =>
    let l := marks.filter (fun i => decide (i < v.pre.length + v.words.length + v.post.length))
    (s, some ⟨v.pre, v.words, if l = [] then none else some 0x11, l⟩)
  | some (_, i) =>
    let s1 := match bad with
      | .store n m => upsetItem x i n m s
      | _ => s
    let d := fetchItem x 1 i s1
    let l := marks.filter (fun i => decide (v.pre.length + v.words.length ≤ i && i < v.pre.length + v.words.length + v.post.length))
    (d.1, d.2.map (fun g => ⟨g.words.take v.pre.length, g.words.drop v.pre.length,
      if g.newBad || l ≠ [] then some 0x11 else if g.bad ≠ [] then some 0x15 else none, g.bad ++ l⟩))

/-- The beginning of the earliest frame unit of a tile that a side has not received (R252). -/
def nextFrameStart (s : State) (x : Side) (t : Nat) : Time :=
  let k := s.tile t
  let top := Sparse.get (s.dsp x).top (64 + t) none
  let sent := s.frames.spans.find? (fun q => unitTile q.1.toNat = t && (match top with
    | some u => decide (u < q.1.toNat)
    | none => true))
  match sent with
  | some q => q.2.1
  | none =>
    if k.phase ≠ 0 then k.windowStart
    else
      match s.frames.sampled.find? (fun f => f.left.contains t) with
      | some f => f.t0
      | none => s.frames.lastTrig.getD s.now

/-- The least distance of the starts of two units of a stream that bounds their displacement (R262). -/
def orderBound (s : State) : Nat := min (256 * s.sliceTicks) 3000000

/-- The start of the earliest unit of a tile, of a frame tile's kind or not, that a side has still to take in (R252, R262): none once the
tile has sent its last. -/
def nextUnitStart (s : State) (x : Side) (t : Nat) : Option Time :=
  if tileDone s x t || !(takers s t).contains x then none
  else if s.frameTile t then some (nextFrameStart s x t)
  else
    let n := match Sparse.get (s.dsp x).top t none with
      | some u => unitSlice s u + 1
      | none => sliceOf s s.runStart
    match (s.tile t).stopAt with
    | some p => if sliceOf s p < n then none else some (sliceStart s n)
    | none => some (sliceStart s n)

/-- Whether a unit must wait for an older one of its stream: no unit is handed on before one whose span starts B or more ticks earlier, be
that at the side, at its intake or still to come from its tile (R262). In TRIGGERED all units are of stream 2. -/
def unitBehind (s : State) (x : Side) (v : UnitIn) : Bool :=
  let late (a : Time) : Bool := reached v.u0 (a + BitVec.ofNat 64 (orderBound s))
  let same (frame : Bool) : Bool := v.acq = 2 || frame = decide (unitKind v.number.toNat = 1)
  (s.dsp x).units.any (fun w => same (decide (unitKind w.number.toNat = 1)) && late w.u0)
    || (List.range 64).any (fun t => same (s.frameTile t) && (nextUnitStart s x t).any late)

/-- A unit's item at its completion (R245–R251, R262, R266, R344). -/
def sortItem (x : Side) (cluster : Bool) (n : BitVec 48) (bad : InputFault) (s : State) : Passed :=
  match (s.dsp x).units.find? (fun v => v.number = n) with
  | none => .done s
  | some v =>
    if unitBehind s x v then .waits s
    else
      let r := readUnit x v bad s
      match r.2 with
      | none => .waits r.1
      | some q =>
        match q.source with
        | some source =>
          let s2 := if source = 0x11 then raiseSide x 575 sevFault noInst (r.1.bump (Reg.SE_TRAPS x) 31 16 1) else r.1
          let own := (q.own.set 0 (v.words.headD 0)).set (q.own.length - 1) (v.words.getLastD 0)
          let out := substitute (unitTile n.toNat) source q.bad q.pre own v.post
          passUnit x v out (removeUnit x v) r.1 (s2.tally x .substitutes 1)
        | none =>
          passUnit x v (unitOut cluster v q.pre q.own) (fun k => removeUnit x v (contribute x v q.own k)) r.1 r.1

/-! ### RECORD_BUILD (R228, R252, R253) -/

/-- A TRIGGER_MARK group (R228). -/
def markWords (record : Nat) (m : Trigger) : List Word72 :=
  [controlWord 0x13 (record * 2 ^ 32 + m.state * 2 ^ 28 + b2n m.skipped * 2 ^ 27 + b2n m.merged * 2 ^ 26
    + b2n m.forced * 2 ^ 25 + m.fine % 1024), controlWord 0x13 m.time.toNat]

/-- The head piece of a record: RECORD_OPEN and its TRIGGER_MARK groups in order of trigger time (R228, R270). -/
def headPiece (s : State) (r : Rec) (n : Nat) : List Word72 :=
  [controlWord 0x10 (n * 2 ^ 32 + r.source * 2 ^ 28 + s.acq * 2 ^ 26 + r.fine % 1024 * 2 ^ 16 + min r.skipped 65535),
    controlWord 0x10 r.start.toNat, controlWord 0x10 r.trigger.toNat] ++
  (sortBy (fun a b : Trigger => reached b.time a.time) r.marks).flatMap (markWords n)

/-- An interval in ticks, saturating (R228). -/
def interval (a b : Time) : Nat := min (since b a) 0xFFFFFFFF

/-- The intervals from each trigger of a list to the next. -/
def intervals : List Trigger → List (Nat × Nat)
  | a :: b :: r => (b.ord, interval a.time b.time) :: intervals (b :: r)
  | _ => []

/-- PERIOD_LAST, PERIOD_MIN and PERIOD_MAX of a record (R228). -/
def periods (s : State) (r : Rec) : Nat × Nat × Nat :=
  let l := intervals (s.trg.marks.filter (fun m => m.state = r.source))
  let top : Nat := r.marks.foldl (fun a m => if m.state = r.source then max a m.ord else a) 0
  let last := ((l.find? (fun q => q.1 = r.ord)).map (·.2)).getD 0xFFFFFFFF
  let list := (l.filter (fun q => decide (r.ord < q.1) && decide (q.1 ≤ top))).map (·.2)
  (last, if list = [] then last else list.foldl min 0xFFFFFFFF, if list = [] then last else list.foldl max 0)

/-- The tail piece of a record: RECORD_CLOSE and RECORD_SUMMARY (R228, R270). -/
def tailPiece (s : State) (r : Rec) (n : Nat) (a : Acc) : List Word72 :=
  let p := periods s r
  let ones := 2 ^ 64 - 1
  [controlWord 0x11 (n * 2 ^ 32 + r.reason * 2 ^ 30 + b2n r.forced * 2 ^ 29 + min r.merges 65535),
    controlWord 0x11 (r.stop.getD 0).toNat,
    controlWord 0x12 (n * 2 ^ 32 + min a.totMax 1023 * 2 ^ 22), controlWord 0x12 a.hits, controlWord 0x12 a.totSum,
    controlWord 0x12 ((a.first.map (·.toNat)).getD ones), controlWord 0x12 ((a.last.map (·.toNat)).getD ones),
    controlWord 0x12 (p.1 * 2 ^ 32 + p.2.1), controlWord 0x12 (p.2.2 * 2 ^ 32 + min r.marks.length 0xFFFFFFFF)]

/-- The completed member units that overlap a record. -/
def membersOf (s : State) (x : Side) (r : Rec) : List Output :=
  (s.side x).cmp.members.filter (fun o =>
    let sp := unitSpan s o.unit.toNat
    r.meets sp.1 sp.2)

/-- A record's accumulator given back on a side (R252); a record that no side has still to build leaves. -/
def freeAcc (x : Side) (id : Nat) (s : State) : State :=
  let s1 := (s.modDsp x (fun d => { d with accs := Sparse.del d.accs id })).modTrg (fun g => { g with
    closed := (g.closed.map (fun r => if r.id = id then { r with alloc := r.alloc.set x false } else r)).filter (fun r =>
      r.alloc.a || r.alloc.b) })
  let keep := (s1.side x).cmp.members.filter (fun o =>
    let sp := unitSpan s1 o.unit.toNat
    (liveRecs s1).any (fun r => r.alloc.get x && r.meets sp.1 sp.2))
  let gone := (s1.side x).cmp.members.filter (fun o => !keep.contains o)
  gone.foldl (fun k o => freeSpill x o.spill k) (s1.modCmp x (fun c => { c with members := keep }))

/-- The last units of tiles that a record takes up, in no block yet: late words of them follow to it (R241). -/
def noteTaken (x : Side) (record : Word) (l : List Output) (s : State) : State :=
  let new := (l.filter (fun o => !o.late && isLastUnit s x o.unit)).map (fun o => (⟨2, record, o.unit, 0⟩ : Parted))
  s.modCmp x (fun c => { c with parts := c.parts ++ new })

/-- A RECORD_BUILD item at its completion, which waits while its output finds no room. -/
def buildRecord (x : Side) (id : Nat) (s : State) : Passed :=
  match s.trg.closed.find? (fun r => r.id = id) with
  | none => .done s
  | some r =>
    let n := r.number.getD 0
    let num : Word := BitVec.ofNat 32 n
    let a := Sparse.get (s.dsp x).accs id Acc.zero
    let piece (k : Nat) (ws : List Word72) : Output := ⟨2, num, BitVec.ofNat 48 (2 ^ 47 + k), ws, none, false⟩
    let head := piece 0 (headPiece s r n)
    let tail := piece 1 (tailPiece s r n a)
    let members := (membersOf s x r).map (fun o => { o with record := num })
    match enterOutput x head s with
    | none => .waits (outputWaits x false head s)
    | some s1 =>
      match enterOutput x tail (noteTaken x num members (s1.modCmp x (fun c => { c with outputs := c.outputs ++ members }))) with
      | none => .waits (outputWaits x false tail s)
      | some s2 => .done (freeAcc x id s2)

/-- Whether a unit that overlaps a record has not reached a side yet (R252, R273). -/
def unitsToCome (s : State) (x : Side) (r : Rec) : Bool :=
  match r.stop with
  | none => true
  | some e =>
    (List.range 64).any (fun t =>
      (takers s t).contains x && (
      (findUnit (s.intake x t)).isSome ||
      ((s.tile t).state ≠ .idle &&
        if s.frameTile t then !reached (nextFrameStart s x t) e
        else
          let last := match (s.tile t).stopAt with
            | some p => min (sliceOf s p) (sliceOf s (e - 1))
            | none => sliceOf s (e - 1)
          reached (e - 1) s.runStart && (match Sparse.get (s.dsp x).top t none with
            | some u => decide (u < eventUnit s last t)
            | none => true))))

/-- Whether a side delivers a record (R397). -/
def delivers (s : State) (x : Side) (r : Rec) : Bool :=
  match (s.side x).wlt.rs with
  | some b => reached r.start b
  | none => true

/-- A closed record whose units have all been decided and have completed: its RECORD_BUILD item is created, or its
accumulator is freed where the side does not deliver it (R252, R397). -/
def makeBuilds (x : Side) (s : State) : State :=
  s.trg.closed.foldl (fun k r =>
    let waits (q : Bool × Output) : Bool :=
      let sp := unitSpan k q.2.unit.toNat
      q.1 && r.meets sp.1 sp.2
    if !r.alloc.get x || r.asked.get x || (k.dsp x).units.any (fun v => r.meets v.u0 v.u1) || unitsToCome k x r
        || (k.side x).cmp.entering.any waits then k
    else if !delivers k x r then freeAcc x r.id k
    else enqueueItem x (.record r.id) (k.modTrg (fun g => { g with
      closed := g.closed.map (fun q => if q.id = r.id then { q with asked := q.asked.set x true } else q) }))) s

/-! ### CAL_REDUCE (R114, R150) -/

/-- A tile's completed fills reduced into tables, and its ended FA_CAL attempts evaluated (R114, R150, R237). -/
def reduceTile (t : Nat) (s : State) : State :=
  let s1 := (Sparse.get s.tdc.fills t []).foldl (fun k f => newTable f.1 (reduceFrom 0 f.2) k) s
  let s2 := s1.modTdc (fun k => { k with fills := Sparse.del k.fills t })
  (Sparse.get s2.frames.measured t []).foldl faEvaluate (s2.modFrames (fun f => { f with measured := Sparse.del f.measured t }))

/-- A tile's completed fills and ended FA_CAL attempts discarded: neither passed nor failed (R261). -/
def dropReduce (t : Nat) (s : State) : State :=
  (s.modTdc (fun k => { k with fills := Sparse.del k.fills t })).modFrames (fun f =>
    { f with measured := Sparse.del f.measured t })

/-! ### Engines -/

/-- Engine e of side x. -/
def State.eng (s : State) (x : Side) (e : Nat) : Engine := Sparse.get (s.dsp x).engines e Engine.idle

/-- Engine e of side x changed by f. -/
def State.modEng (s : State) (x : Side) (e : Nat) (f : Engine → Engine) : State :=
  s.modDsp x (fun d => { d with engines := Sparse.upd d.engines e Engine.idle f })

/-- Whether an engine is retired (R265). -/
def engRetired (s : State) (x : Side) (e : Nat) : Bool := s.bg.inForce.engines.contains (sideNum x * 48 + e)

/-- Whether an engine is free (R257). -/
def engFree (s : State) (x : Side) (e : Nat) : Bool := (s.eng x e).item.isNone && !engRetired s x e

/-- home[key] (R257). -/
def homeOf (s : State) (x : Side) (key : Nat) : Option Nat :=
  match Sparse.get (s.dsp x).home key none with
  | some e => if engRetired s x e then none else some e
  | none => none

/-- Whether an engine runs or has saved an item of a key. -/
def Engine.has (g : Engine) (key : Nat) : Bool :=
  (match g.item with
    | some i => i.1.work.key = key
    | none => false) ||
  (match g.saved with
    | some i => i.1.work.key = key
    | none => false)

/-- Whether an item waits for another LACE_MERGE of its key (R255). -/
def serialBlock (s : State) (x : Side) (w : Work) : Bool :=
  w.kind = 3 && (s.dsp x).engines.any (fun e => e.2.has w.key)

/-- The engine that pre-emption takes: that whose un-pre-empted priority-3 item started latest (R257, R258). -/
def preemptee (s : State) (x : Side) : Option Nat :=
  ((List.range 48).foldl (fun (a : Option (Nat × Nat)) e =>
    match (s.eng x e).item with
    | some (i, t) =>
      if (s.eng x e).saved.isSome || prioOf s x i.work ≠ 3 then a
      else
        match a with
        | some (_, u) => if u < t then some (e, t) else a
        | none => some (e, t)
    | none => a) none).map (·.1)

/-- What the dispatcher does with a ready item now: the engine it goes to, and whether by pre-emption (R257). -/
def placeItem (s : State) (x : Side) (p : Nat) (i : Item) : Option (Nat × Bool) :=
  if serialBlock s x i.work then none
  else
    let h := homeOf s x i.work.key
    match h with
    | some e =>
      if engFree s x e then some (e, false)
      else
        match (List.range 48).find? (engFree s x) with
        | some f => if s.clock.ticks - i.since < 600 then none else some (f, false)
        | none => if p = 0 && s.rb (Reg.DSP_CTRL x) 0 then (preemptee s x).map (·, true) else none
    | none =>
      match (List.range 48).find? (engFree s x) with
      | some f => some (f, false)
      | none => if p = 0 && s.rb (Reg.DSP_CTRL x) 0 then (preemptee s x).map (·, true) else none

/-- An item taken from the ready list and started on an engine (R257, R258). -/
def startItem (x : Side) (p : Nat) (i : Item) (e : Nat) (preempt : Bool) (s : State) : State :=
  let s1 := s.modDsp x (fun d => { d with ready := d.ready.erase (p, i) })
  let s2 := if homeOf s x i.work.key = some e then s1.bump (Reg.DSP_AFF_HOME x) 31 0 1
    else s1.bump (Reg.DSP_AFF_AWAY x) 31 0 1
  let s3 := if p = 0 then s2.high (Reg.DSP_LAG x) 31 0 (s.clock.ticks - i.since) else s2
  if preempt then
    (s3.bump (Reg.DSP_PREEMPT x) 31 0 1).modEng x e (fun g => { g with
      saved := g.item, item := some (i, s.clock.ticks + 128), busy := s.clock.ticks + 128, key := i.work.key })
  else s3.modEng x e (fun g => { g with item := some (i, s.clock.ticks), key := i.work.key })

/-- The ready items in the order in which the dispatcher looks at them (R256). -/
def inOrder (l : List (Nat × Item)) : List (Nat × Item) := (List.range 4).flatMap (fun p => l.filter (fun q => q.1 = p))

/-- The items that a cycle looks at, each once, with at most n dispatches (R257). -/
def dispatchPass (x : Side) : List (Nat × Item) → Nat → State → State
  | [], _, s => s
  | _ :: _, 0, s => s
  | q :: l, n + 1, s =>
    match placeItem s x q.1 q.2 with
    | some r => dispatchPass x l n (startItem x q.1 q.2 r.1 r.2 s)
    | none => dispatchPass x l (n + 1) s

/-- The attached words of a unit that a flush gives up read (R241, R261): the places of those that cannot be read. Its own words are not. -/
def readAttached (x : Side) (v : UnitIn) (s : State) : State × List Nat :=
  match v.held.bind (findItem s x) with
  | none => (s, v.bad)
  | some (_, i) =>
    let n := v.pre.length
    let r := (i.granules.zipIdx.filter (fun q => decide (8 * q.2 < n))).foldl (fun (a : State × List Nat) q =>
      let m := min 8 (n - 8 * q.2)
      let d := readGranule x 1 (itemLoc (a.1.bst x) i q.1) (List.range m) a.1
      (d.2, a.2 ++ ((d.1.take m).zipIdx.filter (fun w => w.1.state ≠ 0)).map (fun w => 8 * q.2 + w.2))) (s, [])
    (r.1, r.2 ++ v.bad)

/-- Whether a telemetry item is a periodic one, and not a snapshot's (R492–R494). -/
def periodic (ws : List Word72) : Bool := !bit (ws.getD 1 0).toNat 46

/-- An item that a flush has taken from the ready list (R261). -/
def discardItem (x : Side) (s : State) (q : Nat × Item) : State :=
  let unit (n : BitVec 48) : State :=
    match (s.dsp x).units.find? (fun v => v.number = n) with
    | none => s
    | some v =>
      let a := readAttached x v s
      let out := substitute (unitTile n.toNat) 0x10 a.2 v.pre v.words v.post
      let o := outputOf v out
      scanReady x (removeUnit x v (enterLater x o.1 o.2 ((a.1.bump (Reg.DSP_QERR x) 31 16 1).tally x .substitutes 1)))
  let again : State := s.modDsp x (fun d => { d with again := d.again ++ [(q.2.work, s.clock.ticks)] })
  match q.2.work with
  | .sort n => unit n
  | .cluster n => unit n
  | .record _ => again
  | .merge _ _ => again
  | .verify _ => again
  | .telemetry ws => if periodic ws then s else again
  | .reduce t => dropReduce t s

/-- READY_FLUSH, or a pointer mismatch of the ready list (R261). -/
def flushReady (x : Side) (s : State) : State :=
  let l := (s.dsp x).ready
  l.foldl (discardItem x) (s.modDsp x (fun d => { d with ready := [] }))

/-- DELAY_FLUSH, or a pointer mismatch of the delay lists (R261). -/
def flushDelay (x : Side) (s : State) : State :=
  (s.dsp x).delay.foldl (fun t q => discardItem x t (q.1, q.2.1)) (s.modDsp x (fun d => { d with delay := [] }))

/-- An item put into a delay list; a full list refuses it to its producer, which tries again every cycle (R259). -/
def putDelay (x : Side) (i : Item) (due : Time) (s : State) : State :=
  if 1024 ≤ (s.dsp x).delay.length then s.modDsp x (fun d => { d with retry := d.retry ++ [(i, due)] })
  else s.modDsp x (fun d => { d with delay := d.delay ++ [(prioOf s x i.work, i, due)] })

/-- The items that a full delay list has refused offered again (R259). -/
def retryDelay (x : Side) (s : State) : State :=
  (s.dsp x).retry.foldl (fun t q => putDelay x q.1 q.2 t) (s.modDsp x (fun d => { d with retry := [] }))

/-- An item put into a delay list, its due time rounded up to 3 000 ticks (R259). -/
def delayItem (x : Side) (w : Work) (due : Time) (s : State) : State :=
  putDelay x ⟨w, s.clock.ticks⟩ (BitVec.ofNat 64 (alignUp 3000 due.toNat)) s

/-- An item discarded by a flush created again by its producer, a telemetry item by delay list (R237, R261). -/
def produceAgain (x : Side) (s : State) (w : Work) : State := if w.kind = 5 then delayItem x w s.now s else enqueueItem x w s

/-- Items discarded by a flush created again by their producers (R261), ahead of what those hold (R255). -/
def createAgain (x : Side) (s : State) : State :=
  let l := (s.dsp x).again
  let old := (s.dsp x).held
  ((l.map (·.1)).foldl (produceAgain x) (s.modDsp x (fun d => { d with again := [], held := [] }))).modDsp x (fun d =>
    { d with held := d.held ++ old })

/-- Whether a side's engines run (R525). -/
def enginesRun (s : State) (x : Side) : Bool := s.live x && s.power.mode = .active

/-- A pointer mismatch of a ready or delay list reported (R261). -/
def pointerError (x : Side) (s : State) : State := raiseSide x 572 sevFault noInst ((s.bump (Reg.DSP_QERR x) 15 0 1).bump (Reg.EVT_QERR x) 15 0 1)

/-- DISPATCH_CYCLE (R255–R261): mismatch says whether the ready list's pointers disagree. -/
def execDispatchCycle (dt : Nat) (x : Side) (mismatch : Bool) (s0 : State) : Host.Outcome State Fault Refusal :=
  let s := s0.elapse dt
  let c := s.clock.ticks / 8
  if !enginesRun s x || c ≤ (s.dsp x).cycle then .next s
  else
    let entered := retryEntering x (s.modDsp x (fun d => { d with cycle := c }))
    let listed := if (s.side x).cmp.entering = [] then entered else scanReady x entered
    let s1 := retryDelay x (retryHeld x (createAgain x listed))
    let s2 := if mismatch then flushReady x (pointerError x s1) else s1
    .next (settleDecs x (makeBuilds x (dispatchPass x (inOrder (s2.dsp x).ready) 2 s2)))

/-- The earliest due item of the delay lists, first inserted among equals (R259). -/
def firstDue (now : Time) (l : List (Nat × Item × Time)) : Option (Nat × Item × Time) :=
  (l.filter (fun q => reached now q.2.2)).foldl (fun a q =>
    match a with
    | some b => if reached q.2.2 b.2.2 then a else some q
    | none => some q) none

/-- DELAY_ITEM_DUE (R259, R261): mismatch says whether the delay lists' pointers disagree. -/
def execDelayItemDue (dt : Nat) (x : Side) (mismatch : Bool) (s0 : State) : Host.Outcome State Fault Refusal :=
  let s1 := s0.elapse dt
  let s := if mismatch && enginesRun s1 x then flushDelay x (pointerError x s1) else s1
  match firstDue s.now (s.dsp x).delay with
  | none => .next s
  | some q =>
    if 4096 ≤ (s.dsp x).ready.length || !enginesRun s x then .next s
    else .next ((s.modDsp x (fun d => { d with
      delay := d.delay.erase q, ready := d.ready ++ [(q.1, ⟨q.2.1.work, s.clock.ticks⟩)] })).high
        (Reg.DSP_READY_MAX x) 12 0 ((s.dsp x).ready.length + 1))

/-! ### Completion -/

/-- A LACE_MERGE of a key has ended: the waiting items of that key become eligible now (R255, R257). -/
def releaseSerial (x : Side) (w : Work) (s : State) : State :=
  if w.kind ≠ 3 then s
  else s.modDsp x (fun d => { d with ready := d.ready.map (fun q =>
    if q.2.work.key = w.key && q.2.work.kind = 3 then (q.1, { q.2 with since := s.clock.ticks }) else q) })

/-- The item of a kind that an engine runs and may complete now. -/
def runningOf (s : State) (x : Side) (e kind : Nat) : Option Work :=
  match (s.eng x e).item with
  | some (i, t) =>
    if enginesRun s x && i.work.kind = kind && decide (t ≤ s.clock.ticks) && decide ((s.eng x e).busy ≤ s.clock.ticks) then some i.work
    else none
  | none => none

/-- An engine without its item: a pre-empted one is restored in 128 ticks and goes on (R258). -/
def Engine.resumed (g : Engine) (now : Nat) : Engine :=
  { g with
    item := g.saved
    saved := none
    key := (g.saved.map (·.1.work.key)).getD g.key
    busy := if g.saved.isSome then now + 128 else g.busy }

/-- An engine's item over: its home, its count, and the pre-empted item resumed (R257, R258, R267). -/
def itemDone (x : Side) (e : Nat) (w : Work) (s : State) : State :=
  settleDecs x (releaseSerial x w (((s.count (Reg.SE_ITEMS x w.kind) 31 0 1).modDsp x (fun d => { d with
    home := Sparse.set d.home w.key (some e) none })).modEng x e (fun g => g.resumed s.clock.ticks)))

/-- A completion of an item of a kind on an engine: its work done, unless the item waits (R239, R262, R284, R310). -/
def complete (x : Side) (e kind : Nat) (work : Work → State → Passed) (s : State) : State :=
  match runningOf s x e kind with
  | none => s
  | some w =>
    match work w s with
    | .waits s1 => s1
    | .done s1 => makeBuilds x (scanReady x (itemDone x e w s1))

/-- SLICE_SORT (R245–R247, R266, R284, R344). -/
def execSliceSort (dt : Nat) (x : Side) (e : Fin 48) (bad : InputFault) (s0 : State) : Host.Outcome State Fault Refusal :=
  .next (complete x e 0 (fun w s => match w with
    | .sort n => sortItem x false n bad s
    | _ => .done s) (s0.elapse dt))

/-- CLUSTER (R248–R251). -/
def execCluster (dt : Nat) (x : Side) (e : Fin 48) (bad : InputFault) (s0 : State) : Host.Outcome State Fault Refusal :=
  .next (complete x e 1 (fun w s => match w with
    | .cluster n => sortItem x true n bad s
    | _ => .done s) (s0.elapse dt))

/-- RECORD_BUILD (R252, R253). -/
def execRecordBuild (dt : Nat) (x : Side) (e : Fin 48) (s0 : State) : Host.Outcome State Fault Refusal :=
  .next (complete x e 2 (fun w s => match w with
    | .record id => buildRecord x id s
    | _ => .done s) (s0.elapse dt))

/-- VERIFY (R287–R290), which completes with a decompressor. -/
def execVerify (dt : Nat) (x : Side) (e : Fin 48) (s0 : State) : Host.Outcome State Fault Refusal :=
  .next (complete x e 4 (fun w s => match w with
    | .verify b => if hasDec s x e then .done (verifyBlock x b s) else .waits s
    | _ => .done s) (s0.elapse dt))

/-- CAL_REDUCE (R114, R150, R240). -/
def execCalReduce (dt : Nat) (x : Side) (e : Fin 48) (s0 : State) : Host.Outcome State Fault Refusal :=
  .next (complete x e 6 (fun w s => match w with
    | .reduce t => .done (reduceTile t s)
    | _ => .done s) (s0.elapse dt))

/-! ### Traps and retirement (R264, R265) -/

/-- An item put back at the head of its priority, its eligible time unchanged (R264). -/
def putBack (x : Side) (i : Option (Item × Nat)) (s : State) : State :=
  match i with
  | some q => (s.modDsp x (fun d => { d with ready := (prioOf s x q.1.work, q.1) :: d.ready })).high
      (Reg.DSP_READY_MAX x) 12 0 ((s.dsp x).ready.length + 1)
  | none => s

/-- An engine retired: out of the pool at once, its items requeued (R265). -/
def retireEngine (x : Side) (e : Nat) (s : State) : State :=
  if engRetired s x e then s
  else
    let g := s.eng x e
    let s1 := putBack x g.item (putBack x g.saved s)
    let s2 := settleDecs x (s1.modEng x e (fun g => { g with
      item := none
      saved := none }))
    raiseSide x 571 sevFault e (wantUpdate { s2 with bg := { s2.bg with inForce := { s2.bg.inForce with
      engines := insertNat (sideNum x * 48 + e) s2.bg.inForce.engines } } })

/-- A trap of an engine (R264, R265, R345): the running item goes back to the head of its priority, a pre-empted one resumes, and the
engine's instruction memory is loaded again; the third within 600 s retires it. -/
def trapEngine (x : Side) (e : Nat) (s : State) : State :=
  if !enginesRun s x || engRetired s x e then s
  else
    let g := s.eng x e
    let s1 := settleDecs x ((putBack x g.item s).modEng x e (fun g => { (g.resumed s.clock.ticks) with lines := [] }))
    let s2 := raiseSide x 570 sevNotice e ((s1.bump (Reg.SE_TRAPS x) 15 0 1).tally x .traps 1)
    if g.faults.third s.now then retireEngine x e s2
    else s2.modEng x e (fun g => { g with faults := g.faults.push s.now })

/-- ENGINE_TRAP (R264, R265, R345). -/
def execEngineTrap (dt : Nat) (x : Side) (e : Fin 48) (s0 : State) : Host.Outcome State Fault Refusal :=
  .next (trapEngine x e (s0.elapse dt))

end Sys2Proof.Machine
end

