-- ==== Sys2Proof/Machine/Trigger.lean ====
section
/-!
DEFINITION. The trigger engine (chapter "Trigger and acquisition engine"): occurrences, terms, steps, entries and their
actions, records, table writes and commits, TRIGGER_SW and TRIG_COMMIT.
-/

namespace Sys2Proof.Machine

/-- Something done on every side that serves or resynchronises. -/
def onLive (f : Side → State → State) (s : State) : State := s.both (fun x t => if t.live x then f x t else t)

/-! ### The table (R218, R236) -/

/-- Half k of an entry of five words: terms T0–T3 at 0–3, transitions X0 and X1 at 4–5, actions ACT0–ACT3 at 6–9. -/
def half (e : List Nat) (k : Nat) : Nat := nth e (k / 2) / 65536 ^ (k % 2) % 65536

/-- The live entry of a state. -/
def liveEntry (s : State) (n : Nat) : List Nat :=
  (List.range 5).map (fun d => (s.rd (Reg.TRG_LIVE s.arb.primary n d)).toNat)

/-- The entries of the successors of an entry, fetched (R219). -/
def fetchNext (s : State) (e : List Nat) : List (Nat × List Nat) :=
  [half e 4, half e 5].map (fun h => (bits h 11 8, liveEntry s (bits h 11 8)))

/-- The staging table copied into the live table (R231). -/
def commitTable (s : State) : State :=
  onLive (fun x t => (List.range 16).foldl (fun u n => (List.range 5).foldl (fun v d =>
    v.wr (Reg.TRG_LIVE x n d) (v.rd (Reg.TRG_STATE x n d))) u) t) s

/-! ### Terms (R216, R217) -/

/-- Whether an MP pin reads as high to an MP_LEVEL term: an input pin outside its switching interval (R511, R512). -/
def mpHigh (s : State) (i : Nat) : Bool :=
  decide (i < 12) && s.rf (Reg.MP_CTRL i) 3 0 = 1 && !s.rb Reg.MP_IN (16 + i) && s.rb Reg.MP_IN i

/-- The kinds of term that an occurrence makes true in one step. -/
def latchedKind (k : Nat) : Bool := [2, 4, 5, 6, 7, 8, 9, 0xB].contains k

/-- The occurrences that the step at m sees (R217): arrived from S on, and with a BUS or SW term not effective before S. -/
def seenHits (s : State) (m : Time) : List Occurrence :=
  s.trg.hits.filter (fun h => reached m h.arrive && reached h.arrive s.runStart
    && ((h.kind ≠ 6 && h.kind ≠ 7) || reached h.time s.runStart))

/-- The later of two term times. DESIGN CHOICE (log entry 143): of two at one tick the greater fine time stands (R218). -/
def laterTime (a b : Time × Nat) : Time × Nat :=
  if a.1 = b.1 then (a.1, max a.2 b.2) else if reached a.1 b.1 then a else b

/-- The latest of some term times. -/
def latestOf : List (Time × Nat) → Option (Time × Nat)
  | [] => none
  | a :: r => some (r.foldl laterTime a)

/-- What a term is before INV: its term time when it is true in the step at m (R216). DESIGN CHOICE (log entry 153): of several occurrences
in one step the latest. -/
def baseTerm (s : State) (m : Time) (hits : List Occurrence) (t : Nat) : Option (Time × Nat) :=
  let kind := bits t 11 8
  let i := bits t 7 4
  let step (b : Bool) : Option (Time × Nat) := if b then some (m, 0) else none
  if latchedKind kind then
    latestOf ((hits.filter (fun h => h.kind = kind && (kind = 0xB || h.index = i))).map (fun h => (h.time, h.fine)))
  else if kind = 1 then step true
  else if kind = 3 then step (mpHigh s i)
  else if kind = 0xA then
    step (decide (i < 8) && decide ((s.rd (Reg.TRG_CNT_CMP s.arb.primary i)).toNat ≤ (s.rd (Reg.TRG_CNT s.arb.primary i)).toNat))
  else if kind = 0xC then step (inSquall s)
  else none

/-- A term in the step at m: its term time when it is true (R216). -/
def termTime (s : State) (m : Time) (hits : List Occurrence) (t : Nat) : Option (Time × Nat) :=
  match bit t 3, baseTerm s m hits t with
  | false, r => r
  | true, none => some (m, 0)
  | true, some _ => none

/-- A transition in the step at m: its NEXT and trigger time when it is true (R218). -/
def transition (terms : List (Option (Time × Nat))) (h : Nat) : Option (Nat × Time × Nat) :=
  let masked := (List.range 4).filter (fun k => bit h k)
  let trues := masked.filterMap (fun k => terms.getD k none)
  let ok := if bit h 4 then decide (trues ≠ []) else decide (trues.length = masked.length)
  if bit h 5 && decide (masked ≠ []) && ok then (latestOf trues).map (fun q => (bits h 11 8, q.1, q.2)) else none

/-! ### Records (R225–R227) -/

/-- Whether two windows share a tick; an absent end is open. -/
def windowsMeet (a : Time) (a' : Option Time) (b : Time) (b' : Option Time) : Bool :=
  match a', b' with
  | some x, some y => overlaps a x b y
  | some x, none => a ≠ x && !reached b x
  | none, some y => b ≠ y && !reached a y
  | none, none => true

/-- The greater of two ends; an open end is the greatest. -/
def laterEnd : Option Time → Option Time → Option Time
  | some x, some y => some (if reached x y then x else y)
  | _, _ => none

/-- A record with a window merged into it, and its mark. -/
def Rec.absorb (r : Rec) (a : Time) (e : Option Time) (m : Trigger) : Rec :=
  { r with
    start := earlier r.start a
    stop := laterEnd r.stop e
    merges := r.merges + 1
    forced := r.forced || m.forced
    reason := if laterEnd r.stop e = r.stop then r.reason else 0
    marks := r.marks ++ [m] }

/-- A record with another joined into it. DESIGN CHOICE (log entry 142): its MERGES take over those of the other (R225). -/
def Rec.join (r q : Rec) : Rec :=
  { r with
    start := earlier r.start q.start
    stop := laterEnd r.stop q.stop
    merges := r.merges + q.merges + 1
    forced := r.forced || q.forced
    reason := if laterEnd r.stop q.stop = r.stop then r.reason else q.reason
    marks := r.marks ++ q.marks }

/-- One accumulator added to another (R247, R252). -/
def Acc.join (a b : Acc) : Acc :=
  ⟨a.hits + b.hits, a.totSum + b.totSum, max a.totMax b.totMax,
    match b.first with
    | some t => pickTime false a.first t
    | none => a.first,
    match b.last with
    | some t => pickTime true a.last t
    | none => a.last⟩

/-- The accumulators of a record joined into those of another, and freed. -/
def joinAccs (keep gone : Nat) (s : State) : State :=
  s.both (fun x t => t.modDsp x (fun d => { d with
    accs := Sparse.del (Sparse.upd d.accs keep Acc.zero (fun a => a.join (Sparse.get d.accs gone Acc.zero))) gone }))

/-- A window merged into an open record, and the records that then overlap it joined (R225). -/
def mergeWindow (into : Rec) (a : Time) (e : Option Time) (m : Trigger) (byHull : Bool) (s : State) : State :=
  let r := into.absorb a e m
  let hit (q : Rec) : Bool := q.id ≠ into.id &&
    (if byHull then windowsMeet q.start q.stop r.start r.stop else windowsMeet q.start q.stop a e)
  let gone := s.trg.opened.filter hit
  let r1 := gone.foldl Rec.join r
  let s1 := gone.foldl (fun t q => joinAccs into.id q.id t) s
  let s2 := s1.modTrg (fun g => { g with
    opened := (g.opened.filter (fun q => !hit q)).map (fun q => if q.id = into.id then r1 else q) })
  onLive (fun x t => t.bump (Reg.TRG_MERGED x) 31 0 (1 + gone.length)) s2

/-- The accumulators free on a side (R254). -/
def freeAccs (s : State) (x : Side) : Nat := 65536 - ((liveRecs s).filter (fun r => r.alloc.get x)).length

/-- The check that follows every OPEN at entry tick c, 8 ticks after its step (R254). -/
def checkAccs (c : Time) (s : State) : State :=
  let low (x : Side) : Bool := s.live x && decide (freeAccs s x ≤ 4096)
  if s.trg.exhausted || !(low .a || low .b) then s
  else
    let p : Time := BitVec.ofNat 64 (alignUp 8 (c.toNat - 8 + 6000))
    (s.both (raiseSide · 574 sevCritical noInst)).modTrg (fun g => { g with
      exhausted := true
      stopAt := match g.stopAt with
        | some q => some (earlier p q)
        | none => some p })

/-- The mark of a skipped trigger on its way to stream 2, on every side that delivers it (R228, R397). -/
def loneMark (m : Trigger) (s : State) : State :=
  let o : Output := ⟨2, 0xFFFFFFFF, BitVec.ofNat 48 (3 * 2 ^ 46 + m.ord), markWords 0xFFFFFFFF m, none, false⟩
  s.both (fun x t =>
    if !t.serving x || !(match (t.side x).wlt.rs with
      | some b => reached m.time b
      | none => true) then t
    else
      scanReady x (enterLater x false o t))

/-- OPEN with window set w for trigger time t, in state n, at the entry tick c (R225, R228). DESIGN CHOICE (log entry 153): SKIPPED counts from
the previous record of the window set. -/
def openWindow (c : Time) (n w : Nat) (t : Time) (fine : Nat) (s : State) : State :=
  let y := s.arb.primary
  let k := Sparse.get s.trg.prescale w 0
  let step := max 1 (s.rf (Reg.TRG_WIN_8 y w) 15 0)
  let m : Trigger := ⟨n, w, t, fine, s.trg.marks.length, false, false, false⟩
  let s1 := (onLive (fun x u => u.bump (Reg.TRG_TRIGGERS x) 31 0 1) s).modTrg (fun g => { g with
    prescale := Sparse.set g.prescale w (k + 1) 0 })
  let note (m : Trigger) (u : State) : State := u.modTrg (fun g => { g with marks := g.marks ++ [m] })
  if k % step ≠ 0 then
    let m1 := { m with skipped := true }
    loneMark m1 (note m1 ((onLive (fun x u => u.bump (Reg.TRG_PRESCALED x) 31 0 1) s1).modTrg (fun g => { g with
      skips := Sparse.upd g.skips w 0 (fun q => min (q + 1) 65535) })))
  else
    let a := t - (s.rd (Reg.TRG_WIN y w)).setWidth 64
    let e : Option Time := if s.acq = 1 then none else some (t + (s.rd (Reg.TRG_WIN_4 y w)).setWidth 64 + 1)
    match s.trg.opened.find? (fun r => windowsMeet r.start r.stop a e) with
    | some r =>
      let m1 := { m with merged := true }
      checkAccs c (mergeWindow r a e m1 false (note m1 s1))
    | none =>
      if 64 ≤ s.trg.opened.length then
        match s.trg.opened.getLast? with
        | some r =>
          let m1 := { m with forced := true }
          checkAccs c (onLive (fun x u => raiseSide x 560 sevNotice w
            ((u.bump (Reg.TRG_MERGED_FORCED x) 31 0 1).tally x .merges 1)) (mergeWindow r a e m1 true (note m1 s1)))
        | none => s1
      else
        let r : Rec := ⟨s.trg.nextId, n, w, a, e, t, fine, m.ord, Sparse.get s.trg.skips w 0, 0, false, 0, [m], none,
          ⟨s.serving .a, s.serving .b⟩, ⟨false, false⟩⟩
        let s2 := (note m s1).modTrg (fun g => { g with
          opened := g.opened ++ [r]
          nextId := g.nextId + 1
          skips := Sparse.set g.skips w 0 0 })
        checkAccs c (onLive (fun x u => u.high (Reg.TRG_OPEN x) 22 16 u.trg.opened.length) s2)

/-- CLOSE at entry tick c (R226). -/
def closeGated (c : Time) (s : State) : State :=
  if s.acq ≠ 1 then s
  else s.modTrg (fun g => { g with opened := g.opened.map (fun r =>
    if r.stop.isNone then { r with
      stop := some (c + (s.rd (Reg.TRG_WIN_4 s.arb.primary r.win)).setWidth 64 + 1)
      reason := 1 }
    else r) })

/-- Open records closed, numbered in order of START (R227). -/
def closeRecs (gone : Rec → Bool) (f : Rec → Rec) (s : State) : State :=
  let l := sortBy (fun a b : Rec => reached b.start a.start) ((s.trg.opened.filter gone).map f)
  l.foldl (fun t r =>
    let t1 := onLive (fun x u => (u.count (Reg.TRG_RECORDS x) 31 0 1).tally x .records 1) t
    t1.modTrg (fun g => { g with
      nextRec := g.nextRec + 1
      starts := g.starts ++ [r.start]
      closed := if r.alloc.a || r.alloc.b then g.closed ++ [{ r with number := some g.nextRec }] else g.closed }))
    (s.modTrg (fun g => { g with opened := g.opened.filter (fun r => !gone r) }))

/-! ### Actions (R222–R224) -/

/-- BUS_ASSERT at entry tick c (R423, R424). DESIGN CHOICE (log entry 141): a TRG_BUS_LEAD that is no multiple of 8 is used as it stands
(R224, R235). -/
def busAssert (c : Time) (line : Nat) (s : State) : State :=
  let y := s.arb.primary
  let eff := c + BitVec.ofNat 64 (s.rf (Reg.TRG_BUS_LEAD y) 23 0)
  let blk := busBlock line (s.moduleId y) eff
  if s.isRoot then atTime c (busAtRoot blk) s else s.both (fun x t => busUp x blk t)

/-- Pulses with one more, which extends a pulse that is still high when it begins (R224). -/
def addPulse (b e : Time) (l : List (Time × Time)) : List (Time × Time) :=
  match l.getLast? with
  | some q => if reached q.2 b then l.dropLast ++ [(q.1, if reached q.2 e then q.2 else e)] else l ++ [(b, e)]
  | none => [(b, e)]

/-- Whether a pin drives the trigger output: its function, and no switching interval (R511, R514). -/
def trigOut (s : State) (i : Nat) : Bool := decide (i < 12) && s.rf (Reg.MP_CTRL i) 3 0 = 5 && !s.rb Reg.MP_IN (16 + i)

/-- MP_PULSE at entry tick c (R224). -/
def mpPulse (c : Time) (i : Nat) (s : State) : State :=
  if !trigOut s i then s
  else
    let b := c + 24
    let e := b + BitVec.ofNat 64 (8 * max 1 (s.rf (Reg.TRG_MP_OUT s.arb.primary) 7 0))
    s.modTrg (fun g => { g with pulses := Sparse.upd g.pulses i [] (addPulse b e) })

/-- TABLE_WRITE of a patch (R224, R230). -/
def tableWrite (p : Nat) (s : State) : State :=
  onLive (fun x t =>
    let n := t.rf (Reg.TRG_PATCH_14 x p) 3 0
    (List.range 5).foldl (fun u d => u.wr (Reg.TRG_LIVE x n d) (u.rd (Reg.TRG_PATCH x p d))) t) s

/-- A timer's load in ticks (R222). -/
def timerLoad (s : State) (i : Nat) : Nat :=
  let y := s.arb.primary
  s.rf (Reg.TRG_TIMER_LOAD_4 y i) 15 0 * 2 ^ 32 + (s.rd (Reg.TRG_TIMER_LOAD y i)).toNat

/-- One entry action (R224), of an entry into state n at tick c with trigger time t. -/
def action (c : Time) (n : Nat) (t : Time) (fine : Nat) (s : State) (act : Nat) : State :=
  let i := bits act 2 0
  match bits act 15 12 with
  | 0x1 => openWindow c n (bits act 1 0) t fine s
  | 0x2 => closeGated c s
  | 0x3 => s.modTrg (fun g => { g with timers := Sparse.set g.timers i (some (c + BitVec.ofNat 64 (timerLoad s i))) none })
  | 0x4 => s.modTrg (fun g => { g with timers := Sparse.set g.timers i none none })
  | 0x5 => (onLive (fun x u => u.wr (Reg.TRG_CNT x i) 0) s).modTrg (fun g => { g with
      counting := Sparse.set g.counting i true false })
  | 0x6 => s.modTrg (fun g => { g with counting := Sparse.set g.counting i false false })
  | 0x7 => busAssert c i s
  | 0x8 => mpPulse c (bits act 3 0) s
  | 0x9 => tableWrite i s
  | _ => s

/-- A commit due at the entry at c lands (R231, R232). -/
def landCommit (c : Time) (s : State) : State :=
  match s.trg.commitAt with
  | some t =>
    if reached c t then
      (commitTable (s.modTrg (fun g => { g with commitAt := none }))).both (raiseSide · 561 sevInfo noInst)
    else s
  | none => s

/-- An entry into state n with entry e at tick c (R219). -/
def enterState (c : Time) (n : Nat) (e : List Nat) (t : Time) (fine : Nat) (s : State) : State :=
  let s1 := s.modTrg (fun g => { g with
    seq := n
    entry := e
    fetched := fetchNext s e
    due := none })
  landCommit c ([half e 6, half e 7, half e 8, half e 9].foldl (action c n t fine) s1)

/-- SEQUENCER_ENTRY (R219). -/
def execSequencerEntry (dt : Nat) (s0 : State) : Host.Outcome State Fault Refusal :=
  let s := s0.elapse dt
  match s.trg.due with
  | some (c, n, t, fine) =>
    if s.trg.run = .running && reached s.now c && beforeStop s c then
      let e := match s.trg.fetched.find? (fun q => q.1 = n) with
        | some q => q.2
        | none => liveEntry s n
      .next (enterState c n e t fine s)
    else .next s
  | none => .next s

/-- The counters in a step: each that runs adds 1 when its source term is true (R223). -/
def stepCounters (m : Time) (hits : List Occurrence) (s : State) : State :=
  let run := (List.range 8).filter (fun i => Sparse.get s.trg.counting i false
    && (termTime s m hits (s.rf (Reg.TRG_CNT_CTRL s.arb.primary i) 11 0)).isSome)
  run.foldl (fun t i => onLive (fun x u => u.bump (Reg.TRG_CNT x i) 31 0 1) t) s

/-- The step at tick m (R217–R219, R227). -/
def stepAt (m : Time) (s : State) : State :=
  let s1 := closeRecs (fun r => match r.stop with
    | some e => reached m e
    | none => false) id s
  let hits := seenHits s1 m
  let terms := (List.range 4).map (fun k => termTime s1 m hits (half s1.trg.entry k % 4096))
  let go := match transition terms (half s1.trg.entry 4) with
    | some q => some q
    | none => transition terms (half s1.trg.entry 5)
  let s2 := stepCounters m hits s1
  s2.modTrg (fun g => { g with
    hits := g.hits.filter (fun h => !reached m h.arrive)
    lastStep := some m
    due := match go with
      | some q => some (m + 8, q.1, q.2.1, q.2.2)
      | none => g.due })

/-- SEQUENCER_STEP (R218, R219): the step at the latest multiple of 8 ticks. An entry of that tick comes first. -/
def execSequencerStep (dt : Nat) (s0 : State) : Host.Outcome State Fault Refusal :=
  let s := s0.elapse dt
  let m := s.now - BitVec.ofNat 64 (s.now.toNat % 8)
  let fresh := match s.trg.lastStep with
    | some l => l ≠ m && reached m l
    | none => true
  let entered := match s.trg.due with
    | some q => !reached m q.1
    | none => true
  if s.trg.run = .running && reached m s.runStart && beforeStop s m && fresh && entered then .next (stepAt m s)
  else .next s

/-! ### Occurrences -/

/-- Whether the engine takes occurrences: a run is armed or running. -/
def trgTakes (s : State) : Bool := s.trg.run = .armed || s.trg.run = .running

/-- An assertion of the trigger bus latched (R217): in any run state, since the step of its effective time may lie in a run still to start; of
those latched while no run is on, the past ones are forgotten. -/
def pushBus (h : Occurrence) (s : State) : State :=
  s.modTrg (fun g => { g with
    hits := (if g.run = .running then g.hits else g.hits.filter (fun q => q.kind ≠ 6 || reached q.time s.now)) ++ [h] })

/-- An occurrence latched (R217). -/
def pushHit (h : Occurrence) (s : State) : State :=
  if trgTakes s then s.modTrg (fun g => { g with hits := g.hits ++ [h] }) else s

/-- TIMER_EXPIRY (R222). -/
def execTimerExpiry (dt : Nat) (i : Fin 8) (s0 : State) : Host.Outcome State Fault Refusal :=
  let s := s0.elapse dt
  match Sparse.get s.trg.timers i none with
  | some t =>
    if s.trg.run = .running && reached s.now t then
      .next (pushHit ⟨9, i, t, 0, t⟩ (s.modTrg (fun g => { g with timers := Sparse.set g.timers i none none })))
    else .next s
  | none => .next s

/-- MP_PULSE_END (R224): a pulse whose end has come is over. -/
def execMpPulseEnd (dt : Nat) (i : Fin 12) (s0 : State) : Host.Outcome State Fault Refusal :=
  let s := s0.elapse dt
  .next (s.modTrg (fun g => { g with
    pulses := Sparse.upd g.pulses i [] (fun l => l.filter (fun q => !reached s.now q.2)) }))

/-- The fields of a tile's summary that a comparator sums (R193, R221). -/
def occPart (lost : Bool) (quads v : Nat) : Nat :=
  if lost then bits v 11 2
  else (List.range 4).foldl (fun a q => if bit quads q then a + bits v (20 + 9 * q) (12 + 9 * q) else a) 0

/-- Occupancy comparator c over the summaries, newest first (R221). -/
def occTrue (s : State) (l : List (List Nat)) (c : Nat) : Bool :=
  let y := s.arb.primary
  let w := (s.rd (Reg.TRG_OCC_CTRL y c)).toNat
  let tiles := maskTiles (s.rd (Reg.TRG_OCC_TILES y c)) (s.rd (Reg.TRG_OCC_TILES_4 y c))
  let sum := (l.take (bits w 13 8 + 1)).foldl (fun a v =>
    tiles.foldl (fun b t => b + occPart (bit w 30) (bits w 3 0) (nth v t)) a) 0
  let thr := s.rf (Reg.TRG_OCC_THR y c) 23 0
  bit w 31 && (if bit w 29 then decide (sum < thr) else decide (thr ≤ sum))

/-- OCC_SUMMARY_ARRIVES (R193, R221): 8 ticks after its end the oldest summary under way reaches the engines. -/
def execOccSummaryArrives (dt : Nat) (s0 : State) : Host.Outcome State Fault Refusal :=
  let s := s0.elapse dt
  match s.trg.coming with
  | [] => .next s
  | q :: rest =>
    if !reached s.now (q.1 + 8) then .next s
    else
      let l := (q.2 :: s.trg.summaries).take 64
      let s1 := s.modTrg (fun g => { g with
        coming := rest
        summaries := l })
      .next ((List.range 16).foldl (fun t c => if occTrue s l c then pushHit ⟨8, c, q.1, 0, q.1 + 8⟩ t else t) s1)

/-- ETD_STAMP_ARRIVES (R134): at E + 64 the oldest stamp of ETDi reaches both engines. -/
def execEtdStampArrives (dt : Nat) (i : Fin 4) (s0 : State) : Host.Outcome State Fault Refusal :=
  let s := s0.elapse dt
  match s.tdc.stamps.find? (fun q => q.i = i.val) with
  | none => .next s
  | some q =>
    if s.clock.ticks < q.arrive then .next s
    else
      let s1 := s.modTdc (fun k => { k with stamps := k.stamps.erase q })
      let s2 := (s1.wr64 (Reg.TDC_EXT_LAST i) (Reg.TDC_EXT_LAST_4 i) q.time).wr (Reg.TDC_EXT_LAST_8 i)
        (BitVec.ofNat 32 (b2n q.rising * 2 ^ 16 + q.fine % 1024))
      .next (pushHit ⟨2, i, q.time, q.fine, s.now - BitVec.ofNat 64 (s.clock.ticks - q.arrive)⟩ s2)

/-- A late assertion's frame trigger ignored (R425). -/
def lateFrameTrigger (line : Nat) (s : State) : State :=
  if s.trg.run = .running && s.rf Reg.FRM_CTRL 1 0 = 2 && s.rf Reg.FRM_CTRL 8 6 = line then
    s.bump Reg.FRM_STATUS 31 16 1
  else s

/-- BUS_ASSERTION_DELIVERED (R424, R425): the oldest assertion whose 16 ticks have passed reaches both engines. -/
def execBusAssertionDelivered (dt : Nat) (s0 : State) : Host.Outcome State Fault Refusal :=
  let s := s0.elapse dt
  match s.lace.bus.find? (fun a => !a.given && reached s.now a.due) with
  | none => .next s
  | some a =>
    let step : Time := BitVec.ofNat 64 (alignUp 8 a.eff.toNat)
    let late := !reached step a.due || step = a.due
    let s1 := s.modLace (fun b => { b with bus := b.bus.map (fun c => if c = a then { c with given := true } else c) })
    let s2 := onLive (fun x t => t.bump (Reg.LCE_BUS x) 15 0 1) s1
    if late then
      .next (pushBus ⟨6, a.line, a.eff, 0, a.due + 1⟩ (lateFrameTrigger a.line (s2.both (fun x t =>
        raiseSide x 624 sevNotice a.line (if t.live x then t.bump (Reg.LCE_BUS x) 31 16 1 else t)))))
    else
      .next (pushBus ⟨6, a.line, a.eff, 0, a.eff⟩ (s2.modTrg (fun g => { g with bus := g.bus ++ [(a.line, a.eff)] })))

/-! ### Commands -/

/-- The high half of a time as a packet word; its low half is reply parameter 1, R1 (R234, R276, R439; log entry 11). -/
def highWord (t : Time) : Word72 := paramWord ((t >>> 32).setWidth 32)

/-- A time as two packet words, low word first (R437). -/
def timeWords (t : Time) : List Word72 := [paramWord (t.setWidth 32), highWord t]

/-- The first multiple of 8 ticks at least n ticks from now (R209). -/
def soonest (s : State) (n : Nat) : Time := BitVec.ofNat 64 (alignUp 8 (s.now.toNat + n))

/-- Whether a time lies less than n ticks ahead. -/
def tooSoon (s : State) (t : Time) (n : Nat) : Bool := decide ((t - s.now).toInt < n)

/-- TRIGGER_SW (R234). DESIGN CHOICE (log entry 153): bits [31:3] of parameter 1 are ignored. -/
def execTriggerSw (dt : Nat) (c : Ctx) (number : Word) (t : Option Time) (s : State) : Host.Outcome State Fault Refusal :=
  .next (command dt c (.triggerSw number t)
    (fun _ _ => if t.isSome && !c.sched then some .badLength else if c.sched && t.isNone then some .badLength else none)
    (fun _ s =>
      if !trgTakes s then refuse s .wrongState
      else
        let e := t.getD (soonest s 6000)
        if tooSoon s e 6000 then refuse s .late
        else
          let s1 := sendDown 0x14 c number (match t with
            | some v => timeWords v
            | none => []) s
          .done (pushHit ⟨7, number.toNat % 8, e, 0, e⟩ s1) .ok (e.setWidth 32) [highWord e]) s)

/-- TRIG_COMMIT (R231, R232). -/
def execTrigCommit (dt : Nat) (c : Ctx) (s : State) : Host.Outcome State Fault Refusal :=
  .next (command dt c .trigCommit noPar
    (fun _ s =>
      if s.trg.run = .idle then refuse s .wrongState
      else if s.trg.commitAt.isSome then refuse s .busy
      else .done (s.modTrg (fun g => { g with commitAt := some (s.now + 6000) })) .accepted 0 []) s)

end Sys2Proof.Machine
end

