-- ==== Sys2Proof/Machine/Run.lean ====
section
/-!
DEFINITION. The run (R207–R212, R227, R275, R276): RUN_ARM, RUN_START, RUN_STOP, FLUSH, and what happens at S, at P, at a
FLUSH cut and when STOPPING ends.
-/

namespace Sys2Proof.Machine

/-! ### What follows a reply -/

/-- Whether a frame is the reply to a command. -/
def answers (c : Ctx) (f : Frame) : Bool := f.type = 2 && (f.words.headD 0).extractLsb' 56 8 = c.tag

/-- The reply of a command that came over a port, while it waits there or is being sent. -/
def replyOn (c : Ctx) (s : State) : Option (Side × Nat × Frame) :=
  match c.via with
  | .port y p =>
    let q := s.port y p.val
    ((q.waiting.reverse ++ q.out.toList).find? (answers c)).map (fun f => (y, p.val, f))
  | .spi => none
  | .inner => none

/-- What follows a command's reply, f as effect a: on a port it waits until the reply has left it; with no reply on a port it follows at
once, and of what f discards the reply over the service SPI can still be read (R361, R377, R447, R540; log entry 156). -/
def afterReply (c : Ctx) (a : After) (f : State → State) (s : State) : State :=
  match replyOn c s with
  | some (y, p, r) => s.modLnk y (fun l => { l with later := l.later ++ [(p, r, a)] })
  | none =>
    let t := f s
    match c.via, s.spi.replies.getLast? with
    | .spi, some r =>
      if t.spi.replies.getLast? = some r then t else { t with spi := { t.spi with replies := t.spi.replies ++ [r] } }
    | _, _ => t

/-! ### RUN_ARM (R208, R361) -/

/-- Whether a tile takes part in a run as a FRAME tile with a preset other than RAW (R146). -/
def decimatedFrames (s : State) : Bool :=
  (List.range 64).any (fun t => s.tileOn t && s.frameTile t && s.rf (Reg.DEC_CTRL t) 2 0 ≠ 0)

/-- What refuses RUN_ARM (R146, R208, R320, R331). -/
def armRefusal (s : State) : Option Status :=
  if s.trg.run ≠ .idle then some .wrongState
  else if s.rf Reg.FRM_CTRL 1 0 ≠ 0 && decimatedFrames s then some .wrongState
  else if s.acq = 3 then some .badParam
  else if [Side.a, Side.b].any (fun x => s.live x && [0, 1, 2].any (fun st => !hasRing s x st)) then some .badParam
  else if [Side.a, Side.b].any (fun x => s.live x && decide (serviceFigure s x < guaranteeSum s x)) then
    some .budgetExceeded
  else none

/-- The counters of this chapter cleared on a side (R207). -/
def clearCounters (x : Side) (s : State) : State :=
  let s1 := [Reg.TRG_TRIGGERS x, Reg.TRG_PRESCALED x, Reg.TRG_MERGED x, Reg.TRG_MERGED_FORCED x, Reg.TRG_RECORDS x,
    Reg.TRG_OPEN x, Reg.TRG_UNITS_KEPT x, Reg.TRG_UNITS_RELEASED x, Reg.TRG_FRAMES_PRESCALED x].foldl
    (fun t a => t.wr a 0) s
  (List.range 8).foldl (fun t i => t.wr (Reg.TRG_CNT x i) 0) s1

/-- Whether an item belongs to the run in which it was created. -/
def Work.ofRun (w : Work) : Bool := decide (w.kind ≤ 2)

/-- What a side still has of the previous run on its way to a block discarded with its rings (R326; log entry 115). -/
def dropRun (x : Side) (s : State) : State :=
  (s.modDsp x (fun d => { d with
    units := []
    ready := d.ready.filter (fun i => !i.2.work.ofRun)
    held := d.held.filter (fun i => !i.work.ofRun)
    again := d.again.filter (fun i => !i.1.ofRun)
    lost := []
    accs := [] })).modCmp x (fun c => { c with
      outputs := []
      members := []
      entering := []
      progress := []
      parts := []
      ready := c.ready.filter (fun r => match r with
        | .seq _ => false
        | .again _ => true
        | .redo _ => true) })

/-- A drift measurement abandoned where its tile is no longer idle, the tile's latches restored from the applied image (R83). -/
def abandonDrift (s : State) : State :=
  match s.clock.drift with
  | some (t, _) =>
    if driftIdle s t then s
    else { s with
      clock := { s.clock with drift := none }
      pix := { s.pix with latches := copyTiles [t] s.pix.applied s.pix.latches } }
  | none => s

/-- CMP_CTRL and CMP_VERIFY of a side latched for the run (R297). -/
def latchCmp (x : Side) (s : State) : State :=
  s.modCmp x (fun c => { c with
    runCtrl := s.rd (Reg.CMP_CTRL x)
    runVerify := s.rd (Reg.CMP_VERIFY x) })

/-- RUN_ARM accepted (R83, R207, R231, R297, R326, R332). -/
def armRun (s : State) : State :=
  let s1 := (commitTable (onLive clearCounters s)).modTrg (fun g => { g with
    hits := g.busOnly
    commitAt := none })
  let s2 := onLive (fun x t => latchCmp x (restoreClasses x (emptyRings x (dropRun x t)))) s1
  abandonDrift (setRun .armed (onLive (fun x t => t.modWlt x (fun w => { w with rs := none })) s2))

/-- Whether a port that is UP is narrower than its non-retired lanes allow (R361). -/
def narrow (s : State) (x : Side) (p : Nat) : Bool :=
  let q := s.port x p
  let n := ((List.range 8).filter (fun l => !s.laneRetired x p l)).length
  q.state = .up && (match widthCode n (s.rf (Reg.LNK_PORT_CTRL x p) 11 10) (q.lastWmax % 4) with
    | some c => decide (widthOf q.width < widthOf c)
    | none => false)

/-- The ports that train at RUN_ARM (R361). -/
def trainNarrow (s : State) : State :=
  onLive (fun x t => (List.range 16).foldl (fun u p => if narrow u x p then leaveUp x p u else u) t) s

/-- RUN_ARM (R207, R208). -/
def execRunArm (dt : Nat) (c : Ctx) (s : State) : Host.Outcome State Fault Refusal :=
  .next (commandThen dt c .runArm noPar
    (fun _ s => match armRefusal s with
      | some st => refuse s st
      | none => okRes (armRun s))
    (fun _ s => afterReply c .trainNarrow trainNarrow s) s)

/-! ### RUN_START and RUN_STOP (R209, R210, R426, R429) -/

/-- Whether a run command is array-wide: it names the array, and is not an inner packet, which each module runs for itself (R427). -/
def wideCmd (c : Ctx) : Bool := c.target = 0xFF && c.via ≠ .inner

/-- Whether a command is an array-wide one at the root of its array. -/
def arrayRoot (s : State) (c : Ctx) : Bool := wideCmd c && !c.bcast && s.isRoot

/-- The parameters of a scheduled run command: a time goes with the scheduled flag, lies on a multiple of 8 ticks, and is
there when the command is array-wide (R209, R429). -/
def runParam (c : Ctx) (t : Option Time) : Option Status :=
  if t.isSome ≠ c.sched then some .badLength
  else
    match t with
    | some v => param (v.toNat % 8 = 0)
    | none => param (!wideCmd c)

/-- The least lead of a run command (R209, R429). -/
def leadOf (s : State) (x : Side) (c : Ctx) : Nat := 6000 + (if arrayRoot s c then arrayReach s x else 0)

/-- A scheduled operation come too late: a module below the root counts it and reports it (R429). -/
def lateRefusal (x : Side) (c : Ctx) (s : State) : Res :=
  refuse (if c.bcast then raiseSide x 623 sevNotice noInst (countOps 31 16 s) else s) .late

/-- A run command carried out: sent down the lace and counted when it is array-wide (R422, R434). -/
def arrayWide (op : Nat) (c : Ctx) (t : Option Time) (s : State) : State :=
  if !wideCmd c then s
  else
    countOps 15 0 (match t with
      | some v => sendDown op c (v.setWidth 32) [paramWord ((v >>> 32).setWidth 32)] s
      | none => s)

/-- RUN_START (R208–R210). -/
def execRunStart (dt : Nat) (c : Ctx) (t : Option Time) (s : State) : Host.Outcome State Fault Refusal :=
  .next (command dt c (.runStart t) (fun _ _ => runParam c t)
    (fun x s =>
      let e := t.getD (soonest s 6000)
      if s.trg.run ≠ .armed then refuse s .wrongState
      else if s.trg.startAt.isSome then refuse s .busy
      else if tooSoon s e (leadOf s x c) then lateRefusal x c s
      else okRes ((arrayWide 0x11 c t s).modTrg (fun g => { g with startAt := some e }))) s)

/-- RUN_STOP (R207–R210). -/
def execRunStop (dt : Nat) (c : Ctx) (t : Option Time) (s : State) : Host.Outcome State Fault Refusal :=
  .next (command dt c (.runStop t) (fun _ _ => runParam c t)
    (fun x s =>
      let e := t.getD (soonest s 6000)
      match s.trg.run with
      | .armed =>
        okRes (stopArmed (arrayWide 0x12 c t s))
      | .running =>
        if s.trg.stopAt.isSome then refuse s .busy
        else if tooSoon s e (leadOf s x c) then lateRefusal x c s
        else okRes ((arrayWide 0x12 c t s).modTrg (fun g => { g with stopAt := some e }))
      | _ => refuse s .wrongState) s)

/-! ### FLUSH (R275, R276) -/

/-- FLUSH (R275, R276). -/
def execFlush (dt : Nat) (c : Ctx) (t : Option Time) (s : State) : Host.Outcome State Fault Refusal :=
  .next (command dt c (.flush t)
    (fun _ _ => if t.isSome ≠ c.sched then some .badLength else match t with
      | some v => param (v.toNat % 8 = 0)
      | none => none)
    (fun _ s =>
      let e := t.getD (soonest s 6000)
      if s.trg.run ≠ .running then refuse s .wrongState
      else if tooSoon s e 6000 then refuse s .late
      else if 8 ≤ s.trg.cuts.length then refuse s .busy
      else
        let s1 := sendDown 0x13 c ((t.getD 0).setWidth 32) (match t with
          | some v => [paramWord ((v >>> 32).setWidth 32)]
          | none => []) s
        .done (s1.modTrg (fun g => { g with cuts := g.cuts ++ [e] })) .ok (e.setWidth 32) [highWord e]) s)

/-- FLUSH_CUT (R275): a pending cut whose time has come is made on both sides. -/
def execFlushCut (dt : Nat) (s0 : State) : Host.Outcome State Fault Refusal :=
  let s := s0.elapse dt
  match s.trg.cuts.find? (reached s.now) with
  | none => .next s
  | some t =>
    let s1 := s.modTrg (fun g => { g with
      cuts := g.cuts.erase t
      cutsMade := g.cutsMade ++ [t] })
    .next (onLive (fun x u => scanReady x (u.wr64 (Reg.CMP_FLUSH_LAST x) (Reg.CMP_FLUSH_LAST_4 x) t)) s1)

/-! ### S (R172, R173, R207) -/

/-- The trigger engine as a run starts at S (R207, R217). -/
def Trg.start (g : Trg) (b : Time) : Trg :=
  { g with
    run := .running
    startAt := none
    stopAt := none
    due := none
    timers := []
    counting := []
    lastStep := none
    bus := g.bus.filter (fun q => reached q.2 b)
    prescale := []
    skips := []
    opened := []
    closed := []
    marks := []
    nextRec := 0
    nextId := 0
    starts := []
    coming := []
    summaries := []
    cuts := []
    cutsMade := []
    exhausted := false }

/-- What one side begins with at S: its key, its counts and its units (R296, R307). -/
def startSide (b : Time) (x : Side) (s : State) : State :=
  let s1 := [Reg.CMP_IN_BYTES x, Reg.CMP_IN_BYTES_4 x, Reg.CMP_OUT_BYTES x, Reg.CMP_OUT_BYTES_4 x, Reg.CMP_BLOCKS x].foldl
    (fun t a => t.wr a 0) (drawKey x s)
  let s2 := (s1.count (Reg.TRG_RUN x) 31 16 1).wr64 (Reg.TRG_RUN_START x) (Reg.TRG_RUN_START_4 x) b
  let s3 := s2.modDsp x (fun d => { d with
    intake := []
    top := []
    keepFrom := []
    inside := [] })
  ((s3.modCmp x (fun c => { c with progress := [] })).modLnk x (fun l => { l with cutSeen := false })).modWlt x
    (fun w => { w with retransSeen := false })

/-- The run at S: RUNNING, both sides and every enabled tile, frame mode, and the entry into INIT (R172, R173, R207,
R218). -/
def startRun (b : Time) (s : State) : State :=
  let s1 := onLive (startSide b) s
  let s2 := { (s1.modTrg (fun g => g.start b)) with
    squall := ⟨false, none, none, [], b, (b - 1) - BitVec.ofNat 64 ((b - 1).toNat % 32), []⟩ }
  let s3 := setRun .running (startFrames b ((List.range 64).foldl (startTile b) s2))
  let n := s3.rf (Reg.TRG_CTRL s3.arb.primary) 7 4
  enterState b n (liveEntry s3 n) b 0 s3

/-- RUN_START_EFFECT (R173, R207, R210). -/
def execRunStartEffect (dt : Nat) (s0 : State) : Host.Outcome State Fault Refusal :=
  let s := s0.elapse dt
  match s.trg.startAt with
  | some b => if s.trg.run = .armed && reached s.now b then .next (atTime b (startRun b) s) else .next s
  | none => .next s

/-! ### P (R172, R207, R227) -/

/-- A record closed by the end of the run (R227). -/
def Rec.cutOff (p : Time) (r : Rec) : Rec :=
  { r with
    stop := some (match r.stop with
      | some e => earlier e p
      | none => p)
    reason := 2 }

/-- The squall in progress ended at P (R198); that of one whose X came before P is still written at X + 12. One that is not yet declared is
no more, which is the model's choice (log entry 113). -/
def quiet (p : Time) (s : State) : State :=
  let s1 := quietAt p { s with squall := { s.squall with declare := none } }
  if s1.squall.active then endSquall p s1 else s1

/-- The run at P: records closed, the squall ended, tiles stopped, a pending commit discarded (R172, R198, R207, R227, R232). -/
def stopRun (p : Time) (s : State) : State :=
  let s1 := closeRecs (fun _ => true) (Rec.cutOff p) (quiet p s)
  let s2 := s1.modTrg (fun g => { g with
    stopAt := none
    commitAt := none
    due := none })
  let s3 := onLive (fun x t => t.wr64 (Reg.TRG_RUN_STOP x) (Reg.TRG_RUN_STOP_4 x) p) s2
  let s4 := (List.range 64).foldl (stopTile p) s3
  setRun .stopping ((List.range 64).foldl (fun t k => idleCheck k t) s4)

/-- RUN_STOP_EFFECT (R207, R227). -/
def execRunStopEffect (dt : Nat) (s0 : State) : Host.Outcome State Fault Refusal :=
  let s := s0.elapse dt
  match s.trg.stopAt with
  | some p => if s.trg.run = .running && reached s.now p then .next (atTime p (stopRun p) s) else .next s
  | none => .next s

/-! ### The end of STOPPING (R207, R326) -/

/-- Whether an item of a ring has still to be sent. -/
def Stored.toSend : Stored → Bool
  | .block _ => true
  | .lace _ _ => true
  | _ => false

/-- Whether a side has sent the record pieces, member units and marks of the run: nothing of stream 2 stands between the engines and the
ports. -/
def recordsSent (s : State) (x : Side) : Bool :=
  let c := (s.side x).cmp
  let k := (s.side x).lnk
  let apart (b : Block) : Bool := b.id.stream ≠ 2 || b.fwd.isSome
  c.outputs.all (fun o => o.stream ≠ 2) && c.members = [] && c.entering.all (fun q => q.2.stream ≠ 2)
  && c.ready.all (fun r => match r with
    | .seq q => q.stream ≠ 2
    | .again b => apart b
    | .redo _ => true)
  && c.engines.all (fun e => e.2.redo || match e.2.block with
    | some b => apart b
    | none => true)
  && k.egress.all apart && k.ports.all (fun e => e.2.blocks.all apart)

/-- Whether a side has decided every unit, delivered every record and sent every block and lace frame of its rings (R207, R326). -/
def sideDone (s : State) (x : Side) : Bool :=
  let d := s.dsp x
  d.units.all (·.decided) && d.intake.all (fun e => decide (e.2 = []))
  && (s.side x).bst.rings.all (fun e => e.2.halted || (e.2.waiting = [] && e.2.items.all (fun i => !i.what.toSend)))
  && recordsSent s x

/-- RUN_STOPPING_COMPLETE (R207, R232, R326). -/
def execRunStoppingComplete (dt : Nat) (s0 : State) : Host.Outcome State Fault Refusal :=
  let s1 := s0.elapse dt
  let s := s1.both (fun x t => if t.serving x then (List.range 64).foldl (fun u k => trailing x k u) t else t)
  if s.trg.run = .stopping && (List.range 64).all (fun t => (s.tile t).state = .idle) && s.trg.opened = []
    && s.trg.closed = [] && [Side.a, Side.b].all (fun x => !s.serving x || sideDone s x) then
    .next (setRun .idle (s.modTrg (fun g => { g with commitAt := none })))
  else .next s1

end Sys2Proof.Machine
end

