-- ==== Sys2Proof/Machine/Egress.lean ====
section
/-!
DEFINITION. What leaves on the ports: blocks assigned to ports, frames that end, and the frames of other modules that are
forwarded (R363, R366, R369, R370, R431–R433).
-/

namespace Sys2Proof.Machine

/-! ### Blocks and frames on the ports -/

/-- The bytes that wait on a port (R369): of its first block the fragments not yet begun, of the others all. -/
def queuedBytes (q : Port) : Nat :=
  let first := match q.blocks with
    | [] => 0
    | b :: _ => b.words.length - 512 * q.frag
  9 * q.blocks.tail.foldl (fun a b => a + b.words.length) first + 72 * q.waiting.foldl (fun a f => a + f.len) 0

/-- The port with the fewest bytes, the lowest-numbered among equals (R369). -/
def leastLoaded (s : State) (x : Side) (ports : List Nat) : Option Nat :=
  ports.foldl (fun (a : Option Nat) p =>
    match a with
    | some b => if queuedBytes (s.port x p) < queuedBytes (s.port x b) then some p else a
    | none => some p) none

/-- Whether a frame on a port came over lace port p. -/
def cameOver (s : State) (x : Side) (p : Nat) (g : Frame) : Bool := g.origin ≠ s.moduleId x && (s.child x p).roster.getLsbD g.origin

/-- Whether a block came over lace port p. -/
def Block.cameOver (b : Block) (p : Nat) : Bool := b.fwd.isSome && b.maker = p

/-- The ports on which something that came over lace port p waits or is being sent (R433). -/
def portsWith (s : State) (x : Side) (p : Nat) : List Nat :=
  (List.range 16).filter (fun o =>
    (s.port x o).blocks.any (·.cameOver p) || ((s.port x o).waiting ++ (s.port x o).out.toList).any (fun g => g.type ≠ 2 && cameOver s x p g))

/-- The ports that what comes over lace port p next may leave on, in the order of arrival: the one on which earlier ones still stand (R433). -/
def sameWay (s : State) (x : Side) (p : Nat) (l : List Nat) : List Nat :=
  if portsWith s x p = [] then l else l.filter (fun o => portsWith s x p = [o])

/-- The ports that a block may leave on: one of another module follows what came before it (R433). -/
def portsFor (s : State) (x : Side) (b : Block) (l : List Nat) : List Nat := if b.fwd.isSome then sameWay s x b.maker l else l

/-- The port that a block is assigned to now (R369, R431, R433). -/
def assignPort (s : State) (x : Side) (b : Block) : Option Nat :=
  if s.rb (Reg.LCE_CTRL x) 8 && !s.power.strapMaster && b.id.stream ≤ 2 then
    match s.upPort x with
    | some p => if (s.port x p).state = .up then some p else none
    | none => none
  else leastLoaded s x ((portsFor s x b (servingPorts s x b.id.stream)).filter (fun p => !paused s x p b.id.stream))

/-- BLOCK_ASSIGN (R369, R431): the first block of the egress buffer that has a port goes to it. -/
def execBlockAssign (dt : Nat) (x : Side) (s0 : State) : Host.Outcome State Fault Refusal :=
  let s := s0.elapse dt
  match (s.side x).lnk.egress.findIdx? (fun b => (assignPort s x b).isSome) with
  | none => .next s
  | some i =>
    match (s.side x).lnk.egress[i]?.bind (fun b => (assignPort s x b).map (fun p => (b, p))) with
    | none => .next s
    | some (b, p) =>
      .next (portNext x p ((s.modLnk x (fun l => { l with egress := l.egress.eraseIdx i })).modPort x p (fun q =>
        { q with blocks := q.blocks ++ [b] })))

/-! ### Frames of other modules -/

/-- The wait of a lace frame for the ring of stream 6 (R323); one that no ring serves waits in its receive buffer (R320). -/
def laceWaits (x : Side) (f : Frame) (s : State) : State :=
  let r := ringOf s x 6
  if s.rb (Reg.BST_RING_CTRL x r) 0 then ringFull x r f.words.length s else s

/-- The frames of a port that wait, in the order they came, put into the ring as far as it takes them; what has been
stored leaves the receive buffer (R320, R373, R432). -/
def admitFrames (x : Side) (p : Nat) : List (Option Nat × Frame) → State → List (Option Nat × Frame) × State
  | [], s => ([], s)
  | (some id, f) :: r, s =>
    let q := admitFrames x p r s
    ((some id, f) :: q.1, q.2)
  | (none, f) :: r, s =>
    match storeLace x p f s with
    | none => ((none, f) :: r, laceWaits x f s)
    | some (s1, id) =>
      let q := admitFrames x p r (freeGroups x p f.len s1)
      ((some id, f) :: q.1, q.2)

/-- The frames of a port's batch. -/
def batchOf (s : State) (x : Side) (p : Nat) : List (Option Nat × Frame) := Sparse.get (s.side x).lce.batch p []

/-- A port's waiting frames stored as far as room allows. -/
def admitBatch (x : Side) (p : Nat) (s : State) : State :=
  let q := admitFrames x p (batchOf s x p) s
  q.2.modLce x (fun l => { l with batch := Sparse.set l.batch p q.1 [] })

/-- A frame as received (R362, R363). -/
def frameOf (f : RxFrame) : Frame :=
  let e := f.eof.toNat
  ⟨sofType f.sof, sofStream f.sof, bits f.sof.toNat 47 0, f.words, bits e 15 8, bits e 7 4, bit e 3, bits e 2 2, bits e 1 0⟩

/-- Whether an awaited port leads to the child that answers on port p of side x with its MODULE_ID: a child answers on the tree of its own
PRIMARY side, and its parent knows it on the other tree by its roster (R408, R428). -/
def isChild (s : State) (x : Side) (p mid : Nat) (q : Nat × Nat) : Bool :=
  q = (sideNum x, p) || (s.child (sideOf q.1) q.2).roster.getLsbD mid

/-- Whether a REPLY from a child is its answer to an open ARRAY_BARRIER (R428). -/
def barrierAnswer (s : State) (x : Side) (p : Nat) (f : Frame) : Option Barrier :=
  let w := (f.words.headD 0).toNat
  if f.type = 2 && bits w 71 64 = 0x71 then
    s.lace.barriers.find? (fun b => bits w 63 56 = b.cmd.ctx.tag.toNat && b.left.any (fun q => isChild s x p (bits w 47 40) q))
  else none

/-- A child's counts added to those of an ARRAY_BARRIER (R428). -/
def Barrier.add (b : Barrier) (s : State) (x : Side) (p : Nat) (f : Frame) : Barrier :=
  { b with
    left := b.left.filter (fun q => !isChild s x p (bits (f.words.headD 0).toNat 47 40) q)
    modules := b.modules + bits (f.words.headD 0).toNat 31 0
    bad := b.bad + (f.words.getD 1 0).toNat % 2 ^ 32
    lowest := min b.lowest ((f.words.getD 2 0).toNat % 256) }

/-- LACE_FRAME_RECEIVED (R320, R358, R368, R373, R428, R432): a frame of a child enters the ring of stream 6 and the
port's batch. -/
def execLaceFrameReceived (dt : Nat) (x : Side) (p : Fin 16) (f : RxFrame) (s0 : State) :
    Host.Outcome State Fault Refusal :=
  let s := s0.elapse dt
  let r := receiveFrame x p f s
  if !r.2 then .next r.1
  else if sofType f.sof = 1 || !laceRole (s.role x p) then .next s
  else if s.role x p ≠ 3 || (s.child x p).master || s.depth = 8 then .next (freeGroups x p (sofLen f.sof) r.1)
  else
    let g := frameOf f
    match barrierAnswer s x p g with
    | some b =>
      .next (barrierCheck ((freeGroups x p (sofLen f.sof) r.1).modLace (fun l => { l with
        barriers := l.barriers.map (fun k => if k = b then b.add s x p g else k) })))
    | none =>
      let s1 := if batchOf s x p = [] then
          r.1.modLce x (fun l => { l with batchTick := Sparse.set l.batchTick p s.clock.ticks 0 })
        else r.1
      .next (admitBatch x p (s1.modLce x (fun l => { l with
        batch := Sparse.upd l.batch p [] (fun q => q ++ [(none, g)]) })))

/-- The stored frames at the front of a batch, at most 64, and the rest (R237). -/
def takeBatch (l : List (Option Nat × Frame)) : List (Nat × Frame) × List (Option Nat × Frame) :=
  let front := ((l.takeWhile (fun q => q.1.isSome)).take 64)
  (front.filterMap (fun q => q.1.map (fun id => (id, q.2))), l.drop front.length)

/-- LACE_BATCH_END (R237): 1 µs after a batch began its frames become one LACE_MERGE item. -/
def execLaceBatchEnd (dt : Nat) (x : Side) (p : Fin 16) (s0 : State) : Host.Outcome State Fault Refusal :=
  let s := s0.elapse dt
  if batchOf s x p = [] || s.clock.ticks < Sparse.get (s.side x).lce.batchTick p 0 + 3000 then .next s
  else
    let s1 := admitBatch x p s
    let q := takeBatch (batchOf s1 x p)
    let s2 := s1.modLce x (fun l => { l with
      batch := Sparse.set l.batch p q.2 []
      batchTick := Sparse.set l.batchTick p s.clock.ticks 0 })
    if q.1 = [] then .next s2 else .next (enqueueItem x (.merge p q.1) s2)

/-- What a LACE_MERGE sends on: the fragments of a whole block, or one other frame. -/
inductive Parcel
  | block (frames : List (Nat × Frame))
  | frame (id : Nat) (f : Frame)
deriving DecidableEq, Repr

/-- The frames of a parcel. -/
def Parcel.frames : Parcel → List (Nat × Frame)
  | .block l => l
  | .frame id f => [(id, f)]

/-- Whether a DATA frame continues the block of some fragments. -/
def continues (frags : List (Nat × Frame)) (f : Frame) : Bool :=
  match frags.getLast? with
  | some q => f.frag = q.2.frag + 1 && f.seq = q.2.seq && f.origin = q.2.origin && f.ostream = q.2.ostream
  | none => f.frag = 0

/-- Frames of one port cut into parcels: a block's fragments are held until LAST arrives, and the frames between them
follow (R433). Fragments whose block cannot become whole are given up (log entry 60). With the parcels, what is still
held and what is given up. -/
def parcels (frags others : List (Nat × Frame)) :
    List (Nat × Frame) → List Parcel × List (Nat × Frame) × List (Nat × Frame)
  | [] => ([], frags ++ others, [])
  | q :: r =>
    if q.2.type ≠ 0 then
      if frags = [] then
        let k := parcels [] [] r
        (.frame q.1 q.2 :: k.1, k.2)
      else parcels frags (others ++ [q]) r
    else if continues frags q.2 then
      if q.2.last then
        let k := parcels [] [] r
        (.block (frags ++ [q]) :: others.map (fun o => .frame o.1 o.2) ++ k.1, k.2)
      else parcels (frags ++ [q]) others r
    else
      let freed := others.map (fun o => Parcel.frame o.1 o.2)
      if q.2.frag = 0 then
        if q.2.last then
          let k := parcels [] [] r
          (freed ++ .block [q] :: k.1, k.2.1, frags ++ k.2.2)
        else
          let k := parcels [q] [] r
          (freed ++ k.1, k.2.1, frags ++ k.2.2)
      else
        let k := parcels [] [] r
        (freed ++ k.1, k.2.1, frags ++ q :: k.2.2)

/-- A block put together from its fragments, on a stream, with the port that it came from in MAKER's place (R363, R432). -/
def forwardBlock (stream from_ : Nat) (l : List (Nat × Frame)) : Block :=
  let f := ((l.head?).map (·.2)).getD ⟨0, 0, 0, [], 0, 0, true, 0, 0⟩
  let words := l.flatMap (fun q => q.2.words)
  let h := (words.headD 0).toNat
  ⟨⟨stream, BitVec.ofNat 32 (bits h 63 32), BitVec.ofNat 48 f.seq, bits h 23 16⟩, false, false, false, bits h 28 24, [],
    words, from_, none, some (f.origin, f.replica, f.ostream), false⟩

/-- A REPLY packet as a reply (R439). -/
def replyOf (f : Frame) : Reply :=
  let w := (f.words.headD 0).toNat
  ⟨bits w 71 64, BitVec.ofNat 8 (bits w 63 56), bits w 47 40, bits w 39 32, BitVec.ofNat 32 w,
    (f.words.drop 1).take (bits w 55 48)⟩

/-- The way of the command that a REPLY from port p of side x answers: of those sent down that port, one whose target formed it before one
whose refusal on the way it is, and the oldest first; else the latest array command (R409, R429, R439). -/
def routeBack (s : State) (x : Side) (p : Nat) (f : Frame) : Option Route :=
  let w := (f.words.headD 0).toNat
  let fits (q : Route) : Bool := q.tag.toNat = bits w 63 56 && q.op = bits w 71 64
  let sent := (s.side x).mgt.routes.filter (fun q => fits q && q.port = some p)
  let wide := ((s.side x).mgt.routes ++ (s.side (peerOf x)).mgt.routes).filter (fun q => fits q && q.port.isNone)
  ((sent.find? (fun q => q.target = bits w 47 40)).or sent.head?).or wide.getLast?

/-- A REPLY from port p that answers a command which this module sent down returned on the transport that brought the command, whose way is
then forgotten, but an array command's, which other modules may still refuse (R409, R429, R440). -/
def returnReply (x : Side) (p : Nat) (f : Frame) (s : State) : State :=
  match routeBack s x p f with
  | none => s
  | some r =>
    let s1 := if r.port.isNone then s else s.modMgt x (fun m => { m with routes := m.routes.erase r })
    match r.via with
    | .port y q => sendFrame y q f s1
    | .spi => deliver x .spi (replyOf f) s1
    | .inner => s1

/-- Whether a parcel from port p is the REPLY to a command that this module took from its own UPLINK or service SPI and sent down (R409,
R440). -/
def ownReply (s : State) (x : Side) (p : Nat) (a : Parcel) : Bool :=
  match a with
  | .block _ => false
  | .frame _ f => f.type = 2 && (match (routeBack s x p f).map Route.via with
    | some (.port y q) => s.role y q.val = 1
    | some .spi => true
    | _ => false)

/-- Whether something that came from lace port p before a frame could leave after it, since the frame is of an earlier kind in the order of
R370: a block, or a frame that waits (R433). -/
def overtakes (s : State) (x : Side) (p : Nat) (f : Frame) : Bool :=
  let k := (s.side x).lnk
  k.egress.any (·.cameOver p) || k.ports.any (fun e => e.2.blocks.any (·.cameOver p) || e.2.waiting.any (fun g =>
    cameOver s x p g && decide (framePrio f.type < framePrio g.type)))

/-- A parcel from lace port q sent on (R432), in the order in which the port's frames came (R433): by a module below the master up
its LACE_UP port, by the master to its uplinks on stream 6; a REPLY to what this module itself took in on the path of its command
(R440). None while it finds no room or no port. -/
def forwardParcel (x : Side) (q : Nat) (s : State) (a : Parcel) : Option State :=
  let ahead := match a with
    | .block _ => false
    | .frame _ f => overtakes s x q f
  if ahead then none else
  match (if s.power.strapMaster || ownReply s x q a then none else s.upPort x) with
  | some p =>
    if (s.port x p).state ≠ .up then none
    else
      match a with
      | .block l => some (portNext x p (s.modPort x p (fun k => { k with
          blocks := k.blocks ++ [forwardBlock ((l.head?.map (·.2.stream)).getD 0) q l] })))
      | .frame _ f => some (sendFrame x p f s)
  | none =>
    match a with
    | .block l =>
      let b := forwardBlock 6 q l
      if egressRoom s x b.words.length then some (s.modLnk x (fun k => { k with egress := k.egress ++ [b] })) else none
    | .frame _ f =>
      if f.type = 2 then some (returnReply x q f s)
      else (leastLoaded s x (sameWay s x q (servingPorts s x 6))).map (fun p => sendFrame x p { f with stream := 6 } s)

/-- Lace frames read from the store, as far as its channels allow, and whether all have been (R310, R329). -/
def fetchFrames (x : Side) (l : List (Nat × Frame)) (s : State) : State × Bool :=
  l.foldl (fun (a : State × Bool) q =>
    match findItem a.1 x q.1 with
    | some (_, i) =>
      let d := fetchItem x 3 i a.1
      (d.1, a.2 && d.2.isSome)
    | none => a) (s, true)

/-- Lace frames that have been forwarded or given up freed in the store (R321). -/
def freeFrames (x : Side) (l : List (Nat × Frame)) (s : State) : State := l.foldl (fun t q => freeItem x q.1 t) s

/-- Parcels sent on one after another as far as they can leave, and those that cannot yet. -/
def forwardAll (x : Side) (p : Nat) : List Parcel → State → State × List Parcel
  | [], s => (s, [])
  | k :: r, s =>
    match forwardParcel x p s k with
    | some t => forwardAll x p r (freeFrames x k.frames t)
    | none => (s, k :: r)

/-- A LACE_MERGE item's work on engine e (R432, R433): it waits while its frames cannot be read or some cannot leave, and holds those with
what it holds of unfinished blocks. -/
def mergeFrames (x : Side) (e p : Nat) (l : List (Nat × Frame)) (s0 : State) : Passed :=
  let q := parcels [] [] (Sparse.get (s0.side x).lce.hold p [] ++ l)
  let r := fetchFrames x (q.1.flatMap Parcel.frames ++ q.2.2) s0
  if !r.2 then .waits r.1
  else
    let a := forwardAll x p q.1 r.1
    let t := (freeFrames x q.2.2 a.1).modLce x (fun d => { d with
      hold := Sparse.set d.hold p (a.2.flatMap Parcel.frames ++ q.2.1) [] })
    if a.2 = [] then .done t
    else .waits (t.modEng x e (fun g => { g with item := g.item.map (fun i => ({ i.1 with work := .merge p [] }, i.2)) }))

/-- LACE_MERGE (R255, R432, R433). -/
def execLaceMerge (dt : Nat) (x : Side) (e : Fin 48) (s0 : State) : Host.Outcome State Fault Refusal :=
  .next (complete x e 3 (fun w s => match w with
    | .merge p l => mergeFrames x e p l s
    | _ => .done s) (s0.elapse dt))

end Sys2Proof.Machine
end

