-- ==== Sys2Proof/Machine/Housekeeping.lean ====
section
/-!
DEFINITION. Housekeeping, loop output and pins (chapter "Housekeeping, loop output and pins"): regular and injected
conversions, the bias-current range, limits and alarms, HK_CAL, the loop output, and the multipurpose pins.
-/

namespace Sys2Proof.Machine

/-- Housekeeping changed by f. -/
def State.modHk (s : State) (f : Hk → Hk) : State := { s with hk := f s.hk }

/-- Pin i. -/
def State.pin (s : State) (i : Nat) : Pin := Sparse.get s.pins i Pin.idle

/-- Pin i changed by f. -/
def State.modPin (s : State) (i : Nat) (f : Pin → Pin) : State := { s with pins := Sparse.upd s.pins i Pin.idle f }

/-- Whether the base tier is up, so that housekeeping, the loop and the pins run (R525, R537). -/
def State.baseUp (s : State) : Bool := s.power.mode = .standby || (s.power.mode = .active && decide (1 ≤ s.power.step))

/-! ### The regular sequence (R499, R500, R517) -/

/-- The regular sequence as the registers give it now. -/
def regularList (s : State) : List Nat :=
  (List.range (min 64 (s.rf Reg.HK_SEQ_LEN 6 0))).map (fun n => s.rf (Reg.HK_SEQ n) 5 0)

/-- The regular sequence goes on: its next conversion begins, at the start of a pass under the registers as they are,
unless it is paused or empty, or something else converts. -/
def hkResume (s : State) : State :=
  if s.hk.inj.isSome || s.hk.cal.isSome || s.hk.began.isSome || s.rb Reg.HK_CTRL 0 then s
  else
    let s1 := if s.hk.inPass then s else s.modHk (fun h => { h with seq := regularList s })
    if s1.hk.seq = [] then s1 else s1.modHk (fun h => { h with began := some s.clock.ticks, inPass := true })

/-- The place after a regular conversion, and the pass counted at its end (R499, R516). -/
def hkAdvance (s : State) : State :=
  let p := s.hk.pos + 1
  if p < s.hk.seq.length then s.modHk (fun h => { h with
    pos := p
    began := none })
  else (s.count Reg.HK_STATUS 31 16 1).modHk (fun h => { h with
    pos := 0
    inPass := false
    began := none })

/-! ### The injected sequence (R500) -/

/-- A trigger of the injected sequence: it starts and aborts the regular conversion in progress, or is missed. -/
def injTrigger (s : State) : State :=
  if s.hk.inj.isSome then s.bump Reg.HK_INJ_STATUS 31 16 1
  else
    let l := (List.range (min 8 (s.rf Reg.HK_INJ_CTRL 11 8))).map (fun n => s.rf (Reg.HK_INJ n) 5 0)
    if l = [] then s
    else (s.count Reg.HK_INJ_STATUS 15 0 1).modHk (fun h => { h with
      inj := some (l, 0, s.clock.ticks)
      began := none })

/-! ### Results (R498, R501, R502) -/

/-- The range in which HK48 converts (R501). -/
def biasRange (s : State) : Nat :=
  if s.rb Reg.HK_BIAS_CTRL 11 then min 5 (s.rf Reg.HK_BIAS_CTRL 10 8) else s.hk.range

/-- The range after a conversion of HK48 (R501). -/
def nextRange (s : State) (code : Int) (ovr : Bool) : Nat :=
  let r := biasRange s
  if s.rb Reg.HK_BIAS_CTRL 11 then r
  else if (ovr || decide (7969178 ≤ code.natAbs)) && decide (r < 5) then r + 1
  else if !ovr && decide (code.natAbs < 671089) && decide (0 < r) then r - 1
  else r

/-- A raw conversion as it is recorded: full scale when the input lies beyond it (R498), 0 on a reserved channel (R497). -/
def recordedCode (c : Nat) (code : Int) (ovr : Bool) : Int × Bool :=
  if 60 ≤ c then (0, false)
  else if ovr then (if code < 0 then -8388608 else 8388607, true)
  else (clampI (-8388608) 8388607 code, false)

/-- The result word of a channel after a conversion (R502, R516); a reserved channel reads 0 (R497). -/
def resultWord (s : State) (c : Nat) (inj : Bool) (code : Int) (ovr : Bool) : Word :=
  if 60 ≤ c then 0
  else BitVec.ofNat 32 ((if c = 48 then biasRange s else 0) * 2 ^ 29 + b2n inj * 2 ^ 28 + b2n ovr * 2 ^ 27
    + (s.rf (Reg.HK_RESULT c) 26 24 + 1) % 8 * 2 ^ 24 + unsigned 24 code)

/-! ### Limits (R504, R505) -/

/-- The HK_ALARM register of a channel. -/
def alarmReg (c : Nat) : Nat := if c < 32 then Reg.HK_ALARM else Reg.HK_ALARM_4

/-- Whether a channel is in alarm. -/
def inAlarm (s : State) (c : Nat) : Bool := s.rb (alarmReg c) (c % 32)

/-- Whether a result lies beyond the limits of its channel (R504). -/
def beyond (s : State) (c : Nat) (code : Int) (ovr : Bool) (range : Nat) : Bool :=
  let out := ovr || decide (code < (s.rd (Reg.HK_LIM_LO c)).toInt) || decide ((s.rd (Reg.HK_LIM_HI c)).toInt < code)
  if c = 48 then decide (range ≠ s.rf (Reg.HK_LIM_CTRL c) 6 4) || out else out

/-- The tiles over a front-tier diode (R497). -/
def diodeTiles (c : Nat) : List Nat :=
  (List.range 64).filter (fun t => t / 16 = c / 4 && t % 8 / 2 = c % 4)

/-- A channel enters alarm (R505). -/
def enterAlarm (c : Nat) (s : State) : State :=
  let s1 := (s.wf (alarmReg c) (c % 32) (c % 32) 1).modHk (fun h => { h with good := Sparse.del h.good c })
  if !s.rb (Reg.HK_LIM_CTRL c) 2 then raiseBase 534 sevNotice c s1
  else
    let s2 := if c < 16 then (diodeTiles c).foldl (fun k t => raiseTile t 7 sevFault c k) s1 else s1
    raiseBase 532 sevFault c s2

/-- A channel leaves alarm, or is taken out of it (R504). -/
def leaveAlarm (c : Nat) (s : State) : State :=
  (s.wf (alarmReg c) (c % 32) (c % 32) 0).modHk (fun h => { h with good := Sparse.del h.good c })

/-- A result checked against its limits; with it, whether it is a temperature-alarm trigger (R504, R505). -/
def checkLimits (c : Nat) (code : Int) (ovr : Bool) (range : Nat) (s : State) : State × Bool :=
  if !s.rb (Reg.HK_LIM_CTRL c) 0 then (s, false)
  else if beyond s c code ovr range then
    if inAlarm s c then (s.modHk (fun h => { h with good := Sparse.del h.good c }), false)
    else (enterAlarm c s, s.rb (Reg.HK_LIM_CTRL c) 2)
  else if !inAlarm s c then (s, false)
  else if Sparse.get s.hk.good c 0 = 3 then (leaveAlarm c s, false)
  else (s.modHk (fun h => { h with good := Sparse.upd h.good c 0 (· + 1) }), false)

/-! ### Dosimeters (R561) -/

/-- A result of dosimeter d (R561). -/
def dosimeter (d : Nat) (code : Int) (s : State) : State :=
  let b := s.bg
  let base := b.baseline.getD d 0
  if s.rb Reg.HK_DOSE_CTRL 16 then s
  else if b.recharging.getD d false then
    { s with bg := { b with baseline := b.baseline.set d code, recharging := b.recharging.set d false } }
  else
    let low := code < base
    { s with bg := { b with
      inc := if low then b.inc.set d (nth b.inc d + (base - code).toNat * s.rf (Reg.HK_DOSE_CAL d) 15 0) else b.inc
      baseline := if low then b.baseline.set d code else b.baseline
      recharging := b.recharging.set d (decide (code < 2097152)) } }

/-! ### The loop output's level (R508, R509) -/

/-- The loop's source channel, as the last update took it (R508, R517). -/
def loopChan (s : State) : Nat := bits s.hk.loopSet.ctrl.toNat 5 0

/-- Whether the loop gives its fault level, under its registers as the last update took them (R509, R517). -/
def loopFault (s : State) : Bool :=
  let c := loopChan s
  let k := s.hk.loopSet
  !bit k.ctrl.toNat 9 || decide (k.zero = k.span) || s.rb (Reg.HK_RESULT c) 27
  || decide (60 ≤ c) || (match Sparse.get s.hk.latest c none with
    | some t => decide (15000000000 ≤ s.clock.ticks - t)
    | none => true)

/-- The loop current in µA (R508, R509). -/
def loopCurrent (s : State) : Nat :=
  if loopFault s then (if bit s.hk.loopSet.ctrl.toNat 8 then 21000 else 3600)
  else
    let code := signed 24 (s.rd (Reg.HK_RESULT (loopChan s))).toNat
    let z := s.hk.loopSet.zero.toInt
    (clampI 3800 20500 (4000 + (16000 * (code - z)).fdiv (s.hk.loopSet.span.toInt - z))).toNat

/-- The loop set from its channel or to its fault level. -/
def setLoop (s : State) : State :=
  (s.wf Reg.HK_LOOP_STATUS 31 16 (loopCurrent s)).wf Reg.HK_LOOP_STATUS 1 1 (b2n (loopFault s))

/-- A loop update: the registers as they are taken, and the loop set (R508, R517). -/
def updateLoop (s : State) : State :=
  setLoop (s.modHk (fun h => { h with loopSet := ⟨s.rd Reg.HK_LOOP_CTRL, s.rd Reg.HK_LOOP_ZERO, s.rd Reg.HK_LOOP_SPAN⟩ }))

/-- The loop after a result of its channel: the fault level is given and left at once (R509). -/
def loopSettle (s : State) : State :=
  if s.baseUp && (loopFault s || s.rb Reg.HK_LOOP_STATUS 1) then setLoop s else s

/-! ### A result (R497–R505) -/

/-- A supply monitor's result on its internal rail, HK39 to HK47: event 514 as the rail goes out of limits, which the spec leaves open
(R472, R497, log entry 147). -/
def railCheck (c : Nat) (code : Int) (s : State) : State :=
  if c < 39 ∨ 47 < c then s
  else if !Config.railOut c code then s.modHk (fun h => { h with rails := h.rails.filter (· ≠ c) })
  else if s.hk.rails.contains c then s
  else raiseBase 514 sevCritical noInst (s.modHk (fun h => { h with rails := c :: h.rails }))

/-- A conversion completed on a channel: its result, its limits, the bias range and the dosimeters; with it, whether a
temperature alarm triggers the injected sequence (R497–R505, R561); with VIN back inside its limits a waiting list update begins (R460). -/
def hkResult (c : Nat) (inj : Bool) (raw : Int) (rawOver : Bool) (s : State) : State × Bool :=
  let q := recordedCode c raw rawOver
  let range := biasRange s
  let s1 := (s.wr (Reg.HK_RESULT c) (resultWord s c inj q.1 q.2)).modHk (fun h => { h with
    latest := Sparse.set h.latest c (some s.clock.ticks) none
    range := if c = 48 then nextRange s q.1 q.2 else h.range })
  let s2 := if 50 ≤ c ∧ c ≤ 53 then dosimeter (c - 50) q.1 s1 else beginUpdate s1
  checkLimits c q.1 q.2 range (railCheck c q.1 (if loopChan s2 = c then loopSettle s2 else s2))

/-- A temperature-alarm trigger where TEMP_EN allows it (R500). -/
def tempTrigger (q : State × Bool) : State :=
  if q.2 && q.1.rb Reg.HK_INJ_CTRL 1 then injTrigger q.1 else q.1

/-- HK_CONVERSION_DONE (R499, R501–R505): the regular conversion in progress, 40 ms after it began. -/
def execHkConversionDone (dt : Nat) (code : Int) (ovr : Bool) (s0 : State) : Host.Outcome State Fault Refusal :=
  let s := s0.elapse dt
  match s.hk.began with
  | none => .next s
  | some t =>
    if !s.baseUp || s.clock.ticks < t + 120000000 then .next s
    else
      let q := hkResult (nth s.hk.seq s.hk.pos) false code ovr (hkAdvance s)
      .next (tempTrigger (hkResume q.1, q.2))

/-- The injected sequence ends: a suspended HK_CAL starts again from its beginning, else the regular sequence resumes
(R500, R507). -/
def injEnd (s : State) : State :=
  let s1 := s.modHk (fun h => { h with inj := none })
  if s.hk.cal.isSome then s1.modHk (fun h => { h with cal := some s.clock.ticks }) else hkResume s1

/-- HK_INJECTED_CONVERSION_DONE (R500): 2.5 ms after its beginning; the sequence goes on or ends. -/
def execHkInjectedConversionDone (dt : Nat) (code : Int) (ovr : Bool) (s0 : State) : Host.Outcome State Fault Refusal :=
  let s := s0.elapse dt
  match s.hk.inj with
  | none => .next s
  | some (l, p, t) =>
    if !s.baseUp || s.clock.ticks < t + 7500000 then .next s
    else
      let s1 := tempTrigger (hkResult (nth l p) true code ovr s)
      if p + 1 < l.length then .next (s1.modHk (fun h => { h with inj := some (l, p + 1, s.clock.ticks) }))
      else .next (injEnd s1)

/-- INJ_START (R500): a write of HK_INJ_CTRL with START set. -/
def injStart (s : State) : State := injTrigger s

/-! ### Over-current (R503) -/

/-- OVERCURRENT_TRIP (R503): the comparator, when it is armed and not off, sees a bias current, in µA, above OC_THR × 40 µA. -/
def execOvercurrentTrip (dt : Nat) (current : Nat) (s0 : State) : Host.Outcome State Fault Refusal :=
  let s := s0.elapse dt
  let thr := s.rf Reg.HK_BIAS_CTRL 7 0
  if !s.baseUp || thr = 0 || current ≤ thr * 40 || s.hk.tripped.isSome then .next s
  else
    let s1 := (raiseBase 533 sevCritical noInst (s.raiseBit Reg.HK_STATUS 3)).modHk (fun h => { h with tripped := some s.clock.ticks })
    .next (if s.rb Reg.HK_INJ_CTRL 0 then injTrigger s1 else s1)

/-- OVERCURRENT_REARM (R503); below: the ticks for which the current has stayed below the threshold since the trip, at least 1 ms. -/
def execOvercurrentRearm (dt : Nat) (below : Nat) (s0 : State) : Host.Outcome State Fault Refusal :=
  let s := s0.elapse dt
  match s.hk.tripped with
  | some t => if 3000000 ≤ below ∧ t + below ≤ s.clock.ticks then .next (s.modHk (fun h => { h with tripped := none })) else .next s
  | none => .next s

/-! ### HK_CAL (R506, R507) -/

/-- HK_CAL (R506): the conversion in progress is aborted. -/
def execHkCal (dt : Nat) (c : Ctx) (s : State) : Host.Outcome State Fault Refusal :=
  .next (command dt c .hkCal noPar
    (fun _ s =>
      if s.hk.cal.isSome then refuse s .busy
      else .done (s.modHk (fun h => { h with
        cal := some s.clock.ticks
        began := none })) .accepted 0 []) s)

/-- One path's factors written (R506, R516). -/
def writePath (s : State) (q : PathFactor × Nat) : State :=
  (s.wr (Reg.HK_CAL_OFS q.2) q.1.offset).wr (Reg.HK_CAL_GAIN q.2) (BitVec.ofNat 32 (2 ^ 31 + q.1.gain.toNat))

/-- HK_CAL_DONE (R506): 96 ms after HK_CAL last began; factors are those measured, path 0 first. -/
def execHkCalDone (dt : Nat) (factors : List PathFactor) (s0 : State) : Host.Outcome State Fault Refusal :=
  let s := s0.elapse dt
  match s.hk.cal with
  | none => .next s
  | some t =>
    if !s.baseUp || s.hk.inj.isSome || factors.length ≠ 7 || s.clock.ticks < t + 288000000 then .next s
    else
      let s1 := (factors.zipIdx.foldl writePath s).wf Reg.HK_STATUS 0 0 1
      .next (hkResume (raiseBase 535 sevInfo noInst (s1.modHk (fun h => { h with cal := none }))))

/-! ### The loop output between its sources (R508, R510) -/

/-- LOOP_UPDATE (R508, R509): once at each multiple of 100 ms of array time. -/
def execLoopUpdate (dt : Nat) (s0 : State) : Host.Outcome State Fault Refusal :=
  let s := s0.elapse dt
  let k := s.now.toNat / 300000000
  if !s.baseUp || k = s.hk.loopTick then .next s else .next (updateLoop (s.modHk (fun h => { h with loopTick := k })))

/-- Whether a delivered loop current, in µA, differs from the set value by more than 0.5 mA (R510). -/
def loopDiffers (s : State) (current : Nat) : Bool :=
  let set := s.rf Reg.HK_LOOP_STATUS 31 16
  decide (set + 500 < current) || decide (current + 500 < set)

/-- LOOP_OPEN_DETECT (R510): the delivered current, in µA, differs from the set value, and has for held ticks, at least 1 s. -/
def execLoopOpenDetect (dt : Nat) (current held : Nat) (s0 : State) : Host.Outcome State Fault Refusal :=
  let s := s0.elapse dt
  if !s.baseUp || s.rb Reg.HK_LOOP_STATUS 2 || !loopDiffers s current || held < 3000000000 then .next s
  else .next (raiseBase 536 sevFault noInst (s.wf Reg.HK_LOOP_STATUS 2 2 1))

/-- LOOP_OPEN_CLEAR (R510): the delivered current, in µA, and the set value agree again. -/
def execLoopOpenClear (dt : Nat) (current : Nat) (s0 : State) : Host.Outcome State Fault Refusal :=
  let s := s0.elapse dt
  if loopDiffers s current then .next s else .next (s.wf Reg.HK_LOOP_STATUS 2 2 0)

/-! ### Multipurpose pins (R511–R515) -/

/-- A pin's function (R512). -/
def pinFunc (s : State) (i : Nat) : Nat := s.rf (Reg.MP_CTRL i) 3 0

/-- Whether a function is an input. -/
def inputFunc (f : Nat) : Bool := 1 ≤ f && f ≤ 3

/-- Whether a pin switches (R514). -/
def switching (s : State) (i : Nat) : Bool := (s.pin i).switch.isSome

/-- A pin's level after INV (R512). -/
def pinLevel (s : State) (i : Nat) (pad : Bool) : Bool := pad != s.rb (Reg.MP_CTRL i) 5

/-- A pin's bits of MP_IN: whether it switches, and the level its consumers see. -/
def setPinIn (i : Nat) (sw level : Bool) (s : State) : State :=
  (s.wf Reg.MP_IN (16 + i) (16 + i) (b2n sw)).wf Reg.MP_IN i i (b2n level)

/-- Whether ALARM_OUT is high (R512). -/
def alarmOut (s : State) : Bool := (List.range 64).any (fun c => inAlarm s c && s.rb (Reg.HK_LIM_CTRL c) 3)

/-- The level that a pin under a control word drives at its pad at a time, after INV, or none (R224, R512). -/
def driveBy (s : State) (i : Nat) (ctrl : Word) (at_ : Time) : Option Bool :=
  (match bits ctrl.toNat 3 0 with
    | 4 => some (s.rb Reg.MP_OUT i)
    | 5 => some ((Sparse.get s.trg.pulses i []).any (fun q => reached at_ q.1 && !reached at_ q.2))
    | 6 => some (alarmOut s)
    | _ => none).map (· != bit ctrl.toNat 5)

/-- The level that a pin drives at its pad, or none: of its function while it does not switch, and of the old one for the first 2 ticks of a
switch (R514). -/
def pinDrive (s : State) (i : Nat) : Option Bool :=
  match (s.pin i).switch with
  | none => driveBy s i (s.rd (Reg.MP_CTRL i)) s.now
  | some (t, _) => if s.clock.ticks < t + 2 then driveBy s i (s.pin i).old s.now else none

/-- The level at which the weak keeper holds the pad of a pin that switches, from tick 2 until the new function attaches (R514). -/
def pinKeeper (s : State) (i : Nat) : Option Bool :=
  match (s.pin i).switch with
  | some (t, none) => if s.clock.ticks < t + 2 then none else some (s.pin i).pad
  | _ => none

/-- A pin in the first 2 ticks of its switch: the level that the keeper will hold is the old output's in the last of them, tick 1 (R514). -/
def keepLevel (t i : Nat) (s : State) : State :=
  s.modPin i (fun p => { p with pad := (driveBy s i p.old (if s.clock.ticks ≤ t then s.now + 1 else s.now)).getD p.pad })

/-- What a write of MP_OUT does to the outputs that still drive while their pins switch (R514). -/
def keepLevels (s : State) : State :=
  (List.range 12).foldl (fun k i => match (k.pin i).switch with
    | some (t, none) => if k.clock.ticks < t + 2 then keepLevel t i k else k
    | _ => k) s

/-- A write of MP_CTRL that changes FUNC or INV: the old input function is forced inactive without an edge; the old output drives on until
tick 2, with the pulses that have begun by then, and the pad keeps its last level (R514, R515). -/
def switchPin (i : Nat) (w : Word) (s : State) : State :=
  let s1 := setPinIn i true false (s.wr (Reg.MP_CTRL i) (BitVec.ofNat 32 (w.toNat % 64 - w.toNat % 32 + w.toNat % 16)))
  keepLevel s.clock.ticks i ((s1.modPin i (fun p => { p with
    switch := some (s.clock.ticks, none)
    old := s.rd (Reg.MP_CTRL i) })).modTrg (fun g => { g with
    pulses := Sparse.upd g.pulses i [] (fun l => l.filter (fun q => reached (s.now + 1) q.1)) }))

/-- What refuses a write of MP_CTRL (R512, R515). -/
def mpRefusal (s : State) (i : Nat) (w : Word) : Option Status :=
  if 7 ≤ bits w.toNat 3 0 then some .badParam else if switching s i then some .busy else none

/-- A write of MP_CTRL that is not refused (R514, R515). -/
def writeMp (i : Nat) (w : Word) (s : State) : State :=
  if bits w.toNat 3 0 = pinFunc s i && bit w.toNat 5 = s.rb (Reg.MP_CTRL i) 5 then s else switchPin i w s

/-- KEEPER_RELEASE (R514): the new function attaches. -/
def execKeeperRelease (dt : Nat) (i : Fin 12) (s0 : State) : Host.Outcome State Fault Refusal :=
  let s := s0.elapse dt
  match (s.pin i).switch with
  | some (t, none) =>
    if !s.baseUp || s.clock.ticks < t + 183105 then .next s
    else
      let s1 := raiseBase 537 sevInfo i s
      if inputFunc (pinFunc s i) then .next (s1.modPin i (fun p => { p with switch := some (t, some s.clock.ticks) }))
      else .next (setPinIn i false false (s1.modPin i (fun p => { p with switch := none })))
  | _ => .next s

/-- IGNORE_WINDOW_END (R514, R515): a new input function takes the pad's level without an edge. -/
def execIgnoreWindowEnd (dt : Nat) (i : Fin 12) (s0 : State) : Host.Outcome State Fault Refusal :=
  let s := s0.elapse dt
  match (s.pin i).switch with
  | some (_, some u) =>
    if !s.baseUp || s.clock.ticks < u + 183106 then .next s
    else .next (setPinIn i false (pinLevel s i (s.pin i).pad) (s.modPin i (fun p => { p with switch := none })))
  | _ => .next s

/-- An edge of an MP pin with function TRIG_IN delivered to frame mode, which takes those that FRM_CTRL selects (R143). -/
def frameEdge (i : Nat) (rising : Bool) (s : State) : State :=
  if (s.trg.run = .armed || s.trg.run = .running) && extWanted s i rising then
    s.modFrames (fun f => { f with ext := f.ext ++ [(i, rising, s.now)] })
  else s

/-- A pad's new level, and the edge that its consumers see (R216, R500, R512, R513). -/
def padLevel (i : Nat) (level : Bool) (s : State) : State :=
  let s1 := s.modPin i (fun p => { p with pad := level })
  let v := pinLevel s i level
  if !s.baseUp || !inputFunc (pinFunc s i) || switching s i || v = s.rb Reg.MP_IN i then s1
  else
    let s2 := s1.wf Reg.MP_IN i i (b2n v)
    if pinFunc s i = 1 then frameEdge i v (pushHit ⟨if v then 4 else 5, i, s.now, 0, s.now⟩ s2)
    else if pinFunc s i = 2 && v && s.rb Reg.HK_INJ_CTRL 2 then injTrigger s2
    else s2

/-- MP_PIN_EDGE (R30, R512). -/
def execMpPinEdge (dt : Nat) (i : Fin 12) (level : Bool) (s0 : State) : Host.Outcome State Fault Refusal :=
  .next (padLevel i level (s0.elapse dt))

/-- HK_INJECT_PIN_EDGE (R500): a rising edge, after INV, on a pin whose function is HK_INJECT. -/
def execHkInjectPinEdge (dt : Nat) (i : Fin 12) (s0 : State) : Host.Outcome State Fault Refusal :=
  let s := s0.elapse dt
  if pinFunc s i = 2 then .next (padLevel i (!s.rb (Reg.MP_CTRL i) 5) s) else .next s

/-- Whether a write of MP_BANK is refused (R511). -/
def bankRefusal (s : State) (w : Word) : Option Status :=
  let moves (b : Nat) : Bool := bit w.toNat b ≠ s.rb Reg.MP_BANK b &&
    (List.range 6).any (fun k => pinFunc s (6 * b + k) ≠ 0 || switching s (6 * b + k))
  if moves 0 || moves 1 then some .wrongState else none

end Sys2Proof.Machine
end

