-- ==== Sys2Proof/Machine/Nvm.lean ====
section
/-!
DEFINITION. The NVM of the sides (chapter "Commands, privilege and measurement"): Lasts stored and loaded, the firmware
patch and the microcode, and the measurement registers and their log.
-/

namespace Sys2Proof.Machine

/-- f done for every side that is IN_SERVICE. -/
def onServing (f : Side → State → State) (s : State) : State := s.both (fun x t => if t.serving x then f x t else t)

/-! ### Measurement (R463, R464) -/

/-- Measurement register m extended by content of which dg is the SHA-384, and the log entry (R463, R464). -/
def extend (x : Side) (m kind arg : Nat) (dg : BitVec 384) (s : State) : State :=
  let g := (s.side x).mgt
  let v := sha384 (bytesBE 48 (Sparse.get g.meas m 0).toNat ++ bytesBE 48 dg.toNat)
  let s1 := s.modMgt x (fun g => { g with meas := Sparse.set g.meas m v 0 })
  if g.log.length < 128 then s1.modMgt x (fun g => { g with log := g.log ++ [⟨m, kind, arg, dg⟩] })
  else
    let s2 := s1.bump (Reg.MSR_LOG_STATUS x) 31 16 1
    if s.rf (Reg.MSR_LOG_STATUS x) 31 16 = 0 then raiseSide x 549 sevNotice noInst s2 else s2

/-- The bytes of an image (R461). -/
def Image.toBytes (i : Image) : List Nat := (List.range i.size).map (fun k => (Sparse.get i.bytes k 0).toNat)

/-- What the boot ROM of a side measures (R463): ROM, active patch, active microcode, current lists. -/
def bootMeasure (x : Side) (s : State) : State :=
  let g := (s.side x).mgt
  let micro := if g.activeMicro.size = 0 then Config.microDigest else sha384 g.activeMicro.toBytes
  let s1 := extend x 0 0x01 0 Config.romDigest s
  let s2 := extend x 1 0x02 0 (sha384 g.activePatch.toBytes) s1
  let s3 := extend x 2 0x03 0 micro s2
  extend x 5 0x07 0 (Config.freeDigest s3.freeCount) s3.took

/-! ### What a command on the NVM needs (R456, R457, R461) -/

/-- Whether the peer of a side is OUT_OF_SERVICE or in RESYNC. -/
def peerAway (s : State) (x : Side) : Bool :=
  s.arb.svc.get (peerOf x) = .out || s.arb.svc.get (peerOf x) = .resync

/-- Whether an operation that R456 names is in progress; a list update that only waits for VIN is none (R460). -/
def nvmBusy (s : State) : Bool := s.pix.apply.isSome || s.bg.updating.isSome || s.bg.storing

/-- What refuses LAST_STORE, LAST_LOAD or PATCH_LOAD for the module's state (R456, R457, R461). -/
def nvmRefusal (s : State) (x : Side) (ready : Bool) : Option Status :=
  if peerAway s x then some .sideDown
  else if s.trg.run ≠ .idle then some .wrongState
  else if nvmBusy s then some .busy
  else if !ready then some .notReady
  else none

/-! ### Lasts (R455–R459) -/

/-- Whether a Last holds the RW fields of the register at an address (R455): all of base control, the tiles and the
sides, but LCE_MODULE_ID and LCE_ASYM. -/
def inLast (a : Nat) : Bool :=
  let o := a % 0x01000000
  !(decide (0x01000000 ≤ a) && (o = 0x80008 || o = 0x80020)) && rwBits a ≠ 0

/-- A register word with its RW fields as they are and every other bit at reset. -/
def rwWord (a : Nat) (w : Word) : Word := mixBits (resetWord a) (rwBits a) w

/-- The registers as a Last stores them: applied thresholds and polarity stand in the place of those of the shadow
(R455, R457). -/
def lastRegs (s : State) : Sparse Word :=
  let t1 := (List.range 64).foldl (fun k t => k.wr (Reg.PIX_THR t) (s.rd (Reg.PIX_THR_APPLIED t))) s
  let t2 := t1.wr Reg.PIX_MODE (s.rd Reg.PIX_MODE_APPLIED)
  t2.regs.foldl (fun m e => if inLast e.1 then Sparse.set m e.1 (rwWord e.1 e.2) (resetWord e.1) else m) []

/-- A slot of a side written (R456, R458); ok: it reads back correctly. The image starts one 4 KiB page further on in the slot's 384, and
after the last at the first (R454, R458). -/
def storeSlot (x : Side) (slot : Nat) (l : Last) (size : Nat) (ok boot : Bool) (s : State) : State :=
  let n := min (s.rf (Reg.MGT_LAST_INFO x slot) 23 0 + 1) 16777215
  let worn := 1000000 < n
  let s1 := s.modMgt x (fun g => { g with
    slots := Sparse.set g.slots slot (if ok then some l else none) none
    pages := Sparse.upd g.pages slot 0 (fun p => (p + 1) % 384)
    bootSlot := if ok && boot then slot else g.bootSlot })
  let s2 := (s1.wf (Reg.MGT_LAST_INFO x slot) 23 0 n).wr (Reg.MGT_LAST_INFO_4 x slot)
    (if ok then BitVec.ofNat 32 size else 0)
  if worn && !s.rb (Reg.MGT_LAST_INFO x slot) 30 then
    raiseSide x 546 sevNotice noInst (s2.wf (Reg.MGT_LAST_INFO x slot) 30 30 1)
  else s2

/-- LAST_STORE carried out on every side in service; the length and the digest of the image are free (R456, R458; log
entry 5). -/
def storeLast (slot : Nat) (ok boot : Bool) (s : State) : State × Status :=
  let size := s.free.toNat % 2 ^ 22
  let l : Last := ⟨s.pix.applied, lastRegs s, s.arb.twin, Config.freeDigest s.freeCount⟩
  let note (st : Status) (t : State) : State := onServing (fun x u => u.wf (Reg.MGT_STORE x) 31 24 st.code) t
  if 1572864 < size then (note .storeFailed s.took, .storeFailed)
  else
    let s1 := onServing (fun x t => storeSlot x slot l size ok boot t) s.took
    let worn := [Side.a, Side.b].any (fun x => s1.serving x && decide (1000000 < s1.rf (Reg.MGT_LAST_INFO x slot) 23 0))
    let st := if !ok then Status.storeFailed else if worn then .nvmWorn else .ok
    (note st s1, st)

/-- A slot that a store is cut in, on every side that stores: invalid, its previous contents lost; the store is in progress until the
reset that cuts it (R456, R469). -/
def cutStore (slot : Nat) (s : State) : State :=
  let s1 := onServing (fun x t => t.modMgt x (fun g => { g with slots := Sparse.set g.slots slot none none })) s
  { s1 with bg := { s1.bg with storing := true } }

/-- LAST_STORE (R456, R458): cut says that a loss of VIN or a reset, whose row follows, comes before the reply (log entry 146);
verified says whether the slot reads back correctly, and bad lists the words of the applied image that the store finds
uncorrectable as it reads them (R64). -/
def execLastStore (dt : Nat) (c : Ctx) (p1 : Word) (verified cut : Bool) (bad : List (Fin 1048576)) (s : State) :
    Host.Outcome State Fault Refusal :=
  let slot := bits p1.toNat 2 0
  .next (command dt c (.lastStore p1) (fun _ _ => param (slot ≠ 0))
    (fun x s =>
      match nvmRefusal s x (!vinOutside s) with
      | some st => refuse s st
      | none =>
        let s1 := bad.foldl (fun t p => imageError p.val t) s
        if cut then .later (cutStore slot s1)
        else
          let r := storeLast slot verified (bit p1.toNat 8) s1
          .done r.1 r.2 0 []) s)

/-- The Last in a slot of a side, if it is valid. -/
def slotOf (s : State) (x : Side) (slot : Nat) : Option Last := Sparse.get (s.side x).mgt.slots slot none

/-- Whether an address lies in the range of a side. -/
def onSide (x : Side) (a : Nat) : Bool := decide (sideBase x ≤ a) && decide (a < sideBase x + 0x01000000)

/-- Whether a load leaves an address to be written once its reply has left (R447, R457): port settings and privilege. -/
def portSetting (a : Nat) : Bool :=
  let o := a % 0x01000000
  decide (0x01000000 ≤ a) && (o = 0 || (decide (0x60000 ≤ o) && decide (o < 0x60400) && o % 0x40 = 0))

/-- A register written by a load (R72, R144): pins switch, limits that are off end their alarm (R504, R514). -/
def loadWord (a : Nat) (w : Word) (s : State) : State :=
  if awlLocked s a then s
  else if a = Reg.FRM_PERIOD then writeFramePeriod w s
  else if 0x30010 ≤ a ∧ a < 0x30040 then
    let i := (a - 0x30010) / 4
    if bits w.toNat 3 0 = pinFunc s i && bit w.toNat 5 = s.rb a 5 then s else switchPin i w s
  else if 0x20800 ≤ a ∧ a < 0x20C00 ∧ a % 16 = 0 ∧ !bit w.toNat 0 then
    leaveAlarm ((a - 0x20800) / 16) (s.wr a (mixBits (s.rd a) (rwBits a) w))
  else
    let s1 := s.wr a (mixBits (s.rd a) (rwBits a) w)
    if a = Reg.LCE_CTRL s.arb.primary then refChanged s.arb.primary (s.rf a 2 1) s1 else s1

/-- The registers of a Last that lie in a part of the map written: those it does not list go to their reset values. -/
def loadRegs (l : Last) (part : Nat → Bool) (s : State) : State :=
  let back := s.regs.filter (fun e => inLast e.1 && part e.1 && !(l.regs.any (fun q => q.1 = e.1)))
  let s1 := back.foldl (fun t e => loadWord e.1 (resetWord e.1) t) s
  (l.regs.filter (fun e => part e.1)).foldl (fun t e => loadWord e.1 e.2 t) s1

/-- The mode set: in TWIN no signature is compared, so those at hand go, and the inputs kept for them alone (R387, R401). -/
def setTwin (twin : Bool) (s : State) : State :=
  let s1 := { s with arb := { s.arb with twin := twin } }
  if !twin then s1
  else s1.both (fun x t => t.modWlt x (fun w => { w with
    table := []
    inbox := []
    unacked := w.unacked.filter (fun q => q.1 ≠ 3)
    retained := w.retained.filter (fun b => w.disputes.any (fun d => d.id = b.id)) }))

/-- The base-tier part of a load: shadow, registers of base control and the tiles from an address on, and the mode (R457). -/
def loadBase (first : Nat) (l : Last) (s : State) : State :=
  let s1 := s.modPix (fun k => { k with shadow := l.image })
  hkResume (setTwin l.twin (loadRegs l (fun a => decide (first ≤ a) && decide (a < 0x01000000)) s1))

/-- A side's part of a load, without its port settings (R457); an event entry that no subscription holds any more leaves (R483). -/
def loadSide (x : Side) (slot : Nat) (l : Last) (s : State) : State :=
  evSettle x ((loadRegs l (fun a => onSide x a && !portSetting a) s).wf (Reg.MGT_BOOT x) 6 4 slot)

/-- The port settings of a load, written once its reply has left, and the ports that train for them (R361, R457). -/
def loadPorts (x : Side) (l : Last) (s : State) : State :=
  let s1 := loadRegs l (fun a => onSide x a && portSetting a && a % 0x01000000 = 0) s
  (List.range 16).foldl (fun t p =>
    let a := Reg.LNK_PORT_CTRL x p
    let v := mixBits 0 (rwBits a) (Sparse.get l.regs a (resetWord a))
    if v = t.rd a then t else portCtrlWrite x p v t) s1

/-- LAST_LOAD carried out: every side in service loads its own copy of the slot (R457, R463). -/
def loadLast (slot : Nat) (w : Option Waiting) (s : State) : State :=
  let s1 := match slotOf s s.arb.primary slot with
    | some l => loadBase 0 l s
    | none => s
  let s2 := onServing (fun x t => match slotOf t x slot with
    | some l => extend x 3 0x05 slot l.digest (loadSide x slot l t)
    | none => t) s1
  beginApply (List.range 64) w s2

/-- LAST_LOAD (R49, R457): it replies after the commit. -/
def execLastLoad (dt : Nat) (c : Ctx) (slot : Word) (s : State) : Host.Outcome State Fault Refusal :=
  let n := bits slot.toNat 2 0
  .next (command dt c (.lastLoad slot) noPar
    (fun x s =>
      match nvmRefusal s x ([Side.a, Side.b].all (fun y => !s.serving y || (slotOf s y n).isSome)) with
      | some st => refuse s st
      | none => .later (loadLast n (some ⟨x, 0x21, c, s.clock.ticks⟩) s)) s)

/-- What follows the reply of a LAST_LOAD: its port settings (R457). -/
def afterLoad (s : State) : State :=
  onServing (fun x t => match slotOf t x (t.rf (Reg.MGT_BOOT x) 6 4) with
    | some l => loadPorts x l t
    | none => t) s

/-- The reply of the command that a commit completes, what follows that, and a barrier that waited for it (R55, R428, R457). -/
def commitReply (w : Waiting) (s : State) : State :=
  let s1 := formReply w.x w.ctx (replyTo s w.x w.ctx w.op .ok 0 []) s
  barrierCheck (if w.op = 0x21 then afterReply w.ctx .lastLoad afterLoad s1 else s1)

/-- CONFIG_COMMIT (R53–R55, R457): at B the commit, then the reply, then base-tier event 520 with B as its time. -/
def execConfigCommit (dt : Nat) (s0 : State) : Host.Outcome State Fault Refusal :=
  let s := stagingDone (s0.elapse dt)
  match s.pix.apply with
  | some a =>
    if reached s.now a.commitAt then
      let s1 := commitApply a s
      let s2 := match a.wait with
        | some w => commitReply w s1
        | none => s1
      .next (atTime a.commitAt (raiseBase 520 sevInfo noInst) s2)
    else .next (s0.elapse dt)
  | none => .next (s0.elapse dt)

/-- Whether the booted sides fall back to Last 0 at module start: the boot slot is invalid on one of them, or what their boot slots hold
differs (R459). -/
def bootFallsBack (s : State) (xs : List Side) : Bool :=
  let found := xs.map (fun x => (slotOf s x (s.side x).mgt.bootSlot).map (·.digest))
  !(found.all (fun d => d.isSome && some d = found.head?))

/-- The slot that a side loads at module start (R459). -/
def bootSlotOf (s : State) (xs : List Side) (x : Side) : Nat := if bootFallsBack s xs then 0 else (s.side x).mgt.bootSlot

/-- The boot slot loaded by some sides as at module start (R459, R463, R537): the first of them gives the base tier its
part, but for AON_SCRATCH, which every reset keeps (R546). -/
def loadBoot (xs : List Side) (s : State) : State :=
  let fell := bootFallsBack s xs
  let s1 := match xs.head?.bind (fun x => slotOf s x (bootSlotOf s xs x)) with
    | some l => loadBase 0x20 l s
    | none => s
  xs.foldl (fun t x =>
    let n := bootSlotOf s xs x
    let t1 := match slotOf t x n with
      | some l => extend x 3 0x04 n l.digest (loadPorts x l (loadSide x n l t))
      | none => t
    if fell then raiseSide x 544 sevFault noInst (t1.wf (Reg.MGT_BOOT x) 8 8 1) else t1) s1

/-! ### Firmware patch and microcode (R461, R462) -/

/-- Byte j of MGT_XFER of a side (R295, R461). -/
def xferByte (s : State) (x : Side) (j : Nat) : Byte :=
  BitVec.ofNat 8 (bits (s.rd (Reg.MGT_XFER x (j / 4))).toNat (8 * (j % 4) + 7) (8 * (j % 4)))

/-- Bytes put into an image from an offset on. -/
def Image.put (i : Image) (off : Nat) (l : List Byte) : Image :=
  ⟨l.zipIdx.foldl (fun m q => Sparse.set m (off + q.2) q.1 0) i.bytes, max i.size (off + l.length)⟩

/-- The staged image of a target. -/
def stagedOf (g : Mgt) (micro : Bool) : Image := if micro then g.stagedMicro else g.stagedPatch

/-- The staged image of a target replaced, and whether it stands staged. -/
def setStaged (micro : Bool) (i : Image) (ok : Bool) (g : Mgt) : Mgt :=
  if micro then { g with
    stagedMicro := i
    microOk := ok }
  else { g with
    stagedPatch := i
    patchOk := ok }

/-- FINAL on a side: the image staged up to n bytes, when its CRC matches (R461, R463). -/
def finalImage (micro : Bool) (n : Nat) (crc : Word) (x : Side) (s : State) : State :=
  let i : Image := ⟨(stagedOf (s.side x).mgt micro).bytes.filter (fun e => decide (e.1 < n)), n⟩
  let l := i.toBytes
  if crc32 l = crc.toNat then extend x 4 0x06 (b2n micro) (sha384 l) (s.modMgt x (setStaged micro i true))
  else s.modMgt x (setStaged micro (stagedOf (s.side x).mgt micro) false)

/-- PATCH_LOAD carried out: bytes from MGT_XFER of the executing side into the staged image of both (R461). -/
def patchLoad (x : Side) (micro : Bool) (off len : Nat) (crc : Option Word) (s : State) : Res :=
  let l := (List.range len).map (xferByte s x)
  let s1 := onServing (fun y t => t.modMgt y (fun g => setStaged micro ((stagedOf g micro).put off l) false g)) s
  match crc with
  | none => okRes s1
  | some v =>
    let s2 := onServing (finalImage micro (off + len) v) s1
    let g := (s2.side x).mgt
    .done s2 (if (if micro then g.microOk else g.patchOk) then .ok else .checkMismatch) 0 []

/-- PATCH_LOAD (R461, R463). -/
def execPatchLoad (dt : Nat) (c : Ctx) (p1 offset length : Word) (crc : Option Word) (s : State) :
    Host.Outcome State Fault Refusal :=
  .next (command dt c (.patchLoad p1 offset length crc)
    (fun _ _ =>
      if crc.isSome ≠ bit p1.toNat 1 then some .badLength
      else param (offset.toNat % 4 = 0 && 1 ≤ length.toNat && length.toNat ≤ 32768
        && offset.toNat + length.toNat ≤ 524288))
    (fun x s =>
      match nvmRefusal s x (!vinOutside s) with
      | some st => refuse s st
      | none => patchLoad (namedSide s c) (bit p1.toNat 0) offset.toNat length.toNat crc s) s)

/-- The staged images adopted at a module reset or power-up (R462): each that is valid on every side that boots becomes
active there, and the image before it takes its place as the fallback; one that the boot ROM does not take is not adopted. -/
def adopt (micro : Bool) (xs : List Side) (s : State) : State :=
  let ok (g : Mgt) : Bool := if micro then g.microOk else g.patchOk
  if xs = [] || !xs.all (fun x => ok (s.side x).mgt) then s
  else
    xs.foldl (fun t x =>
      let g := (t.side x).mgt
      let i := stagedOf g micro
      if Config.imageTaken (b2n micro) (sha384 i.toBytes) then
        t.modMgt x (fun g => if micro then { g with
            activeMicro := i
            stagedMicro := g.activeMicro
            microOk := false }
          else { g with
            activePatch := i
            stagedPatch := g.activePatch
            patchOk := false })
      else (t.modMgt x (setStaged micro i false)).wf (Reg.MGT_PATCH x) 1 1 1) s

/-- The patch version that a side reports (R469). -/
def noteVersion (x : Side) (s : State) : State :=
  let i := (s.side x).mgt.activePatch
  s.wf (Reg.MGT_VERSION x) 15 0 (if i.size = 0 then 0 else (Config.patchVersion (sha384 i.toBytes)).toNat)

end Sys2Proof.Machine
end

