-- ==== Sys2Proof/Machine/Welt.lean ====
section
/-!
DEFINITION. Signatures and disputes (chapter "Duplex sides and the Welt link", R385–R394): the signature table, retained
inputs, the comparison of a pair, recomputes, verdicts and their notices; and BLOCK_COMPRESSED.
-/

namespace Sys2Proof.Machine

/-- Side x's end of the Welt link. -/
def State.wlt (s : State) (x : Side) : Wlt := (s.side x).wlt

/-! ### Signatures (R385, R386) -/

/-- The signature of a block (R385). -/
def sigOf (b : Block) : Sig :=
  ⟨b.id, b.words.length, BitVec.ofNat 32 (crc32c (wordsBytes b.words)), b.words.getLastD 0⟩

/-- Whether two signatures agree (R385). -/
def Sig.agrees (p q : Sig) : Bool := p.crc = q.crc && p.length = q.length

/-- The tick at which a block's data begin, which decides whether a side that has returned sends it (R397). -/
def blockBegin (s : State) (i : BlockId) : Time :=
  let u := i.unit.toNat
  if i.stream ≠ 2 then (unitSpan s u).1
  else if i.record = 0xFFFFFFFF then
    match s.trg.marks[u % 2 ^ 46]? with
    | some m => m.time
    | none => s.runStart
  else s.trg.starts.getD i.record.toNat s.runStart

/-- Whether a side sends a block in this run (R397). -/
def sends (s : State) (x : Side) (i : BlockId) : Bool :=
  match (s.wlt x).rs with
  | some b => reached (blockBegin s i) b
  | none => true

/-- Whether a finished block gets a signature (R385, R394, R397, R401). -/
def signs (s : State) (b : Block) : Bool :=
  s.duplexed && !s.arb.twin && !b.reissue && b.fwd.isNone && sends s .a b.id && sends s .b b.id

/-! ### Notices (R391) -/

/-- A signature word (R391). -/
def sigWord (y : Side) (o : Option Sig) (verdict : Nat) : Word72 :=
  match o with
  | some g => controlWord 0x21 (g.crc.toNat * 2 ^ 32 + verdict * 2 ^ 29 + sideNum y * 2 ^ 17 + 2 ^ 16 + g.length % 8192)
  | none => controlWord 0x21 (verdict * 2 ^ 29)

/-- A BLOCK_CHECK word, absent where there is no copy (R391). -/
def checkWord (o : Option Sig) : Word72 :=
  match o with
  | some g => g.check
  | none => controlWord 0x21 0

/-- The BLOCK_HEAD words of a block: side A's copy, or else the copy that exists (R391). -/
def headsOf (s : State) (i : BlockId) : List Word72 :=
  match ((s.wlt .a).retained ++ (s.wlt .b).retained).find? (fun b => b.id = i) with
  | some b => b.words.take 2
  | none => [0, 0]

/-- The signature of side y as side x's dispute holds it. -/
def Dispute.sigOf (d : Dispute) (x y : Side) : Option Sig := if x = y then d.mine else d.theirs

/-- The payload of a DISPUTE or RESOLVED notice of side x; w6 is its word 6 (R391). -/
def disputeWords (x : Side) (d : Dispute) (w6 : Word72) : List Word72 :=
  d.heads ++ [checkWord (d.sigOf x .a), sigWord .a (d.sigOf x .a) 0, checkWord (d.sigOf x .b),
    sigWord .b (d.sigOf x .b) 0, w6, padWord]

/-! ### Disputes (R388, R389) -/

/-- WLT_LAST_DISPUTE of side x shows a block, with OPEN and VERDICT. -/
def lastDispute (x : Side) (i : BlockId) (opn : Bool) (verdict : Nat) (s : State) : State :=
  let u := i.unit.toNat
  let s1 := (s.wr (Reg.WLT_LAST_DISPUTE x) i.record).wr (Reg.WLT_LAST_DISPUTE_4 x) (BitVec.ofNat 32 u)
  (s1.wr (Reg.WLT_LAST_DISPUTE_8 x) (BitVec.ofNat 32 (u / 2 ^ 32))).wr (Reg.WLT_LAST_DISPUTE_C x)
    (BitVec.ofNat 32 (i.part % 256 * 2 ^ 24 + i.stream % 8 * 2 ^ 16 + b2n opn * 2 ^ 15 + verdict))

/-- Whether WLT_LAST_DISPUTE of side x shows a block. -/
def isLast (s : State) (x : Side) (i : BlockId) : Bool :=
  s.rd (Reg.WLT_LAST_DISPUTE x) = i.record
  && s.rd (Reg.WLT_LAST_DISPUTE_4 x) = BitVec.ofNat 32 i.unit.toNat
  && s.rd (Reg.WLT_LAST_DISPUTE_8 x) = BitVec.ofNat 32 (i.unit.toNat / 2 ^ 32)
  && s.rf (Reg.WLT_LAST_DISPUTE_C x) 31 24 = i.part % 256 && s.rf (Reg.WLT_LAST_DISPUTE_C x) 18 16 = i.stream % 8

/-- A dispute raised on side x: counted, noticed on every port of the stream, and reported (R388). -/
def raiseDispute (x : Side) (d : Dispute) (s : State) : State :=
  let s1 := lastDispute x d.id true 0 ((s.bump (Reg.WLT_DISPUTES x) 15 0 1).tally x .disputes 1)
  raiseSide x 610 sevNotice noInst (sendNotice x 0x10 d.id.stream (disputeWords x d padWord) d.ports s1)

/-- A new dispute of side x about a block: what its notices carry and where they go (R388, R391). -/
def newDispute (s : State) (x : Side) (i : BlockId) (mine theirs : Option Sig) : Dispute :=
  ⟨i, mine, theirs, none, none, [], headsOf s i, carryPorts s x i.stream⟩

/-- A pair that disagrees: a dispute, and its recompute waits for a compressor (R388). -/
def openDispute (x : Side) (mine theirs : Sig) (s : State) : State :=
  let d := newDispute s x mine.id (some mine) (some theirs)
  let b := (s.wlt x).retained.filter (fun b => b.id = mine.id)
  ((raiseDispute x d s).modWlt x (fun w => { w with disputes := w.disputes ++ [d] })).modCmp x (fun c => { c with
    ready := c.ready ++ b.map .redo })

/-- A block's retained input let go (R387). -/
def letGo (x : Side) (i : BlockId) (s : State) : State :=
  s.modWlt x (fun w => { w with retained := w.retained.filter (fun b => b.id ≠ i) })

/-- A pair compared on side x (R386). -/
def comparePair (x : Side) (mine theirs : Sig) (s : State) : State :=
  let s1 := s.count (Reg.WLT_COMPARED x) 31 0 1
  if mine.agrees theirs then letGo x mine.id s1 else openDispute x mine theirs s1

/-- A signature entered into side x's table, or compared with its partner; none while the table is full (R386). -/
def enterSig (x : Side) (own : Bool) (g : Sig) (s : State) : Option State :=
  match (s.wlt x).table.find? (fun e => e.sig.id = g.id && e.own ≠ own) with
  | some e =>
    let s1 := s.modWlt x (fun w => { w with table := w.table.erase e })
    some (if own then comparePair x g e.sig s1 else comparePair x e.sig g s1)
  | none =>
    let n := (s.wlt x).table.length
    if 16384 ≤ n then none
    else some ((s.modWlt x (fun w => { w with table := w.table ++ [⟨g, own, s.clock.ticks⟩] })).high
      (Reg.WLT_PENDING x) 31 16 (n + 1))

/-- A signature sent to the peer (R380, R385). -/
def sendSig (x : Side) (g : Sig) (s : State) : State :=
  (s.modWlt x (fun w => { w with unacked := w.unacked ++ [(3, s.clock.ticks)] })).modWlt (peerOf x) (fun w => { w with
    inbox := w.inbox ++ [g] })


/-! ### A finished block (R281–R285, R323, R385) -/

/-- A block kept for a dispute (R387). -/
def retain (x : Side) (b : Block) (s : State) : State := s.modWlt x (fun w => { w with retained := w.retained ++ [b] })

/-- A finished block's signature made, sent and entered; none while the table is full (R385, R386). -/
def signBlock (x : Side) (b : Block) (s : State) : Option State :=
  if signs s b then (enterSig x true (sigOf b) (retain x b s)).map (sendSig x (sigOf b)) else some s

/-- BLOCK_COMPRESSED (R277–R287, R323, R385, R386); flip: the bit of the first payload word that an upset in the
compressor inverts. -/
def execBlockCompressed (dt : Nat) (x : Side) (e : Fin 32) (flip : Option (Fin 72)) (s0 : State) :
    Host.Outcome State Fault Refusal :=
  let s := s0.elapse dt
  match (s.comp x e).block with
  | none => .next s
  | some b =>
    if !enginesRun s x || b.words ≠ [] || (s.comp x e).redo then .next s
    else
      let r := buildBlock b flip
      match signBlock x r.1 s with
      | none => .next s
      | some s1 =>
        let s2 := countBlock x r.1 r.2 s1
        let s3 := if sampled s2 x r.1 then enqueueItem x (.verify r.1) s2 else s2
        let q := passBlock x r.1 s3
        .next (scanReady x (if q.2 then freeCompressor x b q.1
          else q.1.modComp x e (fun k => { k with block := some r.1 })))

/-! ### Verdicts (R389) -/

/-- Whether the input of a block holds a loss word of a substitute (R389). -/
def holdsLoss (b : Block) : Bool :=
  b.input.any (fun w => isLossOf 0x05 w || [0x10, 0x11, 0x12, 0x13, 0x14, 0x15].any (fun k => isLossOf k w))

/-- The recompute of a retained block, with whether its input holds a loss word, and its words (R388, R389). -/
def recompute (b : Block) (flip : Option (Fin 72)) : (Sig × Bool) × List Word72 :=
  let r := (buildBlock { b with words := [] } flip).1
  ((sigOf r, holdsLoss b), r.words)

/-- A block that is its recompute, sent with REISSUE = 1 (R282, R389). -/
def reissueOf (b : Block) (ws : List Word72) : Block :=
  { b with
    reissue := true
    words := ws.modifyHead (· ||| 16#72)
    ring := none }

/-- The code of the verdict that names a side's copy. -/
def verdictFor (x : Side) : Nat := sideNum x

/-- The verdict on side x's dispute once both recomputes exist (R389). -/
def verdictOf (x : Side) (d : Dispute) (mine theirs : Sig × Bool) : Nat :=
  let ra := if x = .a then mine else theirs
  let rb := if x = .a then theirs else mine
  let is (y : Side) : Bool := match d.sigOf x y with
    | some g => ra.1.agrees g
    | none => false
  if ra.1.agrees rb.1 then (if is .a then 0 else if is .b then 1 else 2)
  else if ra.2 && !rb.2 then 1
  else if rb.2 && !ra.2 then 0
  else 3

/-- The verdict of a side that serves alone (R394). -/
def verdictAlone (x : Side) (d : Dispute) (mine : Sig × Bool) : Nat :=
  match d.mine with
  | some g => if mine.1.agrees g then verdictFor x else 2
  | none => 2

/-- Side x settles a dispute with a verdict: RESOLVED, counts, events, and under BOTH_BAD the recompute sent (R388, R389). -/
def settleDispute (x : Side) (d : Dispute) (v : Nat) (s : State) : State :=
  let re : Option Sig :=
    if v = 4 then none else if s.arb.primary = x then d.myRe.map (·.1) else (d.theirRe.map (·.1)).or (d.myRe.map (·.1))
  let who := if s.arb.primary = x || d.theirRe.isNone then x else peerOf x
  let s1 := raiseSide x 611 sevNotice noInst
    (sendNotice x 0x11 d.id.stream (disputeWords x d (sigWord who re v)) d.ports s)
  let s2 := if isLast s1 x d.id then lastDispute x d.id false v s1 else s1
  let s3 := match v with
    | 2 => raiseSide x 612 sevNotice noInst (s2.bump (Reg.WLT_VERDICTS x) 31 24 1)
    | 3 => raiseSide x 613 sevFault noInst (s2.bump (Reg.WLT_VERDICTS x) 23 16 1)
    | 4 => raiseSide x 618 sevNotice noInst (s2.bump (Reg.WLT_VERDICTS x) 15 8 1)
    | _ => s2
  let again := if v = 2 then (s3.wlt x).retained.filter (fun b => b.id = d.id) else []
  let s4 := again.foldl (fun t b => (passBlock x (reissueOf b d.words) (countBlock x (reissueOf b d.words) (packBlock b).2 t)).1) s3
  (letGo x d.id s4).modWlt x (fun w => { w with disputes := w.disputes.filter (fun q => q.id ≠ d.id) })

/-- The disputes of side x whose own recompute exists settled by it alone (R394). -/
def settleAlone (x : Side) (s : State) : State :=
  (s.wlt x).disputes.foldl (fun t d => match d.myRe with
    | some r => settleDispute x d (verdictAlone x d r) t
    | none => t) s

/-- Side x's disputes that have both recomputes, with their verdicts. -/
def decided (s : State) (x : Side) : List (Dispute × Nat) :=
  (s.wlt x).disputes.filterMap (fun d => match d.myRe, d.theirRe with
    | some r, some q => some (d, verdictOf x d r q)
    | _, _ => none)

end Sys2Proof.Machine
end

