-- ==== Sys2Proof/Machine/Sides.lean ====
section
/-!
DEFINITION. Sides in and out of service (chapters "Duplex sides and the Welt link" and "Power, clocks and start-up",
R380–R401, R533–R545): resets of a side, the service arbiter, boot, resync, PRIMARY, heartbeats, disputes lost, MODE_SET.
-/

namespace Sys2Proof.Machine

/-- The arbiter changed by f. -/
def State.modArb (s : State) (f : Arb → Arb) : State := { s with arb := f s.arb }

/-- Power changed by f. -/
def State.modPower (s : State) (f : Power → Power) : State := { s with power := f s.power }

/-- Background work changed by f. -/
def State.modBg (s : State) (f : Background → Background) : State := { s with bg := f s.bg }

/-! ### Resets (R59, R487, R542) -/

/-- What a side's management controller keeps through a reset: what stands in NVM (R454, R542); its SRAM scrubber begins anew, at
what its running count then is. -/
def Mgt.kept (g : Mgt) (run : Nat) : Mgt :=
  { Mgt.factory with
    slots := g.slots
    pages := g.pages
    bootSlot := g.bootSlot
    stagedPatch := g.stagedPatch
    stagedMicro := g.stagedMicro
    patchOk := g.patchOk
    microOk := g.microOk
    activePatch := g.activePatch
    activeMicro := g.activeMicro
    listWrites := g.listWrites
    listCurrent := g.listCurrent
    scrubTick := run }

/-- Whether a register of a side outlives its reset, by offset: MODULE_ID, and what MGT_LAST_INFO shows of NVM (R542). -/
def sideKeeps (o : Nat) : Bool := o = 0x80008 || (decide (0x40 ≤ o) && decide (o < 0x80))

/-- The registers without those of a side that a reset of it returns to their reset values. -/
def regsWithout (x : Side) (m : Sparse Word) : Sparse Word :=
  m.filter (fun e => !onSide x e.1 || sideKeeps (e.1 % 0x01000000))

/-- A command that no longer waits when its controller is reset. -/
def stillWaits (x : Side) (w : Option Waiting) : Option Waiting := w.filter (fun w => w.x ≠ x)

/-- The trigger engine when a side loses its accumulators (R542). -/
def Trg.without (x : Side) (g : Trg) : Trg :=
  { g with
    opened := g.opened.map (fun r => { r with alloc := r.alloc.set x false })
    closed := (g.closed.map (fun r => { r with alloc := r.alloc.set x false })).filter (fun r => r.alloc.a || r.alloc.b) }

/-- Everything a reset of a side discards (R59, R487, R542). -/
def clearSide (x : Side) (s : State) : State :=
  let d := SideState.fresh ((s.side x).mgt.kept (s.clock.sramSide.get x))
  let s1 := s.setSide x { d with wlt := { d.wlt with began := s.clock.ticks } }
  { s1 with
    regs := regsWithout x s.regs
    capture := s.capture.filter (fun e => !onSide x e.1)
    spi := { s.spi with
      replies := s.spi.replies.filter (fun q => q.1 ≠ x)
      cache := if s.arb.primary = x then [] else s.spi.cache }
    trg := s.trg.without x
    pix := { s.pix with
      apply := s.pix.apply.map (fun a => { a with wait := stillWaits x a.wait })
      held := s.pix.held.filter (fun h => h.wait.x ≠ x) }
    lace := { s.lace with barriers := s.lace.barriers.filter (fun b => b.cmd.x ≠ x) }
    bg := { s.bg with storing := false }
    power := { s.power with changing := stillWaits x s.power.changing } }

/-- A tile in IDLE, with the histories of its faults (R172, R550). -/
def Tile.stopped (now : Nat) (k : Tile) : Tile :=
  { Tile.idle with
    pllBusy := k.pllBusy
    bins := k.bins
    faults := k.faults
    lastAct := if k.fifo = [] && k.next = [] then k.lastAct else now }

/-- No side serves: the tiles go to IDLE, the run is over, and array time is taken from no tree (R172, R520, R544). -/
def noneServe (s : State) : State :=
  { s with
    tiles := (List.range 64).foldl (fun m t => Sparse.set m t ((s.tile t).stopped s.clock.ticks) Tile.idle) []
    trg := Trg.idle
    squall := Detector.idle
    lace := { s.lace with onTree := false }
    frames := { s.frames with
      lastTrig := none
      image := []
      started := false
      next := 0
      hold := ⟨none, none⟩
      spans := []
      ext := [] } }

/-! ### Wake requests (R533–R536) -/

/-- The wake units of a side (R533): 64 to 79 of A, 80 to 95 of B. -/
def sideUnits (x : Side) : List Nat := (List.range 16).map (fun i => 64 + 16 * sideNum x + i)

/-- Wake units requested; the first request of a burst begins its steps (R534, R535). -/
def requestUnits (l : List Nat) (s : State) : State :=
  let new := l.filter (fun u => !s.power.on.contains u && !s.power.wake.any (fun q => q.1 = u))
  let s1 := s.modPower (fun p => { p with
    wake := p.wake ++ new.map (fun u => (u, s.clock.ticks))
    wakeTick := if p.wake = [] then s.clock.ticks else p.wakeTick
    wakeSaid := p.wakeSaid && p.wake ≠ [] })
  s1.high Reg.PWR_WAKE_STATUS 22 16 s1.power.wake.length

/-- A side without power: none of its units is on or waits (R520, R536). -/
def unpower (x : Side) (s : State) : State :=
  s.modPower (fun p => { p with
    on := p.on.filter (fun u => !(sideUnits x).contains u)
    wake := p.wake.filter (fun q => !(sideUnits x).contains q.1) })

/-! ### PRIMARY (R399) -/

/-- PRIMARY passed to a side, reported by the sides that serve (R399); array time that is taken from a tree goes over to another one
(R421). -/
def givePrimary (x : Side) (s : State) : State :=
  if s.arb.primary = x then s
  else
    let s1 := (s.modArb (fun b => { b with primary := x })).modLace (fun l => { l with newTree := l.newTree || l.onTree })
    s1.both (raiseSide · 616 sevInfo noInst)

/-- The tiles with reductions that wait for their item, which the new holder of PRIMARY runs; the other side's items leave it (R240). -/
def passReductions (s : State) : State :=
  (List.range 64).foldl (fun t k =>
    if Sparse.get s.tdc.fills k [] ≠ [] || Sparse.get s.frames.measured k [] ≠ [] then wantReduce k t else t)
    (leaveReductions (peerOf (reduceSide s)) s)

/-! ### What a side alone does (R394, R395, R544) -/

/-- The tiles whose words reach only side y in TWIN (R28). -/
def twinTiles (y : Side) : List Nat := (List.range 32).map (fun i => 32 * sideNum y + i)

/-- Tiles that a side keeps only from a tick on; it stands inside their units under way (R395, R398). -/
def keepFromTick (x : Side) (ts : List Nat) (b : Time) (s : State) : State :=
  s.modDsp x (fun d => { d with
    keepFrom := ts.foldl (fun m t => Sparse.set m t (some b) none) d.keepFrom
    inside := ts.foldl (fun l t => if (s.tile t).sending then insertNat t l else l) d.inside })

/-- The survivor of a TWIN module takes its peer's tiles from the next slice boundary (R395). -/
def takeTiles (x : Side) (s : State) : State :=
  if !s.arb.twin || s.trg.run = .idle || s.trg.run = .armed then s
  else
    let b := boundaryAfter s 1
    (keepFromTick x (twinTiles (peerOf x)) b s).modArb (fun k => { k with takeover := some b })

/-- A side left alone in service: SIMPLEX (R392, R394, R395, R399). -/
def goSimplex (x : Side) (sev : Nat) (s : State) : State :=
  let s1 := (raiseSide x 614 sev noInst s).wr64 (Reg.WLT_PEER_OUT_TIME x) (Reg.WLT_PEER_OUT_TIME_4 x) s.now
  let s2 := s1.modWlt x (fun w => { w with
    table := []
    inbox := []
    inboxRe := []
    unacked := []
    retained := w.retained.filter (fun b => w.disputes.any (fun d => d.id = b.id)) })
  takeTiles x (passReductions (settleAlone x (givePrimary x s2)))

/-- A port with a role trains (R361); in STANDBY the transmitters are off (R525). -/
def trainPorts (x : Side) (s : State) : State :=
  if s.power.mode = .standby then s
  else (List.range 16).foldl (fun t p => if t.role x p = 0 then t else enterTraining x p t) s

/-- A side that has booted while its peer does not serve: it serves alone from its own boot slot (R392, R399, R544). -/
def serveAlone (x : Side) (s : State) : State :=
  let s1 := s.modArb (fun b => { b with
    svc := b.svc.set x .inService
    passed := b.passed.set x false })
  let s2 := loadBoot [x] (trainPorts x (passReductions (givePrimary x s1)))
  if s2.power.mode = .active then beginApply (List.range 64) none s2 else s2

/-! ### Entries into OUT_OF_SERVICE (R392, R393) -/

/-- Whether a side can boot now: powered, not held, not retired (R536, R540). -/
def canBoot (x : Side) (s : State) : Bool :=
  s.baseUp && s.power.feed.get x && !s.power.heldN && !s.power.heldSide.get x && s.arb.svc.get x = .out
  && (s.arb.booting.get x).isNone && !s.arb.passed.get x

/-- Whether the module changes from STANDBY to ACTIVE (R527). -/
def State.waking (s : State) : Bool := s.power.mode = .standby && s.rf Reg.PWR_CTRL 1 0 = 0

/-- Every unit that can wake: the tiles', and those of the sides that have their feed and are not retired (R527, R533, R536). -/
def allUnits (s : State) : List Nat :=
  List.range 64 ++ ([Side.a, Side.b].filter (fun x => s.power.feed.get x && s.arb.svc.get x ≠ .retired)).flatMap sideUnits

/-- A side begins to boot, where it can; its units are requested (R535, R537). -/
def startBoot (x : Side) (s : State) : State :=
  if canBoot x s then
    let s1 := s.modArb (fun b => { b with booting := b.booting.set x (some s.clock.ticks) })
    if s.power.mode = .active || s.waking then requestUnits (sideUnits x) s1 else s1
  else s

/-- The arbiter's record of a side that is reset. -/
def arbReset (y : Side) (v : Service) (b : Arb) : Arb :=
  { b with
    svc := b.svc.set y v
    held := b.held.set y false
    booting := b.booting.set y none
    passed := b.passed.set y false
    returnAt := b.returnAt.set y none }

/-- The cause of a side's last reset (R545); 0 where R545 lists none. -/
def noteCause (y : Side) (code : Nat) (s : State) : State :=
  s.wf Reg.AON_RESET_CAUSE (15 + 8 * sideNum y) (8 + 8 * sideNum y) code

/-- A transfer abandoned: the returning side is reset as SIDE_RESET does and boots again (R392, R545). -/
def abandonResync (x : Side) (s : State) : State :=
  startBoot x (noteCause x (0x12 + sideNum x)
    (((clearSide x s).modArb (arbReset x .out)).modWlt (peerOf x) (fun w => { w with transferring := false })))

/-- A side reset and put into a service state; its peer goes SIMPLEX, or with no side in service a side that has passed
its self-test serves alone (R392); one that was in RESYNC the peer reports too (R392, R520). -/
def depart (y : Side) (v : Service) (sev : Nat) (s : State) : State :=
  let x := peerOf y
  let was := s.arb.svc.get y
  let s1 := (clearSide y s).modArb (arbReset y v)
  if s.power.booted && was = .resync && v = .out && s1.serving x then raiseSide x 614 sev noInst s1
  else if !s.power.booted || was ≠ .inService then s1
  else if s1.serving x then goSimplex x sev s1
  else
    let s2 := noneServe s1
    if s2.arb.svc.get x = .resync then abandonResync x s2
    else if s2.arb.svc.get x = .out && s2.arb.passed.get x then serveAlone x s2
    else s2

/-- A side entered in the list of retired sides (R392, R553). -/
def listSide (y : Side) (s : State) : State :=
  wantUpdate (s.modBg (fun b => { b with inForce := { b.inForce with sides := insertNat (sideNum y) b.inForce.sides } }))

/-- An entry into OUT_OF_SERVICE that is not for a fault; the side boots again where nothing holds it (R392, R540). -/
def takeOut (y : Side) (sev code : Nat) (s : State) : State :=
  startBoot y (noteCause y code (depart y (if s.arb.svc.get y = .retired then .retired else .out) sev s))

/-- An entry for a fault: withheld while the peer does not serve; the third within 600 s retires the side (R392, R393). -/
def faultOut (y : Side) (code : Nat) (s : State) : State :=
  if !s.serving (peerOf y) then s.modArb (fun b => { b with held := b.held.set y true })
  else
    let third := (s.arb.outs.get y).third s.now
    let s1 := s.modArb (fun b => { b with outs := b.outs.set y ((b.outs.get y).push s.now) })
    let s2 := noteCause y code (depart y (if third then .retired else .out) sevFault s1)
    if third then listSide y s2 else startBoot y s2

/-- A dispute lost by a side: the third within 600 s takes it out of service (R389, R392). -/
def loseDispute (y : Side) (s : State) : State :=
  let f := s.arb.losses.get y
  let s1 := (s.bump (Reg.WLT_DISPUTES y) 31 16 1).tally y .disputesLost 1
  let s2 := s1.modArb (fun b => { b with losses := b.losses.set y (f.push s.now) })
  if f.third s.now then faultOut y 0 s2 else s2

/-! ### Retirement lists at boot (R460, R555) -/

/-- Lists written to a side's NVM: the older copy is written and becomes current (R460, R565). -/
def writeLists (x : Side) (l : Lists) (s : State) : State :=
  let g := (s.side x).mgt
  let w := peerOf g.listCurrent
  let n := g.listWrites.get w + 1
  let s1 := (s.modMgt x (fun g => { g with
    listWrites := g.listWrites.set w n
    listCurrent := w })).modBg (fun b => { b with
      older := b.older.set x (b.nvm.get x)
      nvm := b.nvm.set x l })
  if n = 1000001 && g.listWrites.get g.listCurrent ≤ 1000000 then raiseSide x 546 sevNotice noInst s1 else s1

/-- The lists that come into force at boot: each side's NVM holds those of the whole module, and the newer of the two current copies is
taken, since a side that was not in service has missed the updates of its peer (R553, R555, R556; log entry 158). -/
def bootLists (s : State) : Lists := if s.bg.nvm.a.number < s.bg.nvm.b.number then s.bg.nvm.b else s.bg.nvm.a

/-- The digitizers at boot: those retired are coarse-only (R130, R556). -/
def bootDigis (l : Lists) : Sparse Digi :=
  l.digitizers.foldl (fun m d => Sparse.set m d { Digi.idle with
    coarse := true
    coarseNext := true } Digi.idle) []

/-- A service state at boot: a listed side stays RETIRED (R556). -/
def bootService (l : Lists) (x : Side) : Service := if l.sides.contains (sideNum x) then .retired else .out

/-- The dose of a tier and its rating, in 0.1 Gy: 0 front, 1 base, 2 sides (R563). -/
def tierDose (s : State) (tier : Nat) : Nat × Nat :=
  let det := (List.range 4).foldl (fun m d => max m (detDose s d)) 0
  match tier with
  | 0 => ((List.range 64).foldl (fun m t => max m (tileDose s t)) 0, 50000000)
  | 1 => (det, 10000000)
  | _ => (det, 2000000)

/-- The dose registers as NVM last saved them, with the baselines they rest on (R561, R564). -/
def loadDoses (l : Lists) (s : State) : State :=
  let s1 := l.doseDet.zipIdx.foldl (fun k q => k.wr (Reg.HK_DOSE_DET q.2) (BitVec.ofNat 32 q.1)) s
  let s2 := l.doseTile.zipIdx.foldl (fun k q => k.wr (Reg.HK_DOSE q.2) (BitVec.ofNat 32 q.1)) s1
  let past (tier m : Nat) : Nat := b2n (decide (m * (tierDose s2 tier).2 < 5 * (tierDose s2 tier).1))
  (s2.wr Reg.HK_DOSE_STATUS (BitVec.ofNat 32 (past 0 4 + 2 * past 1 4 + 4 * past 2 4 + 8 * past 0 5 + 16 * past 1 5
    + 32 * past 2 5))).modBg (fun b => { b with baseline := if l.doseBase = [] then b.baseline else l.doseBase })

/-- A side's service state brought to what the lists in force say of it: a listed one is held in reset, one that is listed no more boots
(R556). -/
def sideListed (y : Side) (s : State) : State :=
  let out := s.bg.inForce.sides.contains (sideNum y)
  if out && s.arb.svc.get y ≠ .retired then (clearSide y s).modArb (arbReset y .retired)
  else if !out && s.arb.svc.get y = .retired then startBoot y (s.modArb (arbReset y .out))
  else s

/-- Other lists than those first read come into force during start-up, beside what has been retired since; after a loss of power the dose
totals are theirs too (R460, R556, R564). -/
def replaceLists (old new : Lists) (s : State) : State :=
  let all := new.combine mergeNats (s.bg.inForce.combine lessNats old)
  let flag (v : Bool) (t : State) (d : Nat) : State := t.modDigi d (fun g => { g with
    coarse := v
    coarseNext := v })
  let s1 := s.modBg (fun b => { b with inForce := all })
  let s2 := all.digitizers.foldl (flag true) ((lessNats old.digitizers all.digitizers).foldl (flag false) s1)
  let s3 := if s.rf Reg.AON_RESET_CAUSE 7 0 = 0x01 then loadDoses new s2 else s2
  s3.both sideListed

/-- A current copy that fails its CRC replaced by the other copy at boot, which is then the current one (R460); during start-up the lists
come into force anew (R556). -/
def listFallback (x : Side) (s : State) : State :=
  let s1 := (s.modBg (fun b => { b with nvm := b.nvm.set x (b.older.get x) })).modMgt x (fun g => { g with
    listCurrent := peerOf g.listCurrent })
  let s2 := if s.power.booted then s1 else replaceLists (bootLists s) (bootLists s1) s1
  raiseAt x (srcOn x 547) sevNotice noInst (s2.wf (Reg.MGT_BOOT x) 7 7 1)

/-- A DRAM channel retired (R332, R339). -/
def retireChannel (x : Side) (ch : Nat) (s : State) : State :=
  if chanRetired s x ch then s
  else
    let s1 := wantUpdate (s.modBg (fun b => { b with inForce := { b.inForce with
      channels := insertNat (sideNum x * 16 + ch) b.inForce.channels } }))
    shedGuarantees x (raiseAt x (srcOn x 599) sevFault ch s1)

/-! ### Resync (R392, R396–R398, R555) -/

/-- A message of a class acknowledged to its sender (R380). -/
def acked (x : Side) (k : Nat) (s : State) : State :=
  s.modWlt x (fun w => { w with unacked := match w.unacked.find? (·.1 = k) with
    | some q => w.unacked.erase q
    | none => w.unacked })

/-- Whether Welt is up: messages arrive on both sides (R392). -/
def weltUp (s : State) : Bool := weltCarries s

/-- A side that has passed its self-test begins its resync where it can; asked: RESYNC has been written (R392, R402). In STANDBY, where Welt
carries heartbeats only, it waits (R525; log entry 161). -/
def tryResync (asked : Bool) (x : Side) (s : State) : State :=
  if s.serving (peerOf x) && s.arb.svc.get x = .out && s.arb.passed.get x && weltUp s && s.power.mode ≠ .standby
    && (asked || s.rb (Reg.WLT_CTRL (peerOf x)) 0) then
    (s.modArb (fun b => { b with
      svc := b.svc.set x .resync
      passed := b.passed.set x false })).both (fun y t => t.modWlt y (fun w => { w with
        transferring := y = x
        unacked := if y = x then w.unacked else w.unacked ++ [(5, s.clock.ticks)]
        lastValid := s.clock.ticks }))
  else s

/-- The places, as a first offset and the one behind the last, that tell of a side's own hardware and history alone: its firmware, its
boot, its NVM and its measurements (R456–R464), the records of its event queue, which R487 leaves out of the copy, BST_STATUS,
BST_HASH_KEY and the error logs and retirements of its DRAM (log entry 79). -/
def ownPlaces : List (Nat × Nat) :=
  [(0x10, 0x28), (0x90000, 0xA0000), (0x10004, 0x1001C), (0x10200, 0x10224), (0x11000, 0x20000),
    (0x50000, 0x50004), (0x50020, 0x50028), (0x50600, 0x50740), (0x51000, 0x52000)]

/-- Whether a register tells of the side's own hardware and history alone, by offset: one of ownPlaces, or what outlives the side's
reset (R487, R542; log entry 79). -/
def ownPlace (o : Nat) : Bool := sideKeeps o || ownPlaces.any (fun r => decide (r.1 ≤ o) && decide (o < r.2))

/-- The bits of a register that a returning side takes from its peer (R396): all of them, but of a register that tells of the side itself
its settings alone. -/
def copiedBits (a : Nat) : Word := if ownPlace (a % 0x01000000) then rwBits a else 0xFFFFFFFF

/-- The registers of a side taken from its peer (R396). -/
def copyRegs (x : Side) (s : State) : State :=
  let mine := s.regs.filter (fun e => onSide x e.1)
  let theirs := s.regs.filter (fun e => onSide (peerOf x) e.1)
  let s1 := mine.foldl (fun t e => t.wr e.1 (mixBits e.2 (copiedBits e.1) (resetWord e.1))) s
  theirs.foldl (fun t e =>
    let a := e.1 - sideBase (peerOf x) + sideBase x
    t.wr a (mixBits (t.rd a) (copiedBits a) e.2)) s1

/-- The offsets of the paired registers in a side's range (R593): the TRG block, SE_CTRL, CMP_CTRL and CMP_VERIFY. -/
def pairedPlace (o : Nat) : Bool := (decide (0x20000 ≤ o) && decide (o < 0x30000)) || [0x30100, 0x40000, 0x40004].contains o

/-- What a returning side takes of a paired register at R_s: the live table whole, and the settings (R235, R396). -/
def pairedBits (o : Nat) : Word := if 0x21400 ≤ o ∧ o < 0x21800 then 0xFFFFFFFF else rwBits (0x01000000 + o)

/-- The paired registers of a side taken from its peer, the tables whole, which a write or a commit may have changed since the transfer
(R231, R235, R396, R593). -/
def copyPaired (x : Side) (s : State) : State :=
  (((s.regs.filter (fun e => onSide x e.1 || onSide (peerOf x) e.1)).map (fun e => e.1 % 0x01000000)).filter pairedPlace).foldl (fun t o =>
    let a := sideBase x + o
    t.wr a (mixBits (t.rd a) (pairedBits o) (t.rd (sideBase (peerOf x) + o)))) s

/-- The ports whose settings a resync has changed train again (R361, R396); in STANDBY they wait for the wake (R525, R527). -/
def retrainChanged (x : Side) (old : State) (s : State) : State :=
  if s.power.mode = .standby then s
  else (List.range 16).foldl (fun t p =>
    if old.rd (Reg.LNK_PORT_CTRL x p) = t.rd (Reg.LNK_PORT_CTRL x p) then t
    else if t.role x p = 0 then disablePort x p t
    else enterTraining x p (leaveUp x p t)) s

/-- A side enters IN_SERVICE from RESYNC, at R_s when there is one (R392, R396–R399). -/
def enterService (x : Side) (rs : Option Time) (s : State) : State :=
  let s1 := s.modArb (fun b => { b with
    svc := b.svc.set x .inService
    returnAt := b.returnAt.set x none
    takeover := none })
  let s2 := (s1.modWlt x (fun w => { w with rs := rs })).modTrg (fun g => { g with
    opened := g.opened.map (fun r => { r with alloc := r.alloc.set x true }) })
  let own := if s.arb.twin then twinTiles x else List.range 64
  let s3 := match rs with
    | some b => keepFromTick x own b s2
    | none => s2
  let s4 := if s.arb.twin then own.foldl (fun t k => t.modIntake (peerOf x) k (fun _ => [])) s3 else s3
  let s5 := raiseSide x 615 sevInfo noInst s4
  let s6 := (copyPaired x s5).modCmp x (fun c => { c with
    runCtrl := (s5.side (peerOf x)).cmp.runCtrl
    runVerify := (s5.side (peerOf x)).cmp.runVerify })
  if x = .a then passReductions (givePrimary .a s6) else s6

/-- RESYNC_TRANSFER_END (R396, R555); a transfer stands still in STANDBY (R525; log entry 161). -/
def execResyncTransferEnd (dt : Nat) (x : Side) (s0 : State) : Host.Outcome State Fault Refusal :=
  let s := s0.elapse dt
  if s.arb.svc.get x ≠ .resync || !(s.wlt x).transferring || s.power.mode = .standby then .next s
  else
    let s1 := retrainChanged x s (evSettle x (copyRegs x s))
    let s2 := writeLists x (s.bg.nvm.get (peerOf x)) (acked (peerOf x) 5 (heard x (s1.modWlt x (fun w => { w with transferring := false }))))
    if s.trg.run = .idle || s.trg.run = .armed then .next (enterService x none s2)
    else
      let r : Time := BitVec.ofNat 64 (alignUp (s.sliceTicks * 2 ^ groupBits s) (s.now.toNat + 3000000))
      let s3 := s2.both (fun y t => t.wr64 (Reg.WLT_RESYNC_TIME y) (Reg.WLT_RESYNC_TIME_4 y) r)
      .next (s3.modArb (fun b => { b with returnAt := b.returnAt.set x (some r) }))

/-- RESYNC_POINT (R396, R397). -/
def execResyncPoint (dt : Nat) (x : Side) (s0 : State) : Host.Outcome State Fault Refusal :=
  let s := s0.elapse dt
  match s.arb.returnAt.get x with
  | some r =>
    if s.arb.svc.get x = .resync && reached s.now r then .next (atTime r (enterService x (some r)) s) else .next s
  | none => .next s

/-- TWIN_TAKEOVER (R395): the boundary from which the survivor keeps all tiles' units. -/
def execTwinTakeover (dt : Nat) (s0 : State) : Host.Outcome State Fault Refusal :=
  let s := s0.elapse dt
  match s.arb.takeover with
  | some b => if reached s.now b then .next (s.modArb (fun k => { k with takeover := none })) else .next s
  | none => .next s

/-! ### Boot (R339, R346, R392, R460, R462, R463, R545) -/

/-- The end of a side's boot reported with the cause of its reset (R545). -/
def bootReport (x : Side) (s : State) : State :=
  let code := s.rf Reg.AON_RESET_CAUSE (15 + 8 * sideNum x) (8 + 8 * sideNum x)
  if code = 0 then s else raiseBase 518 sevInfo code s

/-- A side runs the images that its serving peer runs (R462). -/
def peerImages (x : Side) (s : State) : State :=
  if !s.serving (peerOf x) then s
  else
    let g := (s.side (peerOf x)).mgt
    s.modMgt x (fun m => { m with
      activePatch := g.activePatch
      activeMicro := g.activeMicro })

/-- SIDE_BOOT_DONE (R392): pass: boot and self-test pass; listBad: the current copy of the lists fails its CRC (R460); bad:
the channels that fail PHY training or their self-test (R339). -/
def execSideBootDone (dt : Nat) (x : Side) (pass listBad : Bool) (bad : List (Fin 16)) (s0 : State) :
    Host.Outcome State Fault Refusal :=
  let s := s0.elapse dt
  if (s.arb.booting.get x).isNone || s.power.wake.any (fun q => (sideUnits x).contains q.1) then .next s
  else
    let s1 := peerImages x (s.modArb (fun b => { b with booting := b.booting.set x none }))
    let s2 := noteVersion x (bootMeasure x (if listBad then listFallback x s1 else s1))
    if s2.arb.svc.get x = .retired then .next s2
    else if !pass then .next (listSide x (s2.modArb (arbReset x .retired)))
    else
      let s3 := bad.foldl (fun t ch => retireChannel x ch.val t) (s2.wf (Reg.BST_STATUS x) 0 0 1)
      let s4 := s3.modArb (fun b => { b with passed := b.passed.set x true })
      if !s.power.booted then .next s4
      else if s.serving (peerOf x) then .next (tryResync false x (bootReport x (trainPorts x s4)))
      else if s.arb.svc.get (peerOf x) = .resync then .next (bootReport x s4)
      else .next (bootReport x (serveAlone x s4))

/-! ### Messages (R380, R381, R489) -/

/-- Whether a side sends heartbeats: it serves, returns, or has passed its self-test. -/
def sendsBeats (s : State) (x : Side) : Bool := s.live x || (s.power.booted && s.arb.passed.get x)

/-- WELT_HEARTBEAT (R380, R381, R489): side x sends one; delivered: it reaches the peer and is acknowledged, and with it what the side sent
before it and no row of the peer takes up, heartbeats and verdicts (log entry 157); mismatch: the pointers of the transmit queue disagree
at this access. -/
def execWeltHeartbeat (dt : Nat) (x : Side) (delivered mismatch : Bool) (s0 : State) : Host.Outcome State Fault Refusal :=
  let s := s0.elapse dt
  let y := peerOf x
  if !sendsBeats s x || s.clock.ticks < (s.wlt x).heartbeat + 3000 then .next s
  else
    let s1 := if mismatch then queueError x 619 (flushWelt x s) else s
    let s2 := s1.modWlt x (fun w => { w with heartbeat := s.clock.ticks })
    if !sendsBeats s y then .next s2
    else if delivered then
      let s3 := heard y (s2.modWlt x (fun w => { w with unacked := w.unacked.filter (fun q => q.1 ≠ 1 && q.1 ≠ 6) }))
      .next (s3.both (tryResync false))
    else
      .next ((s2.modWlt y (fun w => { w with rxOk := false })).modWlt x (fun w => { w with
        unacked := w.unacked ++ [(1, s.clock.ticks)] }))

/-- The class of a message (R380): a verdict, noted as 6, is of class 4 like a recompute signature. -/
def classOf (k : Nat) : Nat := if k = 6 then 4 else k

/-- The message that a side sends again: of those that have waited 3 000 ticks for their acknowledgement the oldest of the first class
(R380). -/
def overdue (s : State) (x : Side) : Option (Nat × Nat) :=
  [1, 2, 3, 4, 5].findSome? (fun k => (s.wlt x).unacked.find? (fun q => classOf q.1 = k && decide (q.2 + 3000 ≤ s.clock.ticks)))

/-- WELT_RETRANSMIT (R380). -/
def execWeltRetransmit (dt : Nat) (x : Side) (s0 : State) : Host.Outcome State Fault Refusal :=
  let s := s0.elapse dt
  match overdue s x with
  | none => .next s
  | some q =>
    let s1 := ((s.bump (Reg.WLT_LINK x) 31 16 1).tally x .weltRetrans 1).modWlt x (fun w => { w with
      unacked := w.unacked.erase q ++ [(q.1, s.clock.ticks)]
      retransSeen := true })
    .next (if (s.wlt x).retransSeen then s1 else raiseSide x 617 sevNotice noInst s1)

/-- Whether a side has received nothing for 100 µs (R381). -/
def silent (s : State) (x : Side) : Bool := decide ((s.wlt x).lastValid + 300000 ≤ s.clock.ticks)

/-- WELT_SILENCE (R381, R392, R393). -/
def execWeltSilence (dt : Nat) (x : Side) (s0 : State) : Host.Outcome State Fault Refusal :=
  let s := s0.elapse dt
  let y := peerOf x
  if !s.live x || !s.live y || !silent s x then .next s
  else if s.arb.svc.get x = .resync then .next (abandonResync x s)
  else if s.arb.svc.get y = .resync then .next (abandonResync y s)
  else .next (faultOut (if silent s y then .b else y) 0 s)

/-! ### Orphans and recomputes (R386, R388, R389, R394) -/

/-- A verdict on its way to the peer (R380). -/
def tellVerdict (x : Side) (s : State) : State :=
  if s.duplexed then s.modWlt x (fun w => { w with unacked := w.unacked ++ [(6, s.clock.ticks)] }) else s

/-- SIGNATURE_ORPHAN (R386, R389): an entry that has found no partner within 10 ms. -/
def execSignatureOrphan (dt : Nat) (x : Side) (s0 : State) : Host.Outcome State Fault Refusal :=
  let s := s0.elapse dt
  match (s.wlt x).table.find? (fun e => decide (e.entered + 30000000 ≤ s.clock.ticks)) with
  | none => .next s
  | some e =>
    let s1 := s.modWlt x (fun w => { w with table := w.table.erase e })
    if !e.own then .next s1
    else
      let d := newDispute s1 x e.sig.id (some e.sig) none
      .next (loseDispute (peerOf x) (settleDispute x d 4 (tellVerdict x (raiseDispute x d s1))))

/-- The side that a verdict makes the loser (R389). -/
def loserOf (v : Nat) : Option Side := if v = 0 then some .b else if v = 1 then some .a else none

/-- The disputes of a side that are decided settled on it, each verdict a message to the peer; those that it has lost count for it (R380,
R388, R389). -/
def settleDecided (x : Side) (s0 : State) : State :=
  let l := decided s0 x
  let s := l.foldl (fun t _ => tellVerdict x t) s0
  (l.filter (fun q => loserOf q.2 = some x)).foldl (fun t _ => loseDispute x t)
    (l.foldl (fun t q => settleDispute x q.1 q.2 t) s)

/-- Side x's recompute of a dispute noted, and its signature sent to the peer (R380, R388). -/
def noteRecompute (x : Side) (i : BlockId) (r : (Sig × Bool) × List Word72) (s : State) : State :=
  let s1 := s.modWlt x (fun w => { w with
    disputes := w.disputes.map (fun d => if d.id = i then { d with myRe := some r.1, words := r.2 } else d) })
  if !s.duplexed then s1
  else (s1.modWlt x (fun w => { w with unacked := w.unacked ++ [(4, s.clock.ticks)] })).modWlt (peerOf x) (fun w => { w with
    inboxRe := w.inboxRe ++ [r.1] })

/-- A recompute signature taken up by a side whose dispute about the block is open (R388). -/
def takeRecompute (x : Side) (s : State) : State :=
  match (s.wlt x).inboxRe.find? (fun q => (s.wlt x).disputes.any (fun d => d.id = q.1.id)) with
  | none => s
  | some q =>
    settleDecided x (acked (peerOf x) 4 (heard x (s.modWlt x (fun w => { w with
      inboxRe := w.inboxRe.erase q
      disputes := w.disputes.map (fun d => if d.id = q.1.id then { d with theirRe := some q } else d) }))))

/-- SIGNATURE_RECEIVED (R380, R381, R386, R388, R401): the oldest signature under way to side x, or, with none, a recompute signature; in TWIN
none is compared. -/
def execSignatureReceived (dt : Nat) (x : Side) (s0 : State) : Host.Outcome State Fault Refusal :=
  let s := s0.elapse dt
  match (s.wlt x).inbox with
  | [] => .next (takeRecompute x s)
  | g :: rest =>
    let s1 := s.modWlt x (fun w => { w with inbox := rest })
    match if s.arb.twin then some s1 else enterSig x false g s1 with
    | none => .next s
    | some s2 => .next (acked (peerOf x) 3 (heard x s2))

/-- The compressor that makes a recompute, and its block (R388). -/
def redoing (s : State) (x : Side) : Option (Nat × Block) :=
  (List.range 32).findSome? (fun e => if (s.comp x e).redo then (s.comp x e).block.map (e, ·) else none)

/-- RECOMPUTE_DONE (R388, R389, R394): flip: the bit of the first payload word that an upset in the compressor inverts. -/
def execRecomputeDone (dt : Nat) (x : Side) (flip : Option (Fin 72)) (s0 : State) : Host.Outcome State Fault Refusal :=
  let s := s0.elapse dt
  match redoing s x with
  | none => .next s
  | some (e, b) =>
    if !enginesRun s x then .next s
    else
      let s1 := noteRecompute x b.id (recompute b flip) (s.modComp x e (fun k => { k with block := none, redo := false }))
      .next (if !s.duplexed then settleAlone x s1 else settleDecided x s1)

/-! ### SIDE_RESET, MODE_SET, and a controller's own fetches (R345, R392, R400, R401) -/

/-- SIDE_RESET (R392, R400, R540). -/
def execSideReset (dt : Nat) (c : Ctx) (side : Word) (s : State) : Host.Outcome State Fault Refusal :=
  let y := sideOf side.toNat
  .next (commandThen dt c (.sideReset side) (fun _ _ => param (decide (side.toNat ≤ 1)))
    (fun _ s => if s.serving (peerOf y) then okRes s else refuse s .sideDown)
    (fun _ s => afterReply c (.sideReset y) (takeOut y sevInfo (0x12 + sideNum y)) s) s)

/-- MODE_SET (R401). -/
def execModeSet (dt : Nat) (c : Ctx) (mode : Word) (s : State) : Host.Outcome State Fault Refusal :=
  .next (command dt c (.modeSet mode) noPar
    (fun _ s =>
      if !s.duplexed then refuse s .sideDown
      else if s.trg.run ≠ .idle then refuse s .wrongState
      else okRes (setTwin (bit mode.toNat 0) s)) s)

/-- MGT_FETCH_FAIL (R345): the line is loaded again; at the third within 600 s the side resets itself, unless its peer does not serve (R393). -/
def execMgtFetchFail (dt : Nat) (x : Side) (line : Nat) (s0 : State) : Host.Outcome State Fault Refusal :=
  let s := s0.elapse dt
  if !s.live x then .next s
  else
    let f := (s.side x).mgt.fetchFaults
    let s1 := s.modMgt x (fun g => { g with fetchFaults := f.push s.now, lines := g.lines.filter (· ≠ line) })
    if f.third s.now then .next (faultOut x (0x14 + sideNum x) (raiseSide x 566 sevCritical noInst s1)) else .next s1

end Sys2Proof.Machine
end

