-- ==== Sys2Proof/Machine/Background.lean ====
section
/-!
DEFINITION. Retirement by command, the retirement lists, the SRAM scrubbers and dose accounting (chapters "Commands, privilege
and measurement" and "Faults, retirement and background work", R467, R468, R551–R565).
-/

namespace Sys2Proof.Machine

/-! ### RETIRE (R84, R338, R339, R467) -/

/-- Whether the index of a retirement is in the range of its kind (R467, R552). -/
def retireRange (kind n : Nat) : Bool :=
  match kind with
  | 0x01 => n < 1048576
  | 0x02 => n < 65540
  | 0x03 => n < 65536
  | 0x04 => n < 64
  | 0x05 => n < 256
  | 0x06 => n < 2 ^ 22
  | 0x07 => n < 16
  | 0x08 => n < 48
  | 0x09 => n < 32
  | 0x0A => n < 2
  | _ => false

/-- The number under which a DRAM row of a side is listed. -/
def rowEntry (y : Side) (n : Nat) : Nat := sideNum y * 2 ^ 22 + n

/-- A DRAM row retired (R338). -/
def retireRow (y : Side) (n : Nat) (s : State) : State :=
  shedGuarantees y (raiseSide y 598 sevInfo (n % 16) (wantUpdate (s.modBg (fun b => { b with inForce := { b.inForce with
    rows := insertNat (rowEntry y n) b.inForce.rows } }))))

/-- A DRAM row retired by command: a 513th of its channel is refused (R338, R467). -/
def retireRowRes (y : Side) (n : Nat) (s : State) : Res :=
  if s.bg.inForce.rows.contains (rowEntry y n) then okRes s
  else if 512 ≤ (s.bg.inForce.rows.filter (fun r => r / 2 ^ 22 = sideNum y && r % 16 = n % 16)).length then refuse s .badParam
  else okRes (retireRow y n s)

/-- What RETIRE does before its reply, on side y where a side is named (R467). -/
def retireOne (y : Side) (kind n : Nat) (s : State) : Res :=
  match kind with
  | 0x01 => okRes (retirePixel n s)
  | 0x02 => okRes (retireDigitizer n s)
  | 0x03 => okRes (retireAdc n s)
  | 0x04 => okRes (retireTile n s)
  | 0x05 => okRes (retireLane (sideOf (n / 128)) (n / 8 % 16) (n % 8) s)
  | 0x06 => retireRowRes y n s
  | 0x07 => okRes (retireChannel y n s)
  | 0x08 => okRes (retireEngine y n s)
  | 0x09 => okRes (retireCompressor y n s)
  | _ => if s.arb.svc.get (sideOf n) = .retired then okRes s
    else if !s.serving (peerOf (sideOf n)) then refuse s .sideDown
    else okRes s

/-- A side retired by command: held in reset, and listed (R392). -/
def retireSide (y : Side) (s : State) : State :=
  if s.arb.svc.get y = .retired then s else listSide y (depart y .retired sevInfo s)

/-- RETIRE (R467); a side's retirement follows the reply. -/
def execRetire (dt : Nat) (c : Ctx) (kind index : Word) (s : State) : Host.Outcome State Fault Refusal :=
  let k := bits kind.toNat 7 0
  .next (commandThen dt c (.retire kind index)
    (fun _ _ => param (retireRange k index.toNat))
    (fun _ s => retireOne (namedSide s c) k index.toNat s)
    (fun _ s => if k = 0x0A then afterReply c (.retire (sideOf index.toNat)) (retireSide (sideOf index.toNat)) s else s) s)

/-! ### RETIRE_LIST (R468, R557) -/

/-- The entries of one kind as lists hold them. -/
def kindOf (l : Lists) (kind : Nat) : List Nat :=
  match kind with
  | 0x01 => l.pixels
  | 0x02 => l.digitizers
  | 0x03 => l.adcs
  | 0x04 => l.tiles
  | 0x05 => l.lanes
  | 0x06 => l.rows
  | 0x07 => l.channels
  | 0x08 => l.engines
  | 0x09 => l.compressors
  | _ => l.sides

/-- The numbers that the two sides have of a kind that the SIDE field selects; 0 for the others. -/
def kindSpan (kind : Nat) : Nat := nth [0, 0, 0, 0, 0, 0, 2 ^ 22, 16, 48, 32, 0] kind

/-- The listed entries of a kind, of side y where the SIDE field selects, in the P2 encoding (R467, R468). -/
def listed (s : State) (y : Side) (kind : Nat) : List Nat :=
  let l := lessNats (kindOf s.bg.inForce kind) (kindOf s.bg.removed kind)
  let n := kindSpan kind
  if n = 0 then l else (l.filter (fun i => i / n = sideNum y)).map (· % n)

/-- Numbers two to a word, the first in [31:0] (R468). -/
def pairWords : List Nat → List Word72
  | [] => []
  | [a] => [BitVec.ofNat 72 a]
  | a :: b :: r => BitVec.ofNat 72 (b * 2 ^ 32 + a) :: pairWords r

/-- RETIRE_LIST READ (R468). -/
def execRetireListRead (dt : Nat) (c : Ctx) (kind from_ : Word) (s : State) : Host.Outcome State Fault Refusal :=
  let k := bits kind.toNat 7 0
  .next (command dt c (.retireListRead kind from_) (fun _ _ => param (retireRange k 0))
    (fun _ s =>
      let l := listed s (namedSide s c) k
      .done s .ok (BitVec.ofNat 32 l.length) (pairWords ((l.drop from_.toNat).take 60))) s)

/-- An entry put into the lists of what has been removed. -/
def Lists.insert (l : Lists) (kind n : Nat) : Lists :=
  match kind with
  | 0x01 => { l with pixels := insertNat n l.pixels }
  | 0x02 => { l with digitizers := insertNat n l.digitizers }
  | 0x03 => { l with adcs := insertNat n l.adcs }
  | 0x04 => { l with tiles := insertNat n l.tiles }
  | 0x05 => { l with lanes := insertNat n l.lanes }
  | 0x06 => { l with rows := insertNat n l.rows }
  | 0x07 => { l with channels := insertNat n l.channels }
  | 0x08 => { l with engines := insertNat n l.engines }
  | 0x09 => { l with compressors := insertNat n l.compressors }
  | _ => { l with sides := insertNat n l.sides }

/-- RETIRE_LIST REMOVE (R468, R557): the resource stays retired until the next module reset. -/
def execRetireListRemove (dt : Nat) (c : Ctx) (kind index : Word) (s : State) : Host.Outcome State Fault Refusal :=
  let k := bits kind.toNat 7 0
  .next (command dt c (.retireListRemove kind index)
    (fun _ s => param (retireRange k index.toNat && (listed s (namedSide s c) k).contains index.toNat))
    (fun _ s =>
      if s.trg.run ≠ .idle then refuse s .wrongState
      else
        let n := kindSpan k * sideNum (namedSide s c) + index.toNat
        okRes (wantUpdate (s.modBg (fun b => { b with removed := b.removed.insert k n })))) s)

/-! ### Updates of the lists (R460, R553–R555, R564) -/

/-- RETIREMENT_LIST_UPDATE (R460, R554, R555): the update in progress ends on every side in service; what it has written are the lists as
they stood when it began, and a retirement made since goes with the next update, which begins at once. -/
def execRetirementListUpdate (dt : Nat) (s0 : State) : Host.Outcome State Fault Refusal :=
  let s := s0.elapse dt
  match s.bg.updating with
  | some l =>
    if !s.serving .a && !s.serving .b then .next s
    else .next (beginUpdate ((onServing (fun x t => writeLists x l t) s).modBg (fun b => { b with updating := none })))
  | none => .next s

/-- DOSE_SAVE (R564). -/
def execDoseSave (dt : Nat) (s0 : State) : Host.Outcome State Fault Refusal :=
  let s := s0.elapse dt
  let n := s.rf Reg.HK_DOSE_CTRL 15 0
  if !s.baseUp || n = 0 || s.clock.ticks < s.bg.saveTick + n * 180000000000 then .next s
  else .next (wantUpdate (s.modBg (fun b => { b with saveTick := s.clock.ticks })))

/-! ### Dose accounting (R562, R563) -/

/-- The quadrant of a tile (R562). -/
def tileQuadrant (t : Nat) : Nat := t / 32 * 2 + t % 8 / 4

/-- The tiles of quadrant d that count in its mean: powered and not retired throughout the second (R562). -/
def countedTiles (s : State) (d : Nat) : List Nat :=
  (List.range 64).filter (fun t => tileQuadrant t = d && s.power.on.contains t && decide (Sparse.get s.power.since t 0 ≤ s.bg.doseTick) &&
    !s.tileRetired t)

/-- The increment of tile t in 2^-16 of 0.1 Gy, its quadrant receiving n of 0.1 Gy (R562). -/
def tileShare (s : State) (charges : List Nat) (t n : Nat) : Nat :=
  let l := countedTiles s (tileQuadrant t)
  let sum := l.foldl (fun a k => a + nth charges k) 0
  if sum = 0 || !l.contains t then n * 65536 else n * 65536 * nth charges t * l.length / sum

/-- What dosimeter d has gained, in 2^-16 of 0.1 Gy, with the remainder of before (R561, R562). -/
def detGain (s : State) (d : Nat) : Nat := nth s.bg.rest d + 10 * nth s.bg.inc d

/-- One tile's dose after a second (R562). -/
def addTileDose (charges : List Nat) (s : State) (k : State) (t : Nat) : State :=
  let g := (s.bg.tileRest.getD t 0) + tileShare s charges t (detGain s (tileQuadrant t) / 65536)
  (k.bump (Reg.HK_DOSE t) 31 0 (g / 65536)).modBg (fun b => { b with
    tileRest := (if b.tileRest = [] then List.replicate 64 0 else b.tileRest).set t (g % 65536) })

/-- A tier compared with its rating (R563). -/
def checkTier (s : State) (tier : Nat) : State :=
  let q := tierDose s tier
  let s1 := if 5 * q.1 ≤ 4 * q.2 || s.rb Reg.HK_DOSE_STATUS tier then s
    else raiseBase 539 sevNotice tier (s.wf Reg.HK_DOSE_STATUS tier tier 1)
  if q.1 ≤ q.2 || s.rb Reg.HK_DOSE_STATUS (3 + tier) then s1
  else raiseBase 540 sevFault tier (s1.wf Reg.HK_DOSE_STATUS (3 + tier) (3 + tier) 1)

/-- The increments of a second moved into the totals (R562). -/
def moveDose (charges : List Nat) (s : State) : State :=
  let s1 := (List.range 4).foldl (fun k d => k.bump (Reg.HK_DOSE_DET d) 31 0 (detGain s d / 65536)) s
  let s2 := s1.modBg (fun b => { b with
    inc := [0, 0, 0, 0]
    rest := (List.range 4).map (fun d => detGain s d % 65536)
    doseTick := s.clock.ticks })
  (List.range 64).foldl (addTileDose charges s) s2

/-- DOSE_SECOND (R562, R563): charges are those that the charge monitors of the tiles collected in the second. -/
def execDoseSecond (dt : Nat) (charges : List Nat) (s0 : State) : Host.Outcome State Fault Refusal :=
  let s := s0.elapse dt
  if !s.baseUp || s.clock.ticks < s.bg.doseTick + 3000000000 then .next s
  else .next ([0, 1, 2].foldl checkTier (moveDose charges s))

/-! ### SRAM scrubbers (R559, R560) -/

/-- The period of a scrub pass in ticks (R559). -/
def sramPeriod (s : State) (a : Nat) : Nat := max 60 (s.rf a 15 0) * 3000000000

/-- What an uncorrectable base-tier word does by its owning chapter's rule (R64, R65, R165). -/
def sramError (found : SramFind) (s : State) : State :=
  match found with
  | .shadow p => shadowError p.val s
  | .image p => imageError p.val s
  | .chain t lp => chainError t.val lp.val s
  | _ => s

/-- BASE_SRAM_SCRUB (R559): one access, and the pass counted when its period has run. -/
def execBaseSramScrub (dt : Nat) (found : SramFind) (s0 : State) : Host.Outcome State Fault Refusal :=
  let s := s0.elapse dt
  if !s.baseUp || s.rb Reg.TIL_SRAM_SCRUB 16 then .next s
  else
    let s1 := if found = .sound || found = .corrected then s
      else raiseBase 538 sevFault noInst (sramError found (s.bump Reg.TIL_SRAM_STATUS 15 0 1))
    if s.clock.sram < s.bg.scrubTick + sramPeriod s Reg.TIL_SRAM_SCRUB then .next s1
    else .next ((s1.count Reg.TIL_SRAM_STATUS 31 16 1).modBg (fun b => { b with scrubTick := s.clock.sram }))

/-- A unit in staging memory with word i found uncorrectable, for which its item gives it up (R266). -/
def stagingFind (x : Side) (unit : BitVec 48) (i : Nat) (s : State) : State :=
  s.modDsp x (fun d => { d with units := d.units.map (fun v =>
    if v.number = unit && (v.held.isNone || decide (v.pre.length + v.words.length ≤ i)) then { v with bad := insertNat i v.bad } else v) })

/-- Whether a word in which the bits of a mask have changed is uncorrectable: its code corrects one (R335, R490). -/
def beyondCode {n : Nat} (mask : BitVec n) : Bool :=
  decide (2 ≤ ((List.range n).filter (fun i => mask.getLsbD i)).length)

/-- A storage word of the kth write that waits on a channel changed by an upset: one bit is corrected, and what its code cannot correct
stays (R335; log entry 84). -/
def queuedFind (x : Side) (ch k w : Nat) (mask : BitVec 120) (s : State) : State :=
  if !beyondCode mask then s
  else s.modChan x ch (fun c => { c with queue := c.queue.zipIdx.map (fun q =>
    if q.2 = k then { q.1 with words := q.1.words.zipIdx.map (fun v => if v.2 = w then v.1 ^^^ mask else v.1) } else q.1) })

/-- A word of the kth block of the egress buffer changed by an upset: one bit is corrected, and what its code cannot correct stays (R335;
log entry 84). -/
def egressFind (x : Side) (k i : Nat) (mask : Word72) (s : State) : State :=
  if !beyondCode mask then s
  else s.modLnk x (fun l => { l with egress := l.egress.zipIdx.map (fun q =>
    if q.2 = k then { q.1 with words := q.1.words.zipIdx.map (fun v => if v.2 = i then v.1 ^^^ mask else v.1) } else q.1) })

/-- A line of an instruction memory found uncorrectable, on which the next fetch fails (R345). -/
def codeFind (x : Side) (e : Option (Fin 48)) (line : Nat) (s : State) : State :=
  match e with
  | some e => s.modEng x e (fun g => { g with lines := insertNat line g.lines })
  | none => s.modMgt x (fun g => { g with lines := insertNat line g.lines })

/-- What a side's SRAM scrub access found, handled by the rule of the chapter that owns the word (R264, R266, R286, R335, R345, R559). -/
def sideFind (x : Side) (f : SideFind) (s : State) : State :=
  match f with
  | .staging u i => stagingFind x u i s
  | .assembly u i => scanReady x (outputFault x u (.sram i) s)
  | .queued ch k w mask => queuedFind x ch k w mask s
  | .egress k i mask => egressFind x k i mask s
  | .code e line => codeFind x e line s
  | .engine e => trapEngine x e s
  | .sound => s
  | .corrected => s
  | .other => s

/-- SIDE_SRAM_SCRUB (R335, R559): one access; a corrected word is written back. -/
def execSideSramScrub (dt : Nat) (x : Side) (found : SideFind) (s0 : State) : Host.Outcome State Fault Refusal :=
  let s := s0.elapse dt
  if !s.live x || s.rb (Reg.MGT_SRAM_SCRUB x) 16 then .next s
  else
    let within := s.clock.sramSide.get x < (s.side x).mgt.scrubTick + sramPeriod s (Reg.MGT_SRAM_SCRUB x)
    .next (sideFind x found (s.modMgt x (fun g => { g with
      scrubPos := if within then g.scrubPos + 1 else 0
      scrubTick := if within then g.scrubTick else s.clock.sramSide.get x })))

end Sys2Proof.Machine
end

