-- ==== Sys2Proof/Machine/Power.lean ====
section
/-!
DEFINITION. Power, clocks and start-up (chapter "Power, clocks and start-up", R518–R547): feeds and VAON, module resets,
start-up, the wake sequencer, the base PLL, and STANDBY.
-/

namespace Sys2Proof.Machine

/-! ### What a module reset and a loss of power leave (R522, R523, R542, R543) -/

/-- Whether a register outlives a module reset: always-on, or what MGT_LAST_INFO shows of NVM (R542). -/
def moduleKeeps (a : Nat) : Bool :=
  decide (a < 0x20) || (decide (0x01000000 ≤ a) && decide (0x40 ≤ a % 0x01000000) && decide (a % 0x01000000 < 0x80))

/-- Whether a register holds a frame ADC's factors, which a module reset keeps until start-up measures them again (R151, R542). -/
def holdsFactor (a : Nat) : Bool :=
  decide (0x100000 ≤ a) && decide (a < 0x500000) && decide (0x8000 ≤ a % 0x10000) && decide (a % 0x10000 < 0x9000)

/-- Whether a register holds doses (R564). -/
def holdsDose (a : Nat) : Bool := decide (0x20C20 ≤ a) && decide (a < 0x20E00)

/-- The module with everything outside the always-on domain and NVM as at reset (R523, R542). -/
def blank (s : State) : State :=
  { State.reset with
    clock := s.clock
    regs := s.regs.filter (fun e => moduleKeeps e.1)
    tdc := { Tdc.idle with digis := bootDigis (bootLists s) }
    sideA := SideState.fresh (s.sideA.mgt.kept s.clock.sramSide.a)
    sideB := SideState.fresh (s.sideB.mgt.kept s.clock.sramSide.b)
    power := { Power.off with
      vaon := s.power.vaon
      feed := s.power.feed
      heldN := s.power.heldN
      heldSide := s.power.heldSide }
    arb := { Arb.idle with svc := ⟨bootService (bootLists s) .a, bootService (bootLists s) .b⟩ }
    bg := { Background.fresh with
      inForce := bootLists s
      nvm := s.bg.nvm
      older := s.bg.older
      scrubTick := s.clock.sram
      baseline := s.bg.baseline
      recharging := s.bg.recharging }
    pins := (List.range 12).foldl (fun m i => Sparse.set m i ⟨(s.pin i).pad, none, 0⟩ Pin.idle) []
    freeCount := s.freeCount
    pending := s.pending }

/-- The start of a start-up, of which step 0 is over: its cause recorded, the ticks of its beginning (R537, R545). -/
def beginStart (cause : Nat) (s : State) : State :=
  let s1 := s.wr Reg.AON_RESET_CAUSE (BitVec.ofNat 32 cause)
  { s1 with
    clock := { s1.clock with bootTick := s1.clock.ticks }
    power := { s1.power with
      mode := .active
      stepTick := s1.clock.ticks } }

/-- The digitizers with the time-calibration tables they had, which stand until start-up fills new ones (R542). -/
def keepTables (old m : Sparse Digi) : Sparse Digi :=
  old.foldl (fun m e => Sparse.upd m e.1 Digi.idle (fun g => { g with latest := e.2.latest, inUse := e.2.inUse })) m

/-- A module reset (R540–R543): always-on registers, NVM, array time, dose, time-calibration tables and frame ADC factors are
kept. -/
def resetModule (cause : Nat) (s : State) : State :=
  let s1 := blank s
  let s2 := (s.regs.filter (fun e => holdsDose e.1 || holdsFactor e.1)).foldl (fun t e => t.wr e.1 e.2) s1
  beginStart cause (({ s2 with
    power := { s2.power with baseLock := s.power.baseLock }
    tdc := { s2.tdc with digis := keepTables s.tdc.digis s2.tdc.digis }
    bg := { s2.bg with
      inc := s.bg.inc
      rest := s.bg.rest
      tileRest := s.bg.tileRest
      doseTick := s.bg.doseTick
      saveTick := s.bg.saveTick } }).bump Reg.AON_COUNTS 15 0 1)

/-- A start-up from OFF or DORMANT (R523, R537, R543, R564): array time starts at 0, the doses are those last saved. -/
def coldStart (s : State) : State :=
  let s1 := blank s
  let s2 := { s1 with clock := { Clock.leap s1 with
    now := 0
    fine := 0
    slew := 0 } }
  beginStart 0x01 ((loadDoses (bootLists s) s2).bump Reg.AON_COUNTS 31 16 1)

/-- Everything outside the always-on domain unpowered (R523). -/
def goDark (m : PowerMode) (s : State) : State := (blank s).modPower (fun p => { p with mode := m })

/-- Whether the base tier is powered. -/
def State.powered (s : State) : Bool := s.power.mode = .active || s.power.mode = .standby

/-! ### VAON and the feeds (R519–R523) -/

/-- VAON_VALID (R523). -/
def execVaonValid (dt : Nat) (s0 : State) : Host.Outcome State Fault Refusal :=
  let s := s0.elapse dt
  if s.power.vaon then .next s
  else
    let s1 := { s with clock := { s.clock with aonTick := s.clock.ticks } }
    let s2 := s1.modPower (fun p => { p with
      vaon := true
      mode := .dormant })
    .next (if s.power.feed.a || s.power.feed.b then coldStart s2 else s2)

/-- VAON_LOST (R522, R523): the always-on registers are lost. -/
def execVaonLost (dt : Nat) (s0 : State) : Host.Outcome State Fault Refusal :=
  let s := s0.elapse dt
  if !s.power.vaon then .next s
  else
    let s1 := goDark .off { s with regs := s.regs.filter (fun e => decide (0x20 ≤ e.1)) }
    .next (s1.modPower (fun p => { p with vaon := false }))

/-- VIN_VALID (R519, R520, R523): a start-up, or a side that boots again. -/
def execVinValid (dt : Nat) (x : Side) (s0 : State) : Host.Outcome State Fault Refusal :=
  let s := s0.elapse dt
  if s.power.feed.get x then .next s
  else
    let s1 := s.modPower (fun p => { p with feed := p.feed.set x true })
    if !s.power.vaon then .next s1
    else if s.powered then .next (startBoot x s1)
    else .next (coldStart s1)

/-- VIN_LOST (R519, R520, R523). -/
def execVinLost (dt : Nat) (x : Side) (s0 : State) : Host.Outcome State Fault Refusal :=
  let s := s0.elapse dt
  if !s.power.feed.get x then .next s
  else
    let s1 := s.modPower (fun p => { p with feed := p.feed.set x false })
    if !s.powered then .next s1
    else
      let s2 := s1.bump Reg.PWR_FEED (15 + 16 * sideNum x) (16 * sideNum x) 1
      if !s.power.feed.get (peerOf x) then .next (goDark .dormant s2)
      else .next (takeOut x sevFault (0x16 + sideNum x) (unpower x (raiseBase (512 + sideNum x) sevFault noInst s2)))

/-! ### Resets (R540, R541) -/

/-- RESET_N (R540, R541). -/
def execResetN (dt : Nat) (s0 : State) : Host.Outcome State Fault Refusal :=
  let s := s0.elapse dt
  if s.power.heldN then .next s
  else
    let s1 := s.modPower (fun p => { p with heldN := true })
    .next (if s.powered then resetModule 0x02 s1 else s1)

/-- RESET_N_RELEASE (R540): start-up goes on from step 1. -/
def execResetNRelease (dt : Nat) (s0 : State) : Host.Outcome State Fault Refusal :=
  let s := s0.elapse dt
  if !s.power.heldN then .next s
  else .next (s.modPower (fun p => { p with
    heldN := false
    stepTick := s.clock.ticks }))

/-- SIDE_RESET_PIN (R400, R541). -/
def execSideResetPin (dt : Nat) (x : Side) (s0 : State) : Host.Outcome State Fault Refusal :=
  let s := s0.elapse dt
  if s.power.heldSide.get x then .next s
  else
    let s1 := s.modPower (fun p => { p with heldSide := p.heldSide.set x true })
    .next (if s.powered then takeOut x sevInfo (0x10 + sideNum x) s1 else s1)

/-- SIDE_RESET_PIN_RELEASE (R540, R541): the side begins to boot. -/
def execSideResetPinRelease (dt : Nat) (x : Side) (s0 : State) : Host.Outcome State Fault Refusal :=
  let s := s0.elapse dt
  .next (startBoot x (s.modPower (fun p => { p with heldSide := p.heldSide.set x false })))

/-- MODULE_RESET (R540). -/
def execModuleReset (dt : Nat) (c : Ctx) (s : State) : Host.Outcome State Fault Refusal :=
  .next (commandThen dt c .moduleReset noPar (fun _ s => okRes s)
    (fun _ s => afterReply c .moduleReset (resetModule 0x03) s) s)

/-- ARRAY_RESET_AT_T (R430, R540). -/
def execArrayResetAtT (dt : Nat) (s0 : State) : Host.Outcome State Fault Refusal :=
  let s := s0.elapse dt
  match s.lace.resetAt with
  | some t => if reached s.now t then .next (resetModule 0x04 s) else .next s
  | none => .next s

/-! ### Start-up (R58, R117, R149, R459, R462, R537, R545) -/

/-- A start-up step ended. -/
def stepped (n : Nat) (s : State) : State := s.modPower (fun p => { p with
  step := n
  stepTick := s.clock.ticks })

/-- Step 1 ends: the base tier is up, staged images are adopted, the sides begin to boot. -/
def baseTierUp (s : State) : State :=
  let s1 := (stepped 1 s).modPower (fun p => { p with baseLock := true })
  let xs := [Side.a, Side.b].filter (fun x => canBoot x s1)
  let s2 := updateLoop (hkResume (adopt true xs (adopt false xs s1)))
  startBoot .b (startBoot .a s2)

/-- A side that has booted in start-up enters IN_SERVICE, with MODULE_ID from the straps (R26, R407, R537). -/
def firstService (straps : BitVec 8) (x : Side) (s : State) : State :=
  let s1 := s.wr (Reg.LCE_MODULE_ID x) (straps.setWidth 32)
  if !s.arb.passed.get x then s1
  else (s1.modArb (fun b => { b with
    svc := b.svc.set x .inService
    passed := b.passed.set x false })).modWlt x (fun w => { w with lastValid := s.clock.ticks })

/-- A side whose staged image the boot ROM did not take reports it (R462). -/
def reportReverted (x : Side) (s : State) : State :=
  if s.rb (Reg.MGT_PATCH x) 1 then raiseSide x 550 sevFault noInst s else s

/-- Step 2 ends: the sides that have passed serve (R399, R537, R539, R545). -/
def sidesUp (straps : BitVec 8) (master : Bool) (s : State) : State :=
  let s1 := (stepped 2 s).modPower (fun p => { p with
    booted := true
    strapId := straps.toNat
    strapMaster := master })
  let s2 := firstService straps .b (firstService straps .a s1)
  let s3 := if s2.serving .a then s2 else givePrimary .b s2
  (onServing bootReport (raiseBase 518 sevInfo (s3.rf Reg.AON_RESET_CAUSE 7 0) s3)).both reportReverted

/-- The sides in service. -/
def servingSides (s : State) : List Side := [Side.a, Side.b].filter s.serving

/-- FA_CAL begun on all tiles (R148, R149). -/
def beginFaCal (s : State) : State :=
  let s1 := (s.modFrames (fun f => { f with cal := some ⟨List.range 64, s.clock.ticks, 1, 0, []⟩ })).wf Reg.FRM_STATUS 0 0 1
  s1.wr Reg.FRM_FA_STATUS 0

/-- Whether every port with a role of the sides in service is UP (R537). -/
def portsUp (s : State) : Bool :=
  (servingSides s).all (fun x => (List.range 16).all (fun p => s.role x p = 0 || (s.port x p).state = .up))

/-- STARTUP_STEP (R537): the step in progress ends, where what ends it has come about; straps and master are ID0–ID7 and
MASTER_N tied low as read in step 2 (R26, R407). -/
def execStartupStep (dt : Nat) (straps : BitVec 8) (master : Bool) (s0 : State) : Host.Outcome State Fault Refusal :=
  let s := s0.elapse dt
  if s.power.mode ≠ .active || s.power.heldN then .next s
  else
    match s.power.step with
    | 0 => .next (baseTierUp s)
    | 1 =>
      if (s.arb.booting.a.isSome || s.arb.booting.b.isSome) || (!s.arb.passed.a && !s.arb.passed.b) then .next s
      else .next (sidesUp straps master s)
    | 2 => .next (requestUnits (List.range 64) (loadBoot (servingSides s) (stepped 3 s)))
    | 3 =>
      if (List.range 64).all (fun t => s.power.on.contains t) then
        .next (beginApply (List.range 64) none (onServing trainPorts (stepped 4 s)))
      else .next s
    | 4 =>
      if s.pix.apply.isNone && (portsUp s || decide (s.power.stepTick + 150000000 ≤ s.clock.ticks)) then
        .next (beginPass (List.range 64) true (stepped 5 s))
      else .next s
    | 5 => if s.tdc.pass.isNone then .next (beginFaCal (stepped 6 s)) else .next s
    | 6 => if s.frames.cal.isNone then .next (stepped 7 s) else .next s
    | 7 => .next ((stepped 8 s).modPower (fun p => { p with ready := true }))
    | _ => .next s

/-! ### STANDBY (R525–R528, R547) -/

/-- A digitizer through a loss of front-tier power: its tables and histories are kept (R525, R527). -/
def Digi.rest (g : Digi) : Digi :=
  { Digi.idle with
    latest := g.latest
    inUse := g.inUse
    effectAt := g.effectAt
    coarse := g.coarse
    coarseNext := g.coarseNext
    faults := g.faults
    reals := g.reals }

/-- The front tier and the tiles unpowered (R525): latches lost, tables kept; a PLL out of lock is off with its tile, and locks anew at the
wake (R531, R534). DESIGN CHOICE (log entry 150): a stamp of an ETD under way is lost. -/
def frontOff (s : State) : State :=
  let s1 := noneServe s
  { s1 with
    tiles := s1.tiles.foldl (fun m e => Sparse.set m e.1 { e.2 with pllBusy := none } Tile.idle) []
    pix := { s.pix with
      latches := []
      train := none }
    tdc := { s.tdc with
      digis := s.tdc.digis.foldl (fun m e => Sparse.set m e.1 e.2.rest Digi.idle) []
      rot := s.tdc.rot.foldl (fun m e => Sparse.set m e.1 { e.2 with
        active := false
        first := none } Rotation.idle) []
      stamps := []
      fills := [] } }

/-- A side's data path unpowered (R525): contents of staging, assembly and egress discarded, the store and the fault histories kept
(R550). -/
def pathOff (x : Side) (s : State) : State :=
  let s1 := (List.range 16).foldl (fun t p => (disablePort x p t).modPort x p (fun q => { q with waiting := [] })) s
  s1.modSide x (fun d => { d with
    dsp := { Dsp.idle with engines := d.dsp.engines.map (fun e => (e.1, { Engine.idle with faults := e.2.faults })) }
    cmp := { d.cmp with
      outputs := []
      members := []
      entering := []
      progress := []
      ready := []
      engines := d.cmp.engines.map (fun e => (e.1, { e.2 with block := none, redo := false }))
      job := Job.none
      decs := []
      checked := [] }
    lnk := { d.lnk with
      notices := []
      egress := [] }
    wlt := { d.wlt with
      table := []
      disputes := []
      retained := []
      inbox := []
      inboxRe := [] } })

/-- STANDBY entered (R525). -/
def enterStandby (s : State) : State :=
  let s1 := (frontOff s).both (fun x t => if t.logsEvents x then pathOff x t else t)
  (s1.wf Reg.PWR_CTRL 1 0 1).modPower (fun p => { p with
    mode := .standby
    on := []
    tileLock := []
    wake := [] })

/-- Whether an operation that excludes STANDBY is in progress (R525). -/
def standbyBusy (s : State) : Bool := nvmBusy s || s.pix.scan.isSome || calBusy s

/-- STANDBY_ENTRY (R525, R547). -/
def execStandbyEntry (dt : Nat) (c : Ctx) (s : State) : Host.Outcome State Fault Refusal :=
  .next (commandThen dt c (.writeReg s c Reg.PWR_CTRL 1 true false false) noPar
    (fun _ s =>
      if s.power.mode = .standby then (if s.waking then refuse s .busy else okRes s)
      else if s.trg.run ≠ .idle then refuse s .wrongState
      else if standbyBusy s then refuse s .busy
      else okRes s)
    (fun _ s => if s.power.mode = .standby then s else afterReply c .standby enterStandby s) s)

/-- STANDBY_EXIT (R527, R547): the reply waits until the module is ACTIVE. -/
def execStandbyExit (dt : Nat) (c : Ctx) (s : State) : Host.Outcome State Fault Refusal :=
  .next (command dt c (.writeReg s c Reg.PWR_CTRL 0 true false false) noPar
    (fun x s =>
      if s.power.mode ≠ .standby || s.waking then okRes s
      else
        let s1 := (s.wf Reg.PWR_CTRL 1 0 0).modPower (fun p => { p with changing := some ⟨x, 0x03, c, s.clock.ticks⟩ })
        .later (requestUnits (allUnits s) s1)) s)

/-- The module ACTIVE again (R527): latches as the applied image has them, but for the words of bad, which read uncorrectable (R64), the
command replies, the ports train. -/
def becomeActive (bad : List (Fin 1048576)) (s : State) : State :=
  let w := s.power.changing
  let s0 := (scrubAnew s).modPower (fun p => { p with
    mode := .active
    changing := none })
  let s1 := bad.foldl (fun t p => imageError p.val t) (s0.modPix (fun k => { k with
      latches := copyTiles (List.range 64) k.applied k.latches }))
  let s2 := match w with
    | some w => barrierCheck (formReply w.x w.ctx (replyTo s1 w.x w.ctx w.op .ok 0 []) s1)
    | none => s1
  s2.both (fun x t => if t.logsEvents x then trainPorts x t else t)

/-! ### The wake sequencer (R533–R536) -/

/-- The queue in order of request: among the requests of the last step, tiles first, then side A's units, then side B's
(R535). -/
def wakeOrder (p : Power) : List (Nat × Nat) :=
  let old := p.wake.filter (fun q => decide (q.2 < p.wakeTick))
  let new := p.wake.filter (fun q => decide (p.wakeTick ≤ q.2))
  old ++ sortBy (fun a b => decide (a.1 ≤ b.1)) new

/-- One unit ready (R534): its wait beyond its own step noted, a tile's PLL locked. -/
def unitReady (s : State) (q : Nat × Nat) : State :=
  let s1 := s.high Reg.PWR_WAKE_WAIT 31 0 ((s.clock.ticks - 60000 - q.2) / 3000)
  s1.modPower (fun p => { p with
    on := insertNat q.1 p.on
    since := if q.1 < 64 then Sparse.set p.since q.1 s.clock.ticks 0 else p.since
    tileLock := if q.1 < 64 then insertNat q.1 p.tileLock else p.tileLock })

/-- A step that ends with its first n requests served: the units ready, and the others left in their order (R534, R535). -/
def endStep (n : Nat) (s : State) : State :=
  let l := wakeOrder s.power
  let s1 := (l.take n).foldl unitReady s
  let rest := l.drop n
  let waits := rest.any (fun q => decide (q.2 + 60000 ≤ s.clock.ticks)) && !s.power.wakeSaid
  let s2 := s1.modPower (fun p => { p with
    wake := rest
    wakeTick := s.clock.ticks
    wakeSaid := (p.wakeSaid || waits) && rest ≠ [] })
  if waits then raiseBase 515 sevInfo noInst s2 else s2

/-- WAKE_STEP (R527, R534–R536): a step of 20 µs ends; inLimits: no valid feed lies outside 10.8–13.2 V. Where the module becomes ACTIVE
with it, bad lists the words of the applied image that read uncorrectable as the latches are loaded (R64). -/
def execWakeStep (dt : Nat) (inLimits : Bool) (bad : List (Fin 1048576)) (s0 : State) : Host.Outcome State Fault Refusal :=
  let s := s0.elapse dt
  if !s.powered || (s.power.wake = [] && !s.waking) || s.clock.ticks < s.power.wakeTick + 60000 then .next s
  else if !inLimits then .next (endStep 0 s)
  else
    let s1 := endStep 4 s
    .next (if s1.power.wake = [] && s1.waking then becomeActive bad s1 else s1)

/-! ### The base PLL (R532) -/

/-- BASE_PLL_LOCK_LOST (R532). -/
def execBasePllLockLost (dt : Nat) (s0 : State) : Host.Outcome State Fault Refusal :=
  let s := s0.elapse dt
  if !s.baseUp || !s.power.baseLock then .next s
  else
    let s1 := (s.bump Reg.PWR_CLK_LOSS 31 16 1).modPower (fun p => { p with baseLock := false })
    let s2 := raiseBase 517 sevCritical noInst (s1.both (fun y t => t.wf (Reg.LCE_STATUS y) 15 15 0))
    .next (endRunAt (BitVec.ofNat 64 (alignUp 8 (s.now.toNat + 1))) s2)

/-- BASE_PLL_RELOCK (R532). -/
def execBasePllRelock (dt : Nat) (s0 : State) : Host.Outcome State Fault Refusal :=
  let s := s0.elapse dt
  .next (if s.baseUp then s.modPower (fun p => { p with baseLock := true }) else s)

end Sys2Proof.Machine
end

