-- ==== Sys2Proof/Machine/Telemetry.lean ====
section
/-!
DEFINITION. Telemetry (chapter "Events and telemetry", R492–R494): the capture, its frame, and the snapshot of an array.
-/

namespace Sys2Proof.Machine

/-- A cumulative counter of side x (R493). -/
def State.total (s : State) (x : Side) (c : Tally) : Nat := Sparse.get (s.side x).tally c.ctorIdx 0

/-- A telemetry word of one 64-bit value (R493). -/
def word64 (n : Nat) : Word72 := BitVec.ofNat 72 (n % 2 ^ 64)

/-- A telemetry word of two 32-bit values, the first in [63:32] (R493). -/
def word2 (a b : Nat) : Word72 := word64 (a % 2 ^ 32 * 2 ^ 32 + b % 2 ^ 32)

/-- The granules that can be used of a side's store (R322). -/
def capacityOf (s : State) (x : Side) : Nat := usable s x 0 (2 ^ 27)

/-- Words 0 to 7 of a capture at a time (R493). -/
def telemHead (s : State) (x : Side) (at_ : Time) (snapshot : Bool) : List Word72 :=
  [word64 at_.toNat,
   word64 (1 * 2 ^ 56 + s.moduleId x * 2 ^ 48 + sideNum x * 2 ^ 47 + b2n snapshot * 2 ^ 46 + s.trg.run.code * 2 ^ 44
     + (s.arb.svc.get x).code * 2 ^ 42 + (s.arb.svc.get (peerOf x)).code * 2 ^ 40 + b2n s.arb.twin * 2 ^ 39
     + b2n (s.arb.primary = x) * 2 ^ 38 + s.uptime % 2 ^ 32)]
  ++ [Tally.linkWords, .hits, .outFrames, .records, .compIn, .compOut].map (fun c => word64 (s.total x c))

/-- The counts of what was lost and of faults: word groups 1 and 2 (R493). -/
def telemCounts (s : State) (x : Side) : List Word72 :=
  let c (k : Tally) : Nat := s.total x k
  [word64 (c .busyEdge), word64 (c .squallDrop), word64 (c .clusterDrop), word2 (c .truncated) (c .skipped),
   word64 (c .substitutes), word2 (c .overwritten) (c .blocksSkipped), word2 (c .cut) (c .linkSubst),
   word2 (c .lostCritical % 65536 * 65536 + c .lostFault % 65536) (c .lostNotice % 65536 * 65536 + c .lostInfo % 65536),
   word2 (c .storeCorr) (c .storeUncorr), word2 (c .fifoCorr) (c .fifoUncorr), word2 (c .traps) (c .verifyFail),
   word2 (c .disputes) (c .disputesLost), word2 (c .laneFaults) (c .weltRetrans), word2 (c .latchFix) (c .calFail),
   word2 (c .squalls) (c .merges), word2 (c .badFrames) (c .commands)]

/-- What is in service and retired, and the fill of the rings: word group 3 (R493). -/
def telemState (s : State) (x : Side) : List Word72 :=
  let b := s.bg
  let engs := ((List.range 48).filter (fun e => !engRetired s x e)).length
  let px := b.inForce.pixels.length + b.unlisted.length
  let dg := b.inForce.digitizers.length + b.unlistedDigis.length
  let ad := b.inForce.adcs.length + b.unlistedAdcs.length
  let rows := (b.inForce.rows.filter (fun r => r / 2 ^ 22 = sideNum x)).length
  [word64 (serviceFigure s x % 65536 * 2 ^ 48 + capacityOf s x % 2 ^ 28 * 2 ^ 20 + capacity s x % 4096 * 256),
   word64 (engs * 2 ^ 58 + (compsIn s x).length * 2 ^ 52 + (chansIn s x).length * 2 ^ 47),
   word2 px (dg % 65536 * 65536 + ad % 65536),
   word64 (b.inForce.tiles.length % 256 * 2 ^ 56 + b.inForce.lanes.length % 256 * 2 ^ 48 + rows % 65536 * 2 ^ 32)]
  ++ (List.range 4).map (fun i => word2 (s.ring x (2 * i)).fill (s.ring x (2 * i + 1)).fill)

/-- The 104 words of a capture (R493). -/
def telemWords (s : State) (x : Side) (at_ : Time) (snapshot : Bool) : List Word72 :=
  telemHead s x at_ snapshot ++ telemCounts s x ++ telemState s x
  ++ (List.range 32).map (fun i => word2 (s.rd (Reg.HK_RESULT (2 * i + 1))).toNat (s.rd (Reg.HK_RESULT (2 * i))).toNat)
  ++ (List.range 32).map (fun i => word2 (tileDose s (2 * i + 1)) (tileDose s (2 * i)))
  ++ (List.range 4).map (fun d => word64 (detDose s d)) ++ List.replicate 4 0

/-- TELEMETRY_CAPTURE (R492): at each multiple of the period, a capture and its item in a delay list. -/
def execTelemetryCapture (dt : Nat) (x : Side) (s0 : State) : Host.Outcome State Fault Refusal :=
  let s := s0.elapse dt
  let per := s.rf (Reg.EVT_TELEM x) 7 0 * 30000000
  let t : Time := BitVec.ofNat 64 (s.now.toNat / per * per)
  if !enginesRun s x || per = 0 || (s.side x).mgt.telemAt = some t then .next s
  else .next (delayItem x (.telemetry (telemWords s x t false)) s.now (s.modMgt x (fun g => { g with telemAt := some t })))

/-- SNAPSHOT_AT_T (R430, R494). -/
def execSnapshotAtT (dt : Nat) (s0 : State) : Host.Outcome State Fault Refusal :=
  let s := s0.elapse dt
  match s.lace.snapshotAt.find? (reached s.now) with
  | some t =>
      .next (onLive (fun x k => delayItem x (.telemetry (telemWords s x t true)) s.now
        (k.wr64 (Reg.LCE_SNAP_TIME x) (Reg.LCE_SNAP_TIME_4 x) t)) (s.modLace (fun b => { b with snapshotAt := b.snapshotAt.erase t })))
  | none => .next s

/-- A telemetry frame sent on every UP UPLINK port that EVT_TELEM.PORTS names (R364, R492). -/
def sendTelemetry (x : Side) (ws : List Word72) (s : State) : State :=
  let ports := (List.range 16).filter (fun p =>
    (s.port x p).state = .up && s.role x p = 1 && s.rb (Reg.EVT_TELEM x) (16 + p))
  let f := plainFrame s x 4 3 (s.frameSeq x 4) ws
  ports.foldl (fun t p => sendFrame x p f t) (s.tookSeq x 4)

/-- TELEMETRY (R237, R492). -/
def execTelemetry (dt : Nat) (x : Side) (e : Fin 48) (s0 : State) : Host.Outcome State Fault Refusal :=
  .next (complete x e 5 (fun w s => match w with
    | .telemetry ws => .done (sendTelemetry x ws s)
    | _ => .done s) (s0.elapse dt))

end Sys2Proof.Machine
end

