-- ==== Sys2Proof/Machine/Registers.lean ====
section
/-!
DEFINITION. The register commands (R447–R449): where an address falls (R584–R588), what a read of each register returns,
what a write of it breaks and does (R12, R15, R16, and the rules of the owning chapters), and the writes that have rows of
their own.
-/

namespace Sys2Proof.Machine

/-! ### Where an address falls -/

/-- What an address names: a register, a word of the pixel shadow or of the applied image, a word of a table. -/
inductive Place
  | reg (a : Nat)
  | shadow (p : Nat)
  | applied (p : Nat)
  | table (d word : Nat)
deriving DecidableEq, Repr

/-- The pixel whose applied word stands at an address (R45, R584). -/
def appliedPixel (a : Nat) : Option Nat :=
  if 0x11000000 ≤ a ∧ a < 0x11000000 + 4 * 1048576 ∧ a % 4 = 0 then some ((a - 0x11000000) / 4) else none

/-- The place of a resolved address; none where nothing is mapped (R584). -/
def placeOf (a : Nat) : Option Place :=
  match shadowPixel a, appliedPixel a, tableWord a with
  | some p, _, _ => some (.shadow p)
  | none, some p, _ => some (.applied p)
  | none, none, some q => some (.table q.1 q.2)
  | none, none, none => if a % 4 = 0 ∧ (regAt a).isSome then some (.reg a) else none

/-- The side whose range an address lies in (R591). -/
def sideOfAddr (a : Nat) : Option Side :=
  if 0x01000000 ≤ a ∧ a < 0x02000000 then some .a
  else if 0x02000000 ≤ a ∧ a < 0x03000000 then some .b
  else none

/-- The tile whose block an address lies in (R590). -/
def tileOfAddr (a : Nat) : Option Nat :=
  if 0x00100000 ≤ a ∧ a < 0x00500000 then some ((a - 0x00100000) / 0x10000) else none

/-- Whether a place has a field of view U (R15, R584). -/
def Place.open_ : Place → Bool
  | .reg a => match regAt a with
    | some (r, _) => r.fields.any (fun f => !f.priv)
    | none => false
  | .shadow _ => false
  | .applied _ => true
  | .table _ _ => true

/-- The bits of a term, of a table entry and of a counter's source that are not reserved (R216, R236): a word of terms, of
transitions, of actions. -/
def entryMask (a : Nat) : Word :=
  let o := a % 0x01000000
  if 0x20280 ≤ o ∧ o < 0x202C0 ∧ o % 8 = 0 then 0xFFFFFFF8
  else if (0x21000 ≤ o ∧ o < 0x21400) ∨ (0x21800 ≤ o ∧ o < 0x21900 ∧ o % 32 < 20) then
    (if o % 32 < 8 then 0x0FF80FF8 else if o % 32 < 12 then 0x0F3F0F3F else 0xFFFFFFFF)
  else 0xFFFFFFFF

/-- The bits that a write stores (R12, R16). -/
def storeBits (a : Nat) : Word := rwBits a &&& entryMask a

/-- The bits that a write of 1 clears or triggers (R12). -/
def strobeBits (a : Nat) : Word := fieldBits (fun f => f.ty = .wc || f.ty = .wo) a

/-- The bits whose write of 1 triggers an action (R12). -/
def actionBits (a : Nat) : Word := fieldBits (fun f => f.ty = .wo) a

/-- The bits that a privileged read clears (R12). -/
def clearBits (a : Nat) : Word := fieldBits (fun f => f.ty = .rc) a

/-- The bits of view U (R15). -/
def openBits (a : Nat) : Word := fieldBits (fun f => !f.priv) a

/-! ### What a read returns

A field that shows the present state of a block is computed from that block; the others stand in the register. -/

/-- Fields put over a word: (hi, lo, value). -/
def overlay (l : List (Nat × Nat × Nat)) (w : Word) : Word :=
  BitVec.ofNat 32 (l.foldl (fun v q => setBits v q.1 q.2.1 q.2.2) w.toNat)

/-- Bits [31:0] and [63:32] of a time as the value of word k. -/
def timeWord (t : Time) (k : Nat) : Nat := t.toNat / 2 ^ (32 * k) % 2 ^ 32

/-- The bits of a mask of numbers, from 32i on. -/
def maskWord (l : List Nat) (i : Nat) : Nat :=
  (l.filter (fun t => t / 32 = i)).foldl (fun m t => setBits m (t % 32) (t % 32) 1) 0

/-- Base control (R87, R138, R153, R205, R516, R546). -/
def liveBase (s : State) (a : Nat) : List (Nat × Nat × Nat) :=
  if a = Reg.AON_SECONDS then [(31, 0, (s.clock.ticks - s.clock.aonTick) / 3000000000)]
  else if a = Reg.PWR_STATUS then
    [(31, 28, if s.power.ready then 8 else s.power.step), (9, 9, b2n s.power.ready), (5, 5, b2n s.power.feed.b),
     (4, 4, b2n s.power.feed.a), (1, 0, if s.waking then 2 else if s.power.mode = .standby then 1 else 0)]
  else if a = Reg.PWR_WAKE_STATUS then [(6, 0, s.power.wake.length)]
  else if a = Reg.PWR_CLK_STATUS then [(0, 0, b2n s.power.baseLock)]
  else if a = Reg.PWR_TILE_LOCK_LO then [(31, 0, maskWord s.power.tileLock 0)]
  else if a = Reg.PWR_TILE_LOCK_HI then [(31, 0, maskWord s.power.tileLock 1)]
  else if a = Reg.HK_STATUS then [(2, 2, b2n s.hk.cal.isSome), (1, 1, b2n s.hk.inj.isSome)]
  else if a = Reg.PIX_APPLY_STATUS then [(0, 0, b2n s.pix.apply.isSome)]
  else if a = Reg.PIX_AWL_STATUS then
    [(31, 16, match s.pix.train with | some t => t.left | none => 0), (0, 0, b2n s.pix.train.isSome)]
  else if a = Reg.PIX_SCAN_STATUS then [(0, 0, b2n s.pix.scan.isSome)]
  else if a = Reg.TIL_SQ_STATUS then [(0, 0, b2n (inSquall s))]
  else []

/-- A tile's block (R137, R153, R204): o is the offset. -/
def liveTile (s : State) (t o : Nat) : List (Nat × Nat × Nat) :=
  let k := s.tile t
  if o = 0x0 then (if s.tileRetired t then [(0, 0, 0)] else [])
  else if o = 0x4 then
    [(5, 5, b2n (s.tileRetired t)), (4, 4, b2n (gated s t)), (3, 3, b2n (k.busy s.clock.ticks)), (1, 0, k.state.code)]
  else if o = 0x8 then [(12, 0, k.fifo.length)]
  else if o = 0xD008 then [(10, 10, b2n (filling s t))]
  else if o = 0xD010 then
    [(10, 0, ((s.bg.inForce.digitizers ++ s.bg.unlistedDigis).filter (fun d => d < 65536 && digiTile d = t)).length)]
  else if o = 0xE00C then
    [(10, 0, ((s.bg.inForce.adcs ++ s.bg.unlistedAdcs).filter (fun d => d / 1024 = t)).length)]
  else []

/-- Word k of an entry block (R480, R495). -/
def entryWord (e : EvEntry) (k : Nat) : Nat :=
  if k = 0 then e.src * 2 ^ 22 + e.sev * 2 ^ 20 + b2n e.acked * 2 ^ 19 + b2n e.begun * 2 ^ 18 + e.count
  else if k = 1 then e.seq.toNat
  else if k = 2 || k = 3 then timeWord e.first (k - 2)
  else if k = 4 || k = 5 then timeWord e.last (k - 4)
  else if k = 6 then e.inst
  else 0

/-- The events of a side (R495). -/
def liveEvt (s : State) (x : Side) (o : Nat) : List (Nat × Nat × Nat) :=
  let v := (s.side x).evt
  if o = 0x10004 then [(16, 16, b2n (s.alert x)), (9, 0, v.queue.length)]
  else if o = 0x10008 then [(31, 0, v.next.toNat)]
  else if 0x10200 ≤ o ∧ o < 0x10220 then [(31, 0, entryWord v.ff ((o - 0x10200) / 4))]
  else if 0x11000 ≤ o ∧ o < 0x15000 then
    [(31, 0, match v.queue[(o - 0x11000) / 32]? with
      | some e => entryWord e (o % 32 / 4)
      | none => 0)]
  else if 0x18000 ≤ o ∧ o < 0x20000 then
    let r := Sparse.get v.recs ((o - 0x18000) / 32) SrcRec.zero
    let k := o % 32 / 4
    [(31, 0, if k = 0 then r.count else if k ≤ 2 then timeWord r.first (k - 1) else timeWord r.last (k - 3))]
  else []

/-- A management controller (R469, R565). -/
def liveMgt (s : State) (x : Side) (o : Nat) : List (Nat × Nat × Nat) :=
  let g := (s.side x).mgt
  let writes := max g.listWrites.a g.listWrites.b
  if o = 0xC then [(6, 0, g.queue.length)]
  else if o = 0x14 then [(2, 0, g.bootSlot)]
  else if o = 0x18 then [(0, 0, b2n (s.serving x && (s.bg.updating.isSome || s.bg.storing)))]
  else if o = 0x1C then [(3, 3, b2n g.microOk), (2, 2, b2n g.patchOk)]
  else if o = 0x24 then [(31, 31, b2n (decide (1000000 < writes))), (23, 0, min writes (2 ^ 24 - 1))]
  else if 0x40 ≤ o ∧ o < 0x80 ∧ o % 8 = 0 then [(31, 31, b2n (Sparse.get g.slots ((o - 0x40) / 8) none).isSome)]
  else if 0x90000 ≤ o ∧ o < 0x90200 then
    let w := (o - 0x90000) % 64 / 4
    [(31, 0, bits (measOf s x ((o - 0x90000) / 64)).toNat (383 - 32 * w) (352 - 32 * w))]
  else if o = 0x90200 then [(7, 0, g.log.length)]
  else []

/-- The engines of a side that run, and its retired ones. -/
def enginesBusy (s : State) (x : Side) : Nat := ((List.range 48).filter (fun e => (s.eng x e).item.isSome)).length

/-- Decompressors of a side at work: those that VERIFY uses (R290). -/
def decodersBusy (s : State) (x : Side) : Nat :=
  ([0, 1, 2, 3].filter (fun d => (Sparse.get (s.side x).cmp.decs d none).isSome)).length

/-- The trigger engine, the dispatcher, the stream engines and compression of a side (R235, R267, R296). -/
def livePath (s : State) (x : Side) (o : Nat) : List (Nat × Nat × Nat) :=
  if o = 0x20004 then
    [(10, 10, b2n s.trg.stopAt.isSome), (9, 9, b2n s.trg.startAt.isSome), (8, 8, b2n s.trg.commitAt.isSome),
     (7, 4, s.trg.seq), (1, 0, s.trg.run.code)]
  else if o = 0x20414 then [(6, 0, s.trg.opened.length)]
  else if o = 0x30008 then [(28, 16, (s.dsp x).ready.length), (10, 0, (s.dsp x).delay.length)]
  else if o = 0x30104 then
    let gone := ((List.range 48).filter (engRetired s x)).length
    [(21, 16, enginesBusy s x), (13, 8, gone), (5, 0, 48 - gone)]
  else if o = 0x3010C then [(16, 0, freeAccs s x)]
  else if 0x30200 ≤ o ∧ o < 0x302C0 then
    let e := (o - 0x30200) / 4
    let g := s.eng x e
    [(31, 31, b2n (engRetired s x e)), (28, 27, g.faults.count s.now), (26, 26, b2n g.saved.isSome),
     (25, 25, b2n g.item.isSome), (24, 22, match g.item with | some (i, _) => i.work.kind | none => 0),
     (21, 15, match g.item with | some (i, _) => i.work.key | none => g.key)]
  else if o = 0x40008 then
    let l := compsIn s x
    [(26, 24, decodersBusy s x), (21, 16, 32 - l.length),
     (13, 8, ((List.range 32).filter (fun e => (s.comp x e).block.isSome)).length), (5, 0, l.length)]
  else if o = 0x4000C then [(3, 0, s.trg.cuts.length)]
  else if o = 0x40030 then [(15, 0, assemblyLevel s x)]
  else if 0x40100 ≤ o ∧ o < 0x40180 then
    let e := (o - 0x40100) / 4
    [(31, 31, b2n (compRetired s x e)), (30, 29, (s.comp x e).faults.count s.now), (28, 28, b2n (s.comp x e).block.isSome)]
  else []

/-- The burst store of a side (R347). -/
def liveStore (s : State) (x : Side) (o : Nat) : List (Nat × Nat × Nat) :=
  let b := s.bst x
  if o = 0x50000 then [(20, 16, (chansIn s x).length)]
  else if o = 0x50004 then [(25, 16, guaranteeSum s x), (9, 0, serviceFigure s x)]
  else if o = 0x50008 then [(27, 0, capacityOf s x)]
  else if o = 0x50014 then [(6, 0, b.patrol.getD 0 * 100 / 2 ^ 27)]
  else if 0x50040 ≤ o ∧ o < 0x50054 then
    let c := (o - 0x50040) / 4
    [(31, 31, b2n (b.shed.getD c false)), (25, 16, nth b.effective c)]
  else if 0x50100 ≤ o ∧ o < 0x50200 ∧ o % 32 = 0xC then [(27, 0, ringCap s x ((o - 0x50100) / 32))]
  else if 0x50100 ≤ o ∧ o < 0x50200 ∧ o % 32 = 0x10 then [(27, 0, (s.ring x ((o - 0x50100) / 32)).fill)]
  else if 0x50100 ≤ o ∧ o < 0x50200 ∧ o % 32 = 0x1C then
    let k := s.ring x ((o - 0x50100) / 32)
    [(1, 0, if k.halted then 2 else b2n (k.items.any (fun i => i.block?.isSome && !i.read && i.got ≠ [])))]
  else if 0x50400 ≤ o ∧ o < 0x50500 ∧ o % 16 = 0 then [(3, 0, (s.chan x ((o - 0x50400) / 16)).owed)]
  else if 0x50700 ≤ o ∧ o < 0x50740 then
    let ch := (o - 0x50700) / 4
    [(31, 31, b2n (chanRetired s x ch)), (9, 0, (retiredRows s x ch).length)]
  else []

/-- The longest pause in force on a port, in microseconds (R376). -/
def pauseLeft (q : Port) (now : Nat) : Nat :=
  q.pauses.foldl (fun m v => match v with
    | .none => m
    | .ticks u => max m (min 0xFFFE ((u - now) / 3000))
    | .open_ => 0xFFFF) 0

/-- The code of a port's state (R376). -/
def PortState.code : PortState → Nat
  | .disabled => 0
  | .training => 1
  | .up => 2
  | .failed => 3

/-- The lanes and ports of a side (R376). -/
def liveLink (s : State) (x : Side) (o : Nat) : List (Nat × Nat × Nat) :=
  if 0x60000 ≤ o ∧ o < 0x60400 then
    let p := (o - 0x60000) / 64
    let q := s.port x p
    if o % 64 = 4 then
      let locked := (List.range 8).filter (fun l => (s.lane x p l).lock && (s.lane x p l).aligned)
      [(31, 24, q.peerId), (23, 16, if q.state = .up then q.used.toNat else 0), (15, 8, (laneMask locked).toNat),
       (7, 7, b2n (laceRole (s.role x p) && locked ≠ [] && !roleFits (s.role x p) q.peerRole)),
       (6, 6, b2n ([0, 1, 2, 6].any (paused s x p))), (5, 4, q.width), (1, 0, q.state.code)]
    else if o % 64 = 0x14 then [(15, 0, pauseLeft q s.clock.ticks)]
    else if o % 64 = 0x18 then [(9, 0, if q.state = .up && laceRole (s.role x p) then min q.credit 512 else 0)]
    else []
  else if o = 0x60810 then [(11, 0, capacity s x)]
  else if 0x61000 ≤ o ∧ o < 0x61400 ∧ o % 8 = 4 then
    let p := (o - 0x61000) / 64
    let l := (o - 0x61000) % 64 / 8
    let n := s.lane x p l
    [(31, 31, b2n (s.laneRetired x p l)), (30, 29, n.faults.count s.now), (3, 3, b2n (s.laneUsed x p l)),
     (2, 2, b2n n.aligned), (1, 1, b2n n.lock), (0, 0, b2n n.signal)]
  else []

/-- The Welt link of a side (R402). -/
def liveWelt (s : State) (x : Side) (o : Nat) : List (Nat × Nat × Nat) :=
  if o = 0x70004 then
    [(11, 11, b2n (s.arb.held.get x)),
     (10, 10, b2n (decide ((s.side x).wlt.lastValid ≠ 0) && decide (s.clock.ticks < (s.side x).wlt.lastValid + 300000))),
     (9, 9, b2n (s.serving x && !s.serving (peerOf x))),
     (8, 8, b2n (decide (s.arb.primary = x))), (7, 6, (s.arb.svc.get (peerOf x)).code), (5, 4, (s.arb.svc.get x).code),
     (0, 0, b2n s.arb.twin)]
  else if o = 0x7000C then [(3, 2, (s.arb.outs.get x).count s.now), (1, 0, (s.arb.losses.get x).count s.now)]
  else if o = 0x70018 then [(15, 0, (s.side x).wlt.table.length)]
  else []

/-- The lace and array time of a side (R434). -/
def liveLace (s : State) (x : Side) (o : Nat) : List (Nat × Nat × Nat) :=
  if o = 0x80004 then [(31, 24, s.moduleId x), (23, 20, s.depth), (19, 19, b2n s.power.strapMaster)]
  else if o = 0x80010 || o = 0x80014 then [(31, 0, timeWord s.now ((o - 0x80010) / 4))]
  else if o = 0x80018 then [(23, 0, reachOf s x)]
  else if o = 0x8001C then [(8, 0, modulesOf s x)]
  else if 0x80080 ≤ o ∧ o < 0x800A0 then [(31, 0, (rosterOf s x).toNat / 2 ^ (8 * (o - 0x80080)) % 2 ^ 32)]
  else if 0x80100 ≤ o ∧ o < 0x80180 ∧ o % 8 = 0 then [(23, 0, (s.child x ((o - 0x80100) / 8)).reach)]
  else if 0x80100 ≤ o ∧ o < 0x80180 ∧ o % 8 = 4 then [(25, 0, meanOf (s.exchange x ((o - 0x80100) / 8)).hist)]
  else []

/-- A side's block (R591): o is the offset. -/
def liveSide (s : State) (x : Side) (o : Nat) : List (Nat × Nat × Nat) :=
  if o < 0x10000 then liveMgt s x o
  else if o < 0x20000 then liveEvt s x o
  else if o < 0x50000 then livePath s x o
  else if o < 0x60000 then liveStore s x o
  else if o < 0x70000 then liveLink s x o
  else if o < 0x80000 then liveWelt s x o
  else if o < 0x90000 then liveLace s x o
  else liveMgt s x o

/-- The fields of a register that are computed when it is read. -/
def liveFields (s : State) (a : Nat) : List (Nat × Nat × Nat) :=
  match sideOfAddr a, tileOfAddr a with
  | some x, _ => liveSide s x (a % 0x01000000)
  | none, some t => liveTile s t (a % 0x10000)
  | none, none => liveBase s a

/-- The present value of a register, every field of it. -/
def liveWord (s : State) (a : Nat) : Word := overlay (liveFields s a) (s.rd a)

/-- The tile of a block brought up to now before an access. -/
def settleBlock (a : Nat) (s : State) : State :=
  match tileOfAddr a with
  | some t => settleTile t s
  | none => s

/-- An access to a tile's block ungates its clock (R195). -/
def touchBlock (a : Nat) (s : State) : State :=
  match tileOfAddr a with
  | some t => touchTile t (settleBlock a s)
  | none => s

/-- The words that a read of a register captures for the upper registers of its quantity (R11). -/
def captureFrom (a n : Nat) (s : State) : State :=
  { s with capture := (List.range n).foldl (fun m i => Sparse.ins m (a + 4 * (i + 1)) (liveWord s (a + 4 * (i + 1)))) s.capture }

/-- The bits of the fields in which the hardware has set something in the present tick, f being what it has set. -/
def setFields (a : Nat) (f : Word) : Word := fieldBits (fun k => bits f.toNat k.hi k.lo ≠ 0) a

/-- A register at a read that clears its RC fields, w what it holds (R14): the value returned, and what is left. A field that the present
tick has set is returned as it was before the set, and ends holding the new set. -/
def rcRead (a : Nat) (e : Option (Word × Word)) (w : Word) : Word × Word :=
  match e with
  | some (v, f) => (mixBits w (clearBits a &&& setFields a f) v, mixBits w (clearBits a) f)
  | none => (w, w &&& ~~~clearBits a)

/-- The sets of the present tick after a read that has cleared the RC fields, which it then finds 0 (R14). -/
def readSets (a : Nat) (e : Option (Word × Word)) (s : State) : State :=
  { s with fresh := Sparse.set s.fresh a (e.map (fun q => (q.1 &&& ~~~clearBits a, q.2))) none }

/-- A read of a register: its value as the transport sees it; a privileged read clears RC fields, but for what the present tick has set
in them (R11, R12, R14, R15, R447). -/
def readReg (priv : Bool) (a : Nat) (s0 : State) : Word × State :=
  let u := settleBlock a s0
  let now := liveWord u a
  let s := touchBlock a u
  let w := Sparse.get s.capture a now
  let n := match regAt a with
    | some (r, _) => r.cap
    | none => 0
  let s1 := captureFrom a n { s with capture := Sparse.del s.capture a }
  if priv then ((rcRead a (u.setNow a) w).1, readSets a (u.setNow a) (s1.wr a (rcRead a (u.setNow a) (s1.rd a)).2))
  else (w &&& openBits a, s1)

/-- The uncorrectable word that a read of a place finds, where bad says that it does: a word of the shadow or of the applied image
(R64, R65). -/
def findError (bad : Bool) (q : Place) (s : State) : State :=
  if bad then
    match q with
    | .shadow p => shadowError p s
    | .applied p => imageError p s
    | _ => s
  else s

/-- A read of a place (R45, R50, R64, R65, R123, R588); bad says whether its word is uncorrectable. -/
def readPlace (priv bad : Bool) (q : Place) (s0 : State) : Word × State :=
  let s := findError bad q s0
  match q with
  | .reg a => readReg priv a s
  | .shadow p => (shadowRead s p, s)
  | .applied p => (appliedRead s p, s)
  | .table d w => (readTable s d w, s)

/-! ### What a write breaks -/

/-- Whether a write changes what a register holds or triggers an action (R447). -/
def changes (s : State) (a : Nat) (v : Word) : Bool :=
  (liveWord s a &&& storeBits a) ≠ (v &&& storeBits a) || (v &&& actionBits a) ≠ 0

/-- The registers that change only in IDLE (R145, R206, R233, R268, R297, R348, R377, R407, R435). -/
def idleOnly (a : Nat) : Bool :=
  match sideOfAddr a, tileOfAddr a with
  | some _, _ =>
    let o := a % 0x01000000
    (decide (0x20000 ≤ o) && decide (o < 0x30000) && !(decide (0x21000 ≤ o) && decide (o < 0x21400)))
    || [0x30004, 0x30100, 0x40000, 0x40004, 0x60800, 0x60804, 0x60808, 0x6080C, 0x80000, 0x80008].contains o
    || (decide (0x50040 ≤ o) && decide (o < 0x50054)) || (decide (0x50100 ≤ o) && decide (o < 0x50200))
  | none, some _ => [0xE000, 0xF000].contains (a % 0x10000)
  | none, none => [Reg.FRM_CTRL, Reg.FRM_PERIOD, Reg.FRM_ORIGIN, Reg.FRM_ORIGIN + 4, Reg.TIL_SLICE].contains a

/-- Whether the range that ring r would have with EN = 1 is refused (R348). -/
def ringBad (s : State) (x : Side) (r : Nat) : Bool :=
  let base (i : Nat) : Nat := (s.rd (Reg.BST_RING_BASE x i)).toNat
  let size (i : Nat) : Nat := (s.rd (Reg.BST_RING_SIZE x i)).toNat
  decide (size r < 4096) || decide (2 ^ 27 < base r + size r) ||
    (List.range 8).any (fun i => i ≠ r && s.rb (Reg.BST_RING_CTRL x i) 0 && decide (base i < base r + size r)
      && decide (base r < base i + size i))

/-- The port of a register at stride 64 in the LNK block, or at stride 4 in the EVT block. -/
def portOf (o first stride : Nat) : Nat := (o - first) / stride

/-- Whether an address is that of LNK_PORT_CTRL. -/
def isPortCtrl (a : Nat) : Bool :=
  (sideOfAddr a).isSome && decide (0x60000 ≤ a % 0x01000000) && decide (a % 0x01000000 < 0x60400) && a % 64 = 0

/-- What refuses a write of one register: a value out of range first, then a state (R447). -/
def writeRefusal (s : State) (a : Nat) (v : Word) : Option Status :=
  let run := s.trg.run ≠ .idle
  let late := idleOnly a && run && changes s a v
  match sideOfAddr a, tileOfAddr a with
  | some x, _ =>
    let o := a % 0x01000000
    if isPortCtrl a then portCtrlRefusal s x (portOf o 0x60000 64) v
    else if 0x50100 ≤ o ∧ o < 0x50200 ∧ o % 32 = 0 ∧ bit v.toNat 0 ∧ ringBad s x ((o - 0x50100) / 32) then some .badParam
    else if o = 0x80000 ∧ bits v.toNat 2 1 = 3 then some .badParam
    else if o = 0x80034 ∧ 3000000000 ≤ v.toNat then some .badParam
    else if 0x10040 ≤ o ∧ o < 0x10080 then
      (if bit v.toNat 2 && s.role x (portOf o 0x10040 4) ≠ 1 then some .badParam else none)
    else if o = 0x1001C then (if bits v.toNat 6 3 ≠ 0 && run then some .wrongState else none)
    else if late then some .wrongState
    else if 0x50100 ≤ o ∧ o < 0x50200 ∧ !run ∧ (o % 32 = 4 ∨ o % 32 = 8) ∧ s.rb (Reg.BST_RING_CTRL x ((o - 0x50100) / 32)) 0 then
      some .wrongState
    else none
  | none, some t =>
    if a % 0x10000 = 0 then
      (if run && ((bits v.toNat 1 1 ≠ s.rf (Reg.TIL_CTRL t) 1 1) || (!s.tileRetired t && bits v.toNat 0 0 ≠ s.rf (Reg.TIL_CTRL t) 0 0))
        then some .wrongState else none)
    else if late then some .wrongState else none
  | none, none =>
    if a = Reg.TIL_SLICE ∧ ¬(11 ≤ bits v.toNat 4 0 ∧ bits v.toNat 4 0 ≤ 17) then some .badParam
    else if a = Reg.PWR_CTRL then
      (if 2 ≤ bits v.toNat 1 0 then some .badParam
      else if !s.power.ready then some .notReady
      else if bits v.toNat 1 0 = 0 then none
      else if s.power.mode = .standby then (if s.waking then some .busy else none)
      else if run then some .wrongState
      else if standbyBusy s then some .busy
      else none)
    else if Reg.MP_CTRL 0 ≤ a ∧ a < Reg.MP_CTRL 12 then mpRefusal s ((a - Reg.MP_CTRL 0) / 4) v
    else if a = Reg.MP_BANK then bankRefusal s v
    else if late then some .wrongState
    else none

/-- What refuses a write of a place (R45, R124). -/
def placeRefusal (s : State) (q : Place) (v : Word) : Option Status :=
  match q with
  | .reg a => writeRefusal s a v
  | .shadow _ => none
  | .applied _ => none
  | .table _ _ => tableRefusal s

/-! ### What a write does -/

/-- The W1C bits that a write clears: those written 1 that the hardware does not set in the same tick (R12, R13). -/
def clearedBy (a : Nat) (v : Word) (s : State) : Word :=
  v &&& (strobeBits a &&& ~~~actionBits a) &&& ~~~(((s.setNow a).map (·.2)).getD 0)

/-- The bits of a register stored, and its W1C bits cleared (R12, R13, R16). -/
def store (a : Nat) (v : Word) (s : State) : State :=
  s.wr a (mixBits (s.rd a) (storeBits a) v &&& ~~~clearedBy a v s)

/-- The units of a run of units that stand in the store, not in staging memory. -/
def heldUnits (d : Dsp) : List UnitIn := d.units.filter (fun u => u.held.isSome)

/-- QFLUSH.STORE: the write queues and the staging SRAM of the store emptied (R312, R315, R491). -/
def flushStore (x : Side) (s : State) : State :=
  (List.range 16).foldl (fun t ch => t.modChan x ch (fun k => { k with queue := [] })) s

/-- QFLUSH.LACE: the receive buffers of the lace ports emptied, and their word groups free again (R373, R491). -/
def flushLace (x : Side) (s : State) : State :=
  (List.range 16).foldl (fun t p =>
    let l := Sparse.get (t.side x).lce.batch p []
    let gone := (l.filter (fun q => q.1.isNone)).foldl (fun n q => n + q.2.len) 0
    freeGroups x p gone (t.modLce x (fun k => { k with batch := Sparse.set k.batch p (l.filter (fun q => q.1.isSome)) [] }))) s

/-- QFLUSH.EGRESS: the egress buffer emptied; what a port has begun of it is not sent further (R327, R491). -/
def flushEgress (x : Side) (s : State) : State :=
  settleStore x (s.modLnk x (fun l => { l with
    egress := []
    ports := l.ports.map (fun e => (e.1, { e.2 with
      blocks := []
      frag := 0
      out := if e.2.blocks ≠ [] then e.2.out.filter (fun f => f.type ≠ 0) else e.2.out })) }))

/-- QFLUSH.STAGING: staging memory and the assembly buffer emptied; what stands in the store stays (R241, R284, R491). -/
def flushStaging (x : Side) (s : State) : State :=
  let s1 := s.modDsp x (fun d => { d with
    intake := []
    units := heldUnits d })
  (s1.modCmp x (fun c => { c with
    outputs := c.outputs.filter (fun o => o.spill.isSome)
    members := c.members.filter (fun o => o.spill.isSome)
    ready := c.ready.filter (fun r => match r with
      | .seq _ => true
      | .again _ | .redo _ => false)
    engines := c.engines.map (fun e => (e.1, { e.2 with block := none, redo := false })) })).modWlt x (fun w => { w with retained := [] })

/-- EVT_QFLUSH written: each bit empties its queue (R491). -/
def flushQueues (x : Side) (v : Nat) (s : State) : State :=
  let on (i : Nat) (f : Side → State → State) (t : State) : State := if bit v i then f x t else t
  on 0 flushEvents (on 1 flushCommands (on 2 flushWelt (on 3 flushStaging (on 4 flushEgress (on 5 flushLace
    (on 6 flushStore s))))))

/-- BST_LOG_STATUS written with CLEAR: the entries freed, OVERFLOW and EXTRA cleared (R337), but for an OVERFLOW that the hardware sets in
the same tick (R13). -/
def clearLog (x : Side) (ch : Nat) (s : State) : State :=
  (List.range 16).foldl (fun t i => (t.wr (Reg.BST_LOG x ch i) 0).wr (Reg.BST_LOG_4 x ch i) 0)
    (s.wr (Reg.BST_LOG_STATUS x ch) ((((s.setNow (Reg.BST_LOG_STATUS x ch)).map (·.2)).getD 0) &&& 0x80000000))

/-- The part of a write of side x's register beyond the bits it stores. -/
def sideEffect (x : Side) (o : Nat) (v : Nat) (s : State) : State :=
  if o = 0x10000 then (if bit v 0 then clearSources x s else s)
  else if o = 0x1001C then flushQueues x v s
  else if 0x10040 ≤ o ∧ o < 0x10080 then evSettle x s
  else if o = 0x30000 then
    let s1 := if bit v 1 then flushReady x s else s
    if bit v 2 then flushDelay x s1 else s1
  else if 0x50604 ≤ o ∧ o < 0x50684 ∧ o % 8 = 4 then (if bit v 30 then clearLog x ((o - 0x50604) / 8) s else s)
  else if o = 0x70000 then (if bit v 8 then tryResync true (peerOf x) s else s)
  else s

/-- The part of a write of a base-control register beyond the bits it stores. -/
def baseEffect (a : Nat) (v : Nat) (s : State) : State :=
  if a = Reg.PIX_AWL_FIRE then
    let s1 := if bit v 0 then awlFire s else s
    if bit v 1 then awlAbort s1 else s1
  else if a = Reg.FRM_PERIOD then writeFramePeriod (BitVec.ofNat 32 v) s
  else if a = Reg.HK_INJ_CTRL then (if bit v 31 then injStart s else s)
  else if a = Reg.HK_CTRL ∨ a = Reg.HK_SEQ_LEN ∨ (Reg.HK_SEQ 0 ≤ a ∧ a < Reg.HK_SEQ 64) then hkResume s
  else if Reg.HK_LIM_CTRL 0 ≤ a ∧ a < Reg.HK_LIM_CTRL 64 ∧ a % 16 = 0 then
    (if bit v 0 then s else leaveAlarm ((a - Reg.HK_LIM_CTRL 0) / 16) s)
  else if a = Reg.MP_OUT then keepLevels s
  else s

/-- A write of one register that nothing refuses. -/
def writeReg (a : Nat) (v : Word) (s0 : State) : State :=
  let s := touchBlock a s0
  match sideOfAddr a, tileOfAddr a with
  | some x, _ =>
    let o := a % 0x01000000
    if isPortCtrl a then portCtrlWrite x (portOf o 0x60000 64) v s
    else if o = 0x80000 then refChanged x (s.rf a 2 1) (store a v s)
    else if o = 0x80008 then (store a v s).modLce x (fun l => { l with idHeld := some (s.moduleId x) })
    else sideEffect x o v.toNat (store a v s)
  | none, some t => if a % 0x10000 = 0xD004 then writeCalCtrl t v s else store a v s
  | none, none =>
    if Reg.MP_CTRL 0 ≤ a ∧ a < Reg.MP_CTRL 12 then writeMp ((a - Reg.MP_CTRL 0) / 4) v s
    else if a = Reg.PWR_CTRL || awlLocked s a then s
    else baseEffect a v.toNat (store a v s)

/-- A write of a place that nothing refuses (R48, R124). -/
def writePlace (q : Place) (v : Word) (s : State) : State :=
  match q with
  | .reg a => writeReg a v s
  | .shadow p => shadowWrite p v s
  | .applied _ => s
  | .table d w => writeTable d w v s

/-- The same register of the other side. -/
def otherAddr (a : Nat) : Nat := if a < 0x02000000 then a + 0x01000000 else a - 0x01000000

/-- Whether a register is paired (R593). -/
def paired (a : Nat) : Bool := (sideOfAddr a).isSome && storeBits a ≠ 0 && pairedPlace (a % 0x01000000)

/-- The places that a write of a place acts on: both sides' copies of a paired register while both serve (R593). -/
def targets (s : State) (q : Place) : List Place :=
  match q with
  | .reg a => if paired a && s.duplexed then [.reg a, .reg (otherAddr a)] else [.reg a]
  | _ => [q]

/-- What refuses a write; one refused on one side is refused on both (R593). -/
def refusalOf (s : State) (q : Place) (v : Word) : Option Status := (targets s q).findSome? (fun k => placeRefusal s k v)

/-- The address of a register or window word of the base tier, which both sides' controllers write (R587). -/
def sharedPlace (q : Place) : Option Nat :=
  match q with
  | .reg a => if a < 0x01000000 then some a else none
  | .shadow p => some (0x10000000 + 4 * p)
  | .applied _ => none
  | .table d w => some (0x12000000 + 0x80 * d + 4 * w)

/-- The settings of a place: its RW bits. -/
def settingBits (q : Place) : Word :=
  match q with
  | .reg a => rwBits a
  | _ => 0xFFFFFFFF

/-- The word that stands at a place. -/
def standing (s : State) (q : Place) : Word :=
  match q with
  | .reg a => s.rd a
  | .shadow p => shadowRead s p
  | .applied p => appliedRead s p
  | .table d w => readTable s d w

/-- The value that lands when side x's controller writes v: of two writes in one cycle side A's comes first and side B's second, so what
side B has written in this tick stays (R587; log entry 162). -/
def landing (x : Side) (q : Place) (v : Word) (s : State) : Word :=
  match x, sharedPlace q with
  | .a, some a => mixBits v (Sparse.get s.late a 0 &&& settingBits q) (standing s q)
  | _, _ => v

/-- A write by side B's controller of the bits of a mask noted (R587). -/
def noteLate (x : Side) (mask : Word) (q : Place) (s : State) : State :=
  match x, sharedPlace q with
  | .b, some a => { s with late := Sparse.upd s.late a 0 (· ||| mask) }
  | _, _ => s

/-- A write of every place it acts on, by side x's controller: mask tells the bits that it means to write (R449, R587). -/
def writeAll (x : Side) (mask : Word) (q : Place) (v : Word) (s : State) : State :=
  (targets s q).foldl (fun t k => noteLate x mask k (writePlace k (landing x k v t) t)) s

/-- Whether the effect of a write follows the reply: it acts on the port that carries the command, or takes the module to
STANDBY (R377, R447, R525). -/
def deferred (c : Ctx) (q : Place) (v : Word) : Bool :=
  match q, c.via with
  | .reg a, .port y p =>
    a = Reg.MGT_PRIV_PORTS y || a = Reg.LNK_PORT_CTRL y p.val || (a = Reg.PWR_CTRL && bits v.toNat 1 0 = 1)
  | .reg a, _ => a = Reg.PWR_CTRL && bits v.toNat 1 0 = 1
  | _, _ => false

/-- The effect of a deferred write. -/
def landDeferred (c : Ctx) (q : Place) (v : Word) (s : State) : State :=
  match q with
  | .reg a =>
    if a = Reg.PWR_CTRL then (if s.power.mode = .standby then s else afterReply c .standby enterStandby s)
    else afterReply c (.write a v) (writeReg a v) s
  | _ => s

/-! ### The commands -/

/-- A command with its SIDE field naming the side whose range its address lies in (R444, R585). -/
def forAddr (c : Ctx) (a : Nat) : Ctx :=
  match sideOfAddr a with
  | some .a => if c.sel = 3 then c else { c with sel := 1 }
  | some .b => if c.sel = 3 then c else { c with sel := 2 }
  | none => c

/-- Whether an access must cross Welt: to the other side's range, or to a paired register (R444, R593). -/
def crosses (s : State) (c : Ctx) (a : Nat) (write : Bool) : Bool :=
  (write && paired a) || (match sideOfAddr a with
    | some y => y ≠ receiver s c
    | none => false)

/-- READ_REG (R447); bad says whether the window word that it reads is uncorrectable (R64, R65). -/
def execReadReg (dt : Nat) (c : Ctx) (addr : Word) (bad : Bool) (s : State) : Host.Outcome State Fault Refusal :=
  let a := resolve s c addr.toNat
  let q := placeOf a
  .next (command dt (forAddr c a)
    (.readReg s c a (match q with | some k => !k.open_ | none => false) (crosses s c a false))
    (fun _ _ => param q.isSome)
    (fun _ t => match q with
      | some k =>
        let r := readPlace (privileged t c.via) bad k t
        .done r.2 .ok r.1 []
      | none => refuse t .badParam) s)

/-- The registers that STANDBY lets a command write: AON, PWR, HK and MP (R526). -/
def standbyWrites (a : Nat) : Bool := decide (a < 0x40000)

/-- A write to PWR_CTRL that brings the module back from STANDBY, whose reply waits until the module is ACTIVE
(R527). -/
def wakes (s : State) (q : Place) (v : Word) : Bool :=
  q = .reg Reg.PWR_CTRL && bits v.toNat 1 0 = 0 && s.power.mode = .standby && !s.waking

/-- The module begins to come back from STANDBY (R527). -/
def beginWake (x : Side) (op : Nat) (c : Ctx) (s : State) : State :=
  let s1 := (s.wf Reg.PWR_CTRL 1 0 0).modPower (fun p => { p with changing := some ⟨x, op, c, s.clock.ticks⟩ })
  requestUnits (allUnits s) s1

/-- A value out of range is reported before the side and the state (R444, R447). -/
def rangeCheck (s : State) (q : Option Place) (v : Word) : Option Status :=
  match q with
  | none => some .badParam
  | some k => if refusalOf s k v = some .badParam then some .badParam else none

/-- A write of v by WRITE_REG or MODIFY_REG, with R1 of its reply. -/
def doWrite (x : Side) (op : Nat) (c : Ctx) (mask : Word) (k : Place) (v r1 : Word) (s : State) : Res :=
  match refusalOf s k v with
  | some st => refuse s st
  | none =>
    if wakes s k v then .later (beginWake x op c s)
    else .done (if deferred c k v then s else writeAll x mask k v s) .ok r1 []

/-- WRITE_REG (R52, R447, R593). -/
def execWriteReg (dt : Nat) (c : Ctx) (addr value : Word) (s : State) : Host.Outcome State Fault Refusal :=
  let a := resolve s c addr.toNat
  let q := placeOf a
  .next (commandThen dt (forAddr c a) (.writeReg s c a value false (!standbyWrites a) (crosses s c a true))
    (fun _ t => rangeCheck t q value)
    (fun x t => match q with
      | some (.shadow _) =>
        if t.staging then .later (t.modPix (fun k => { k with
          held := k.held ++ [⟨⟨x, 0x03, c, t.clock.ticks⟩, [(a, 0xFFFFFFFF, value)], 0, false, false, false⟩] }))
        else .done (writeAll x 0xFFFFFFFF (q.getD (.reg a)) value t) .ok 0 []
      | some k => doWrite x 0x03 c 0xFFFFFFFF k value 0 t
      | none => refuse t .badParam)
    (fun _ t => match q with
      | some k => if deferred c k value then landDeferred c k value t else t
      | none => t) s)

/-- The value that MODIFY_REG writes: W1C and WO bits outside the mask are 0 (R449). -/
def modified (k : Place) (old mask value : Word) : Word :=
  let v := mixBits old mask value
  match k with
  | .reg a => v &&& ~~~(strobeBits a &&& ~~~mask)
  | _ => v

/-- MODIFY_REG (R52, R449, R593); bad says whether the window word that it reads is uncorrectable (R64, R65). -/
def execModifyReg (dt : Nat) (c : Ctx) (addr mask value : Word) (bad : Bool) (s : State) :
    Host.Outcome State Fault Refusal :=
  let a := resolve s c addr.toNat
  let q := placeOf a
  let newOf (k : Place) (t : State) : Word := modified k (readPlace true bad k t).1 mask value
  .next (commandThen dt (forAddr c a) (.modifyReg s c a mask value (!standbyWrites a) (crosses s c a true))
    (fun _ t => match q with
      | some k => rangeCheck t q (newOf k t)
      | none => some .badParam)
    (fun x t => match q with
      | some (.shadow p) =>
        if t.staging then .later (t.modPix (fun k => { k with
          held := k.held ++ [⟨⟨x, 0x06, c, t.clock.ticks⟩, [(a, mask, value)], 0, true, false, bad⟩] }))
        else
          let r := readPlace true bad (.shadow p) t
          .done (writeAll x mask (.shadow p) (newOf (.shadow p) t) r.2) .ok r.1 []
      | some k =>
        let v := newOf k t
        match refusalOf t k v with
        | some st => refuse t st
        | none =>
          let r := readPlace true bad k t
          doWrite x 0x06 c mask k v r.1 r.2
      | none => refuse t .badParam)
    (fun _ t => match q with
      | some k =>
        let v := newOf k t
        if deferred c k v then landDeferred c k v t else t
      | none => t) s)

/-! ### Blocks -/

/-- A register of a block as a place, or why it cannot be accessed (R447, R448, R586). -/
def blockPlace (s : State) (a : Nat) (priv : Bool) : Except Status Place :=
  match placeOf a with
  | none => .error .badParam
  | some k =>
    if !priv && !k.open_ then .error .noAccess
    else match sideOfAddr a with
      | some y => if s.serving y then .ok k else .error .sideDown
      | none => .ok k

/-- Registers read one after another: their values, and the status of the first that cannot be accessed (R448);
bad lists the addresses of the window words that are uncorrectable. -/
def readRun (priv : Bool) (bad : List Nat) (a : Nat) : Nat → State → List Word × Option Status × State
  | 0, s => ([], none, s)
  | n + 1, s =>
    match blockPlace s a priv with
    | .error st => ([], some st, s)
    | .ok k =>
      let r := readPlace priv (bad.contains a) k s
      let q := readRun priv bad (a + 4) n r.2
      (r.1 :: q.1, q.2)

/-- Words in pairs, the first in [31:0] (R448). -/
def wordPairs : List Word → List Word72
  | [] => []
  | [v] => [v.setWidth 72]
  | v :: w :: r => ((w ++ v : BitVec 64).setWidth 72) :: wordPairs r

/-- READ_BLOCK (R448); bad lists, by their place in the block, the window words that are uncorrectable (R64, R65). -/
def execReadBlock (dt : Nat) (c : Ctx) (addr : Word) (count : BitVec 8) (bad : List (Fin 60)) (s : State) :
    Host.Outcome State Fault Refusal :=
  let a := resolve s c addr.toNat
  .next (command dt (forAddr c a) (.readBlock s c a count (crosses s c a false))
    (fun _ _ => param (1 ≤ count.toNat && count.toNat ≤ 60 && (placeOf a).isSome))
    (fun _ t =>
      let r := readRun (privileged t c.via) (bad.map (fun i => a + 4 * i.val)) a count.toNat t
      .done r.2.2 (r.2.1.getD .ok) (BitVec.ofNat 32 r.1.length) (wordPairs r.1)) s)

/-- Registers written one after another: how many, and the status of the first that is refused (R448). -/
def writeRun (x : Side) (c : Ctx) (a : Nat) : List Word → State → Nat × Option Status × State
  | [], s => (0, none, s)
  | v :: r, s =>
    match blockPlace s a true with
    | .error st => (0, some st, s)
    | .ok k =>
      match refusalOf s k v with
      | some st => (0, some st, s)
      | none =>
        let q := writeRun x c (a + 4) r (if deferred c k v then s else writeAll x 0xFFFFFFFF k v s)
        (q.1 + 1, q.2)

/-- The words of a block that fall on the shadow, with their addresses (R52, R448). -/
def heldWords (a : Nat) : List Word → List (Nat × Word × Word)
  | [] => []
  | v :: r => match shadowPixel a with
    | some _ => (a, 0xFFFFFFFF, v) :: heldWords (a + 4) r
    | none => []

/-- The words of a block whose effect follows the reply, in their order (R377, R447). -/
def landBlock (c : Ctx) (a : Nat) : List Word → State → State
  | [], s => s
  | v :: r, s => landBlock c (a + 4) r (match placeOf a with
    | some k => if deferred c k v then landDeferred c k v s else s
    | none => s)

/-- WRITE_BLOCK (R52, R448, R593). -/
def execWriteBlock (dt : Nat) (c : Ctx) (addr : Word) (count : BitVec 8) (data : List Word) (s : State) :
    Host.Outcome State Fault Refusal :=
  let a := resolve s c addr.toNat
  let ws := data.take count.toNat
  let across := (List.range ws.length).any (fun i => crosses s c (a + 4 * i) true)
  .next (commandThen dt (forAddr c a) (.writeBlock s c a count ws across)
    (fun _ _ =>
      if ws.length ≠ count.toNat then some .badLength
      else param (1 ≤ count.toNat && count.toNat ≤ 60 && (placeOf a).isSome))
    (fun x t =>
      if t.staging && (shadowPixel a).isSome then
        let l := heldWords a ws
        .later (t.modPix (fun k => { k with held := k.held ++
          [⟨⟨x, 0x05, c, t.clock.ticks⟩, l, BitVec.ofNat 32 l.length, false, decide (l.length < ws.length), false⟩] }))
      else
        let r := writeRun x c a ws t
        .done r.2.2 (r.2.1.getD .ok) (BitVec.ofNat 32 r.1) [])
    (fun x t => landBlock c a (ws.take (writeRun x c a ws (s.elapse dt)).1) t) s)

/-! ### Writes with rows of their own -/

/-- A WRITE_REG of a register with some of its WO bits set and its RW fields at their present values. -/
def strobe (dt : Nat) (c : Ctx) (a : Nat) (mask : Word) (s : State) : Host.Outcome State Fault Refusal :=
  execWriteReg dt c (BitVec.ofNat 32 a) ((s.rd a &&& storeBits a) ||| mask) s

/-- AWL_FIRE (R67): a write of PIX_AWL_FIRE.FIRE. -/
def execAwlFire (dt : Nat) (c : Ctx) (s : State) : Host.Outcome State Fault Refusal := strobe dt c Reg.PIX_AWL_FIRE 1 s

/-- AWL_ABORT (R69): a write of PIX_AWL_FIRE.ABORT. -/
def execAwlAbort (dt : Nat) (c : Ctx) (s : State) : Host.Outcome State Fault Refusal := strobe dt c Reg.PIX_AWL_FIRE 2 s

/-- READY_FLUSH (R261): a write of DSP_CTRL.READY_FLUSH. -/
def execReadyFlush (dt : Nat) (c : Ctx) (x : Side) (s : State) : Host.Outcome State Fault Refusal :=
  strobe dt c (Reg.DSP_CTRL x) 2 s

/-- DELAY_FLUSH (R261): a write of DSP_CTRL.DELAY_FLUSH. -/
def execDelayFlush (dt : Nat) (c : Ctx) (x : Side) (s : State) : Host.Outcome State Fault Refusal :=
  strobe dt c (Reg.DSP_CTRL x) 4 s

/-- RETRAIN (R360, R377): a write of LNK_PORT_CTRL.RETRAIN. -/
def execRetrain (dt : Nat) (c : Ctx) (x : Side) (p : Fin 16) (s : State) : Host.Outcome State Fault Refusal :=
  strobe dt c (Reg.LNK_PORT_CTRL x p) 0x8000 s

/-- PORT_CTRL_WRITE (R377): a write of LNK_PORT_CTRL. -/
def execPortCtrlWrite (dt : Nat) (c : Ctx) (x : Side) (p : Fin 16) (value : Word) (s : State) :
    Host.Outcome State Fault Refusal :=
  execWriteReg dt c (BitVec.ofNat 32 (Reg.LNK_PORT_CTRL x p)) value s

/-- WLT_RESYNC (R392, R402): a write of WLT_CTRL.RESYNC. -/
def execWltResync (dt : Nat) (c : Ctx) (x : Side) (s : State) : Host.Outcome State Fault Refusal :=
  strobe dt c (Reg.WLT_CTRL x) 0x100 s

/-- SRC_CLEAR (R475, R495): a write of EVT_CTRL.SRC_CLEAR. -/
def execSrcClear (dt : Nat) (c : Ctx) (x : Side) (s : State) : Host.Outcome State Fault Refusal :=
  strobe dt c (Reg.EVT_CTRL x) 1 s

/-- QFLUSH_STORE (R491). -/
def execQflushStore (dt : Nat) (c : Ctx) (x : Side) (s : State) : Host.Outcome State Fault Refusal :=
  strobe dt c (Reg.EVT_QFLUSH x) 0x40 s

/-- QFLUSH_LACE (R491). -/
def execQflushLace (dt : Nat) (c : Ctx) (x : Side) (s : State) : Host.Outcome State Fault Refusal :=
  strobe dt c (Reg.EVT_QFLUSH x) 0x20 s

/-- QFLUSH_EGRESS (R491). -/
def execQflushEgress (dt : Nat) (c : Ctx) (x : Side) (s : State) : Host.Outcome State Fault Refusal :=
  strobe dt c (Reg.EVT_QFLUSH x) 0x10 s

/-- QFLUSH_STAGING (R491). -/
def execQflushStaging (dt : Nat) (c : Ctx) (x : Side) (s : State) : Host.Outcome State Fault Refusal :=
  strobe dt c (Reg.EVT_QFLUSH x) 0x08 s

/-- QFLUSH_WELT (R491). -/
def execQflushWelt (dt : Nat) (c : Ctx) (x : Side) (s : State) : Host.Outcome State Fault Refusal :=
  strobe dt c (Reg.EVT_QFLUSH x) 0x04 s

/-- QFLUSH_CMD (R491). -/
def execQflushCmd (dt : Nat) (c : Ctx) (x : Side) (s : State) : Host.Outcome State Fault Refusal :=
  strobe dt c (Reg.EVT_QFLUSH x) 0x02 s

/-- QFLUSH_EVENTS (R491). -/
def execQflushEvents (dt : Nat) (c : Ctx) (x : Side) (s : State) : Host.Outcome State Fault Refusal :=
  strobe dt c (Reg.EVT_QFLUSH x) 0x01 s

/-- LOG_CLEAR (R337): a write of BST_LOG_STATUS.CLEAR. -/
def execLogClear (dt : Nat) (c : Ctx) (x : Side) (ch : Fin 16) (s : State) : Host.Outcome State Fault Refusal :=
  strobe dt c (Reg.BST_LOG_STATUS x ch) 0x40000000 s

/-- INJ_START (R500): a write of HK_INJ_CTRL.START. -/
def execInjStart (dt : Nat) (c : Ctx) (s : State) : Host.Outcome State Fault Refusal :=
  strobe dt c Reg.HK_INJ_CTRL 0x80000000 s

/-! ### Rows that write one place of the base tier -/

/-- TDC_CAL_PAUSE_WRITE (R121, R447). -/
def execTdcCalPauseWrite (dt : Nat) (c : Ctx) (t : Fin 64) (value : Word) (s : State) :
    Host.Outcome State Fault Refusal :=
  .next (command dt c (.writeReg s c (Reg.TDC_CAL_CTRL t) value false true false) noPar
    (fun x s => okRes (writeAll x 0xFFFFFFFF (.reg (Reg.TDC_CAL_CTRL t)) value s)) s)

/-- TDC_TABLE_WRITE (R123, R124). -/
def execTdcTableWrite (dt : Nat) (c : Ctx) (addr value : Word) (s : State) : Host.Outcome State Fault Refusal :=
  .next (command dt c (.writeReg s c addr.toNat value false true false)
    (fun _ _ => param (tableWord addr.toNat).isSome)
    (fun x s =>
      match tableWord addr.toNat, tableRefusal s with
      | some q, none => okRes (writeAll x 0xFFFFFFFF (.table q.1 q.2) value s)
      | _, some st => refuse s st
      | none, none => refuse s .badParam) s)

/-- MP_SWITCH (R512–R515). -/
def execMpSwitch (dt : Nat) (c : Ctx) (i : Fin 12) (value : Word) (s : State) : Host.Outcome State Fault Refusal :=
  .next (command dt c (.writeReg s c (Reg.MP_CTRL i) value false false false)
    (fun _ _ => param (bits value.toNat 3 0 < 7))
    (fun x s => match mpRefusal s i value with
      | some st => refuse s st
      | none => okRes (writeAll x 0xFFFFFFFF (.reg (Reg.MP_CTRL i)) value s)) s)

end Sys2Proof.Machine
end

