-- ==== Sys2Proof/Machine/Replies.lean ====
section
/-!
DEFINITION. The end of a frame on a port, and what commands do once their replies have left (R361, R370, R377, R447, R457, R467, R525,
R540).
-/

namespace Sys2Proof.Machine

/-- The effect that follows a reply; STANDBY is entered only from IDLE (R525; log entry 156). -/
def runAfter (a : After) (s : State) : State :=
  match a with
  | .trainNarrow => trainNarrow s
  | .lastLoad => afterLoad s
  | .sideReset y => takeOut y sevInfo (0x12 + sideNum y) s
  | .moduleReset => resetModule 0x03 s
  | .standby => if s.power.mode = .standby || s.trg.run ≠ .idle then s else enterStandby s
  | .write a v => writeReg a v s
  | .retire y => retireSide y s

/-- Whether a reply still waits on a port or is being sent there. -/
def Port.holds (q : Port) (f : Frame) : Bool := q.out = some f || q.waiting.contains f

/-- The effects that followed replies which are no longer on port p (log entry 156). -/
def settleReplies (x : Side) (p : Nat) (s : State) : State :=
  let due := (s.side x).lnk.later.filter (fun e => e.1 = p && !(s.port x p).holds e.2.1)
  let rest := (s.side x).lnk.later.filter (fun e => !(e.1 = p && !(s.port x p).holds e.2.1))
  if due = [] then s
  else due.foldl (fun t e => runAfter e.2.2 t) (s.modLnk x (fun l => { l with later := rest }))

/-- A frame of a port that has been sent whole (R321, R327, R376, R483). -/
def frameSent (x : Side) (p : Nat) (f : Frame) (s : State) : State :=
  let s1 := (s.modPort x p (fun q => { q with out := none })).count (Reg.LNK_PORT_TX x p) 31 0 1
  let s2 := onFrameEntries x f (fun e => { e with
    sending := e.sending.filter (· ≠ p)
    sent := insertNat p e.sent }) s1
  let s3 := if f.type = 3 then evSettle x s2 else s2
  if f.type = 0 && f.last then
    settleStore x (s3.modPort x p (fun q => { q with
      blocks := q.blocks.tail
      frag := 0 }))
  else s3

/-- DATA_FRAME_SENT (R321, R327, R361, R370, R376, R377, R483): the frame that a port is sending ends, what followed its reply happens, and
its next begins. -/
def execDataFrameSent (dt : Nat) (x : Side) (p : Fin 16) (s0 : State) : Host.Outcome State Fault Refusal :=
  let s := s0.elapse dt
  match (s.port x p).out with
  | none => .next (portNext x p (settleReplies x p s))
  | some f => .next (portNext x p (settleReplies x p (frameSent x p f s)))

end Sys2Proof.Machine
end

