-- ==== Sys2Proof/Machine/Dispatch.lean ====
section
/-!
DEFINITION. Dispatch: one arm per constructor of Instr.
-/

namespace Sys2Proof.Machine

/-- A command's effect on everything but the queue. -/
def exec (i : Instr) (s : State) : Host.Outcome State Fault Refusal :=
  match i with
  | .nop dt c => Sys2Proof.Machine.execNop dt c s
  | .getStatus dt c => Sys2Proof.Machine.execGetStatus dt c s
  | .readReg dt c addr bad => Sys2Proof.Machine.execReadReg dt c addr bad s
  | .writeReg dt c addr value => Sys2Proof.Machine.execWriteReg dt c addr value s
  | .readBlock dt c addr count bad => Sys2Proof.Machine.execReadBlock dt c addr count bad s
  | .writeBlock dt c addr count data => Sys2Proof.Machine.execWriteBlock dt c addr count data s
  | .modifyReg dt c addr mask value bad => Sys2Proof.Machine.execModifyReg dt c addr mask value bad s
  | .cmdFrameReceived dt x p f mismatch => Sys2Proof.Machine.execCmdFrameReceived dt x p f mismatch s
  | .spiWrite dt bytes mismatch => Sys2Proof.Machine.execSpiWrite dt bytes mismatch s
  | .spiRead dt clocked mismatch => Sys2Proof.Machine.execSpiRead dt clocked mismatch s
  | .peerTimeout dt x => Sys2Proof.Machine.execPeerTimeout dt x s
  | .runArm dt c => Sys2Proof.Machine.execRunArm dt c s
  | .runStart dt c t => Sys2Proof.Machine.execRunStart dt c t s
  | .runStartEffect dt => Sys2Proof.Machine.execRunStartEffect dt s
  | .runStop dt c t => Sys2Proof.Machine.execRunStop dt c t s
  | .runStopEffect dt => Sys2Proof.Machine.execRunStopEffect dt s
  | .runStoppingComplete dt => Sys2Proof.Machine.execRunStoppingComplete dt s
  | .flush dt c t => Sys2Proof.Machine.execFlush dt c t s
  | .flushCut dt => Sys2Proof.Machine.execFlushCut dt s
  | .triggerSw dt c number t => Sys2Proof.Machine.execTriggerSw dt c number t s
  | .trigCommit dt c => Sys2Proof.Machine.execTrigCommit dt c s
  | .configApply dt c maskLo maskHi bad => Sys2Proof.Machine.execConfigApply dt c maskLo maskHi bad s
  | .configStagingDone dt => Sys2Proof.Machine.execConfigStagingDone dt s
  | .configCommit dt => Sys2Proof.Machine.execConfigCommit dt s
  | .lastLoad dt c slot => Sys2Proof.Machine.execLastLoad dt c slot s
  | .lastStore dt c p1 verified cut bad => Sys2Proof.Machine.execLastStore dt c p1 verified cut bad s
  | .modeSet dt c mode => Sys2Proof.Machine.execModeSet dt c mode s
  | .faCal dt c maskLo maskHi => Sys2Proof.Machine.execFaCal dt c maskLo maskHi s
  | .faCalPhaseStart dt => Sys2Proof.Machine.execFaCalPhaseStart dt s
  | .faCalAttemptEnd dt meas => Sys2Proof.Machine.execFaCalAttemptEnd dt meas s
  | .tdcCal dt c maskLo maskHi ext => Sys2Proof.Machine.execTdcCal dt c maskLo maskHi ext s
  | .tdcInitAttemptStart dt => Sys2Proof.Machine.execTdcInitAttemptStart dt s
  | .tdcInitPassEnd dt => Sys2Proof.Machine.execTdcInitPassEnd dt s
  | .initFillTimeout dt d => Sys2Proof.Machine.execInitFillTimeout dt d s
  | .hkCal dt c => Sys2Proof.Machine.execHkCal dt c s
  | .hkCalDone dt factors => Sys2Proof.Machine.execHkCalDone dt factors s
  | .threshScan dt c maskLo maskHi points pulses => Sys2Proof.Machine.execThreshScan dt c maskLo maskHi points pulses s
  | .threshScanDone dt bad => Sys2Proof.Machine.execThreshScanDone dt bad s
  | .retire dt c kind index => Sys2Proof.Machine.execRetire dt c kind index s
  | .retireListRead dt c kind from_ => Sys2Proof.Machine.execRetireListRead dt c kind from_ s
  | .retireListRemove dt c kind index => Sys2Proof.Machine.execRetireListRemove dt c kind index s
  | .resumeDrain dt c p1 => Sys2Proof.Machine.execResumeDrain dt c p1 s
  | .decompressJob dt c p1 p2 p3 => Sys2Proof.Machine.execDecompressJob dt c p1 p2 p3 s
  | .jobResume dt c p1 => Sys2Proof.Machine.execJobResume dt c p1 s
  | .getMeasurement dt c part n => Sys2Proof.Machine.execGetMeasurement dt c part n s
  | .attest dt c nonce => Sys2Proof.Machine.execAttest dt c nonce s
  | .getIdentity dt c offset => Sys2Proof.Machine.execGetIdentity dt c offset s
  | .patchLoad dt c p1 offset length crc => Sys2Proof.Machine.execPatchLoad dt c p1 offset length crc s
  | .eventSubscribe dt c p1 => Sys2Proof.Machine.execEventSubscribe dt c p1 s
  | .eventAck dt c seq mismatch => Sys2Proof.Machine.execEventAck dt c seq mismatch s
  | .firstFailureClear dt c => Sys2Proof.Machine.execFirstFailureClear dt c s
  | .arrayBroadcast dt c inner => Sys2Proof.Machine.execArrayBroadcast dt c inner s
  | .arrayBarrier dt c => Sys2Proof.Machine.execArrayBarrier dt c s
  | .arraySnapshot dt c t => Sys2Proof.Machine.execArraySnapshot dt c t s
  | .snapshotAtT dt => Sys2Proof.Machine.execSnapshotAtT dt s
  | .arrayReset dt c t => Sys2Proof.Machine.execArrayReset dt c t s
  | .arrayResetAtT dt => Sys2Proof.Machine.execArrayResetAtT dt s
  | .timeSet dt c v p3 => Sys2Proof.Machine.execTimeSet dt c v p3 s
  | .sideReset dt c side => Sys2Proof.Machine.execSideReset dt c side s
  | .moduleReset dt c => Sys2Proof.Machine.execModuleReset dt c s
  | .awlFire dt c => Sys2Proof.Machine.execAwlFire dt c s
  | .awlAbort dt c => Sys2Proof.Machine.execAwlAbort dt c s
  | .awlPulse dt => Sys2Proof.Machine.execAwlPulse dt s
  | .readyFlush dt c x => Sys2Proof.Machine.execReadyFlush dt c x s
  | .delayFlush dt c x => Sys2Proof.Machine.execDelayFlush dt c x s
  | .retrain dt c x p => Sys2Proof.Machine.execRetrain dt c x p s
  | .portCtrlWrite dt c x p value => Sys2Proof.Machine.execPortCtrlWrite dt c x p value s
  | .wltResync dt c x => Sys2Proof.Machine.execWltResync dt c x s
  | .srcClear dt c x => Sys2Proof.Machine.execSrcClear dt c x s
  | .qflushStore dt c x => Sys2Proof.Machine.execQflushStore dt c x s
  | .qflushLace dt c x => Sys2Proof.Machine.execQflushLace dt c x s
  | .qflushEgress dt c x => Sys2Proof.Machine.execQflushEgress dt c x s
  | .qflushStaging dt c x => Sys2Proof.Machine.execQflushStaging dt c x s
  | .qflushWelt dt c x => Sys2Proof.Machine.execQflushWelt dt c x s
  | .qflushCmd dt c x => Sys2Proof.Machine.execQflushCmd dt c x s
  | .qflushEvents dt c x => Sys2Proof.Machine.execQflushEvents dt c x s
  | .logClear dt c x ch => Sys2Proof.Machine.execLogClear dt c x ch s
  | .injStart dt c => Sys2Proof.Machine.execInjStart dt c s
  | .standbyEntry dt c => Sys2Proof.Machine.execStandbyEntry dt c s
  | .standbyExit dt c => Sys2Proof.Machine.execStandbyExit dt c s
  | .mpSwitch dt c k value => Sys2Proof.Machine.execMpSwitch dt c k value s
  | .keeperRelease dt k => Sys2Proof.Machine.execKeeperRelease dt k s
  | .ignoreWindowEnd dt k => Sys2Proof.Machine.execIgnoreWindowEnd dt k s
  | .tdcCalPauseWrite dt c t value => Sys2Proof.Machine.execTdcCalPauseWrite dt c t value s
  | .tdcTableWrite dt c addr value => Sys2Proof.Machine.execTdcTableWrite dt c addr value s
  | .pixScrubPass dt flips bad => Sys2Proof.Machine.execPixScrubPass dt flips bad s
  | .driftMeasure dt t dac => Sys2Proof.Machine.execDriftMeasure dt t dac s
  | .pixelLeadingEdge dt p fu n ovr charge awl => Sys2Proof.Machine.execPixelLeadingEdge dt p fu n ovr charge awl s
  | .pixelTrailingEdge dt p fu n ovr charge => Sys2Proof.Machine.execPixelTrailingEdge dt p fu n ovr charge s
  | .vernierConversionEnd dt gs => Sys2Proof.Machine.execVernierConversionEnd dt gs s
  | .clusterWindowEnd dt gs => Sys2Proof.Machine.execClusterWindowEnd dt gs s
  | .digitizerReady dt gs => Sys2Proof.Machine.execDigitizerReady dt gs s
  | .clusterAssembled dt gs => Sys2Proof.Machine.execClusterAssembled dt gs s
  | .calEdgeDelivered dt gs n ovr => Sys2Proof.Machine.execCalEdgeDelivered dt gs n ovr s
  | .calConversionEnd dt gs => Sys2Proof.Machine.execCalConversionEnd dt gs s
  | .fillAbandoned dt t => Sys2Proof.Machine.execFillAbandoned dt t s
  | .rotationGapEnd dt t => Sys2Proof.Machine.execRotationGapEnd dt t s
  | .calTableTakesEffect dt d => Sys2Proof.Machine.execCalTableTakesEffect dt d s
  | .etdEdge dt k rising fu n => Sys2Proof.Machine.execEtdEdge dt k rising fu n s
  | .etdStampArrives dt k => Sys2Proof.Machine.execEtdStampArrives dt k s
  | .etdCalFill dt k edges => Sys2Proof.Machine.execEtdCalFill dt k edges s
  | .frameTrigger dt src => Sys2Proof.Machine.execFrameTrigger dt src s
  | .frameConversionEnd dt t samples bad => Sys2Proof.Machine.execFrameConversionEnd dt t samples bad s
  | .tileLinkWord dt t fifo linkA linkB moved => Sys2Proof.Machine.execTileLinkWord dt t fifo linkA linkB moved s
  | .tilePllRelockTimeout dt t => Sys2Proof.Machine.execTilePllRelockTimeout dt t s
  | .unitClose dt t moved => Sys2Proof.Machine.execUnitClose dt t moved s
  | .epochWrite dt => Sys2Proof.Machine.execEpochWrite dt s
  | .occupancySummary dt => Sys2Proof.Machine.execOccupancySummary dt s
  | .occSummaryArrives dt => Sys2Proof.Machine.execOccSummaryArrives dt s
  | .tileClockGate dt t => Sys2Proof.Machine.execTileClockGate dt t s
  | .squallWindowEval dt => Sys2Proof.Machine.execSquallWindowEval dt s
  | .squallDeclaration dt => Sys2Proof.Machine.execSquallDeclaration dt s
  | .squallEnd dt => Sys2Proof.Machine.execSquallEnd dt s
  | .tilePllLockLost dt t => Sys2Proof.Machine.execTilePllLockLost dt t s
  | .tilePllRelock dt t => Sys2Proof.Machine.execTilePllRelock dt t s
  | .sequencerStep dt => Sys2Proof.Machine.execSequencerStep dt s
  | .sequencerEntry dt => Sys2Proof.Machine.execSequencerEntry dt s
  | .timerExpiry dt k => Sys2Proof.Machine.execTimerExpiry dt k s
  | .mpPulseEnd dt k => Sys2Proof.Machine.execMpPulseEnd dt k s
  | .unitDecided dt x unit => Sys2Proof.Machine.execUnitDecided dt x unit s
  | .unitArrival dt x t => Sys2Proof.Machine.execUnitArrival dt x t s
  | .dispatchCycle dt x mismatch => Sys2Proof.Machine.execDispatchCycle dt x mismatch s
  | .delayItemDue dt x mismatch => Sys2Proof.Machine.execDelayItemDue dt x mismatch s
  | .sliceSort dt x e bad => Sys2Proof.Machine.execSliceSort dt x e bad s
  | .cluster dt x e bad => Sys2Proof.Machine.execCluster dt x e bad s
  | .recordBuild dt x e => Sys2Proof.Machine.execRecordBuild dt x e s
  | .laceMerge dt x e => Sys2Proof.Machine.execLaceMerge dt x e s
  | .verify dt x e => Sys2Proof.Machine.execVerify dt x e s
  | .telemetry dt x e => Sys2Proof.Machine.execTelemetry dt x e s
  | .calReduce dt x e => Sys2Proof.Machine.execCalReduce dt x e s
  | .engineTrap dt x e => Sys2Proof.Machine.execEngineTrap dt x e s
  | .compressorTakesBlock dt x unit bad => Sys2Proof.Machine.execCompressorTakesBlock dt x unit bad s
  | .blockCompressed dt x e flip => Sys2Proof.Machine.execBlockCompressed dt x e flip s
  | .activateTableClear dt x => Sys2Proof.Machine.execActivateTableClear dt x s
  | .drainRead dt x r bad => Sys2Proof.Machine.execDrainRead dt x r bad s
  | .refreshDue dt x ch => Sys2Proof.Machine.execRefreshDue dt x ch s
  | .refreshEnd dt x ch => Sys2Proof.Machine.execRefreshEnd dt x ch s
  | .ingestQuiet dt x ch => Sys2Proof.Machine.execIngestQuiet dt x ch s
  | .imbalanceInterval dt x => Sys2Proof.Machine.execImbalanceInterval dt x s
  | .patrolScrubAccess dt x raw mgt => Sys2Proof.Machine.execPatrolScrubAccess dt x raw mgt s
  | .blockAssign dt x => Sys2Proof.Machine.execBlockAssign dt x s
  | .dataFrameSent dt x p => Sys2Proof.Machine.execDataFrameSent dt x p s
  | .eventFrameSend dt x p mismatch => Sys2Proof.Machine.execEventFrameSend dt x p mismatch s
  | .laneSignalLost dt x p l => Sys2Proof.Machine.execLaneSignalLost dt x p l s
  | .laneLockLost dt x p l => Sys2Proof.Machine.execLaneLockLost dt x p l s
  | .blockLockGained dt x p l => Sys2Proof.Machine.execBlockLockGained dt x p l s
  | .blockLockLost dt x p l => Sys2Proof.Machine.execBlockLockLost dt x p l s
  | .alignSlot dt x p => Sys2Proof.Machine.execAlignSlot dt x p s
  | .alignReceived dt x p l blk bip => Sys2Proof.Machine.execAlignReceived dt x p l blk bip s
  | .trainingLaneTimeout dt x p l => Sys2Proof.Machine.execTrainingLaneTimeout dt x p l s
  | .pause dt x p f => Sys2Proof.Machine.execPause dt x p f s
  | .pauseExpiry dt x p k => Sys2Proof.Machine.execPauseExpiry dt x p k s
  | .laceFrameReceived dt x p f => Sys2Proof.Machine.execLaceFrameReceived dt x p f s
  | .creditReceived dt x p blk => Sys2Proof.Machine.execCreditReceived dt x p blk s
  | .creditSend dt x p => Sys2Proof.Machine.execCreditSend dt x p s
  | .creditStall dt x p => Sys2Proof.Machine.execCreditStall dt x p s
  | .weltHeartbeat dt x delivered mismatch => Sys2Proof.Machine.execWeltHeartbeat dt x delivered mismatch s
  | .weltRetransmit dt x => Sys2Proof.Machine.execWeltRetransmit dt x s
  | .weltSilence dt x => Sys2Proof.Machine.execWeltSilence dt x s
  | .signatureReceived dt x => Sys2Proof.Machine.execSignatureReceived dt x s
  | .signatureOrphan dt x => Sys2Proof.Machine.execSignatureOrphan dt x s
  | .recomputeDone dt x flip => Sys2Proof.Machine.execRecomputeDone dt x flip s
  | .sideBootDone dt x pass listBad bad => Sys2Proof.Machine.execSideBootDone dt x pass listBad bad s
  | .resyncTransferEnd dt x => Sys2Proof.Machine.execResyncTransferEnd dt x s
  | .resyncPoint dt x => Sys2Proof.Machine.execResyncPoint dt x s
  | .twinTakeover dt => Sys2Proof.Machine.execTwinTakeover dt s
  | .laceExchangeStart dt x p => Sys2Proof.Machine.execLaceExchangeStart dt x p s
  | .probeReceived dt x blk fu => Sys2Proof.Machine.execProbeReceived dt x blk fu s
  | .echoReceived dt x p blk fu => Sys2Proof.Machine.execEchoReceived dt x p blk fu s
  | .followReceived dt x blk => Sys2Proof.Machine.execFollowReceived dt x blk s
  | .rttReceived dt x blk far => Sys2Proof.Machine.execRttReceived dt x blk far s
  | .exchangeTimeout dt x p => Sys2Proof.Machine.execExchangeTimeout dt x p s
  | .reachReceived dt x p blk => Sys2Proof.Machine.execReachReceived dt x p blk s
  | .rosterReceived dt x p blk => Sys2Proof.Machine.execRosterReceived dt x p blk s
  | .busBlockReceived dt x p blk => Sys2Proof.Machine.execBusBlockReceived dt x p blk s
  | .busAssertionDelivered dt => Sys2Proof.Machine.execBusAssertionDelivered dt s
  | .refinLost dt => Sys2Proof.Machine.execRefinLost dt s
  | .refinLock dt => Sys2Proof.Machine.execRefinLock dt s
  | .ppsEdge dt => Sys2Proof.Machine.execPpsEdge dt s
  | .telemetryCapture dt x => Sys2Proof.Machine.execTelemetryCapture dt x s
  | .mpPinEdge dt k level => Sys2Proof.Machine.execMpPinEdge dt k level s
  | .hkInjectPinEdge dt k => Sys2Proof.Machine.execHkInjectPinEdge dt k s
  | .hkConversionDone dt code ovr => Sys2Proof.Machine.execHkConversionDone dt code ovr s
  | .hkInjectedConversionDone dt code ovr => Sys2Proof.Machine.execHkInjectedConversionDone dt code ovr s
  | .overcurrentTrip dt current => Sys2Proof.Machine.execOvercurrentTrip dt current s
  | .overcurrentRearm dt below => Sys2Proof.Machine.execOvercurrentRearm dt below s
  | .loopUpdate dt => Sys2Proof.Machine.execLoopUpdate dt s
  | .loopOpenDetect dt current held => Sys2Proof.Machine.execLoopOpenDetect dt current held s
  | .doseSecond dt charges => Sys2Proof.Machine.execDoseSecond dt charges s
  | .doseSave dt => Sys2Proof.Machine.execDoseSave dt s
  | .retirementListUpdate dt => Sys2Proof.Machine.execRetirementListUpdate dt s
  | .baseSramScrub dt found => Sys2Proof.Machine.execBaseSramScrub dt found s
  | .sideSramScrub dt x found => Sys2Proof.Machine.execSideSramScrub dt x found s
  | .mgtFetchFail dt x line => Sys2Proof.Machine.execMgtFetchFail dt x line s
  | .vinValid dt x => Sys2Proof.Machine.execVinValid dt x s
  | .vinLost dt x => Sys2Proof.Machine.execVinLost dt x s
  | .vaonValid dt => Sys2Proof.Machine.execVaonValid dt s
  | .vaonLost dt => Sys2Proof.Machine.execVaonLost dt s
  | .resetN dt => Sys2Proof.Machine.execResetN dt s
  | .sideResetPin dt x => Sys2Proof.Machine.execSideResetPin dt x s
  | .startupStep dt straps master => Sys2Proof.Machine.execStartupStep dt straps master s
  | .wakeStep dt inLimits bad => Sys2Proof.Machine.execWakeStep dt inLimits bad s
  | .basePllLockLost dt => Sys2Proof.Machine.execBasePllLockLost dt s
  | .basePllRelock dt => Sys2Proof.Machine.execBasePllRelock dt s
  | .resetNRelease dt => Sys2Proof.Machine.execResetNRelease dt s
  | .sideResetPinRelease dt x => Sys2Proof.Machine.execSideResetPinRelease dt x s
  | .laneSignalReturn dt x p l => Sys2Proof.Machine.execLaneSignalReturn dt x p l s
  | .loopOpenClear dt current => Sys2Proof.Machine.execLoopOpenClear dt current s
  | .laceBatchEnd dt x p => Sys2Proof.Machine.execLaceBatchEnd dt x p s
  | .frameNotAccepted dt x p f => Sys2Proof.Machine.execFrameNotAccepted dt x p f s
  | .invalidControlBlock dt x p typ blk => Sys2Proof.Machine.execInvalidControlBlock dt x p typ blk s

end Sys2Proof.Machine
end

