-- ==== Sys2Proof/Safety.lean ====
section
/-!
DEFINITION. The terms in which claims speak of the machine: which parts of the state a row leaves alone, when a command is
admitted and how its reply is seen, the canonical form of tables, and what no step may change.
-/

namespace Sys2Proof.Machine

/-! ### Parts of the state -/

/-- The parts that a frame names: every field of the state but the registers, and the fields of each side. -/
inductive Part
  | clock | capture | pix | tdc | frames | tiles | squall | trg | spi | power | arb | bg | lace | hk | pins
  | freeCount | pending
  | mgt (x : Side) | evt (x : Side) | lnk (x : Side) | wlt (x : Side) | lce (x : Side) | dsp (x : Side)
  | cmp (x : Side) | bst (x : Side) | tally (x : Side)
deriving DecidableEq, Repr

/-- A part is the same in two states. -/
def Part.same : Part → State → State → Prop
  | .clock, s, t => t.clock = s.clock
  | .capture, s, t => t.capture = s.capture
  | .pix, s, t => t.pix = s.pix
  | .tdc, s, t => t.tdc = s.tdc
  | .frames, s, t => t.frames = s.frames
  | .tiles, s, t => t.tiles = s.tiles
  | .squall, s, t => t.squall = s.squall
  | .trg, s, t => t.trg = s.trg
  | .spi, s, t => t.spi = s.spi
  | .power, s, t => t.power = s.power
  | .arb, s, t => t.arb = s.arb
  | .bg, s, t => t.bg = s.bg
  | .lace, s, t => t.lace = s.lace
  | .hk, s, t => t.hk = s.hk
  | .pins, s, t => t.pins = s.pins
  | .freeCount, s, t => t.freeCount = s.freeCount
  | .pending, s, t => t.pending = s.pending
  | .mgt x, s, t => (t.side x).mgt = (s.side x).mgt
  | .evt x, s, t => (t.side x).evt = (s.side x).evt
  | .lnk x, s, t => (t.side x).lnk = (s.side x).lnk
  | .wlt x, s, t => (t.side x).wlt = (s.side x).wlt
  | .lce x, s, t => (t.side x).lce = (s.side x).lce
  | .dsp x, s, t => (t.side x).dsp = (s.side x).dsp
  | .cmp x, s, t => (t.side x).cmp = (s.side x).cmp
  | .bst x, s, t => (t.side x).bst = (s.side x).bst
  | .tally x, s, t => (t.side x).tally = (s.side x).tally

/-- Nothing but the parts of ps, and the registers at addresses of w, may differ; of every other register it is known as before what
the hardware has set in it in the present tick (R13, R14). -/
def Only (ps : List Part) (w : Nat → Prop) (s t : State) : Prop :=
  (∀ p, p ∉ ps → p.same s t) ∧ ∀ a, ¬ w a → t.rd a = s.rd a ∧ t.setNow a = s.setNow a

/-- An outcome is a next state in which nothing but the parts of ps and the registers of w differs from s. -/
def Keeps (ps : List Part) (w : Nat → Prop) (s : State) (o : Host.Outcome State Fault Refusal) : Prop :=
  ∀ t, o = .next t → Only ps w s t

/-- An outcome is a next state of which p holds. -/
def Next (p : State → Prop) (o : Host.Outcome State Fault Refusal) : Prop := ∃ t, o = .next t ∧ p t

/-! ### Commands and their replies -/

/-- It is a command's turn on a side that takes commands: its packet stands at the front of the controller's queue, or none waits; no other
command of the controller executes (R443); no ARRAY_BARRIER waits to be answered (R428), and the pointers of the queues agree (R489). -/
def TakesUp (c : Ctx) (n : Need) (s : State) : Prop :=
  s.live (receiver s c) = true ∧ inTurn s (receiver s c) c n = true ∧ s.lace.barriers = [] ∧ c.ptr = .agree

/-- A command is taken up in its turn and passes the checks of R444 that come before its own rules; where it acts on both sides, Welt
carries it (R382). -/
def Admitted (c : Ctx) (n : Need) (par : Option Status) (s : State) : Prop :=
  TakesUp c n s ∧ precheck s (receiver s c) c n par = none ∧
    (mustForward s (receiver s c) n = true → weltCarries s = true)

/-- The reply that side x formed to a command last: the youngest entry of the replay cache of the transport (R445); for the
inner packet of an ARRAY_BROADCAST, its opcode and status in LCE_BCAST (R427). -/
def Replied (x : Side) (c : Ctx) (op : Nat) (st : Status) (r1 : Word) (ws : List Word72) (t : State) : Prop :=
  match c.via with
  | .spi => ∃ e, t.spi.cache.getLast? = some e ∧ e.via = .spi ∧ e.tag = c.tag ∧ e.crc = c.crc ∧
      e.reply.op = op ∧ e.reply.tag = c.tag ∧ e.reply.status = st.code ∧ e.reply.r1 = r1 ∧ e.reply.words = ws
  | .port y p => ∃ e, (t.side y).mgt.cache.getLast? = some e ∧ e.via = .port y p ∧ e.tag = c.tag ∧ e.crc = c.crc ∧
      e.reply.op = op ∧ e.reply.tag = c.tag ∧ e.reply.status = st.code ∧ e.reply.r1 = r1 ∧ e.reply.words = ws
  | .inner => (c.bcast = true ∧ st.code < 0x10 ∧ op ≠ 0x71) ∨
      (t.rf (Reg.LCE_BCAST x) 15 8 = op % 256 ∧ t.rf (Reg.LCE_BCAST x) 7 0 = st.code)

/-- What taking up and answering a command changes beside its effect: the receiving controller's queue and cache, the ports
of both sides or the SPI buffer, the Welt message that carried it to the peer, and the counts. -/
def answering : List Part := [.spi, .mgt .a, .mgt .b, .lnk .a, .lnk .b, .wlt .a, .wlt .b, .tally .a, .tally .b]

/-- The registers that answering a command writes: MGT_CMD_COUNT, MGT_CMD_STATUS, LCE_BCAST, and WLT_LINK of the peer that it reaches
(R402, R427, R443, R469). -/
def answerRegs (a : Nat) : Prop :=
  ∃ x, a = Reg.MGT_CMD_COUNT x ∨ a = Reg.MGT_CMD_STATUS x ∨ a = Reg.LCE_BCAST x ∨ a = Reg.WLT_LINK x

/-- What a raise of events changes: queues, records, and counts of lost entries of both sides. -/
def raising : List Part := [.evt .a, .evt .b, .tally .a, .tally .b]

/-- The registers that a raise of events writes (R479, R486). -/
def raiseRegs (a : Nat) : Prop :=
  ∃ x, a = Reg.EVT_FF_STATUS x ∨ a = Reg.EVT_LOST x ∨ a = Reg.EVT_LOST_4 x

/-- The state on which an admitted command's own rules run: its packet has left the command queue, and no command of its
controller waits for the peer (R382, R443). -/
def taken (x : Side) (c : Ctx) (s : State) : State := endForward x (dequeue x c s)

/-- An outcome is a next state of which p holds, and in which nothing but the parts of ps and the registers of w differs
from u. -/
def Happens (ps : List Part) (w : Nat → Prop) (u : State) (p : State → Prop) (o : Host.Outcome State Fault Refusal) : Prop :=
  ∃ t, o = .next t ∧ p t ∧ Only ps w u t

/-- A command that side x takes completes with the effect that v holds: its reply has opcode op, status st, R1 r1 and the words
ws, and the next state differs from v in nothing but what answering changes. -/
def Completes (x : Side) (c : Ctx) (op : Nat) (st : Status) (r1 : Word) (ws : List Word72) (v : State)
    (o : Host.Outcome State Fault Refusal) : Prop :=
  Happens answering answerRegs v (Replied x c op st r1 ws) o

/-- The words ws, arrived on a transport of side x, hold a packet of body and crc that passes the checks of R444 that need no more
than the packet: it is sound, new, for this module alone, and its opcode, privilege, length and layout are in order. -/
def PassesIntake (x : Side) (via : Via) (ws body : List Word72) (crc : Word) (s : State) : Prop :=
  takePacket ws = some (body, paramWord crc) ∧ crc.toNat = crc32 (wordsBytes body) ∧
  let w := body.headD 0
  hdr w 35 35 = 0 ∧ hdr w 47 40 = s.moduleId x ∧ hdr w 47 40 ≠ 0xFF ∧ ownDup s x = false ∧
  findCached s.clock.ticks via (BitVec.ofNat 8 (hdr w 63 56)) crc (cacheOf s x via) = none ∧
  stillHeld s x via (BitVec.ofNat 8 (hdr w 63 56)) crc = false ∧ hdr w 71 64 ∈ knownOps ∧
  (openOp (hdr w 71 64) (hdr w 31 0) = true ∨ privileged s via = true) ∧
  lengthOk (hdr w 71 64) (hdr w 55 48) ((body.getD 1 0).toNat % 2 ^ 32) = true ∧ formOk body = true

/-- No register. -/
def noReg : Nat → Prop := fun _ => False

/-- The registers of a list of addresses. -/
def regIn (l : List Nat) : Nat → Prop := fun a => a ∈ l

/-- The block of the register map that an address lies in (R587, R589–R591): base control 0 to 7, the tiles' blocks 8, a
side's block o as 16 + o. -/
def addrBlock (a : Nat) : Nat :=
  if a < 0x00080000 then a / 0x10000
  else if a < 0x00500000 then 8
  else 16 + a % 0x01000000 / 0x10000

/-- The registers of some blocks. -/
def inBlocks (l : List Nat) : Nat → Prop := fun a => addrBlock a ∈ l

/-- A part of each side, for a frame. -/
def bothOf (f : Side → Part) : List Part := [f .a, f .b]

/-- The record of event n on side x holds one raise more, at the array time of u (R475). -/
def Raised (x : Side) (n : Nat) (u t : State) : Prop :=
  Sparse.get (t.side x).evt.recs n SrcRec.zero = (Sparse.get (u.side x).evt.recs n SrcRec.zero).raise u.now

/-- An event of the base tier or of a tile reached every side that serves (R474). -/
def RaisedBase (n : Nat) (u t : State) : Prop := ∀ x, u.live x = true → Raised x n u t

/-- An event of side x, named by its number on side A, reached it if it keeps a log: it serves, or has booted and waits (R392, R470,
R474). -/
def RaisedSide (x : Side) (n : Nat) (u t : State) : Prop := u.logsEvents x = true → Raised x (srcOn x n) u t

/-- The write of v to the register at a that command c carries passes the checks of R444, and no rule of the register refuses it. -/
def WriteAdmitted (dt : Nat) (c : Ctx) (a : Nat) (v : Word) (s : State) : Prop :=
  let u := s.elapse dt
  Admitted (forAddr c a) (.writeReg s c a v false (!standbyWrites a) (crosses s c a true)) (rangeCheck u (some (.reg a)) v) u ∧
    refusalOf (taken (receiver u c) (forAddr c a) u) (.reg a) v = none

/-- A row that is a WRITE_REG of the register at a with the bits of mask set and its RW fields at their present values: where the write is
admitted it replies OK, p holds of the next state, and that differs from v in nothing but what answering changes. -/
def Strobed (dt : Nat) (c : Ctx) (a : Nat) (mask : Word) (s v : State) (p : State → Prop) (o : Host.Outcome State Fault Refusal) : Prop :=
  WriteAdmitted dt c a ((s.rd a &&& storeBits a) ||| mask) s →
    Happens answering answerRegs v (fun t => Replied (receiver (s.elapse dt) c) (forAddr c a) 0x03 .ok 0 [] t ∧ p t) o

/-- A command that side x takes replies OK, and the rest of its effect follows the reply: the next state is n t, for a t that differs from u
in nothing but what answering changes. -/
def RepliesThen (x : Side) (c : Ctx) (op : Nat) (u : State) (n : State → State) (o : Host.Outcome State Fault Refusal) : Prop :=
  ∃ t, Only answering answerRegs u t ∧ Replied x c op .ok 0 [] t ∧ o = .next (n t)

/-! ### Form of the tables, and what no step may change -/

/-- A table in canonical form: indices strictly rising, no entry equal to its default. -/
def Sparse.wf {α : Type} [DecidableEq α] (m : Sparse α) (d : α) : Bool :=
  Sparse.sorted m 0 && m.all (fun e => decide (e.2 ≠ d))

/-- The registers in canonical form: addresses strictly rising, no entry equal to its reset value. -/
def State.regsWf (s : State) : Bool := Sparse.sorted s.regs 0 && s.regs.all (fun e => decide (e.2 ≠ resetWord e.1))

/-- Last 0 stands in slot 0 of both sides as manufactured (R455). -/
def State.factoryKept (s : State) : Prop :=
  Sparse.get s.sideA.mgt.slots 0 none = some Last.factory ∧ Sparse.get s.sideB.mgt.slots 0 none = some Last.factory

end Sys2Proof.Machine
end

