-- ==== Sys2Proof/Certificates/Slice0/Obligations.lean ====
section
/-!
DEFINITION. The statements for the provers. In each of them u is the state after the dt ticks that the row brings (log entry 2), and x
the side whose controller takes a command. A command's statement holds where the checks of R444 pass (Admitted); where its own rules
refuse it, statements of their own say so.
-/

open Sys2Proof Sys2Proof.Machine

/-! ### The block -/

/-- The step runs the command at the front of the queue on the state with the queue's rest; on an empty queue the block idles, which is
the model's choice (log entry 1). -/
def Obligations.StepRunsTheFrontCommand : Prop :=
  (∀ (i : Instr) (rest : List Instr) (s : State), step { s with pending := i :: rest } = exec i { s with pending := rest }) ∧
  (∀ s : State, s.pending = [] → step s = .next s)

/-- No command and no event stops the block: each has a next state, in every state. -/
def Obligations.EveryCommandHasANextState : Prop :=
  ∀ (i : Instr) (s : State), ∃ t, exec i s = .next t

/-- The queue of waiting commands is the host's: no command's effect touches it, and a step takes exactly one command from it. -/
def Obligations.AStepTakesOneCommandFromTheQueue : Prop :=
  (∀ (i : Instr) (s t : State), exec i s = .next t → t.pending = s.pending) ∧
  (∀ s t : State, step s = .next t → t.pending = s.pending.tail)

/-- Every step keeps the registers in canonical form. -/
def Obligations.RegistersKeepTheirForm : Prop :=
  ∀ s t : State, s.regsWf = true → step s = .next t → t.regsWf = true

/-- Every step keeps Last 0, the factory Last, in slot 0 of both sides (R455). -/
def Obligations.FactoryLastIsKept : Prop :=
  ∀ s t : State, s.factoryKept → step s = .next t → t.factoryKept

/-- The module before power is applied (R523, R454, R455): OFF, no VAON and no feed, no side serving, the run IDLE, Last 0 in slot 0 of
both sides, every register at the value its table gives; the registers are in canonical form. That nothing waits and that internal
tables are empty is the model's choice (log entry 9). -/
def Obligations.ResetIsAModuleWithoutPower : Prop :=
  State.reset.power.mode = .off ∧ State.reset.power.vaon = false ∧ State.reset.power.feed = ⟨false, false⟩ ∧
  (∀ x, State.reset.live x = false) ∧ State.reset.trg.run = .idle ∧ State.reset.factoryKept ∧
  (∀ a, State.reset.rd a = resetWord a) ∧ State.reset.rf Reg.TIL_SLICE 4 0 = 14 ∧
  (∀ t : Fin 64, ∀ lp : Fin 16384, imageWord State.reset.pix.shadow (globalPix t lp) = 0x40) ∧
  State.reset.regsWf = true ∧ State.reset.pending = []

/-- Registers as R12, R13 and R16 have them, in the write that every register write goes through: RW bits take the value, a 1 clears a
W1C bit that the present tick has not set, every other bit stays, and reserved bits among them; no other register changes. -/
def Obligations.RegisterWriteFollowsItsFieldTypes : Prop :=
  ∀ (a : Nat) (v : Word) (s : State) (i : Nat), i < 32 →
    ((store a v s).rd a).getLsbD i =
      (if (strobeBits a).getLsbD i && !(actionBits a).getLsbD i && v.getLsbD i && !(((s.setNow a).map (fun q : Word × Word => q.2)).getD 0).getLsbD i then false
       else if (storeBits a).getLsbD i then v.getLsbD i else (s.rd a).getLsbD i) ∧
    Only [] (fun b => b = a) s (store a v s)

/-- A privileged read clears exactly the RC fields of the register it reads. A field that the present tick has set is returned as it was
before that set, and ends holding the new set. An unprivileged read clears nothing and shows the fields of view U only (R12, R14, R15,
R447). An access to a tile's block brings the tile up to date first. -/
def Obligations.RegisterReadClearsRcFields : Prop :=
  ∀ (a : Nat) (s : State), let u := settleBlock a s; let k := touchBlock a u; let w := Sparse.get k.capture a (liveWord u a)
    (tileOfAddr a = none → u = s ∧ k = s) ∧
    (readReg false a s).1 = (w &&& openBits a) ∧
    (s.setNow a = none → (readReg true a s).1 = w ∧ (readReg true a s).2.rd a = (k.rd a &&& ~~~clearBits a)) ∧
    (∀ v f : Word, s.setNow a = some (v, f) →
      (readReg true a s).1 = mixBits w (clearBits a &&& setFields a f) v ∧
      (readReg true a s).2.rd a = mixBits (k.rd a) (clearBits a) f) ∧
    Only [.capture] (regIn [a]) k (readReg true a s).2 ∧
    Only [.capture] noReg k (readReg false a s).2

/-! ### Plain commands -/

/-- NOP, GET_MEASUREMENT, GET_IDENTITY and ATTEST reply what R446 and R464–R466 give and change nothing but what answering a command
changes, ATTEST also its count; the chain carries the ordering code (R2). Digests, signature and what else the chain holds are the
model's constants (log entries 5, 6 and 114). -/
def Obligations.PlainCommandsReply : Prop :=
  ∀ (dt : Nat) (c : Ctx) (s : State), let u := s.elapse dt; let x := receiver u c; let y := namedSide u c
  (Admitted c .nop none u →
    Completes x c 0x00 .ok 0 [] u (exec (.nop dt c) s)) ∧
  (∀ (part : Word) (n : Option Word), part.toNat % 256 ≤ 2 →
    (part.toNat % 256 = 2 → ∃ w, n = some w ∧ w.toNat < (u.side y).mgt.log.length) →
    Admitted c (.getMeasurement part n) none u →
    Completes x c 0x50 .ok (BitVec.ofNat 32 (u.side y).mgt.log.length) (measReply u y (part.toNat % 256) (n.getD 0).toNat) u
      (exec (.getMeasurement dt c part n) s)) ∧
  (∀ offset : Word, offset.toNat < chainLen y →
    Admitted c (.getIdentity offset) none u →
    Completes x c 0x52 .ok (BitVec.ofNat 32 (chainLen y)) (chainWords y offset.toNat) u (exec (.getIdentity dt c offset) s)) ∧
  (∃ p, p + 10 ≤ chainLen y ∧ ∀ i, i < 10 → chainAt y (p + i) = nth orderingCode i) ∧
  (∀ nonce : BitVec 256, Admitted c (.attest nonce) none u →
    let n := u.rd (Reg.MSR_ATTEST_COUNT y) + 1
    let sig := Config.ecdsa (sideNum y) (sha384 (attestBytes u y nonce n)) n.toNat
    Completes x c 0x51 .ok n (digestWords sig.1 ++ digestWords sig.2) (u.wr (Reg.MSR_ATTEST_COUNT y) n)
      (exec (.attest dt c nonce) s))

/-! ### Registers -/

/-- READ_REG of a mapped address replies with its present value (R446, R447). READ_BLOCK replies OK with COUNT values where each of its
registers can be accessed, and with those before the first that cannot, and why, where one cannot (R448); one whose first address is not
mapped fails step 7 of R444 (R584). Beside the read's own clearing, and an uncorrectable window word that it finds (R64, R65), nothing
changes but what answering changes. -/
def Obligations.ReadCommandsReplyWithValues : Prop :=
  ∀ (dt : Nat) (c : Ctx) (addr : Word) (s : State), let u := s.elapse dt; let x := receiver u c
  let a := resolve s c addr.toNat; let d := forAddr c a; let k := taken x d u; let p := privileged u c.via
  (∀ (q : Place) (bad : Bool), placeOf a = some q →
    Admitted d (.readReg s c a (!q.open_) (crosses s c a false)) none u →
    let r := readPlace p bad q k
    Completes x d 0x02 .ok r.1 [] r.2 (exec (.readReg dt c addr bad) s)) ∧
  (∀ (n : BitVec 8) (bad : List (Fin 60)) (st : Status), placeOf a = none → TakesUp d (.readBlock s c a n (crosses s c a false)) u →
    precheck u x d (.readBlock s c a n (crosses s c a false)) (some .badParam) = some st →
    Completes x d 0x04 st 0 [] u (exec (.readBlock dt c addr n bad) s)) ∧
  (∀ (n : BitVec 8) (bad : List (Fin 60)), 1 ≤ n.toNat → n.toNat ≤ 60 → placeOf a ≠ none →
    Admitted d (.readBlock s c a n (crosses s c a false)) none u →
    let r := readRun p (bad.map (fun i => a + 4 * i.val)) a n.toNat k
    let o := exec (.readBlock dt c addr n bad) s
    Completes x d 0x04 (r.2.1.getD .ok) (BitVec.ofNat 32 r.1.length) (wordPairs r.1) r.2.2 o ∧
    ((∀ i, i < n.toNat → ∃ q, placeOf (a + 4 * i) = some q ∧ (p || q.open_) = true ∧
        (∀ y, sideOfAddr (a + 4 * i) = some y → u.serving y = true)) →
      r.1.length = n.toNat ∧ Completes x d 0x04 .ok (BitVec.ofNat 32 n.toNat) (wordPairs r.1) r.2.2 o))

/-- WRITE_REG and MODIFY_REG of a place that nothing refuses, a register or a word of a window, write it, and reply OK with R1 0 or the
old value (R446, R447, R449, R593); of what the two sides write in one cycle side B's is what stays (R587), by the order that log entry
162 takes. WRITE_BLOCK writes its registers one after another and replies OK with R1 = COUNT where nothing refuses one of them; else it
stops at the first that is refused, says why, and R1 counts those before it (R448). Shadow writes while a CONFIG_APPLY stages, the way
out of STANDBY, and writes whose effect follows the reply have statements of their own. -/
def Obligations.WriteCommandsWrite : Prop :=
  ∀ (dt : Nat) (c : Ctx) (addr value : Word) (s : State), let u := s.elapse dt; let x := receiver u c
  let a := resolve s c addr.toNat; let d := forAddr c a; let k := taken x d u
  (∀ q, placeOf a = some q → (k.staging = true → ∀ p, q ≠ .shadow p) →
    Admitted d (.writeReg s c a value false (!standbyWrites a) (crosses s c a true)) (rangeCheck u (some q) value) u →
    refusalOf k q value = none → wakes k q value = false → deferred c q value = false →
    Completes x d 0x03 .ok 0 [] (writeAll x 0xFFFFFFFF q value k) (exec (.writeReg dt c addr value) s)) ∧
  (∀ (q : Place) (mask : Word) (bad : Bool), placeOf a = some q → (k.staging = true → ∀ p, q ≠ .shadow p) →
    let r := readPlace true bad q k; let v := modified q r.1 mask value
    Admitted d (.modifyReg s c a mask value (!standbyWrites a) (crosses s c a true))
      (rangeCheck u (some q) (modified q (readPlace true bad q u).1 mask value)) u →
    refusalOf k q v = none → refusalOf r.2 q v = none → wakes r.2 q v = false → (∀ w : Word, deferred c q w = false) →
    Completes x d 0x06 .ok r.1 [] (writeAll x mask q v r.2) (exec (.modifyReg dt c addr mask value bad) s)) ∧
  (∀ (n : BitVec 8) (ws : List Word), ws.length = n.toNat → 1 ≤ n.toNat → n.toNat ≤ 60 → placeOf a ≠ none →
    (k.staging = false ∨ shadowPixel a = none) →
    Admitted d (.writeBlock s c a n ws ((List.range ws.length).any (fun i => crosses s c (a + 4 * i) true))) none u →
    (∀ i, i < n.toNat → ∀ q, placeOf (a + 4 * i) = some q → deferred c q (ws.getD i 0) = false) →
    let place (i : Nat) : Place := (placeOf (a + 4 * i)).getD (.reg 0)
    let v (i : Nat) : State := (List.range i).foldl (fun t j => writeAll x 0xFFFFFFFF (place j) (ws.getD j 0) t) k
    let may (i : Nat) : Prop := blockPlace (v i) (a + 4 * i) true = .ok (place i) ∧ refusalOf (v i) (place i) (ws.getD i 0) = none
    let o := exec (.writeBlock dt c addr n ws) s
    ((∀ i, i < n.toNat → may i) → Completes x d 0x05 .ok (BitVec.ofNat 32 n.toNat) [] (v n.toNat) o) ∧
    (∀ m, m < n.toNat → (∀ i, i < m → may i) →
      (∀ st, blockPlace (v m) (a + 4 * m) true = .error st → Completes x d 0x05 st (BitVec.ofNat 32 m) [] (v m) o) ∧
      (∀ st, blockPlace (v m) (a + 4 * m) true = .ok (place m) → refusalOf (v m) (place m) (ws.getD m 0) = some st →
        Completes x d 0x05 st (BitVec.ofNat 32 m) [] (v m) o)))

/-- A write of the pixel shadow puts bits [9:0] of the value into the word of its pixel and leaves every other pixel's word and every
register alone (R45); while a CONFIG_APPLY stages it is held instead and nothing is answered (R52), a WRITE_BLOCK with as many of its
words as the window takes (R448). -/
def Obligations.ShadowWritesLandOrWait : Prop :=
  (∀ (p q : Nat) (w : Word) (s : State), p < 1048576 → q < 1048576 →
    imageWord (shadowWrite p w s).pix.shadow q = (if q = p then w.setWidth 10 else imageWord s.pix.shadow q) ∧
    Only [.pix] noReg s (shadowWrite p w s)) ∧
  (∀ (dt : Nat) (c : Ctx) (addr value : Word) (s : State) (p : Nat), let u := s.elapse dt; let x := receiver u c
    let a := resolve s c addr.toNat; let d := forAddr c a; let k := taken x d u
    placeOf a = some (.shadow p) → u.staging = true →
    Admitted d (.writeReg s c a value false (!standbyWrites a) (crosses s c a true)) none u →
    exec (.writeReg dt c addr value) s = .next (k.modPix (fun f => { f with
      held := f.held ++ [⟨⟨x, 0x03, c, u.clock.ticks⟩, [(a, 0xFFFFFFFF, value)], 0, false, false, false⟩] }))) ∧
  (∀ (dt : Nat) (c : Ctx) (addr mask value : Word) (bad : Bool) (s : State) (p : Nat), let u := s.elapse dt; let x := receiver u c
    let a := resolve s c addr.toNat; let d := forAddr c a; let k := taken x d u
    placeOf a = some (.shadow p) →
    Admitted d (.modifyReg s c a mask value (!standbyWrites a) (crosses s c a true)) none u →
    (u.staging = true → exec (.modifyReg dt c addr mask value bad) s = .next (k.modPix (fun f => { f with
      held := f.held ++ [⟨⟨x, 0x06, c, u.clock.ticks⟩, [(a, mask, value)], 0, true, false, bad⟩] }))) ∧
    (u.staging = false → let v := findError bad (.shadow p) k
      Completes x d 0x06 .ok (shadowRead v p) [] (writeAll x mask (.shadow p) (mixBits (shadowRead v p) mask value) v)
        (exec (.modifyReg dt c addr mask value bad) s))) ∧
  (∀ (dt : Nat) (c : Ctx) (addr : Word) (n : BitVec 8) (ws : List Word) (s : State) (p : Nat), let u := s.elapse dt; let x := receiver u c
    let a := resolve s c addr.toNat; let d := forAddr c a; let k := taken x d u; let m := min n.toNat (1048576 - p)
    placeOf a = some (.shadow p) → u.staging = true → ws.length = n.toNat → 1 ≤ n.toNat → n.toNat ≤ 60 →
    Admitted d (.writeBlock s c a n ws ((List.range ws.length).any (fun i => crosses s c (a + 4 * i) true))) none u →
    exec (.writeBlock dt c addr n ws) s = .next (k.modPix (fun f => { f with
      held := f.held ++ [⟨⟨x, 0x05, c, u.clock.ticks⟩, (List.range m).map (fun i => (a + 4 * i, 0xFFFFFFFF, ws.getD i 0)),
        BitVec.ofNat 32 m, false, decide (m < n.toNat), false⟩] })))

/-- A write that changes the transport's own port, or the set of privileged ports, takes effect after its reply is on its way (R377,
R447), whether WRITE_REG, MODIFY_REG or WRITE_BLOCK makes it, and not before that reply has left a port on which it waits; how the model
keeps the effect until then is log entry 156. -/
def Obligations.WritesOfTheOwnPortFollowTheReply : Prop :=
  (∀ (dt : Nat) (c : Ctx) (addr value : Word) (s : State) (y : Side) (p : Fin 16) (b : Nat), let u := s.elapse dt
    let a := resolve s c addr.toNat; let d := forAddr c a
    c.via = .port y p → (b = Reg.MGT_PRIV_PORTS y ∨ b = Reg.LNK_PORT_CTRL y p.val) → placeOf a = some (.reg b) →
    Admitted d (.writeReg s c a value false (!standbyWrites a) (crosses s c a true)) (rangeCheck u (some (.reg b)) value) u →
    refusalOf (taken y d u) (.reg b) value = none →
    ∃ t, Only answering answerRegs u t ∧ Replied y d 0x03 .ok 0 [] t ∧
      exec (.writeReg dt c addr value) s = .next (afterReply c (.write b value) (writeReg b value) t)) ∧
  (∀ (dt : Nat) (c : Ctx) (addr mask value : Word) (bad : Bool) (s : State) (y : Side) (p : Fin 16) (b : Nat), let u := s.elapse dt
    let a := resolve s c addr.toNat; let d := forAddr c a; let k := taken y d u; let r := readPlace true bad (.reg b) k
    c.via = .port y p → (b = Reg.MGT_PRIV_PORTS y ∨ b = Reg.LNK_PORT_CTRL y p.val) → placeOf a = some (.reg b) →
    Admitted d (.modifyReg s c a mask value (!standbyWrites a) (crosses s c a true))
      (rangeCheck u (some (.reg b)) (modified (.reg b) (readPlace true bad (.reg b) u).1 mask value)) u →
    refusalOf k (.reg b) (modified (.reg b) r.1 mask value) = none → refusalOf r.2 (.reg b) (modified (.reg b) r.1 mask value) = none →
    ∃ t, Only answering answerRegs r.2 t ∧ Replied y d 0x06 .ok r.1 [] t ∧
      let v := modified (.reg b) (readPlace true bad (.reg b) t).1 mask value
      exec (.modifyReg dt c addr mask value bad) s = .next (afterReply c (.write b v) (writeReg b v) t)) ∧
  (∀ (dt : Nat) (c : Ctx) (addr : Word) (n : BitVec 8) (ws : List Word) (s : State) (y : Side) (p : Fin 16), let u := s.elapse dt
    let a := resolve s c addr.toNat; let d := forAddr c a; let k := taken y d u
    c.via = .port y p → ws.length = n.toNat → 1 ≤ n.toNat → n.toNat ≤ 60 → placeOf a ≠ none → shadowPixel a = none →
    Admitted d (.writeBlock s c a n ws ((List.range ws.length).any (fun i => crosses s c (a + 4 * i) true))) none u →
    let place (i : Nat) : Place := (placeOf (a + 4 * i)).getD (.reg 0)
    let v (i : Nat) : State := (List.range i).foldl (fun t j =>
      if deferred c (place j) (ws.getD j 0) then t else writeAll y 0xFFFFFFFF (place j) (ws.getD j 0) t) k
    (∀ i, i < n.toNat → blockPlace (v i) (a + 4 * i) true = .ok (place i) ∧ refusalOf (v i) (place i) (ws.getD i 0) = none) →
    ∃ t, Only answering answerRegs (v n.toNat) t ∧ Replied y d 0x05 .ok (BitVec.ofNat 32 n.toNat) [] t ∧
      exec (.writeBlock dt c addr n ws) s = .next (landBlock c a (ws.take (writeRun y c a ws u).1) t)) ∧
  (∀ (c : Ctx) (a : After) (f : State → State) (t : State) (y : Side) (p : Nat) (r : Frame), replyOn c t = some (y, p, r) →
    afterReply c a f t = t.modLnk y (fun l => { l with later := l.later ++ [(p, r, a)] }))

/-- GET_STATUS replies OK with R1 and 3 words: the fields of R450 in their places, array time, MGT_VERSION and the seconds since the
last module reset. -/
def Obligations.StatusShowsItsFields : Prop :=
  (∀ (dt : Nat) (c : Ctx) (s : State), let u := s.elapse dt; let x := receiver u c
    Admitted c .getStatus none u →
    Completes x c 0x01 .ok (statusWord u c)
      [wideWord u.now, paramWord (u.rd (Reg.MGT_VERSION x)), BitVec.ofNat 72 (u.uptime % 2 ^ 32)] u
      (exec (.getStatus dt c) s)) ∧
  (∀ (s : State) (c : Ctx), let w := (statusWord s c).toNat
    bits w 31 30 = s.trg.run.code ∧ bits w 29 28 = (s.arb.svc.get .a).code ∧ bits w 27 26 = (s.arb.svc.get .b).code ∧
    bit w 25 = s.arb.twin ∧ bit w 24 = s.power.ready ∧ bit w 23 = s.alert .a ∧ bit w 22 = s.alert .b ∧
    bits w 21 21 = sideNum s.arb.primary ∧ bit w 20 = s.power.strapMaster ∧ bit w 19 = s.attached ∧
    bit w 18 = privileged s c.via ∧ bits w 17 0 = 0)

/-- A refused command changes nothing but what answering it changes: where it is taken up and a check of R444 fails, the status of that
check is the reply and the command's own rules do not run. Every command row goes through these shared checks; NOP, WRITE_REG, RUN_START
and CONFIG_APPLY show it of their rows. -/
def Obligations.RefusedCommandsChangeNothing : Prop :=
  ∀ (dt : Nat) (c : Ctx) (s : State) (st : Status), let u := s.elapse dt; let x := receiver u c
  (∀ (n : Need) (par : Side → State → Option Status) (body : Side → State → Res),
    TakesUp c n u → precheck u x c n (par x u) = some st →
    Completes x c n.op st 0 [] u (.next (command dt c n par body s))) ∧
  (TakesUp c .nop u → precheck u x c .nop none = some st →
    Completes x c 0x00 st 0 [] u (exec (.nop dt c) s)) ∧
  (∀ addr value : Word, let a := resolve s c addr.toNat; let d := forAddr c a
    let n := Need.writeReg s c a value false (!standbyWrites a) (crosses s c a true)
    TakesUp d n u → precheck u x d n (rangeCheck u (placeOf a) value) = some st →
    Completes x d 0x03 st 0 [] u (exec (.writeReg dt c addr value) s)) ∧
  (∀ t : Option Time, TakesUp c (.runStart t) u → precheck u x c (.runStart t) (runParam c t) = some st →
    Completes x c 0x11 st 0 [] u (exec (.runStart dt c t) s)) ∧
  (∀ (lo hi : Word) (bad : List (Fin 1048576)), TakesUp c (.configApply lo hi) u →
    precheck u x c (.configApply lo hi) none = some st →
    Completes x c 0x20 st 0 [] u (exec (.configApply dt c lo hi bad) s))

/-! ### Transports -/

/-- A packet that passes the checks waits at the end of the command queue of the side that takes it, whether it came over the service
SPI or in a COMMAND frame of a port, a child that is a second master excepted (R405); one that finds 64 waiting is dropped and counted
(R440, R442–R444). A WRITE shifts out zeros (R441). A queue whose pointers disagree is emptied first, counted and reported (R489). -/
def Obligations.PacketsWaitInOrderOfArrival : Prop :=
  ∀ (dt : Nat) (s : State) (body : List Word72) (crc : Word), let u := s.elapse dt
  (∀ bytes : List Byte, let x := u.arb.primary; let ws := bytesWords bytes
    u.serving x = true → ws ≠ [] → hdr (ws.headD 0) 55 48 + 2 ≤ ws.length → u.spi.replies.length < 4 →
    PassesIntake x .spi ws body crc u →
    ((u.side x).mgt.queue.length < 64 →
      Happens [.mgt x, .spi] (regIn [Reg.MGT_QUEUE x]) u
        (fun t => (t.side x).mgt.queue = (u.side x).mgt.queue ++ [⟨.spi, body, crc, u.clock.ticks⟩] ∧
          t.spi = { u.spi with miso := List.replicate (bytes.length + 1) 0x00 }) (exec (.spiWrite dt (0x5A :: bytes) false) s)) ∧
    (64 ≤ (u.side x).mgt.queue.length →
      Happens (.mgt x :: .spi :: raising) (fun a => raiseRegs a ∨ a = Reg.MGT_CMD_STATUS x) u
        (fun t => (t.side x).mgt.queue = (u.side x).mgt.queue ∧
          t.rf (Reg.MGT_CMD_STATUS x) 23 16 = min (u.rf (Reg.MGT_CMD_STATUS x) 23 16 + 1) 255)
        (exec (.spiWrite dt (0x5A :: bytes) false) s))) ∧
  (∀ (x : Side) (p : Fin 16) (f : RxFrame),
    (u.port x p).state = .up → checkFrame f = .ok → roleAccepts (u.role x p) (sofType f.sof) = true → sofType f.sof = 1 →
    ¬(u.role x p = 3 ∧ (u.child x p).master = true) →
    PassesIntake x (.port x p) f.words body crc u → (u.side x).mgt.queue.length < 64 →
    Happens [.mgt x, .lnk x] (regIn [Reg.MGT_QUEUE x, Reg.LNK_PORT_RX x p]) u
      (fun t => (t.side x).mgt.queue = (u.side x).mgt.queue ++ [⟨.port x p, body, crc, u.clock.ticks⟩] ∧
        t.rd (Reg.LNK_PORT_RX x p) = u.rd (Reg.LNK_PORT_RX x p) + 1)
      (exec (.cmdFrameReceived dt x p f false) s)) ∧
  (∀ (x : Side) (p : Fin 16) (f : RxFrame), u.live x = true →
    Next (fun t => (t.side x).mgt.queue.length ≤ 1 ∧ RaisedSide x 551 u t ∧
      t.rf (Reg.EVT_QERR x) 15 0 = min (u.rf (Reg.EVT_QERR x) 15 0 + 1) 65535) (exec (.cmdFrameReceived dt x p f true) s)) ∧
  (∀ bytes : List Byte, let x := u.arb.primary; u.live x = true →
    Next (fun t => (t.side x).mgt.queue.length ≤ 1 ∧ RaisedSide x 551 u t ∧
      t.rf (Reg.EVT_QERR x) 15 0 = min (u.rf (Reg.EVT_QERR x) 15 0 + 1) 65535) (exec (.spiWrite dt bytes true) s))

/-- The service SPI (R441, R442, R444): a WRITE shifts out zeros; while no side serves or of another kind than 0x5A it leaves no trace,
one that meets 4 waiting replies counts in DROPPED, one with a wrong CRC word in BAD_CRC, and none of them executes; a READ shifts out
the kind byte's answer, READY, SIDE and the oldest reply, then zeros, and the reply leaves the buffer only when its last byte has been
clocked out; with none waiting READY is 0x00 and SIDE the side that SPI packets go to. A reply buffer whose pointers disagree is
emptied, counted and reported (R489). -/
def Obligations.ServiceSpiDiscardsWritesAndShiftsOutReplies : Prop :=
  (∀ (dt : Nat) (s : State) (k : Byte) (bytes : List Byte), let u := s.elapse dt; let x := u.arb.primary; let ws := bytesWords bytes
   let w := { u with spi := { u.spi with miso := List.replicate (bytes.length + 1) 0x00 } };
   (k ≠ 0x5A ∨ u.serving x = false → exec (.spiWrite dt (k :: bytes) false) s = .next w) ∧
   (u.serving x = true → ws ≠ [] → hdr (ws.headD 0) 55 48 + 2 ≤ ws.length →
     (4 ≤ u.spi.replies.length →
       exec (.spiWrite dt (0x5A :: bytes) false) s = .next (w.bump (Reg.MGT_CMD_STATUS x) 23 16 1)) ∧
     (∀ (body : List Word72) (v : Word72), u.spi.replies.length < 4 → takePacket ws = some (body, v) →
       v.toNat ≠ crc32 (wordsBytes body) →
       exec (.spiWrite dt (0x5A :: bytes) false) s = .next (w.bump (Reg.MGT_CMD_STATUS x) 31 24 1)))) ∧
  (∀ (dt clocked : Nat) (s : State), let u := s.elapse dt
   let front := if u.serving .a || u.serving .b then u.spi.replies.head? else none
   let out := 0x00 :: spiBytes u.arb.primary front
   exec (.spiRead dt clocked false) s = .next { u with spi := { u.spi with
     miso := (out ++ List.replicate (clocked - out.length) 0x00).take clocked
     replies := if front.isSome && decide (out.length ≤ clocked) then u.spi.replies.tail else u.spi.replies } }) ∧
  (∀ (dt clocked : Nat) (s : State), let u := s.elapse dt; let x := u.arb.primary
   let out : List Byte := [0x00, 0x00, BitVec.ofNat 8 (sideNum x)]
   Happens [.spi, .evt x, .tally x] (inBlocks [17]) u (fun t =>
     t.spi = { u.spi with replies := [], miso := (out ++ List.replicate (clocked - 3) 0x00).take clocked } ∧
     RaisedSide x 551 u t ∧ t.rf (Reg.EVT_QERR x) 15 0 = min (u.rf (Reg.EVT_QERR x) 15 0 + 1) 65535) (exec (.spiRead dt clocked true) s))

/-- A packet sent again within 1 s is not executed: its reply is the cached one with STATUS REPLAY and one more word, the cached status
(R445), on the service SPI as on a port; a packet whose original is still queued or executing is discarded without a reply. A command
that waits for the peer is answered with PEER_TIMEOUT 300 000 ticks after its first attempt, and waits no more (R382); an ARRAY_BARRIER
that waited for it is then looked at (R428). -/
def Obligations.RepeatsAreReplayedAndSilentPeersTimeOut : Prop :=
  (∀ (dt : Nat) (s : State) (bytes : List Byte) (body : List Word72) (crc : Word) (e : Cached),
   let u := s.elapse dt; let x := u.arb.primary; let ws := bytesWords bytes
     u.serving x = true → ws ≠ [] → hdr (ws.headD 0) 55 48 + 2 ≤ ws.length → u.spi.replies.length < 4 →
     takePacket ws = some (body, paramWord crc) → crc.toNat = crc32 (wordsBytes body) →
     findCached u.clock.ticks .spi (BitVec.ofNat 8 (hdr (body.headD 0) 63 56)) crc u.spi.cache = some e →
     Happens [.spi] (regIn [Reg.MGT_CMD_STATUS x]) u
       (fun t => t.spi.replies = u.spi.replies ++ [(x, { e.reply with
           status := Status.replay.code
           words := e.reply.words ++ [BitVec.ofNat 72 e.reply.status] })] ∧ t.spi.cache = u.spi.cache)
       (exec (.spiWrite dt (0x5A :: bytes) false) s)) ∧
  (∀ (dt : Nat) (s : State) (bytes : List Byte) (body : List Word72) (crc : Word), let u := s.elapse dt; let x := u.arb.primary
   let ws := bytesWords bytes; let tag := BitVec.ofNat 8 (hdr (body.headD 0) 63 56)
     u.serving x = true → ws ≠ [] → hdr (ws.headD 0) 55 48 + 2 ≤ ws.length → u.spi.replies.length < 4 →
     takePacket ws = some (body, paramWord crc) → crc.toNat = crc32 (wordsBytes body) →
     findCached u.clock.ticks .spi tag crc u.spi.cache = none → stillHeld u x .spi tag crc = true →
     exec (.spiWrite dt (0x5A :: bytes) false) s = .next { u with spi := { u.spi with miso := List.replicate (bytes.length + 1) 0x00 } }) ∧
  (∀ (dt : Nat) (x : Side) (p : Fin 16) (f : RxFrame) (s : State) (body : List Word72) (crc : Word), let u := s.elapse dt
   let tag := BitVec.ofNat 8 (hdr (body.headD 0) 63 56); let o := exec (.cmdFrameReceived dt x p f false) s
     (u.port x p).state = .up → checkFrame f = .ok → roleAccepts (u.role x p) (sofType f.sof) = true → sofType f.sof = 1 →
     ¬(u.role x p = 3 ∧ (u.child x p).master = true) → takePacket f.words = some (body, paramWord crc) →
     crc.toNat = crc32 (wordsBytes body) → hdr (body.headD 0) 35 35 = 0 →
     (∀ e, findCached u.clock.ticks (.port x p) tag crc (u.side x).mgt.cache = some e →
       Happens [.lnk x] (regIn [Reg.MGT_CMD_STATUS x, Reg.LNK_PORT_RX x p]) u (fun t =>
         t.rf (Reg.MGT_CMD_STATUS x) 7 0 = min (u.rf (Reg.MGT_CMD_STATUS x) 7 0 + 1) 255 ∧
         ∃ g, (t.port x p).waiting = (u.port x p).waiting ++ [g] ∧ g.type = 2 ∧ g.words = padGroup (Reply.packet { e.reply with
           status := Status.replay.code
           words := e.reply.words ++ [BitVec.ofNat 72 e.reply.status] })) o) ∧
     (findCached u.clock.ticks (.port x p) tag crc (u.side x).mgt.cache = none → stillHeld u x (.port x p) tag crc = true →
       Happens [.lnk x] (regIn [Reg.LNK_PORT_RX x p]) u (fun t => (t.port x p).waiting = (u.port x p).waiting) o)) ∧
  (∀ (dt : Nat) (x : Side) (w : Waiting) (s : State), let u := s.elapse dt
   (u.side x).mgt.fwd = some w → u.serving (peerOf x) = true → w.since + 300000 ≤ u.clock.ticks →
     ∃ t, Only answering answerRegs u t ∧ Replied x w.ctx w.op .peerTimeout 0 [] t ∧ (t.side x).mgt.fwd = none ∧
       exec (.peerTimeout dt x) s = .next (barrierCheck t))

/-! ### The run -/

/-- The commands of the run, where their own rules accept them (R207–R210, R231, R232, R234, R275, R276): RUN_ARM gives ARMED with the
staging table live and the counters cleared, and ports that are too narrow train after its reply; RUN_START and a RUN_STOP in RUNNING
become pending for their time; a RUN_STOP in ARMED returns to IDLE; FLUSH adds a cut, TRIGGER_SW an occurrence, TRIG_COMMIT a pending
commit. The place of T in a reply is log entry 11, and what a RUN_STOP in ARMED leaves of the occurrences is log entry 140. -/
def Obligations.RunCommandsTakeEffect : Prop :=
  ∀ (dt : Nat) (c : Ctx) (s : State) (t : Option Time), let u := s.elapse dt; let x := receiver u c
  let e := t.getD (soonest u 6000)
  (Admitted c .runArm none u → armRefusal (taken x c u) = none →
    ∃ v, Only answering answerRegs (armRun (taken x c u)) v ∧ Replied x c 0x10 .ok 0 [] v ∧
      exec (.runArm dt c) s = .next (afterReply c .trainNarrow trainNarrow v)) ∧
  (runParam c t = none → Admitted c (.runStart t) none u →
    u.trg.run = .armed → u.trg.startAt = none → tooSoon u e (leadOf u x c) = false →
    Completes x c 0x11 .ok 0 [] ((arrayWide 0x11 c t u).modTrg (fun g => { g with startAt := some e }))
      (exec (.runStart dt c t) s)) ∧
  (runParam c t = none → Admitted c (.runStop t) none u →
    (u.trg.run = .running → u.trg.stopAt = none → tooSoon u e (leadOf u x c) = false →
      Completes x c 0x12 .ok 0 [] ((arrayWide 0x12 c t u).modTrg (fun g => { g with stopAt := some e }))
        (exec (.runStop dt c t) s)) ∧
    (u.trg.run = .armed →
      Completes x c 0x12 .ok 0 [] (setRun .idle ((arrayWide 0x12 c t u).modTrg (fun g => { g with
        startAt := none
        commitAt := none
        hits := u.trg.busOnly }))) (exec (.runStop dt c t) s))) ∧
  (t.isSome = c.sched → (∀ v, t = some v → v.toNat % 8 = 0) → Admitted c (.flush t) none u →
    u.trg.run = .running → tooSoon u e 6000 = false → u.trg.cuts.length < 8 →
    Completes x c 0x13 .ok (e.setWidth 32) [highWord e] (u.modTrg (fun g => { g with cuts := g.cuts ++ [e] }))
      (exec (.flush dt c t) s)) ∧
  (∀ number : Word, t.isSome = c.sched → Admitted c (.triggerSw number t) none u →
    (u.trg.run = .armed ∨ u.trg.run = .running) → tooSoon u e 6000 = false →
    Completes x c 0x14 .ok (e.setWidth 32) [highWord e]
      (u.modTrg (fun g => { g with hits := g.hits ++ [⟨7, number.toNat % 8, e, 0, e⟩] }))
      (exec (.triggerSw dt c number t) s)) ∧
  (Admitted c .trigCommit none u → u.trg.run ≠ .idle → u.trg.commitAt = none →
    Completes x c 0x15 .accepted 0 [] (u.modTrg (fun g => { g with commitAt := some (u.now + 6000) }))
      (exec (.trigCommit dt c) s))

/-- What RUN_ARM does (R207, R231): the run is ARMED, on every side that serves the live table is the staging table, the counters of the
chapter are 0, and no commit is pending. -/
def Obligations.ArmingLoadsTheTableAndClearsTheCounters : Prop :=
  ∀ s : State, (armRun s).trg.run = .armed ∧ (armRun s).trg.commitAt = none ∧
    Only ([.clock, .pix, .trg] ++ bothOf .evt ++ bothOf .wlt ++ bothOf .dsp ++ bothOf .cmp ++ bothOf .bst ++ bothOf .tally)
        (inBlocks [17, 18, 21]) s (armRun s) ∧
    ∀ x, s.live x = true →
      (∀ n d, n < 16 → d < 5 → (armRun s).rd (Reg.TRG_LIVE x n d) = s.rd (Reg.TRG_STATE x n d)) ∧
      (∀ a ∈ [Reg.TRG_TRIGGERS x, Reg.TRG_PRESCALED x, Reg.TRG_MERGED x, Reg.TRG_MERGED_FORCED x, Reg.TRG_RECORDS x,
        Reg.TRG_OPEN x, Reg.TRG_UNITS_KEPT x, Reg.TRG_UNITS_RELEASED x, Reg.TRG_FRAMES_PRESCALED x], (armRun s).rd a = 0) ∧
      (∀ i, i < 8 → (armRun s).rd (Reg.TRG_CNT x i) = 0)

/-- The refusals of the run's commands by state (R208, R210, R232, R234, R276): WRONG_STATE outside the states that take the command,
BUSY while one is pending; nothing but the reply. -/
def Obligations.RunCommandsAreRefusedByState : Prop :=
  ∀ (dt : Nat) (c : Ctx) (s : State) (t : Option Time), let u := s.elapse dt; let x := receiver u c
  (Admitted c .runArm none u → u.trg.run ≠ .idle →
    Completes x c 0x10 .wrongState 0 [] u (exec (.runArm dt c) s)) ∧
  (runParam c t = none → Admitted c (.runStart t) none u →
    (u.trg.run ≠ .armed → Completes x c 0x11 .wrongState 0 [] u (exec (.runStart dt c t) s)) ∧
    (u.trg.run = .armed → u.trg.startAt.isSome = true → Completes x c 0x11 .busy 0 [] u (exec (.runStart dt c t) s))) ∧
  (runParam c t = none → Admitted c (.runStop t) none u →
    (u.trg.run = .idle ∨ u.trg.run = .stopping → Completes x c 0x12 .wrongState 0 [] u (exec (.runStop dt c t) s)) ∧
    (u.trg.run = .running → u.trg.stopAt.isSome = true → Completes x c 0x12 .busy 0 [] u (exec (.runStop dt c t) s))) ∧
  (t.isSome = c.sched → (∀ v, t = some v → v.toNat % 8 = 0) → Admitted c (.flush t) none u →
    u.trg.run ≠ .running → Completes x c 0x13 .wrongState 0 [] u (exec (.flush dt c t) s)) ∧
  (∀ number : Word, t.isSome = c.sched → Admitted c (.triggerSw number t) none u →
    (u.trg.run = .idle ∨ u.trg.run = .stopping) → Completes x c 0x14 .wrongState 0 [] u (exec (.triggerSw dt c number t) s)) ∧
  (Admitted c .trigCommit none u →
    (u.trg.run = .idle → Completes x c 0x15 .wrongState 0 [] u (exec (.trigCommit dt c) s)) ∧
    (u.trg.run ≠ .idle → u.trg.commitAt.isSome = true → Completes x c 0x15 .busy 0 [] u (exec (.trigCommit dt c) s)))

/-- The moments of a run (R172, R207, R227, R275): at S the run is RUNNING, S is noted, every enabled tile runs and the sequencer stands
in TRG_CTRL.INIT; at P it is STOPPING, P is noted, no record is open and nothing of the sequencer is due; when nothing is left it is
IDLE, with event 562; a FLUSH cut whose time has come is made and shown. -/
def Obligations.RunMomentsMoveTheRunState : Prop :=
  ∀ (dt : Nat) (s : State), let u := s.elapse dt
  (∀ b, u.trg.run = .armed → u.trg.startAt = some b → reached u.now b = true →
    Happens ([.frames, .tiles, .squall, .trg, .bg, .lace, .freeCount] ++ bothOf .evt ++ bothOf .lnk ++ bothOf .wlt ++ bothOf .lce ++
      bothOf .dsp ++ bothOf .cmp ++ bothOf .bst ++ bothOf .tally) (inBlocks [6, 8, 17, 18, 20, 21]) u
      (fun t => t.trg.run = .running ∧ t.trg.startAt = none ∧ t.trg.stopAt = none ∧ t.trg.due = none ∧
        t.trg.seq = u.rf (Reg.TRG_CTRL u.arb.primary) 7 4 ∧
        (∀ x, u.live x = true → t.rd64 (Reg.TRG_RUN_START x) (Reg.TRG_RUN_START_4 x) = b) ∧
        (∀ k : Fin 64, u.tileOn k = true → (t.tile k).state = .running ∧ (t.tile k).startAt = b))
      (exec (.runStartEffect dt) s)) ∧
  (∀ p, u.trg.run = .running → u.trg.stopAt = some p → reached u.now p = true →
    Happens ([.tiles, .squall, .trg] ++ bothOf .evt ++ bothOf .tally) (inBlocks [7, 8, 17, 18]) u
      (fun t => t.trg.run = .stopping ∧ t.trg.stopAt = none ∧ t.trg.commitAt = none ∧ t.trg.due = none ∧ t.trg.opened = [] ∧
        (∀ x, u.live x = true → t.rd64 (Reg.TRG_RUN_STOP x) (Reg.TRG_RUN_STOP_4 x) = p))
      (exec (.runStopEffect dt) s)) ∧
  (let k := u.both (fun x t => if t.serving x then (List.range 64).foldl (fun v i => trailing x i v) t else t);
    u.trg.run = .stopping → (∀ i : Fin 64, (u.tile i).state = .idle) → u.trg.opened = [] → u.trg.closed = [] →
    (∀ x, u.serving x = true → sideDone k x = true) →
    Happens (.trg :: raising) raiseRegs k (fun t => t.trg.run = .idle ∧ ∀ x, RaisedSide x 562 k t)
      (exec (.runStoppingComplete dt) s)) ∧
  (∀ b, u.trg.cuts.find? (reached u.now) = some b →
    Happens ([.trg] ++ bothOf .cmp) (inBlocks [20]) u
      (fun t => t.trg.cuts = u.trg.cuts.erase b ∧ t.trg.cutsMade = u.trg.cutsMade ++ [b] ∧
        (∀ x, u.live x = true → t.rd64 (Reg.CMP_FLUSH_LAST x) (Reg.CMP_FLUSH_LAST_4 x) = b))
      (exec (.flushCut dt) s))

/-- The sequencer (R218, R219, R222): a step leaves the state as it is and makes the entry of the transition it finds true due 8 ticks
later; an entry that is due puts the sequencer into its state, with the entry fetched before, fetches its successors, and lets nothing
be due; a timer that expires stops and is seen as an occurrence. What reaches the trigger engines (R134, R193, R221, R224, R424, R425):
an MP pulse ends at its end; an occupancy summary 8 ticks after its end, with an occurrence for every comparator that is true; a stamp
of an external-trigger digitizer at its arrival, shown in TDC_EXT_LAST; an assertion of the trigger bus when its 16 ticks have passed,
in the step of its effective time or, late and counted so, in the first one after. -/
def Obligations.TheSequencerRunsOnWhatReachesIt : Prop :=
  (∀ (dt : Nat) (s : State), let u := s.elapse dt; u.trg.run = .running →
   (let m := u.now - BitVec.ofNat 64 (u.now.toNat % 8);
     let k := closeRecs (fun r => r.stop.any (reached m)) id u;
     let terms := (List.range 4).map (fun i => termTime k m (seenHits k m) (half u.trg.entry i % 4096));
     reached m u.runStart = true → beforeStop u m = true →
     (∀ l, u.trg.lastStep = some l → l ≠ m ∧ reached m l = true) → (∀ q, u.trg.due = some q → reached m q.1 = false) →
     Happens ([.trg] ++ bothOf .tally) (inBlocks [18]) u
       (fun t => t.trg.run = .running ∧ t.trg.seq = u.trg.seq ∧ t.trg.entry = u.trg.entry ∧ t.trg.lastStep = some m ∧
         (∀ q, transition terms (half u.trg.entry 4) = some q → t.trg.due = some (m + 8, q.1, q.2.1, q.2.2)) ∧
         (transition terms (half u.trg.entry 4) = none → ∀ q, transition terms (half u.trg.entry 5) = some q →
           t.trg.due = some (m + 8, q.1, q.2.1, q.2.2)) ∧
         (transition terms (half u.trg.entry 4) = none → transition terms (half u.trg.entry 5) = none → t.trg.due = u.trg.due))
       (exec (.sequencerStep dt) s)) ∧
   (∀ c n b fine, u.trg.due = some (c, n, b, fine) → reached u.now c = true → beforeStop u c = true →
     let e := match u.trg.fetched.find? (fun q => q.1 = n) with
       | some q => q.2
       | none => liveEntry u n;
     Happens ([.trg, .lace] ++ bothOf .evt ++ bothOf .lnk ++ bothOf .lce ++ bothOf .dsp ++ bothOf .cmp ++ bothOf .bst ++ bothOf .tally)
         (inBlocks [17, 18, 20, 21]) u
       (fun t => t.trg.run = .running ∧ t.trg.seq = n ∧ t.trg.entry = e ∧ t.trg.fetched = fetchNext u e ∧ t.trg.due = none)
       (exec (.sequencerEntry dt) s)) ∧
   (∀ (i : Fin 8) b, Sparse.get u.trg.timers i none = some b → reached u.now b = true →
     exec (.timerExpiry dt i) s = .next (u.modTrg (fun g => { g with
       timers := Sparse.set g.timers i none none
       hits := g.hits ++ [⟨9, i, b, 0, b⟩] })))) ∧
  (∀ (dt : Nat) (s : State), let u := s.elapse dt
   (∀ i : Fin 12, exec (.mpPulseEnd dt i) s = .next (u.modTrg (fun g => { g with
     pulses := Sparse.upd g.pulses i [] (fun l => l.filter (fun q => !reached u.now q.2)) }))) ∧
   (∀ q rest, u.trg.coming = q :: rest → reached u.now (q.1 + 8) = true → let l := (q.2 :: u.trg.summaries).take 64
     Happens [.trg] noReg u
       (fun t => t.trg.coming = rest ∧ t.trg.summaries = l ∧ t.trg.hits = u.trg.hits ++ (if trgTakes u then
         ((List.range 16).filter (occTrue u l)).map (fun c => ⟨8, c, q.1, 0, q.1 + 8⟩) else []))
       (exec (.occSummaryArrives dt) s)) ∧
   (∀ (i : Fin 4) q, u.tdc.stamps.find? (fun k => k.i = i.val) = some q → q.arrive ≤ u.clock.ticks →
     Happens [.tdc, .trg] (regIn [Reg.TDC_EXT_LAST i, Reg.TDC_EXT_LAST_4 i, Reg.TDC_EXT_LAST_8 i]) u
       (fun t => t.tdc.stamps = u.tdc.stamps.erase q ∧ t.rd64 (Reg.TDC_EXT_LAST i) (Reg.TDC_EXT_LAST_4 i) = q.time ∧
         t.rf (Reg.TDC_EXT_LAST_8 i) 16 16 = b2n q.rising ∧ t.rf (Reg.TDC_EXT_LAST_8 i) 9 0 = q.fine % 1024 ∧
         t.trg.hits = u.trg.hits ++ (if trgTakes u then
           [⟨2, i, q.time, q.fine, u.now - BitVec.ofNat 64 (u.clock.ticks - q.arrive)⟩] else []))
       (exec (.etdStampArrives dt i) s)) ∧
   (∀ a, u.lace.bus.find? (fun a => !a.given && reached u.now a.due) = some a →
     let step : Time := BitVec.ofNat 64 (alignUp 8 a.eff.toNat)
     let late := !reached step a.due || step = a.due
     Happens ([.trg, .lace] ++ bothOf .evt ++ bothOf .tally) (inBlocks [6, 17, 24]) u
       (fun t => t.lace.bus = u.lace.bus.map (fun c => if c = a then { c with given := true } else c) ∧
         t.trg.hits = (if u.trg.run = .running then u.trg.hits else u.trg.hits.filter (fun h => h.kind ≠ 6 || reached h.time u.now)) ++
           [⟨6, a.line, a.eff, 0, if late then a.due + 1 else a.eff⟩] ∧
         (∀ x, u.live x = true → t.rf (Reg.LCE_BUS x) 15 0 = min (u.rf (Reg.LCE_BUS x) 15 0 + 1) 65535 ∧
           t.rf (Reg.LCE_BUS x) 31 16 = (if late then min (u.rf (Reg.LCE_BUS x) 31 16 + 1) 65535 else u.rf (Reg.LCE_BUS x) 31 16) ∧
           (late → Raised x (srcOn x 624) u t)))
       (exec (.busAssertionDelivered dt) s)))

/-! ### Configuration, the matrix, NVM -/

/-- CONFIG_APPLY captures the shadow, thresholds and polarity of the tiles it names, and gives no reply yet (R51–R53); a shadow word
that reads uncorrectable there is 0 (R65). When staging is done the held writes land in their order, one MODIFY_REG or WRITE_REG with
its reply (R52). At B the applied image, latches and thresholds of those tiles and the polarity are what was captured, PIX_APPLY_TIME is
B, COUNT is one more, the configuration scrubber begins anew (R63), a CONFIG_APPLY replies OK, and event 520 is raised with B as its
time (R53, R55). -/
def Obligations.ConfigurationIsAppliedAtItsBoundary : Prop :=
  (∀ (dt : Nat) (c : Ctx) (s : State) (lo hi : Word) (bad : List (Fin 1048576)),
    let u := s.elapse dt; let x := receiver u c; let tiles := maskOrAll lo hi; let v := captureErrors tiles bad (taken x c u)
    Admitted c (.configApply lo hi) none u → u.pix.apply = none → u.pix.scan = none →
    (polarityChange u = false ∨ u.trg.run = .idle) →
    ∃ t, exec (.configApply dt c lo hi bad) s = .next t ∧ Only [.pix] noReg v t ∧ t.pix.latches = v.pix.latches ∧
      t.pix.applied = v.pix.applied ∧ t.pix.shadow = v.pix.shadow ∧
      t.pix.apply = some ⟨tiles, v.pix.shadow, tiles.map (fun i => (i, u.rd (Reg.PIX_THR i))), u.rd Reg.PIX_MODE, u.clock.ticks,
        boundaryAfter u 300000, false, some ⟨x, 0x20, c, u.clock.ticks⟩⟩ ∧
      (∀ p ∈ bad, pixTile p ∈ tiles → imageWord v.pix.shadow p = 0)) ∧
  (∀ (dt : Nat) (s : State) (a : Apply), let u := s.elapse dt
    u.pix.apply = some a → a.staged = false →
    let t := u.pix.held.foldl landHeld (u.modPix (fun f => { f with
      apply := some { a with staged := true }
      held := [] }))
    exec (.configStagingDone dt) s = .next (barrierCheck t) ∧
      (∀ w p q mask v, u.pix.held = [⟨w, [(q, mask, v)], 0, true, false, false⟩] → shadowPixel q = some p →
        imageWord t.pix.shadow p = (mixBits (shadowRead u p) mask v).setWidth 10 ∧ Replied w.x w.ctx w.op .ok (shadowRead u p) [] t) ∧
      (∀ w p q v, u.pix.held = [⟨w, [(q, 0xFFFFFFFF, v)], 0, false, false, false⟩] → shadowPixel q = some p →
        imageWord t.pix.shadow p = v.setWidth 10 ∧ Replied w.x w.ctx w.op .ok 0 [] t)) ∧
  (∀ (dt : Nat) (s : State) (a : Apply), let k := stagingDone (s.elapse dt)
    k.pix.apply = some a → reached k.now a.commitAt = true → (∀ i ∈ a.tiles, i < 64) →
    ∃ t, exec (.configCommit dt) s = .next t ∧ t.pix.apply = none ∧
      (∀ p, p < 1048576 → imageWord t.pix.applied p = imageWord (if pixTile p ∈ a.tiles then a.image else k.pix.applied) p ∧
        imageWord t.pix.latches p = imageWord (if pixTile p ∈ a.tiles then a.image else k.pix.latches) p) ∧
      (∀ i ∈ a.tiles, t.rd (Reg.PIX_THR_APPLIED i) = Sparse.get a.thr i 0) ∧ t.rd Reg.PIX_MODE_APPLIED = a.mode ∧
      t.rf Reg.PIX_APPLY_STATUS 31 16 = (k.rf Reg.PIX_APPLY_STATUS 31 16 + 1) % 65536 ∧
      t.rd64 Reg.PIX_APPLY_TIME Reg.PIX_APPLY_TIME_4 = a.commitAt ∧
      t.clock = { k.clock with scrub := 0 } ∧
      (∀ y, k.live y = true → Sparse.get (t.side y).evt.recs 520 SrcRec.zero =
        (Sparse.get (k.side y).evt.recs 520 SrcRec.zero).raise a.commitAt) ∧
      (∀ w, a.wait = some w → w.op ≠ 0x21 → k.lace.barriers = [] → Replied w.x w.ctx w.op .ok 0 [] t) ∧
      ((∀ w, a.wait = some w → w.op ≠ 0x21) → Only (.clock :: .pix :: .lace :: answering ++ raising) (fun r => answerRegs r ∨ raiseRegs r ∨
        r = Reg.PIX_MODE_APPLIED ∨ r = Reg.PIX_APPLY_STATUS ∨ r = Reg.PIX_APPLY_TIME ∨ r = Reg.PIX_APPLY_TIME_4 ∨
        ∃ i ∈ a.tiles, r = Reg.PIX_THR_APPLIED i) k t))

/-- Five rows of the matrix. AWL_PULSE, when the train's next pulse is due: the pulse has the charge of PIX_AWL_CTRL's DAC and SCALE
(R66, as they stand at the pulse, which is the model's choice, log entry 107), adds to the open pulses of the pixels it goes to (R71),
and one pulse less is left, PERIOD ticks later (R67). THRESH_SCAN, in IDLE with nothing in progress that excludes it, stands in progress
with its parameters and replies ACCEPTED (R73, R74). Its end, 16 × points × PULSES × 3 000 ticks later (R79): no scan, the latches of
its tiles as the applied image has them (R76), event 525 (R74), and of each tile UNFOUND, MEAN, RMS and UNTRIMMABLE, and with EQUALISE
its trims in the shadow (R77, R78); mean and rms without a crossing, and an rms beyond its field, are free values (log entry 4). A scrub
pass, its period after the one before: every latch is its image word; the one rewritten is counted with event 521 (R60, R61); an image
word found bad is 0 with its latch disabled and event 522 (R64). A drift measurement: PIX_DRIFT is the difference from the tile's
reference, which the first one becomes, and event 523 follows where it exceeds LIMIT (R82). That the scrub pass goes on while a scan
holds latches is log entry 136, and the rounding of mean, rms and trims is log entry 24. Nothing outside the parts and blocks named
changes. -/
def Obligations.MatrixOperationsTakeEffect : Prop :=
  ∀ (dt : Nat) (c : Ctx) (s : State), let u := s.elapse dt; let x := receiver u c
  (∀ m, u.pix.train = some m → reached u.now m.next = true →
    let k : Shot := ⟨m.next, u.rf Reg.PIX_AWL_CTRL 7 0 * (if u.rb Reg.PIX_AWL_CTRL 8 then 4096 else 64), u.pix.latches⟩
    Happens [.pix, .tdc] noReg u (fun t => t.pix.shots.getLast? = some k ∧
      t.pix.train = (if m.left ≤ 1 then none else some { m with left := m.left - 1, next := m.next + BitVec.ofNat 64 m.period }) ∧
      ∀ d, t.digi d = { u.digi d with
        cluster := (u.digi d).cluster.map (injectInto u k d)
        waiting := (u.digi d).waiting.map (injectInto u k d) }) (exec (.awlPulse dt) s)) ∧
  (∀ lo hi points pulses : Word, scanRange points pulses = true →
    Admitted c (.threshScan lo hi points pulses) none u → u.trg.run = .idle → u.pix.apply = none → u.pix.scan = none →
    calBusy u = false →
    Completes x c 0x33 .accepted 0 [] (u.modPix (fun f => { f with
      scan := some ⟨maskOrAll lo hi, bits points.toNat 9 0, bits points.toNat 19 10, bits points.toNat 23 20, bits pulses.toNat 15 0,
        bits pulses.toNat 23 16 * (if bit pulses.toNat 24 then 4096 else 64), bit pulses.toNat 25, u.clock.ticks, []⟩ }))
      (exec (.threshScan dt c lo hi points pulses) s)) ∧
  (∀ (k : Scan) (bad : List (Fin 1048576)), u.pix.scan = some k → (∀ i ∈ k.tiles, i < 64) → (∀ v ∈ k.points, v < 1024) →
    k.since + 16 * k.points.length * k.pulses * 3000 ≤ u.clock.ticks →
    Happens ([.pix, .freeCount] ++ bothOf .evt ++ bothOf .tally) (inBlocks [4, 8, 17]) u
      (fun t => t.pix.scan = none ∧ RaisedBase 525 u t ∧ (k.equalise = false → t.pix.shadow = u.pix.shadow) ∧ ∀ i ∈ k.tiles,
        let d50 (lp : Nat) : Option Nat := d50Of k (Sparse.get k.hits (globalPix i lp) [])
        let d := (scanned u i).filterMap d50
        let mean := (roundDiv ((d.foldl (· + ·) 0 : Nat) : Int) d.length).toNat
        (bad = [] → Sparse.get t.pix.latches i TileImage.reset = Sparse.get u.pix.applied i TileImage.reset) ∧
        t.rf (Reg.PIX_SCAN_RESULT i) 14 0 = ((scanned u i).length - d.length) % 2 ^ 15 ∧
        (d ≠ [] → t.rf (Reg.PIX_SCAN_MEAN i) 9 0 = mean % 1024 ∧
          (rms8 d < 1024 → t.rf (Reg.PIX_SCAN_MEAN i) 25 16 = rms8 d) ∧
          t.rf (Reg.PIX_SCAN_RESULT i) 30 16 = (if k.equalise then
            (d.filter (fun v => decide (trimOf v mean < 0) || decide (31 < trimOf v mean))).length else 0) % 2 ^ 15 ∧
          (k.equalise = true → ∀ lp ∈ scanned u i, ∀ v, d50 lp = some v →
            bits (imageWord t.pix.shadow (globalPix i lp)).toNat 6 2 = (clampI 0 31 (trimOf v mean)).toNat)))
      (exec (.threshScanDone dt bad) s)) ∧
  (∀ (flips : List Flip) (bad : List (Fin 1048576)), u.power.mode = .active → u.rb Reg.PIX_SCRUB_CTRL 0 = false → u.pix.apply = none →
    scrubPeriod u ≤ u.clock.scrub →
    Happens ([.clock, .pix, .bg] ++ bothOf .evt ++ bothOf .tally) (inBlocks [4, 17]) u
      (fun t => t.clock = { u.clock with scrub := 0 } ∧
        (bad = [] → ∀ p, p < 1048576 → imageWord t.pix.latches p = imageWord u.pix.applied p) ∧
        (∀ f, bad = [] → flips = [f] → (∀ p, p < 1048576 → imageWord u.pix.latches p = imageWord u.pix.applied p) →
          f.val ≠ imageWord u.pix.applied f.p → RaisedBase 521 u t ∧
            t.rf Reg.PIX_SCRUB_STATUS 15 0 = min (u.rf Reg.PIX_SCRUB_STATUS 15 0 + 1) 65535) ∧
        (∀ p, bad = [p] → flips = [] → imageWord t.pix.applied p = 0 ∧ (imageWord t.pix.latches p).getLsbD 0 = false ∧
          RaisedBase 522 u t))
      (exec (.pixScrubPass dt flips bad) s)) ∧
  (∀ (i : Fin 64) (dac : BitVec 10), driftDone u i = true →
    let r := Sparse.get u.pix.driftRef i none
    let d : Int := (dac.toNat : Int) - (r.getD dac.toNat : Nat)
    Happens ([.clock, .pix] ++ bothOf .evt ++ bothOf .tally) (inBlocks [8, 17]) u
      (fun t => t.rd (Reg.PIX_DRIFT i) = BitVec.ofNat 32 (unsigned 11 d) ∧ t.pix.driftTile = (i.val + 1) % 64 ∧ t.clock.drift = none ∧
        Sparse.get t.pix.driftRef i none = some (r.getD dac.toNat) ∧ (u.rf Reg.PIX_DRIFT_CTRL 15 8 < d.natAbs → RaisedBase 523 u t))
      (exec (.driftMeasure dt i dac) s))

/-- The rows that are writes of a register with an action (R67–R69, R72, R261, R337, R377, R392, R475, R491, R500): AWL_FIRE begins a
train, AWL_ABORT ends it, INJ_START starts the injected sequence, LOG_CLEAR frees the entries of a log, SRC_CLEAR clears the records of
the sources, WLT_RESYNC lets the peer return, READY_FLUSH and DELAY_FLUSH empty their lists; each flush of a queue empties the queue it
names, and the packets, words and entries in it are gone; of the event queue the raises of the present tick stay (log entry 132), EVENT
frames that wait on ports go with it, of the store only the write queues, of staging what stands in the store stays, of the egress
buffer only blocks that waited for room enter; what STORE, LACE, EGRESS and STAGING drop is the model's choice (log entry 94). A start
time AWL_TIME of the present tick counts as past, and COUNT and spacing are those at FIRE (log entry 107); an OVERFLOW that the tick
sets survives LOG_CLEAR (R13). -/
def Obligations.StrobesTriggerTheirActions : Prop :=
  (∀ (dt : Nat) (c : Ctx) (s : State) (x : Side) (ch : Fin 16), let u := s.elapse dt
   let n := u.rf Reg.PIX_AWL_CTRL 31 16
   let at_ := u.rd64 Reg.PIX_AWL_TIME Reg.PIX_AWL_TIME_4
   let l := (List.range (min 8 (u.rf Reg.HK_INJ_CTRL 11 8))).map (fun i => u.rf (Reg.HK_INJ i) 5 0)
   Strobed dt c Reg.PIX_AWL_FIRE 1 s (awlFire u) (fun t => u.pix.scan = none → u.pix.train = none → n ≠ 0 →
     t.pix.train = some ⟨n, if u.rb Reg.PIX_AWL_CTRL 9 && !reached u.now at_ then at_ else u.now + 1,
       max (u.rf Reg.PIX_AWL_PERIOD 23 0) 3000⟩) (exec (.awlFire dt c) s) ∧
   Strobed dt c Reg.PIX_AWL_FIRE 2 s (awlAbort u) (fun t => u.pix.scan = none → t.pix.train = none) (exec (.awlAbort dt c) s) ∧
   Strobed dt c Reg.HK_INJ_CTRL 0x80000000 s (injStart u) (fun t => u.hk.inj = none → l ≠ [] →
     t.hk.inj = some (l, 0, u.clock.ticks) ∧ t.hk.began = none) (exec (.injStart dt c) s) ∧
   Strobed dt c (Reg.BST_LOG_STATUS x ch) 0x40000000 s (clearLog x ch u) (fun t =>
     t.rd (Reg.BST_LOG_STATUS x ch) = (((u.setNow (Reg.BST_LOG_STATUS x ch)).map (fun q : Word × Word => q.2)).getD 0) &&& 0x80000000 ∧
     ∀ i, i < 16 → t.rd (Reg.BST_LOG x ch i) = 0 ∧ t.rd (Reg.BST_LOG_4 x ch i) = 0) (exec (.logClear dt c x ch) s) ∧
   Strobed dt c (Reg.EVT_CTRL x) 1 s (clearSources x u) (fun t => (t.side x).evt.recs = []) (exec (.srcClear dt c x) s) ∧
   Strobed dt c (Reg.WLT_CTRL x) 0x100 s (tryResync true (peerOf x) u) (fun t => u.serving x = true →
     u.arb.svc.get (peerOf x) = .out → u.arb.passed.get (peerOf x) = true → weltUp u = true → u.power.mode ≠ .standby →
     t.arb.svc.get (peerOf x) = .resync ∧ (t.side (peerOf x)).wlt.transferring = true) (exec (.wltResync dt c x) s) ∧
   Strobed dt c (Reg.DSP_CTRL x) 2 s (flushReady x u) (fun t => (t.side x).dsp.ready = []) (exec (.readyFlush dt c x) s) ∧
   Strobed dt c (Reg.DSP_CTRL x) 4 s (flushDelay x u) (fun t => (t.side x).dsp.delay = []) (exec (.delayFlush dt c x) s)) ∧
  (∀ (dt : Nat) (c : Ctx) (s : State) (x : Side), let u := s.elapse dt; let q := Reg.EVT_QFLUSH x
   Strobed dt c q 0x40 s (flushStore x u) (fun t => ∀ ch, ch < 16 → (t.chan x ch).queue = []) (exec (.qflushStore dt c x) s) ∧
   Strobed dt c q 0x20 s (flushLace x u) (fun t => ∀ p, p < 16 → ∀ e ∈ Sparse.get (t.side x).lce.batch p [], e.1.isSome = true)
     (exec (.qflushLace dt c x) s) ∧
   Strobed dt c q 0x10 s (flushEgress x u) (fun t => (∀ p, (t.port x p).blocks = [] ∧ (t.port x p).frag = 0) ∧
     ∀ b ∈ (t.side x).lnk.egress, ∃ r, b ∈ (u.ring x r).waiting) (exec (.qflushEgress dt c x) s) ∧
   Strobed dt c q 0x08 s (flushStaging x u) (fun t => (t.side x).dsp.intake = [] ∧ (t.side x).dsp.units = heldUnits (u.side x).dsp ∧
     (∀ o ∈ (t.side x).cmp.outputs, o.spill.isSome = true) ∧ (t.side x).wlt.retained = []) (exec (.qflushStaging dt c x) s) ∧
   Strobed dt c q 0x04 s (flushWelt x u) (fun t => (t.side x).wlt.unacked = [] ∧ (t.side (peerOf x)).wlt.inbox = [])
     (exec (.qflushWelt dt c x) s) ∧
   Strobed dt c q 0x02 s (flushCommands x u) (fun t => (t.side x).mgt.queue = []) (exec (.qflushCmd dt c x) s) ∧
   Strobed dt c q 0x01 s (flushEvents x u) (fun t => ((∀ r, (u.side x).evt.round = some r → r.tick ≠ u.clock.ticks) →
     (t.side x).evt.queue = []) ∧
     ∀ p, p < 16 → ∀ f ∈ (t.port x p).waiting, f.type ≠ 3)
     (exec (.qflushEvents dt c x) s))

/-- RETRAIN and PORT_CTRL_WRITE (R360, R361, R377): RETRAIN takes an UP port to TRAINING, or FAILED where every lane is retired; a write
of LNK_PORT_CTRL stores its fields, and role 0 disables the port. On the port that carries the command the effect follows the reply
(R447). -/
def Obligations.PortControlTrainsThePort : Prop :=
  ∀ (dt : Nat) (c : Ctx) (s : State) (x : Side) (p : Fin 16) (value : Word), let u := s.elapse dt; let a := Reg.LNK_PORT_CTRL x p
  let again : Word := (u.rd a &&& storeBits a) ||| 0x8000
  let r := receiver u c; let d := forAddr c a; let k := taken r d u
  (WriteAdmitted dt c a again s →
    (c.via ≠ .port x p →
      Happens answering answerRegs (portCtrlWrite x p again k)
        (fun t => Replied r d 0x03 .ok 0 [] t ∧ t.port x p = (portCtrlWrite x p again k).port x p ∧
          ((u.port x p).state = .up → u.role x p ≠ 0 → (t.port x p).state = if allRetired u x p then .failed else .training))
        (exec (.retrain dt c x p) s)) ∧
    (c.via = .port x p → RepliesThen r d 0x03 u (afterReply c (.write a again) (writeReg a again)) (exec (.retrain dt c x p) s))) ∧
  (WriteAdmitted dt c a value s →
    (c.via ≠ .port x p →
      Happens answering answerRegs (portCtrlWrite x p value k)
        (fun t => Replied r d 0x03 .ok 0 [] t ∧ t.port x p = (portCtrlWrite x p value k).port x p ∧
          t.rd a = BitVec.ofNat 32 (bits value.toNat 11 8 * 256 + bits value.toNat 2 0) ∧
          (bits value.toNat 2 0 = 0 → (t.port x p).state = .disabled))
        (exec (.portCtrlWrite dt c x p value) s)) ∧
    (c.via = .port x p → RepliesThen r d 0x03 u (afterReply c (.write a value) (writeReg a value))
        (exec (.portCtrlWrite dt c x p value) s)))

/-- The commands on the NVM, in IDLE with nothing in progress that refuses them, VIN in limits, and no side OUT_OF_SERVICE or in RESYNC.
LAST_STORE of slots 1–7 (R456, R458): where the image fits and reads back, every side in service holds the applied image, the registers
as a Last has them and the mode in the slot, its write count is one more, BOOT makes it the boot slot, and the reply is OK, or NVM_WORN
above 1 000 000; one that reads back badly leaves the slot invalid, one that is too long leaves it as it was, both with STORE_FAILED; a
store cut before its reply leaves the slot invalid and replies nothing (log entry 146); an image word found uncorrectable is 0 (R64).
The length of the image is free (log entry 5). LAST_LOAD of a slot that every side in service holds (R457): shadow and mode are the
Last's, every side's M3 is extended (R463), an apply of all tiles begins, and at its B the command replies OK before the port settings
take effect. PATCH_LOAD (R461): on both sides the bytes of the named side's MGT_XFER stand in the staged image, which FINAL, where its
CRC matches, marks staged and enters in M4; a part without FINAL clears that mark (log entry 71). -/
def Obligations.NvmCommandsTakeEffect : Prop :=
  ∀ (dt : Nat) (c : Ctx) (s : State) (p1 : Word), let u := s.elapse dt; let x := receiver u c; let k := taken x c u
  (∀ (ok : Bool) (bad : List (Fin 1048576)), let slot := bits p1.toNat 2 0; let size := u.free.toNat % 2 ^ 22
    let v := bad.foldl (fun t p => imageError p.val t) k
    slot ≠ 0 → Admitted c (.lastStore p1) none u → nvmRefusal k x (!vinOutside u) = none →
    let old (y : Side) : Nat := u.rf (Reg.MGT_LAST_INFO y slot) 23 0
    let goes (st : Status) (p : State → Prop) : Prop :=
      Happens (.freeCount :: answering ++ raising) (fun a => answerRegs a ∨ raiseRegs a ∨ inBlocks [16] a) v
        (fun t => Replied x c 0x22 st 0 [] t ∧ (∀ y, u.serving y = true → t.rf (Reg.MGT_STORE y) 31 24 = st.code) ∧ p t)
        (exec (.lastStore dt c p1 ok false bad) s)
    let stored (t : State) : Prop := ∀ y, u.serving y = true →
      Sparse.get (t.side y).mgt.slots slot none = some ⟨v.pix.applied, lastRegs v, u.arb.twin, Config.freeDigest u.freeCount⟩ ∧
      t.rf (Reg.MGT_LAST_INFO y slot) 23 0 = min (old y + 1) 16777215 ∧ (bit p1.toNat 8 = true → (t.side y).mgt.bootSlot = slot)
    (size ≤ 1572864 → ok = true → (∀ y, u.serving y = true → old y + 1 ≤ 1000000) → goes .ok stored) ∧
    (size ≤ 1572864 → ok = true → (∃ y, u.serving y = true ∧ 1000000 < old y + 1) → goes .nvmWorn stored) ∧
    (size ≤ 1572864 → ok = false → goes .storeFailed (fun t => ∀ y, u.serving y = true →
      Sparse.get (t.side y).mgt.slots slot none = none ∧ t.rf (Reg.MGT_LAST_INFO y slot) 23 0 = min (old y + 1) 16777215)) ∧
    (1572864 < size → goes .storeFailed (fun t => ∀ y, u.serving y = true →
      Sparse.get (t.side y).mgt.slots slot none = Sparse.get (u.side y).mgt.slots slot none)) ∧
    exec (.lastStore dt c p1 ok true bad) s = .next (cutStore slot v) ∧
    (∀ y, u.serving y = true → Sparse.get ((cutStore slot v).side y).mgt.slots slot none = none)) ∧
  (∀ (slot : Word) (l : Last), let n := bits slot.toNat 2 0
    Admitted c (.lastLoad slot) none u →
    nvmRefusal k x ([Side.a, Side.b].all (fun y => !u.serving y || (slotOf u y n).isSome)) = none →
    slotOf u u.arb.primary n = some l →
    (∃ t, Only answering answerRegs (loadLast n (some ⟨x, 0x21, c, u.clock.ticks⟩) k) t ∧ exec (.lastLoad dt c slot) s = .next t) ∧
    Next (fun t => t.pix.shadow = l.image ∧ t.arb.twin = l.twin ∧
      (∀ y m, u.serving y = true → slotOf u y n = some m →
        measOf t y 3 = sha384 (bytesBE 48 (measOf u y 3).toNat ++ bytesBE 48 m.digest.toNat)) ∧
      ∃ a, t.pix.apply = some a ∧ a.image = l.image ∧ a.tiles = List.range 64 ∧ a.wait = some ⟨x, 0x21, c, u.clock.ticks⟩)
      (exec (.lastLoad dt c slot) s)) ∧
  (∀ (a : Apply) (w : Waiting), let v := stagingDone u
    v.pix.apply = some a → reached v.now a.commitAt = true → a.wait = some w → w.op = 0x21 →
    ∃ t, Only answering answerRegs (commitApply a v) t ∧ Replied w.x w.ctx 0x21 .ok 0 [] t ∧
      exec (.configCommit dt) s = .next (atTime a.commitAt (raiseBase 520 sevInfo noInst) (barrierCheck (afterReply w.ctx .lastLoad afterLoad t)))) ∧
  (∀ (off len : Word) (crc : Option Word), let m := bit p1.toNat 0; let z := namedSide u c
    crc.isSome = bit p1.toNat 1 → off.toNat % 4 = 0 → 1 ≤ len.toNat → len.toNat ≤ 32768 → off.toNat + len.toNat ≤ 524288 →
    Admitted c (.patchLoad p1 off len crc) none u → nvmRefusal k x (!vinOutside u) = none →
    let put (y : Side) := (stagedOf (u.side y).mgt m).put off.toNat ((List.range len.toNat).map (xferByte u z))
    let i (y : Side) : Image := ⟨(put y).bytes.filter (fun e => decide (e.1 < off.toNat + len.toNat)), off.toNat + len.toNat⟩
    let staged (t : State) (y : Side) : Bool := if m then (t.side y).mgt.microOk else (t.side y).mgt.patchOk
    let o := exec (.patchLoad dt c p1 off len crc) s
    let goes (st : Status) (p : State → Prop) : Prop :=
      Happens (answering ++ raising) (fun a => answerRegs a ∨ raiseRegs a ∨ ∃ y, a = Reg.MSR_LOG_STATUS y) u
        (fun t => Replied x c 0x53 st 0 [] t ∧ p t) o
    (crc = none → goes .ok (fun t => ∀ y, u.serving y = true → stagedOf (t.side y).mgt m = put y ∧ staged t y = false)) ∧
    (∀ v, crc = some v → crc32 (i z).toBytes = v.toNat → goes .ok (fun t => ∀ y, u.serving y = true →
      crc32 (i y).toBytes = v.toNat → stagedOf (t.side y).mgt m = i y ∧ staged t y = true ∧
        measOf t y 4 = sha384 (bytesBE 48 (measOf u y 4).toNat ++ bytesBE 48 (sha384 (i y).toBytes).toNat))) ∧
    (∀ v, crc = some v → crc32 (i z).toBytes ≠ v.toNat → goes .checkMismatch (fun t => staged t z = false)))

/-! ### Service and power -/

/-- The commands on the sides' service and the module's power (R392, R400, R401, R525, R527, R540): MODE_SET sets the mode, and in TWIN
no signature waits to be compared; SIDE_RESET takes a side out and resets its controller, and MODULE_RESET resets the module, array time
going on, after their replies; the way into STANDBY follows its reply, and the way out requests the wake units and its reply waits; a
write of STANDBY that changes nothing replies OK (R547), and while the module wakes it is BUSY (log entry 78). -/
def Obligations.ServiceCommandsTakeEffect : Prop :=
  ∀ (dt : Nat) (c : Ctx) (s : State), let u := s.elapse dt; let x := receiver u c; let k := taken x c u
  (∀ mode : Word, Admitted c (.modeSet mode) none u → u.duplexed = true → u.trg.run = .idle →
    Happens answering answerRegs (u.modArb (fun b => { b with twin := bit mode.toNat 0 })) (fun t => Replied x c 0x23 .ok 0 [] t ∧
      (bit mode.toNat 0 = true → ∀ y, (t.side y).wlt.table = [] ∧ (t.side y).wlt.inbox = [])) (exec (.modeSet dt c mode) s)) ∧
  (∀ side : Word, let y := sideOf side.toNat
    side.toNat ≤ 1 → Admitted c (.sideReset side) none u → u.serving (peerOf y) = true →
    RepliesThen x c 0x7E u (afterReply c (.sideReset y) (takeOut y sevInfo (0x12 + sideNum y))) (exec (.sideReset dt c side) s) ∧
    (c.via = .spi → Next (fun t => t.arb.svc.get y = (if u.arb.svc.get y = .retired then .retired else .out) ∧ t.serving (peerOf y) = true ∧
      (u.arb.svc.get y = .inService → t.arb.primary = peerOf y) ∧ (t.side y).mgt.queue = [] ∧ (t.side y).mgt.cache = [])
      (exec (.sideReset dt c side) s))) ∧
  (Admitted c .moduleReset none u →
    RepliesThen x c 0x7F u (afterReply c .moduleReset (resetModule 0x03)) (exec (.moduleReset dt c) s) ∧
    (c.via = .spi → Next (fun t => t.power.mode = .active ∧ t.power.step = 0 ∧ t.power.ready = false ∧ t.trg.run = .idle ∧ t.now = u.now ∧
      t.rd Reg.AON_RESET_CAUSE = 3) (exec (.moduleReset dt c) s))) ∧
  (Admitted c (.writeReg s c Reg.PWR_CTRL 1 true false false) none u →
    (u.power.mode ≠ .standby → u.trg.run = .idle → standbyBusy u = false →
      RepliesThen x c 0x03 u (afterReply c .standby enterStandby) (exec (.standbyEntry dt c) s) ∧
      (c.via = .spi → Next (fun t => t.power.mode = .standby ∧ t.power.on = [] ∧ t.rf Reg.PWR_CTRL 1 0 = 1)
          (exec (.standbyEntry dt c) s))) ∧
    (u.power.mode = .standby → u.waking = false → Completes x c 0x03 .ok 0 [] u (exec (.standbyEntry dt c) s)) ∧
    (u.power.mode = .standby → u.waking = true → Completes x c 0x03 .busy 0 [] u (exec (.standbyEntry dt c) s))) ∧
  (Admitted c (.writeReg s c Reg.PWR_CTRL 0 true false false) none u →
    (u.power.mode = .standby → u.waking = false →
      exec (.standbyExit dt c) s = .next (requestUnits (allUnits k)
        ((k.wf Reg.PWR_CTRL 1 0 0).modPower (fun p => { p with changing := some ⟨x, 0x03, c, u.clock.ticks⟩ })))) ∧
    (u.power.mode ≠ .standby ∨ u.waking = true → Completes x c 0x03 .ok 0 [] u (exec (.standbyExit dt c) s)))

/-- How sides leave and return (R345, R392, R393, R395–R399, R541, R555): a held reset pin takes its side out, and its release lets the
side boot; a side that has booted serves alone, resynchronises with a serving peer, or waits; a transfer that ends brings it into
service, at once or from R_s, which both sides then show (log entry 79); in STANDBY neither begins nor ends (log entry 161). A copy of
the lists that fails its CRC gives way to the other, and during start-up the newer lists then come into force (R460, R556; log entry
158). A line whose fetch fails is loaded again, and the third failure of a controller's fetches resets its side. -/
def Obligations.SidesLeaveAndReturn : Prop :=
  ∀ (dt : Nat) (x : Side) (s : State), let u := s.elapse dt; let y := peerOf x
  (u.power.heldSide.get x = false →
    (u.powered = false → exec (.sideResetPin dt x) s = .next (u.modPower (fun p => { p with heldSide := p.heldSide.set x true }))) ∧
    (u.powered = true → Next (fun t => t.power.heldSide.get x = true ∧ t.arb.booting.get x = none ∧ (t.side x).mgt.queue = [] ∧
      t.arb.svc.get x = (if u.arb.svc.get x = .retired then .retired else .out)) (exec (.sideResetPin dt x) s))) ∧
  Happens [.power, .arb] (inBlocks [1]) u
    (fun t => t.power.heldSide.get x = false ∧
      (canBoot x (u.modPower (fun p => { p with heldSide := p.heldSide.set x false })) = true →
        t.arb.booting.get x = some u.clock.ticks)) (exec (.sideResetPinRelease dt x) s) ∧
  (∀ (pass listBad : Bool) (bad : List (Fin 16)), (u.arb.booting.get x).isSome = true →
    u.power.wake.any (fun q => (sideUnits x).contains q.1) = false →
    let kept : Prop := listBad = false ∨ u.power.booted = true
    Next (fun t => (listBad = true → t.bg.nvm.get x = u.bg.older.get x ∧
        (t.side x).mgt.listCurrent = peerOf (u.side x).mgt.listCurrent ∧ (u.power.booted = false → t.rb (Reg.MGT_BOOT x) 7 = true ∧
          ∀ k, ∀ n ∈ kindOf (bootLists t) k, n ∈ kindOf t.bg.inForce k)) ∧
      (kept → t.arb.booting.get x = none ∧ (u.arb.svc.get x = .retired → t.arb.svc.get x = .retired)) ∧
      (kept → u.arb.svc.get x ≠ .retired → pass = false → t.arb.svc.get x = .retired ∧ sideNum x ∈ t.bg.inForce.sides) ∧
      (kept → u.arb.svc.get x ≠ .retired → pass = true → t.rb (Reg.BST_STATUS x) 0 = true ∧ (u.power.booted = false →
        t.arb.passed.get x = true) ∧
        (u.power.booted = true → (u.arb.svc.get y = .out ∨ u.arb.svc.get y = .retired) →
          t.arb.svc.get x = .inService ∧ t.arb.primary = x) ∧
        (u.power.booted = true → u.serving y = true → u.arb.svc.get x = .out → weltUp u = true → u.rb (Reg.WLT_CTRL y) 0 = true →
          u.power.mode ≠ .standby →
          t.arb.svc.get x = .resync ∧ (t.side x).wlt.transferring = true)))
      (exec (.sideBootDone dt x pass listBad bad) s)) ∧
  (u.power.mode = .standby → exec (.resyncTransferEnd dt x) s = .next u) ∧
  (u.arb.svc.get x = .resync → (u.side x).wlt.transferring = true → u.power.mode ≠ .standby →
    let r : Time := BitVec.ofNat 64 (alignUp (u.sliceTicks * 2 ^ groupBits u) (u.now.toNat + 3000000))
    Next (fun t => (t.side x).wlt.transferring = false ∧ t.bg.nvm.get x = u.bg.nvm.get y ∧
      (u.trg.run = .idle ∨ u.trg.run = .armed → t.arb.svc.get x = .inService) ∧
      (u.trg.run = .running ∨ u.trg.run = .stopping → t.arb.svc.get x = .resync ∧ t.arb.returnAt.get x = some r ∧
        ∀ z, t.rd64 (Reg.WLT_RESYNC_TIME z) (Reg.WLT_RESYNC_TIME_4 z) = r)) (exec (.resyncTransferEnd dt x) s)) ∧
  (∀ r, u.arb.returnAt.get x = some r → u.arb.svc.get x = .resync → reached u.now r = true →
    Happens ([.trg, .arb, .lace] ++ bothOf .evt ++ bothOf .wlt ++ bothOf .dsp ++ bothOf .cmp ++ bothOf .tally) (inBlocks [17, 18, 19, 20]) u
      (fun t => t.arb.svc.get x = .inService ∧ t.arb.returnAt.get x = none ∧ (t.side x).wlt.rs = some r ∧
        (x = .a → t.arb.primary = .a)) (exec (.resyncPoint dt x) s)) ∧
  (∀ b, u.arb.takeover = some b → reached u.now b = true →
    exec (.twinTakeover dt) s = .next (u.modArb (fun k => { k with takeover := none }))) ∧
  (u.live x = true → let f := (u.side x).mgt.fetchFaults
    ∀ line : Nat, (f.third u.now = false → exec (.mgtFetchFail dt x line) s =
      .next (u.modMgt x (fun g => { g with fetchFaults := f.push u.now, lines := g.lines.filter (· ≠ line) }))) ∧
    (f.third u.now = true → u.serving y = true → Next (fun t =>
      t.arb.svc.get x = (if (u.arb.outs.get x).third u.now then .retired else .out) ∧ t.serving y = true)
          (exec (.mgtFetchFail dt x line) s)) ∧
    (f.third u.now = true → u.serving y = false → Next (fun t => t.arb.held.get x = true ∧ RaisedSide x 566 u t ∧
        (t.side x).mgt.lines = (u.side x).mgt.lines.filter (· ≠ line))
      (exec (.mgtFetchFail dt x line) s)))

/-- Welt's messages (R380, R381, R392, R393, R489): a heartbeat that arrives shows the link up and is acknowledged, one that does not
waits; of the messages without acknowledgement for 3 000 ticks one of the first class is sent again and counted, the first in the list,
which is the oldest where the list is in the order of sending; a verdict, which is of class 4, is acknowledged with the next heartbeat
(log entry 157); silence for 100 µs breaks off a transfer, or takes a side out. A heartbeat may let a side that waits begin its resync,
whose message is of class 5. -/
def Obligations.WeltCarriesMessages : Prop :=
  ∀ (dt : Nat) (x : Side) (s : State), let u := s.elapse dt; let y := peerOf x
  (∀ delivered mismatch : Bool, sendsBeats u x = true → (u.side x).wlt.heartbeat + 3000 ≤ u.clock.ticks →
    Happens ([.arb] ++ bothOf .evt ++ bothOf .wlt ++ bothOf .tally) (inBlocks [17, 23]) u
      (fun t => (t.side x).wlt.heartbeat = u.clock.ticks ∧
        (mismatch = false → sendsBeats u y = false → (t.side x).wlt.unacked = (u.side x).wlt.unacked) ∧
        (sendsBeats u y = true → delivered = true → (t.side y).wlt.rxOk = true ∧ (t.side y).wlt.lastValid = u.clock.ticks ∧
          (mismatch = false → (t.side x).wlt.unacked.filter (fun q => q.1 ≠ 5) =
            (u.side x).wlt.unacked.filter (fun q => q.1 ≠ 1 && q.1 ≠ 6 && q.1 ≠ 5))) ∧
        (sendsBeats u y = true → delivered = false → (t.side y).wlt.rxOk = false ∧
          (t.side x).wlt.unacked = (if mismatch then [] else (u.side x).wlt.unacked) ++ [(1, u.clock.ticks)]) ∧
        (mismatch = true → (∀ q ∈ (t.side x).wlt.unacked, q.1 = 1 ∨ q.1 = 5) ∧ (t.side y).wlt.inbox = [] ∧ RaisedSide x 619 u t))
      (exec (.weltHeartbeat dt x delivered mismatch) s)) ∧
  (∀ q, overdue u x = some q →
    (q ∈ (u.side x).wlt.unacked ∧ q.2 + 3000 ≤ u.clock.ticks ∧ ∀ p ∈ (u.side x).wlt.unacked, 1 ≤ p.1 → p.1 ≤ 6 →
      p.2 + 3000 ≤ u.clock.ticks → classOf q.1 ≤ classOf p.1 ∧
        ((u.side x).wlt.unacked.Pairwise (fun a b => a.2 ≤ b.2) → classOf p.1 = classOf q.1 → q.2 ≤ p.2)) ∧
    Happens (bothOf .evt ++ bothOf .wlt ++ bothOf .tally) (inBlocks [17, 23]) u
      (fun t => (t.side x).wlt.unacked = (u.side x).wlt.unacked.erase q ++ [(q.1, u.clock.ticks)] ∧
        t.rf (Reg.WLT_LINK x) 31 16 = min (u.rf (Reg.WLT_LINK x) 31 16 + 1) 65535 ∧ (t.side x).wlt.retransSeen = true ∧
        ((u.side x).wlt.retransSeen = false → RaisedSide x 617 u t)) (exec (.weltRetransmit dt x) s)) ∧
  (u.live x = true → u.live y = true → silent u x = true →
    (u.arb.svc.get x = .resync → Next (fun t => t.arb.svc.get x = .out ∧ (t.side y).wlt.transferring = false)
        (exec (.weltSilence dt x) s)) ∧
    (u.serving x = true → u.arb.svc.get y = .resync → Next (fun t => t.arb.svc.get y = .out ∧ (t.side x).wlt.transferring = false)
      (exec (.weltSilence dt x) s)) ∧
    (u.duplexed = true → let z : Side := if silent u y then .b else y
      Next (fun t => t.arb.svc.get z = (if (u.arb.outs.get z).third u.now then .retired else .out) ∧ t.serving (peerOf z) = true)
        (exec (.weltSilence dt x) s)))

/-- Signatures and disputes (R381, R385–R389, R394, R401): a signature enters the table, agrees with its partner and lets the input go,
or opens a dispute, for which the retained input waits for a compressor; in TWIN it is not compared; a recompute signature is noted in
its dispute. An orphan of the side's own is a dispute at once, which the peer loses. A recompute that a compressor has made is noted and
its signature sent to the peer, and a dispute that has both is settled. A finished block is counted and passed on. -/
def Obligations.SignaturesAreCompared : Prop :=
  ∀ (dt : Nat) (x : Side) (s : State), let u := s.elapse dt; let y := peerOf x; let w := (u.side x).wlt
  (∀ g rest, w.inbox = g :: rest → let partner := w.table.find? (fun e => e.sig.id = g.id && e.own)
    (u.arb.twin = true → Happens (bothOf .evt ++ bothOf .lnk ++ bothOf .wlt ++ bothOf .cmp ++ bothOf .tally) (inBlocks [17, 23]) u
      (fun t => (t.side x).wlt.inbox = rest ∧ (t.side x).wlt.table = w.table ∧ (t.side x).wlt.disputes = w.disputes)
      (exec (.signatureReceived dt x) s)) ∧
    (u.arb.twin = false → partner = none → w.table.length < 16384 →
      Happens (bothOf .evt ++ bothOf .lnk ++ bothOf .wlt ++ bothOf .cmp ++ bothOf .tally) (inBlocks [17, 23]) u
        (fun t => (t.side x).wlt.inbox = rest ∧ (t.side x).wlt.table = w.table ++ [⟨g, false, u.clock.ticks⟩] ∧
          (t.side x).wlt.lastValid = u.clock.ticks)
        (exec (.signatureReceived dt x) s)) ∧
    (∀ e, u.arb.twin = false → partner = some e →
      Happens (bothOf .evt ++ bothOf .lnk ++ bothOf .wlt ++ bothOf .cmp ++ bothOf .tally) (inBlocks [17, 23]) u
        (fun t => (t.side x).wlt.inbox = rest ∧ (t.side x).wlt.table = w.table.erase e ∧
          t.rd (Reg.WLT_COMPARED x) = u.rd (Reg.WLT_COMPARED x) + 1 ∧
          (e.sig.agrees g = true → (t.side x).wlt.retained = w.retained.filter (fun b => b.id ≠ e.sig.id) ∧
            (t.side x).wlt.disputes = w.disputes) ∧
          (e.sig.agrees g = false → (t.side x).wlt.retained = w.retained ∧ RaisedSide x 610 u t ∧
            (t.side x).wlt.disputes = w.disputes ++ [newDispute u x e.sig.id (some e.sig) (some g)] ∧
            (t.side x).cmp.ready = (u.side x).cmp.ready ++ (w.retained.filter (fun b => b.id = e.sig.id)).map .redo))
        (exec (.signatureReceived dt x) s))) ∧
  (∀ q, w.inbox = [] → w.inboxRe.find? (fun q => w.disputes.any (fun d => d.id = q.1.id)) = some q → (∀ d ∈ w.disputes, d.myRe = none) →
    Happens (bothOf .wlt) (inBlocks [23]) u
      (fun t => (t.side x).wlt.inboxRe = w.inboxRe.erase q ∧
        (t.side x).wlt.disputes = w.disputes.map (fun d => if d.id = q.1.id then { d with theirRe := some q } else d))
      (exec (.signatureReceived dt x) s)) ∧
  (∀ e, w.table.find? (fun e => decide (e.entered + 30000000 ≤ u.clock.ticks)) = some e →
    (e.own = false → exec (.signatureOrphan dt x) s = .next (u.modWlt x (fun w => { w with table := w.table.erase e }))) ∧
    (e.own = true → (u.arb.losses.get y).third u.now = false →
      Next (fun t => (t.side x).wlt.table = w.table.erase e ∧ (t.side x).wlt.disputes = w.disputes.filter (fun q => q.id ≠ e.sig.id) ∧
        t.rf (Reg.WLT_DISPUTES y) 31 16 = min (u.rf (Reg.WLT_DISPUTES y) 31 16 + 1) 65535 ∧
        t.rf (Reg.WLT_VERDICTS x) 15 8 = min (u.rf (Reg.WLT_VERDICTS x) 15 8 + 1) 255 ∧
        t.arb.losses.get y = (u.arb.losses.get y).push u.now) (exec (.signatureOrphan dt x) s))) ∧
  (∀ flip e b, redoing u x = some (e, b) → enginesRun u x = true → let r := recompute b flip
    (u.duplexed = true → (∀ q ∈ w.disputes, q.theirRe = none) → Next (fun t =>
      (t.side x).wlt.disputes = w.disputes.map (fun q => if q.id = b.id then { q with myRe := some r.1, words := r.2 } else q) ∧
      (t.side y).wlt.inboxRe = (u.side y).wlt.inboxRe ++ [r.1] ∧ (t.side x).wlt.unacked = w.unacked ++ [(4, u.clock.ticks)] ∧
      (t.comp x e).block = none ∧ (t.comp x e).redo = false) (exec (.recomputeDone dt x flip) s)) ∧
    (u.duplexed = false ∨ (∀ d ∈ w.disputes, d.id = b.id → d.theirRe.isSome = true) →
      Next (fun t => ∀ q ∈ (t.side x).wlt.disputes, q.id ≠ b.id) (exec (.recomputeDone dt x flip) s))) ∧
  (∀ (e : Fin 32) flip b, (u.comp x e).block = some b → b.words = [] → b.maker = e.val → (u.comp x e).redo = false →
    enginesRun u x = true → let r := buildBlock b flip
    (signBlock x r.1 u).isSome = true →
    Happens (bothOf .evt ++ bothOf .lnk ++ bothOf .wlt ++ bothOf .dsp ++ bothOf .cmp ++ bothOf .bst ++ bothOf .tally)
        (inBlocks [17, 19, 20, 21, 23]) u
      (fun t => t.rd (Reg.CMP_BLOCKS x) = u.rd (Reg.CMP_BLOCKS x) + 1 ∧
        t.rd64 (Reg.CMP_IN_BYTES x) (Reg.CMP_IN_BYTES_4 x) =
          u.rd64 (Reg.CMP_IN_BYTES x) (Reg.CMP_IN_BYTES_4 x) + BitVec.ofNat 64 (9 * b.input.length) ∧
        t.rd64 (Reg.CMP_OUT_BYTES x) (Reg.CMP_OUT_BYTES_4 x) =
          u.rd64 (Reg.CMP_OUT_BYTES x) (Reg.CMP_OUT_BYTES_4 x) + BitVec.ofNat 64 (9 * r.1.words.length) ∧
        (cutThrough u x r.1 = true → (t.side x).lnk.egress = (u.side x).lnk.egress ++ [r.1] ∧ (t.comp x e).block = none))
      (exec (.blockCompressed dt x e flip) s))

/-- Power, resets and losses of it (R519–R523, R540–R543): VAON and the feeds bring the module from OFF over DORMANT to a start-up, in
which array time begins at 0; their loss takes it back, and of one feed takes that feed's side out; a module reset begins a start-up in
which array time goes on. -/
def Obligations.PowerEventsMoveTheModule : Prop :=
  ∀ (dt : Nat) (x : Side) (s : State), let u := s.elapse dt; let y := peerOf x
  let cold := fun t : State => t.power.mode = .active ∧ t.power.step = 0 ∧ t.power.ready = false ∧ t.now = 0 ∧ t.rd Reg.AON_RESET_CAUSE = 1
  let warm := fun (n : Word) (t : State) => t.power.mode = .active ∧ t.power.step = 0 ∧ t.power.ready = false ∧ t.trg.run = .idle ∧
    t.now = u.now ∧ t.rd Reg.AON_RESET_CAUSE = n
  (u.power.vaon = false →
    Next (fun t => t.power.vaon = true ∧ t.clock.aonTick = u.clock.ticks ∧
      (u.power.feed.a = false ∧ u.power.feed.b = false → t.power.mode = .dormant ∧ Only [.clock, .power] noReg u t) ∧
      (u.power.feed.a = true ∨ u.power.feed.b = true → cold t)) (exec (.vaonValid dt) s)) ∧
  (u.power.vaon = true →
    Next (fun t => t.power.mode = .off ∧ t.power.vaon = false ∧ t.power.booted = false ∧ (∀ a, a < 0x20 → t.rd a = resetWord a) ∧
      ∀ z, (t.side z).mgt.slots = (u.side z).mgt.slots) (exec (.vaonLost dt) s)) ∧
  (u.power.feed.get x = false →
    (u.power.vaon = false → exec (.vinValid dt x) s = .next (u.modPower (fun p => { p with feed := p.feed.set x true }))) ∧
    (u.power.vaon = true → u.powered = true →
      exec (.vinValid dt x) s = .next (startBoot x (u.modPower (fun p => { p with feed := p.feed.set x true })))) ∧
    (u.power.vaon = true → u.powered = false → Next (fun t => cold t ∧ t.power.feed.get x = true) (exec (.vinValid dt x) s))) ∧
  (u.power.feed.get x = true →
    (u.powered = false → exec (.vinLost dt x) s = .next (u.modPower (fun p => { p with feed := p.feed.set x false }))) ∧
    (u.powered = true → u.power.feed.get y = false → Next (fun t => t.power.mode = .dormant ∧ t.power.feed.get x = false)
      (exec (.vinLost dt x) s)) ∧
    (u.powered = true → u.power.feed.get y = true → Next (fun t => t.power.feed.get x = false ∧
      t.arb.svc.get x = (if u.arb.svc.get x = .retired then .retired else .out) ∧ (∀ n ∈ sideUnits x, n ∉ t.power.on) ∧
      (u.serving y = true → Raised y (512 + sideNum x) u t)) (exec (.vinLost dt x) s))) ∧
  (u.power.heldN = false →
    (u.powered = false → exec (.resetN dt) s = .next (u.modPower (fun p => { p with heldN := true }))) ∧
    (u.powered = true → Next (fun t => warm 2 t ∧ t.power.heldN = true) (exec (.resetN dt) s))) ∧
  (u.power.heldN = true → exec (.resetNRelease dt) s = .next (u.modPower (fun p => { p with
    heldN := false
    stepTick := u.clock.ticks }))) ∧
  (∀ t0, u.lace.resetAt = some t0 → reached u.now t0 = true →
    Next (fun t => warm 4 t ∧ t.lace.resetAt = none) (exec (.arrayResetAtT dt) s))

/-- Start-up and waking (R526, R527, R532–R539; the end of a wake is log entry 78): each step of start-up that has come to its end makes
way for the next, and does its part: sides boot, enter service with the straps' MODULE_ID, tiles wake, the boot configuration is
applied, the time digitizers and the frame ADCs are calibrated, READY; a step of the wake queue starts four units, or with a feed out of
limits none, and reports requests that wait beyond it; a base PLL out of lock is reported, and ends the run. -/
def Obligations.StartUpStepsInOrder : Prop :=
  ∀ (dt : Nat) (straps : BitVec 8) (master inLimits : Bool) (s : State), let u := s.elapse dt
  let o := exec (.startupStep dt straps master) s
  (u.power.mode = .active → u.power.heldN = false →
    (u.power.step = 0 → Next (fun t => t.power.step = 1 ∧ t.power.baseLock = true) o) ∧
    (u.power.step = 1 → u.arb.booting.a = none → u.arb.booting.b = none → (u.arb.passed.a = true ∨ u.arb.passed.b = true) →
      Next (fun t => t.power.step = 2 ∧ t.power.booted = true ∧ t.power.strapId = straps.toNat ∧ t.power.strapMaster = master ∧
        ∀ x, t.rd (Reg.LCE_MODULE_ID x) = straps.setWidth 32 ∧ (u.arb.passed.get x = true → t.arb.svc.get x = .inService)) o) ∧
    (u.power.step = 2 → Next (fun t => t.power.step = 3 ∧ ∀ i, i < 64 → i ∈ t.power.on ∨ ∃ q ∈ t.power.wake, q.1 = i) o) ∧
    (u.power.step = 3 → (∀ i, i < 64 → i ∈ u.power.on) → Next (fun t => t.power.step = 4 ∧ ∃ a, t.pix.apply = some a ∧
      a.tiles = List.range 64 ∧ a.image = u.pix.shadow ∧ a.wait = none) o) ∧
    (u.power.step = 4 → u.pix.apply = none → (portsUp u = true ∨ u.power.stepTick + 150000000 ≤ u.clock.ticks) →
      Next (fun t => t.power.step = 5 ∧ t.rb Reg.TDC_INIT_STATUS 0 = true ∧
        t.tdc.pass = some ⟨List.range 64, true, u.clock.ticks, 0, [], [], [], 0⟩) o) ∧
    (u.power.step = 5 → u.tdc.pass = none → Next (fun t => t.power.step = 6 ∧ t.rb Reg.FRM_STATUS 0 = true ∧
      t.frames.cal = some ⟨List.range 64, u.clock.ticks, 1, 0, []⟩) o) ∧
    (u.power.step = 6 → u.frames.cal = none → o = .next (stepped 7 u)) ∧
    (u.power.step = 7 → o = .next ((stepped 8 u).modPower (fun p => { p with ready := true })))) ∧
  (u.powered = true → (u.power.wake ≠ [] ∨ u.waking = true) → u.power.wakeTick + 60000 ≤ u.clock.ticks →
    ∀ bad : List (Fin 1048576), let l := wakeOrder u.power
    let late := l.any (fun q => decide (q.2 + 60000 ≤ u.clock.ticks)) && !u.power.wakeSaid
    (inLimits = false → Happens (.power :: raising) raiseRegs u
      (fun t => t.power = { u.power with
          wake := l
          wakeTick := u.clock.ticks
          wakeSaid := (u.power.wakeSaid || late) && l ≠ [] } ∧ (late = true → RaisedBase 515 u t)) (exec (.wakeStep dt inLimits bad) s)) ∧
    (inLimits = true → Happens ([.clock, .pix, .spi, .power, .lace] ++ bothOf .mgt ++ bothOf .evt ++ bothOf .lnk ++ bothOf .tally)
        (inBlocks [1, 4, 16, 17, 24]) u
      (fun t => (∀ q ∈ l.take 4, q.1 ∈ t.power.on) ∧ t.power.wake = l.drop 4 ∧
        (u.waking = true → l.drop 4 = [] → t.power.mode = .active ∧ t.power.changing = none ∧
          (bad = [] → ∀ i, i < 64 → Sparse.get t.pix.latches i TileImage.reset = Sparse.get u.pix.applied i TileImage.reset)))
      (exec (.wakeStep dt inLimits bad) s))) ∧
  (u.baseUp = true →
    (u.power.baseLock = true → Happens ([.trg, .power] ++ bothOf .evt ++ bothOf .tally) (inBlocks [1, 17, 24]) u
      (fun t => t.power.baseLock = false ∧ t.rf Reg.PWR_CLK_LOSS 31 16 = min (u.rf Reg.PWR_CLK_LOSS 31 16 + 1) 65535 ∧
        (∀ y, t.rb (Reg.LCE_STATUS y) 15 = false) ∧ RaisedBase 517 u t ∧
        (u.trg.run = .running → u.trg.stopAt = none → t.trg.stopAt = some (BitVec.ofNat 64 (alignUp 8 (u.now.toNat + 1)))) ∧
        (u.trg.run = .armed → t.trg.run = .idle ∧ t.trg.startAt = none))
      (exec (.basePllLockLost dt) s)) ∧
    exec (.basePllRelock dt) s = .next (u.modPower (fun p => { p with baseLock := true })))

/-! ### Calibration and timing digitizers -/

/-- Calibrations of frame ADCs, time digitizers and housekeeping paths begin and reply ACCEPTED (R125, R148, R506); a pause of the
background rotation, a table entry and a pin's function are written (R121, R123, R124, R512–R515); a table entry reads as written. In a
tick in which side B has written the place its bits stay (R587; log entry 162), and else what is written lands: landing is the value. -/
def Obligations.CalibrationCommandsBegin : Prop :=
  ∀ (dt : Nat) (c : Ctx) (s : State), let u := s.elapse dt; let x := receiver u c
  (∀ (q : Place) (value : Word), u.late = [] ∨ x = .b → landing x q value u = value) ∧
  (∀ lo hi : Word, Admitted c (.faCal lo hi) none u → u.trg.run = .idle → calBusy u = false →
    u.pix.scan = none →
    Completes x c 0x30 .accepted 0 [] (((u.modFrames (fun f => { f with
      cal := some ⟨maskOrAll lo hi, u.clock.ticks, 1, 0, []⟩ })).wf Reg.FRM_STATUS 0 0 1).wr Reg.FRM_FA_STATUS 0)
      (exec (.faCal dt c lo hi) s)) ∧
  (∀ lo hi ext : Word, (ext = 0 ∨ ext = 1 ∨ ext = 3) → Admitted c (.tdcCal lo hi ext) none u →
    u.trg.run = .idle → calBusy u = false → u.pix.scan = none → u.pix.apply = none →
    Completes x c 0x31 .accepted 0 [] (beginPass (if ext = 3 then [] else maskOrAll lo hi) (ext != 0) u)
      (exec (.tdcCal dt c lo hi ext) s)) ∧
  (Admitted c .hkCal none u → u.hk.cal = none →
    Completes x c 0x32 .accepted 0 [] (u.modHk (fun h => { h with cal := some u.clock.ticks, began := none }))
      (exec (.hkCal dt c) s)) ∧
  (∀ (i : Fin 64) (value : Word), Admitted c (.writeReg s c (Reg.TDC_CAL_CTRL i) value false true false) none u →
    let v := landing x (.reg (Reg.TDC_CAL_CTRL i)) value u
    Completes x c 0x03 .ok 0 [] ((touchTile i (settleTile i u)).wr (Reg.TDC_CAL_CTRL i) (v &&& 0xF))
        (exec (.tdcCalPauseWrite dt c i value) s)) ∧
  (∀ (addr value : Word) q, tableWord addr.toNat = some q → Admitted c (.writeReg s c addr.toNat value false true false) none u →
    u.trg.run ≠ .running → u.tdc.pass = none →
    let v := writeTable q.1 q.2 (landing x (.table q.1 q.2) value u) u
    readTable v q.1 q.2 = landing x (.table q.1 q.2) value u ∧ (∀ n, n < 32 → n ≠ q.2 → readTable v q.1 n = readTable u q.1 n) ∧
    Completes x c 0x03 .ok 0 [] v (exec (.tdcTableWrite dt c addr value) s)) ∧
  (∀ (i : Fin 12) (value : Word), bits value.toNat 3 0 < 7 → switching u i = false →
    Admitted c (.writeReg s c (Reg.MP_CTRL i) value false false false) none u →
    let v := landing x (.reg (Reg.MP_CTRL i)) value u; bits v.toNat 3 0 < 7 →
    let same : Prop := bits v.toNat 3 0 = pinFunc u i ∧ bit v.toNat 5 = u.rb (Reg.MP_CTRL i) 5
    (same → Completes x c 0x03 .ok 0 [] u (exec (.mpSwitch dt c i value) s)) ∧
    (¬ same → Happens (.pins :: .trg :: answering) (fun r => answerRegs r ∨ r = Reg.MP_IN ∨ r = Reg.MP_CTRL i) u
      (fun t => Replied x c 0x03 .ok 0 [] t ∧ pinFunc t i = bits v.toNat 3 0 ∧ t.rb (Reg.MP_CTRL i) 5 = bit v.toNat 5 ∧
        t.rb Reg.MP_IN (16 + i) = true ∧ t.rb Reg.MP_IN i = false ∧ (t.pin i).switch = some (u.clock.ticks, none) ∧
        (t.pin i).old = u.rd (Reg.MP_CTRL i) ∧ (t.pin i).pad = (driveBy u i (u.rd (Reg.MP_CTRL i)) (u.now + 1)).getD (u.pin i).pad ∧
        Sparse.get t.trg.pulses i [] = (Sparse.get u.trg.pulses i []).filter (fun q => reached (u.now + 1) q.1))
      (exec (.mpSwitch dt c i value) s)))

/-- FA_CAL runs (R149, R150, R152, R237): phases follow each other by the clock; an attempt's end keeps what it measured on every ADC
that it includes and creates their tiles' CAL_REDUCE items, which evaluate it: the factors of an ADC that passes are written, one that
fails (or that no measurement came from: log entry 110) is counted, noted for the next attempt, and retired at its third failure in the
time of R152, but one retired since is not counted (R549); the third attempt's end ends the calibration with event 530. Fills of the
time digitizers (R113, R116–R122, R129): attempts of the initial pass follow each other by the clock; a fill that is still in progress
at its time-out, when the codes that are clear have entered, is a calibration failure, and the third retires the digitizer; the pass
ends with event 526; the rotation starts the fill of its next digitizer and abandons one that takes too long; a table comes into use at
its boundary. The gap after a pass counts from its end (log entry 108), and that of an abandoned fill from its abandonment (log entry
31). -/
def Obligations.CalibrationsRunTheirCourse : Prop :=
  (∀ (dt : Nat) (meas : List AdcMeas) (s : State) (k : FaCal), let u := s.elapse dt; u.frames.cal = some k →
   (k.phase < 2 → k.since + faPhaseAt k.attempt (k.phase + 1) ≤ u.clock.ticks →
     exec (.faCalPhaseStart dt) s = .next (u.modFrames (fun f => { f with cal := some { k with phase := k.phase + 1 } }))) ∧
   (k.since + k.attempt * 1800000000 ≤ u.clock.ticks →
     Happens ([.frames] ++ bothOf .evt ++ bothOf .dsp ++ bothOf .tally) (inBlocks [6, 17, 19]) u (fun t =>
       (k.attempt < 3 → t.frames.cal = some { k with attempt := k.attempt + 1, phase := 0, failed := [] }) ∧
       (3 ≤ k.attempt → t.frames.cal = none ∧ t.rf Reg.FRM_STATUS 1 0 = 2 ∧ RaisedBase 530 u t) ∧ t.frames.faults = u.frames.faults ∧
       ∀ i, i < 64 → let l := (faIncluded u k).filter (fun d => d / 1024 = i)
         Sparse.get t.frames.measured i [] =
           Sparse.get u.frames.measured i [] ++ l.map (fun d => (d, meas.find? (fun m => m.gs.val = d))) ∧
         (l ≠ [] → u.serving (reduceSide u) = true → reduceWaits t (reduceSide u) i = true))
       (exec (.faCalAttemptEnd dt meas) s))) ∧
  (∀ (u : State) (d : Nat) (m : Option AdcMeas), let t := faEvaluate u (d, m)
   (∀ k, m = some k → k.gs.val = d → faPasses k = true → t = u.wr (Reg.FRM_ADC_CAL (d / 1024) (d % 1024)) (faWord k)) ∧
   (m.any faPasses = false → u.adcRetired d = true → t = u) ∧
   (m.any faPasses = false → u.adcRetired d = false → let f := Sparse.get u.frames.faults d Faults.clear
     t.rf Reg.FRM_FA_STATUS 15 0 = min (u.rf Reg.FRM_FA_STATUS 15 0 + 1) 65535 ∧
     (∀ k, u.frames.cal = some k → t.frames.cal = some { k with failed := insertNat d k.failed }) ∧
     (f.third u.now = false → Sparse.get t.frames.faults d Faults.clear = f.push u.now ∧ t.adcRetired d = u.adcRetired d) ∧
     (f.third u.now = true → t.adcRetired d = true))) ∧
  (∀ (dt : Nat) (i : Fin 64) (d : Fin 65540) (s : State), let u := s.elapse dt; let r := u.rotation i
   (∀ p, u.tdc.pass = some p →
     (p.attempt < 3 → p.since + attemptAt p.attempt ≤ u.clock.ticks →
       exec (.tdcInitAttemptStart dt) s = .next (u.modTdc (fun k => { k with
         pass := some { p with attempt := p.attempt + 1, again := p.failed, failed := [], ended := [] } }))) ∧
     (p.since + 900000000 ≤ u.clock.ticks →
       Happens (.tdc :: raising) (fun a => raiseRegs a ∨ a = Reg.TDC_INIT_STATUS) u
         (fun t => t.tdc.pass = none ∧ (∀ i ∈ p.tiles, (t.rotation i).ended = u.clock.ticks) ∧ RaisedBase 526 u t ∧
           t.rf Reg.TDC_INIT_STATUS 31 16 = min p.retired 65535 ∧ t.rf Reg.TDC_INIT_STATUS 1 0 = 2) (exec (.tdcInitPassEnd dt) s)) ∧
     (let v := settleCodes d u
      passFills v d = true → p.since + attemptAt (p.attempt - 1) + 288000000 ≤ u.clock.ticks →
       Happens ([.tdc, .bg] ++ bothOf .evt ++ bothOf .dsp ++ bothOf .tally) (inBlocks [8, 17, 19]) u
         (fun t => (∃ q, t.tdc.pass = some q ∧ d.val ∈ q.ended ∧ d.val ∈ q.failed ∧
             q.retired = p.retired + b2n ((v.digi d).faults.third u.now)) ∧
           (t.digi d).hist = [] ∧ (t.digi d).ovr = 0 ∧
           (d.val < 65536 → t.rf (Reg.TDC_CAL_FAIL (digiTile d)) 15 0 = min (v.rf (Reg.TDC_CAL_FAIL (digiTile d)) 15 0 + 1) 65535) ∧
           ((v.digi d).faults.third u.now = false → (t.digi d).faults = (v.digi d).faults.push u.now) ∧
           ((v.digi d).faults.third u.now = true → t.digiRetired d = true ∧ (t.digi d).coarseNext = true ∧
             (d.val < 65536 → (t.digi d).effectAt = some (nextBoundary u)))) (exec (.initFillTimeout dt d) s))) ∧
   (let e := 1024 * i.val + r.cur
    let v := settleCodes e u
    ∀ f, r.first = some f → r.active = true → r.cur < 1024 → v.rotation i = r → f + 3000000000 ≤ u.clock.ticks →
     passFills v e = false →
     Happens ([.tdc, .bg] ++ bothOf .evt ++ bothOf .dsp ++ bothOf .tally) (inBlocks [8, 17, 19]) u
       (fun t => t.rotation i = { r with active := false, first := none, ended := u.clock.ticks } ∧ (t.digi e).hist = [] ∧
         filling t i = (v.tdc.pass.isSome && (List.range 1024).any (fun k => passFills v (1024 * i.val + k))) ∧
         t.rf (Reg.TDC_CAL_FAIL i) 31 16 = min (v.rf (Reg.TDC_CAL_FAIL i) 31 16 + 1) 65535) (exec (.fillAbandoned dt i) s)) ∧
   (∀ k, u.power.mode = .active → r.active = false → passHas u i = false → u.rb (Reg.TDC_CAL_CTRL i) 0 = false →
     r.ended + u.rf (Reg.TDC_CAL_CTRL i) 3 1 * 196608000 ≤ u.clock.ticks → nextInRotation u i = some k →
     Happens [.tdc] (inBlocks [8]) u
       (fun t => t.rotation i = { r with cur := k, active := true, first := none } ∧ t.rf (Reg.TDC_CAL_STATUS i) 9 0 = k ∧
         filling t i = true) (exec (.rotationGapEnd dt i) s)) ∧
   (∀ b, (u.digi d).effectAt = some b → reached u.now b = true →
     exec (.calTableTakesEffect dt d) s = .next (u.modDigi d (fun g => { g with
       inUse := g.latest
       coarse := g.coarse || g.coarseNext
       effectAt := none }))))

/-- The edges of a pixel (R37, R42, R43, R54, R71, R75, R92–R104, R110, R185): a pulse whose charge, with what the Awl has put in, is
below the threshold in force, its own or the scan's (log entry 125), leaves no trace; in a FRAME tile one that fires is at most a hit of
a scan; else its leading edge at a ready digitizer starts a cluster with the configuration and polarity of that moment, or is refused
and counted under BUSY; inside an open cluster it is a stop, and the fourth closes it; else it falls into the dead time and is counted.
A calibration code within the clearance of the edge is discarded. A trailing edge ends its pulse, and that of the start pixel is a stop.
What of the last Awl pulse an edge takes is log entry 107, and an edge in the tick in which its window ends is log entry 108. -/
def Obligations.PixelEdgesMakeClusters : Prop :=
  ∀ (dt : Nat) (p : Fin 1048576) (fu : Fin 1024) (n : Fin 64) (ovr : Bool) (charge : Int) (awl : Bool) (s : State), let u := s.elapse dt
  let d := pixSuper p; let lp := pixLocal p; let i := pixTile p; let g := (closeIfOver d u).digi d
  let inj := if awl then awlPart u p else 0
  let fine := if g.conv.all (fun k => k.over u.now fu) then g.fine (codeOf n ovr) else if g.coarse then 0 else 512
  (scanOf u i = none → awlPart u p = injected u p ∧ (∀ q, edgeFires u p q = u.firesAt p q)) ∧
  (edgeFires u p (collected u charge + inj) = false → exec (.pixelLeadingEdge dt p fu n ovr charge awl) s = .next u) ∧
  (u.power.mode = .active → edgeFires u p (collected u charge + inj) = true → u.frameTile i = true →
    exec (.pixelLeadingEdge dt p fu n ovr charge awl) s = .next (scanHit p u)) ∧
  (u.power.mode = .active → edgeFires u p (collected u charge + inj) = true → u.frameTile i = false →
    Happens ([.pix, .tdc, .tiles] ++ bothOf .tally) (inBlocks [8]) u (fun t =>
      (t.digi d).reals = [u.clock.ticks] ∧ (∀ k ∈ (t.digi d).codes, nearReal [u.clock.ticks] k.1 = false) ∧
      (∀ e, e ≠ d → t.digi e = u.digi e) ∧
      ((g.phase = .ready ∨ g.phase = .cal) → (u.tile i).busy u.clock.ticks = false →
        (t.digi d).phase = .cluster ∧ (t.digi d).conv = some (convOf u.now fu n ovr none) ∧ (t.tile i).lastAct = u.clock.ticks ∧
        (t.digi d).cluster = some ⟨lp, u.now, g.fine (codeOf n ovr), [], none, 0, u.now,
          [⟨lp, u.now, u.pixelConfig p, u.holes, inj, none, 0⟩],
          max 4 (u.rf (Reg.TDC_CTRL i) 7 0), none⟩) ∧
      ((g.phase = .ready ∨ g.phase = .cal) → (u.tile i).busy u.clock.ticks = true → (t.digi d).cluster = g.cluster ∧
        (t.digi d).phase = g.phase ∧ ((u.tile i).inRun u.now = true →
          t.rf (Reg.TIL_BUSY_LOSS i) 31 0 = min (u.rf (Reg.TIL_BUSY_LOSS i) 31 0 + 1) 4294967295 ∧
          (t.tile i).refused = (u.tile i).refused + 1)) ∧
      (∀ c, (g.phase = .cluster ∨ g.phase = .dead) → g.cluster = some c →
        (c.pulses.any (fun q => q.lp = lp) = true → (t.digi d).cluster = some c ∧
          t.rf (Reg.TDC_DEAD i) 31 0 = min (u.rf (Reg.TDC_DEAD i) 31 0 + 1) 4294967295) ∧
        (c.pulses.any (fun q => q.lp = lp) = false →
          let c1 : Cluster := { c with
            stops := c.stops ++ [⟨localQ lp, u.now, fine⟩]
            taken := c.taken + 1
            last := u.now
            pulses := c.pulses ++ [⟨lp, u.now, u.pixelConfig p, u.holes, inj, none, 0⟩] }
          (c.taken ≠ 3 → (t.digi d).cluster = some c1) ∧
          (c.taken = 3 → (t.digi d).cluster = none ∧ (t.digi d).phase = .dead ∧ (t.digi d).readyAt = u.now + 60 ∧
            (t.digi d).waiting = g.waiting ++ [{ c1 with closed := some u.now }]))) ∧
      ((g.phase = .cluster ∨ g.phase = .dead) → g.cluster = none → (t.digi d).cluster = none ∧
        (fifthStop g lp u.now = true → t.rf (Reg.TDC_STOP_OVF i) 31 0 = min (u.rf (Reg.TDC_STOP_OVF i) 31 0 + 1) 4294967295) ∧
        (fifthStop g lp u.now = false → t.rf (Reg.TDC_DEAD i) 31 0 = min (u.rf (Reg.TDC_DEAD i) 31 0 + 1) 4294967295)))
      (exec (.pixelLeadingEdge dt p fu n ovr charge awl) s)) ∧
  Happens [.tdc] (inBlocks [8]) u (fun t => (∀ e, e ≠ d → t.digi e = u.digi e) ∧
    (g.waiting.any (·.open_ lp) = true → (t.digi d).waiting = fallFirst lp u.now charge g.waiting ∧ (t.digi d).cluster = g.cluster) ∧
    (∀ c, g.waiting.any (·.open_ lp) = false → g.cluster = some c → c.open_ lp = true →
      (c.lp ≠ lp → (t.digi d).cluster = some (fallIn lp u.now charge c)) ∧
      (c.lp = lp → let c1 : Cluster := { fallIn lp u.now charge c with
          trail := some (fuFrom u.now fine c.c c.fine)
          taken := c.taken + 1
          last := u.now }
        (c.taken ≠ 3 → (t.digi d).cluster = some c1) ∧
        (c.taken = 3 → (t.digi d).cluster = none ∧ (t.digi d).phase = .dead ∧ (t.digi d).readyAt = u.now + 60 ∧
          (t.digi d).waiting = g.waiting ++ [{ c1 with closed := some u.now }]))))
    (exec (.pixelTrailingEdge dt p fu n ovr charge) s)

/-- What follows the edges (R90, R93, R96, R100, R101, R105–R109, R177, R186, R200): a conversion ends, with an overrange counted; a
window closes its cluster, whose dead time runs; the digitizer is ready; a cluster due for assembly passes to its tile and is written,
waits in the next-slice buffer, or is dropped and counted. -/
def Obligations.ClustersReachTheirTile : Prop :=
  ∀ (dt : Nat) (d : Fin 65536) (s : State), let u := s.elapse dt; let g := u.digi d; let i := digiTile d
  (∀ k, g.conv = some k → k.cal = none → k.over u.now 1023 = true →
    Happens [.tdc] (inBlocks [8]) u
      (fun t => t.digi d = { g with conv := none } ∧ (∀ e, e ≠ d.val → t.digi e = u.digi e) ∧
        t.rf (Reg.TDC_OVERRANGE i) 31 0 = min (u.rf (Reg.TDC_OVERRANGE i) 31 0 + b2n k.ovr) 4294967295)
      (exec (.vernierConversionEnd dt d) s)) ∧
  (∀ c, g.cluster = some c → reached u.now c.windowEnd = true →
    exec (.clusterWindowEnd dt d) s = .next (u.modDigi d (fun g => { g with
      phase := .dead
      cluster := none
      waiting := g.waiting ++ [{ c with closed := some c.windowEnd }]
      readyAt := (if reached c.windowEnd c.last then c.windowEnd else c.last) + 60 }))) ∧
  (g.phase = .dead → reached u.now g.readyAt = true →
    exec (.digitizerReady dt d) s = .next (u.modDigi d (fun g => { g with phase := .ready }))) ∧
  (∀ j c, (u.tile i).waitPll.isSome = false → g.waiting.findIdx? (·.due u.now) = some j → g.waiting[j]? = some c →
    let v := settleTile i (u.modDigi d (fun g => { g with waiting := g.waiting.eraseIdx j })); let m := sliceOf v c.c
    let w := groupOf i c v.free.toNat ((squallOf v c.c).any (fun q => q.policy ≠ 0))
    (((v.tile i).inRun c.c = false ∨ (scanOf u i).isSome = true) → exec (.clusterAssembled dt d) s = .next v) ∧
    ((v.tile i).inRun c.c = true → scanOf u i = none →
      ((squallOf v c.c).any (fun q => q.policy = 2) = true → Happens ([.tdc, .tiles, .squall, .freeCount] ++ bothOf .evt ++ bothOf .tally)
          (inBlocks [8, 17]) v (fun t =>
        (t.tile i).fifo = (v.tile i).fifo ∧ (t.tile i).next = (v.tile i).next ∧
        t.rf (Reg.TIL_SQ_DROP i) 31 0 = min (v.rf (Reg.TIL_SQ_DROP i) 31 0 + 1) 4294967295) (exec (.clusterAssembled dt d) s)) ∧
      ((squallOf v c.c).any (fun q => q.policy = 2) = false →
        let direct := (v.tile i).slice = some m ∧ (v.tile i).next.any (fun q => q.1 = m) = false
        let dropped := Happens ([.tdc, .tiles, .squall, .freeCount] ++ bothOf .evt ++ bothOf .tally) (inBlocks [8, 17]) v (fun t =>
          (t.tile i).fifo = (v.tile i).fifo ∧ (t.tile i).next = (v.tile i).next ∧
          t.rf (Reg.TIL_CL_DROP i) 31 0 = min (v.rf (Reg.TIL_CL_DROP i) 31 0 + 1) 4294967295) (exec (.clusterAssembled dt d) s)
        (direct → (v.tile i).fifo.length + w.length ≤ 4032 → Happens ([.tdc, .tiles, .squall, .freeCount] ++ bothOf .evt ++ bothOf .tally)
            (inBlocks [8, 17]) v (fun t =>
          (t.tile i).fifo = (v.tile i).fifo ++ groupSlots w ∧ (t.tile i).words = (v.tile i).words + w.length)
          (exec (.clusterAssembled dt d) s)) ∧
        (direct → 4032 < (v.tile i).fifo.length + w.length → dropped) ∧
        (¬ direct → (v.tile i).buffered + w.length ≤ 512 → Happens ([.tdc, .tiles, .squall, .freeCount] ++ bothOf .evt ++ bothOf .tally)
            (inBlocks [8, 17]) v (fun t =>
          (t.tile i).fifo = (v.tile i).fifo ∧ (t.tile i).next = (v.tile i).next ++ [(m, w)]) (exec (.clusterAssembled dt d) s)) ∧
        (¬ direct → 512 < (v.tile i).buffered + w.length → dropped))))

/-- Calibration edges and the external-trigger digitizers (R103, R110–R114, R132–R136): a delivered edge starts a calibration
conversion, which real edges in its clearance spoil; the code of one that is not spoilt waits out its clearance and enters the
histogram, and a fill of 2^18 edges is complete: it is accepted for reduction, or fails; an edge on an external trigger is stamped, or
counted when it follows within 20 ns; edges delivered to an external-trigger digitizer since its fill began, whose clearance has passed
and holds no real one, and which make a complete fill, give a table, or a failure; a failure of a digitizer retired since is not counted
(R549). The stamp of a retired external-trigger digitizer and the time of a calibration conversion within its tick are log entry 108,
the edges as an operand log entry 35. -/
def Obligations.CalibrationEdgesFillHistograms : Prop :=
  ∀ (dt : Nat) (d : Fin 65536) (n : Fin 64) (ovr : Bool) (s : State), let u := s.elapse dt; let i := digiTile d
  (let v := settleCodes d u
    let k : Conv := { convOf u.now 0 n ovr (some u.clock.ticks) with spoiled := nearReal (v.digi d).reals u.clock.ticks }
    let w := v.modDigi d (fun g => { g with phase := .cal, conv := some k })
    v.power.mode = .active → (v.digi d).phase = .ready → (passFills v d = true ∨ rotationFills v d = true) →
    exec (.calEdgeDelivered dt d n ovr) s = .next (if rotationFills v d = true ∧ (v.rotation i).first = none then
      w.modRot i (fun r => { r with first := some u.clock.ticks }) else w)) ∧
  (∀ k e, (u.digi d).conv = some k → k.cal = some e → (u.digi d).phase = .cal → k.over u.now 1023 = true →
    let codes := if k.spoiled then (u.digi d).codes else (u.digi d).codes ++ [(e, k.code, k.ovr)]
    let clear := fun q : Nat × Nat × Bool => decide (q.1 + 150 < u.clock.ticks)
    let old := codes.filter clear
    let hist := if (u.digi d).hist = [] then List.replicate 64 0 else (u.digi d).hist
    let counted := hist.foldl (· + ·) 0 + (old.filter (fun q => !q.2.2)).length
    let h := old.foldl (fun h q => if q.2.2 then h else h.set q.2.1 (nth h q.2.1 + 1)) hist
    let full := enterCodes hist (hist.foldl (· + ·) 0) (u.digi d).ovr (old.map (fun q => (q.2.1, q.2.2, 1)))
    let r := exec (.calConversionEnd dt d) s
    (old = [] → r = .next (u.modDigi d (fun g => { g with phase := .ready, conv := none, codes := codes }))) ∧
    (old ≠ [] → counted < fillSize → Happens [.tdc] noReg u (fun t => (t.digi d).phase = .ready ∧ (t.digi d).conv = none ∧
      (t.digi d).hist = h ∧ (t.digi d).ovr = (u.digi d).ovr + (old.filter (·.2.2)).length ∧
      (t.digi d).codes = codes.filter (fun q => !clear q) ∧ ∀ e, e ≠ d.val → t.digi e = u.digi e) r) ∧
    (old ≠ [] → fillSize ≤ counted → Happens ([.tdc, .bg] ++ bothOf .evt ++ bothOf .dsp ++ bothOf .tally) (inBlocks [8, 17, 19]) u
      (fun t => (t.digi d).phase = .ready ∧ (t.digi d).conv = none ∧ (t.digi d).hist = [] ∧
        (hist.foldl (· + ·) 0 ≤ fillSize → full.2.1 = fillSize) ∧
        t.rf (Reg.TDC_CAL_STATUS i) 31 16 = (u.rf (Reg.TDC_CAL_STATUS i) 31 16 + 1) % 65536 ∧
        (fillAccepted full.1 full.2.2 = true → Sparse.get t.tdc.fills i [] = Sparse.get u.tdc.fills i [] ++ [(d.val, full.1)]) ∧
        (fillAccepted full.1 full.2.2 = false → u.digiRetired d = true → t.rd (Reg.TDC_CAL_FAIL i) = u.rd (Reg.TDC_CAL_FAIL i)) ∧
        (fillAccepted full.1 full.2.2 = false → u.digiRetired d = false →
          t.rf (Reg.TDC_CAL_FAIL i) 15 0 = min (u.rf (Reg.TDC_CAL_FAIL i) 15 0 + 1) 65535)) r)) ∧
  (∀ (i : Fin 4) (rising : Bool) (fu : Fin 1024), let e := 65536 + i.val
    u.power.mode = .active → bit (u.rf (Reg.TDC_EXT_CTRL i) 5 4) (if rising then 0 else 1) = true →
    etdSees u (u.rf (Reg.TDC_EXT_CTRL i) 3 0) = true →
    let near := (Sparse.get u.tdc.etdLast i none).any (fun b => decide (u.clock.ticks < b + 60))
    let m := minusFu u.now ((u.digi e).fine n) (u.rf (Reg.TDC_EXT_DELAY i) 15 0)
    (near = true → Happens (.tdc :: raising) (fun a => raiseRegs a ∨ a = Reg.TDC_EXT_STATUS i) u
      (fun t => t.rf (Reg.TDC_EXT_STATUS i) 31 16 = min (u.rf (Reg.TDC_EXT_STATUS i) 31 16 + 1) 65535 ∧ RaisedBase 527 u t ∧
        t.tdc.stamps = u.tdc.stamps ∧ t.tdc.etdLast = u.tdc.etdLast) (exec (.etdEdge dt i rising fu n) s)) ∧
    (near = false → Happens [.tdc] (fun a => a = Reg.TDC_EXT_STATUS i) u
      (fun t => t.rf (Reg.TDC_EXT_STATUS i) 15 0 = min (u.rf (Reg.TDC_EXT_STATUS i) 15 0 + 1) 65535 ∧
        t.tdc.stamps = u.tdc.stamps ++ [⟨i, m.1, if (u.digi e).coarse then 0 else m.2, rising, u.clock.ticks + 64⟩] ∧
        Sparse.get t.tdc.etdLast i none = some u.clock.ticks ∧ (t.digi e).reals.head? = some u.clock.ticks)
      (exec (.etdEdge dt i rising fu n) s))) ∧
  (∀ (i : Fin 4) (edges : List CalEdge), let e := 65536 + i.val; let f := (u.digi e).faults
    let from_ := match u.tdc.pass with
      | some p => if passFills u e then p.since + attemptAt (p.attempt - 1) else u.tdc.etdSince
      | none => u.tdc.etdSince
    let far := edges.filter (fun q => decide (from_ ≤ q.tick) && decide (q.tick + 150 < u.clock.ticks) && !nearReal (u.digi e).reals q.tick)
    let q := enterCodes (List.replicate 64 0) 0 0 (far.map (fun k => (k.n.val, k.ovr, k.count)))
    u.power.mode = .active → fillSize ≤ q.2.1 → (passFills u e = true ∨ etdInTurn u = some i.val) →
    Happens ([.tdc, .bg] ++ bothOf .evt ++ bothOf .tally) (inBlocks [8, 17]) u
      (fun t => t.tdc.etdTurn = (i.val + 1) % 4 ∧ t.tdc.etdSince = u.clock.ticks ∧ (t.digi e).hist = [] ∧
        (fillAccepted q.1 q.2.2 = true → (t.digi e).latest = reduceFrom 0 q.1 ∧ (t.digi e).effectAt = some (nextBoundary u)) ∧
        (fillAccepted q.1 q.2.2 = false → f.third u.now = false → (t.digi e).faults = f.push u.now ∧ RaisedBase 528 u t) ∧
        (fillAccepted q.1 q.2.2 = false → f.third u.now = true → t.digiRetired e = true ∧ (t.digi e).coarse = true))
      (exec (.etdCalFill dt i edges) s))

/-! ### Frames, tiles and squalls -/

/-- Frame triggers and conversions (R139–R144, R147, R160–R162, R213): the first accepted trigger of a run starts the integration, each
later one before the stop tick ends an input frame, numbers and stamps it and puts it on its hold capacitors, the even frames on H0 and
the odd ones on H1, with the latches, the polarity, the Awl pulses, the retired ADCs and the tiles it belongs to; one that comes too
early is ignored and counted. A tile's conversion enters the decimation window, or gives an output frame with the span of its window.
That a new even or odd frame takes the place of one not yet converted is log entry 126, and the spans are log entry 38. -/
def Obligations.FramesAreTriggeredAndConverted : Prop :=
  ∀ (dt : Nat) (s : State), let u := s.elapse dt; let f := u.frames
  (∀ (src : FrameSource) t0, triggerTick u src = some t0 → u.trg.run = .running →
    f.lastTrig.all (fun l => decide (l ≠ t0) && reached t0 l) = true → reached t0 u.runStart = true → beforeStop u t0 = true →
    let early := src ≠ .periodic ∧ f.lastTrig.any (fun l => since t0 l < 93750) = true
    (early → Happens (.trg :: .frames :: raising) (fun a => raiseRegs a ∨ a = Reg.FRM_STATUS) u
      (fun t => t.rf Reg.FRM_STATUS 31 16 = min (u.rf Reg.FRM_STATUS 31 16 + 1) 65535 ∧ RaisedBase 529 u t)
      (exec (.frameTrigger dt src) s)) ∧
    (¬ early → Happens [.trg, .pix, .frames, .tiles] (fun a => a = Reg.FRM_NUMBER ∨ a = Reg.FRM_LAST_TIME ∨ a = Reg.FRM_LAST_TIME_4) u
      (fun t => t.frames.lastTrig = some t0 ∧ t.frames.image = u.pix.latches ∧ t.frames.holes = u.holes ∧ t.trg.hits = u.trg.hits ++
        [⟨0xB, 0, t0, 0, t0⟩] ∧
        (f.started = false ∨ f.lastTrig = none → t.frames.started = true ∧ t.frames.hold = f.hold ∧
          t.rd Reg.FRM_NUMBER = u.rd Reg.FRM_NUMBER) ∧
        (∀ l, f.started = true → f.lastTrig = some l → t.frames.next = f.next + 1 ∧ t.rd Reg.FRM_NUMBER = u.rd Reg.FRM_NUMBER + 1 ∧
          t.rd64 Reg.FRM_LAST_TIME Reg.FRM_LAST_TIME_4 = t0 ∧
          let one : Sampled := ⟨f.next, l, t0, f.image, f.holes, u.pix.shots.filter (fun k => reached k.at_ l && !reached k.at_ t0),
            u.bg.inForce.adcs ++ u.bg.unlistedAdcs, frameTiles u t0⟩
          (frameTiles u t0 = [] → t.frames.hold = f.hold) ∧
          (frameTiles u t0 ≠ [] → f.next % 2 = 0 → t.frames.hold = ⟨some one, f.hold.b⟩) ∧
          (frameTiles u t0 ≠ [] → f.next % 2 = 1 → t.frames.hold = ⟨f.hold.a, some one⟩)))
      (exec (.frameTrigger dt src) s))) ∧
  (∀ (i : Fin 12) (rising : Bool) e, extWanted u i rising = true →
    f.ext.find? (fun q => q.1 = i.val && q.2.1 = rising) = some (i.val, rising, e) →
    triggerTick u (.ext i rising) = if reached u.now (e + 12) then some (e + 12) else none) ∧
  (∀ (i : Fin 64) (samples : List Sample) (bad : List (Fin 16384)) q, f.sampled.find? (fun q => q.left.contains i.val) = some q →
    reached u.now (q.t1 + 6000) = true → let k := u.tile i; let preset := u.rf (Reg.DEC_CTRL i) 1 0
    let ends := preset = 0 ∨ k.phase + 1 = ratioOf preset
    Happens ([.frames, .tiles] ++ bothOf .evt ++ bothOf .tally) (inBlocks [8, 17]) u
      (fun t => t.frames.hold = converted i q.number f.hold ∧ (∀ e ∈ t.frames.sampled, e.number = q.number → i.val ∉ e.left) ∧
        (ends → (t.tile i).outNo = k.outNo + 1 ∧ t.frames.spans = f.spans ++
          [(BitVec.ofNat 48 (2 ^ 46 + k.outNo % 2 ^ 32 * 64 + i.val), if preset = 0 ∨ k.phase = 0 then q.t0 else k.windowStart, q.t1)]) ∧
        (ends → preset ≠ 0 → (t.tile i).phase = 0 ∧ t.rd (Reg.DEC_PHASE i) = 0) ∧
        (¬ ends → (t.tile i).outNo = k.outNo ∧ (t.tile i).phase = k.phase + 1 ∧
          t.rd (Reg.DEC_PHASE i) = BitVec.ofNat 32 (k.phase + 1) ∧ t.frames.spans = f.spans))
      (exec (.frameConversionEnd dt i samples bad) s))

/-- A tile's readout (R174–R180, R183, R188, R190–R193, R195, R531): a unit closes with its EPOCH, LOSS words and UNIT_TAIL and the next
opens; EPOCH words and occupancy summaries are made on their ticks; an idle tile's clock is gated; a word crosses to the sides that take
it, errors counted; the loss of a tile's PLL is counted and raised and its third retires the tile, and a retired tile whose PLL stays
away is emptied, with BUSY by level dropped. -/
def Obligations.TilesAreReadOut : Prop :=
  ∀ (dt : Nat) (i : Fin 64) (moved : List Upset) (s : State), let u := s.elapse dt; let v := settleTile i u; let k := v.tile i
  (∀ n, k.slice = some n → k.state ≠ .idle → reached u.now (unitEnd v k n + 72) = true → k.waitPll = none →
    holdsCluster v i n = false → k.next.any (fun g => g.1 = n) = false → k.fifo.length + 6 ≤ 4096 →
    let e := unitEnd v k n; let ep := epochDue v k n; let ls := lossWords i (Sparse.get k.lost n Lost.zero)
    Happens ([.tiles, .bg] ++ bothOf .evt ++ bothOf .tally) (inBlocks [8, 17]) v
      (fun t => ∃ post, (t.tile i).fifo = k.fifo ++ (ep ++ ls ++ [unitTail i n (k.words + ep.length + ls.length)
          (squallIn v (sliceStart v n) e) (k.lossy || decide (ls ≠ [])) (busyIn k (sliceStart v n) e v.now)]).map plainSlot ++ post ∧
        (lastUnit v k n = true → post = [] ∧ (t.tile i).slice = none) ∧
        (lastUnit v k n = false → post.head? = some (plainSlot (unitHead v i (n + 1))) ∧ (t.tile i).slice = some (n + 1)) ∧
        Sparse.get (t.tile i).lost n Lost.zero = Lost.zero) (exec (.unitClose dt i moved) s)) ∧
  Happens ([.tiles] ++ bothOf .evt ++ bothOf .tally) (inBlocks [8, 17]) u
    (fun t => let e := lastEpoch u.now
      k.state ≠ .idle → reached e k.startAt = true → k.waitPll = none → k.fifo.length < 4096 →
      (u.frameTile i = true ∨
        (k.stopAt.all (fun p => reached p e) = true ∧ k.slice.any (fun n => decide (unitEnd v k n = e)) = true)) →
      (t.tile i).epoch = e ∧
        (k.frames = [] → e ≠ k.epoch → (t.tile i).fifo = k.fifo ++ [plainSlot (epochWord e)])) (exec (.epochWrite dt) s) ∧
  (let w := (List.range 64).foldl (fun k j => settleTile j k) u; let m := u.now - BitVec.ofNat 64 (u.now.toNat % 32)
    m ≠ u.squall.lastSummary → (u.trg.run = .running ∨ u.trg.run = .stopping) →
    Happens ([.tiles, .squall, .trg] ++ bothOf .evt ++ bothOf .tally) (inBlocks [8, 17]) w
      (fun t => t.trg.coming = u.trg.coming ++ [(m, (List.range 64).map (summaryOf w))] ∧ t.squall.lastSummary = m ∧
        (t.tile i).counts = [0, 0, 0, 0] ∧ (t.tile i).refused = 0) (exec (.occupancySummary dt) s)) ∧
  (u.power.mode = .active → u.rb (Reg.TIL_CTRL i) 2 = false → k.fifo = [] → k.next = [] → k.frames = [] →
    k.lastAct + 3000 ≤ u.clock.ticks → lastBoundary u + 3000 ≤ u.clock.ticks →
    exec (.tileClockGate dt i) s = .next (v.modTile i (fun k => { k with gatedAt := some u.clock.ticks }))) ∧
  (∀ (fifo linkA linkB : Upset) q rest, k.fifo = q :: rest → tileSilent v i = false → takers v i ≠ [] →
    (∀ x ∈ takers v i, intakeOpen v x i = true) →
    let o := exec (.tileLinkWord dt i fifo linkA linkB moved) s
    (fifo ≠ .uncorrectable → Happens ([.tiles, .bg] ++ bothOf .evt ++ bothOf .dsp ++ bothOf .cmp ++ bothOf .bst ++ bothOf .tally)
        (inBlocks [8, 17, 20, 21]) v (fun t => t.rd (Reg.TIL_WORDS i) = v.rd (Reg.TIL_WORDS i) + 1 ∧ (∃ post, (t.tile i).fifo = rest ++ post) ∧
      (moved = [] → t.rf (Reg.TIL_ECC i) 15 0 = min (v.rf (Reg.TIL_ECC i) 15 0 + b2n (fifo = .corrected)) 65535) ∧
      (k.state = .running → linkA ≠ .uncorrectable → linkB ≠ .uncorrectable → ∀ x ∈ takers v i, givesUp v x i = false →
        t.intake x i = v.intake x i ++ [fixClose k q.word])) o) ∧
    (fifo = .uncorrectable → moved = [] → Happens ([.tiles, .bg] ++ bothOf .evt ++ bothOf .dsp ++ bothOf .cmp ++ bothOf .bst ++ bothOf .tally)
        (inBlocks [8, 17, 20, 21]) v (fun t => t.rf (Reg.TIL_ECC i) 23 16 = min (v.rf (Reg.TIL_ECC i) 23 16 + 1) 255) o)) ∧
  ((u.power.mode = .active ∨ u.power.on.contains i.val = true) → (u.tile i).unlocked = false → Happens ([.tiles, .power, .bg] ++
    bothOf .evt ++ bothOf .tally) (inBlocks [1, 8, 17]) u
    (fun t => (t.tile i).unlocked = true ∧ i.val ∉ t.power.tileLock ∧ RaisedBase 516 u t ∧
      t.rf Reg.PWR_CLK_LOSS 15 0 = min (u.rf Reg.PWR_CLK_LOSS 15 0 + 1) 65535 ∧
      (u.tileRetired i = false → (u.tile i).faults.third u.now = false → (t.tile i).faults = (u.tile i).faults.push u.now) ∧
      (u.tileRetired i = false → (u.tile i).faults.third u.now = true → t.tileRetired i = true)) (exec (.tilePllLockLost dt i) s)) ∧
  ((u.tile i).unlocked = true → Happens [.tiles, .power] noReg u
    (fun t => (t.tile i).pllBusy = some (some (u.clock.ticks + 3000)) ∧ (t.tile i).waitPll = none ∧ i.val ∈ t.power.tileLock ∧
      (t.tile i).fifo = (u.tile i).fifo ∧ (t.tile i).next = (u.tile i).next ∧ (t.tile i).state = (u.tile i).state)
    (exec (.tilePllRelock dt i) s)) ∧
  (∀ r, (u.tile i).waitPll = some r → r + 30000000 ≤ u.clock.ticks → (u.tile i).unlocked = true →
    Next (fun t => (t.tile i).state = .idle ∧ (t.tile i).fifo = [] ∧ (t.tile i).next = [] ∧ (t.tile i).slice = none ∧
      (t.tile i).frames = [] ∧ (t.tile i).waitPll = none ∧
      (u.frameTile i = false → (t.tile i).full = false) ∧ ((u.tile i).fifo ≠ [] → (t.tile i).lastAct = u.clock.ticks) ∧
        ∀ q ∈ t.frames.sampled, i.val ∉ q.left) (exec (.tilePllRelockTimeout dt i) s))

/-- The squall detector (R197–R203): a window that ends past X makes it QUIET, with SQUALL_END to come at X + 12; eight tiles over the
threshold in a window make a declaration due, or extend the squall in progress; the declaration, after the SQUALL_END of the squall
before, latches the policy, writes SQUALL_BEGIN to the running tiles and raises event 531 with the time of the window; X ends the squall
with SQUALL_END. That these two words find room in any FIFO is log entry 137. -/
def Obligations.SquallsAreDeclaredAndEnded : Prop :=
  ∀ (dt : Nat) (s : State), let u := s.elapse dt; let q := u.squall; let tick : Time := BitVec.ofNat 64 (20 * (u.now.toNat / 20))
  let said := fun (w : Word72) (v t : State) => ∀ i, i < 64 → let k := (settleTile i v).tile i
    k.state ≠ .idle → k.frames = [] → (t.tile i).fifo = k.fifo ++ [plainSlot w]
  (let v := quietAt tick u; let l := crowded u (u.now.toNat / 20); let o := exec (.squallWindowEval dt) s
    (q.ending = none → (∀ x, squallX u = some x → x ≠ tick → reached tick x = true →
      v = { u with squall := { q with
        active := false
        ending := some x } }) ∧
      ((squallX u).all (fun x => decide (x = tick) || !reached tick x) = true → v = u)) ∧
    (u.trg.run = .running → q.lastEval ≠ tick →
      (l.length < 8 → o = .next { v with squall := { v.squall with lastEval := tick } }) ∧
      (8 ≤ l.length → v.squall.active = false → o = .next { v with squall := { v.squall with
        lastEval := tick
        declare := if v.squall.declare.isSome then v.squall.declare else some (tick - 60, l) } }) ∧
      (∀ h r, 8 ≤ l.length → v.squall.active = true → v.squall.squalls = h :: r →
        Happens ([.tiles, .squall] ++ bothOf .evt ++ bothOf .tally) (inBlocks [7, 17]) v
          (fun t => t.squall = { v.squall with lastEval := tick, squalls := { h with x := tick + 3000 } :: r } ∧
            ∀ i, i < 64 → ((t.rd64 Reg.TIL_SQ_TILES Reg.TIL_SQ_TILES_4).getLsbD i = true ↔
              i ∈ l ∨ (u.rd64 Reg.TIL_SQ_TILES Reg.TIL_SQ_TILES_4).getLsbD i = true)) o))) ∧
  (∀ b m, q.declare = some (b, m) → reached u.now (b + 72) = true →
    let v := match q.ending with
      | some x => endSquall x u
      | none => u
    let policy := u.rf Reg.TIL_SQ_CTRL 1 0
    Happens ([.tiles, .squall] ++ bothOf .evt ++ bothOf .tally) (inBlocks [7, 8, 17]) v
      (fun t => t.squall.active = true ∧ t.squall.declare = none ∧ t.squall.ending = none ∧
        t.squall.squalls = ⟨b, b + 3060, policy, b + 72⟩ :: v.squall.squalls ∧
        t.rf Reg.TIL_SQ_STATUS 31 16 = (u.rf Reg.TIL_SQ_STATUS 31 16 + 1) % 65536 ∧ t.rf Reg.TIL_SQ_STATUS 2 1 = policy ∧
        t.rd64 Reg.TIL_SQ_BEGIN Reg.TIL_SQ_BEGIN_4 = b ∧ t.rd64 Reg.TIL_SQ_END Reg.TIL_SQ_END_4 = 0 ∧
        (∀ i, i < 64 → ((t.rd64 Reg.TIL_SQ_TILES Reg.TIL_SQ_TILES_4).getLsbD i = true ↔ i ∈ m)) ∧
        t.rf Reg.TIL_SQ_UNFLAGGED 31 0 =
          min (u.rf Reg.TIL_SQ_UNFLAGGED 31 0 + (q.recent.filter (fun c => reached c b)).length) 4294967295 ∧
        (∀ y, u.live y = true → Sparse.get (t.side y).evt.recs 531 SrcRec.zero =
          (Sparse.get (u.side y).evt.recs 531 SrcRec.zero).raise b) ∧ said (controlWord 0x06 b.toNat) v t)
      (exec (.squallDeclaration dt) s)) ∧
  (∀ x, squallEnded u.now u = some x → reached u.now (x + 12) = true → Happens ([.tiles, .squall] ++ bothOf .evt ++ bothOf .tally)
      (inBlocks [7, 8, 17]) u
    (fun t => t.squall.active = false ∧ t.squall.ending = none ∧ t.squall.declare = q.declare ∧
      (∀ h r, q.squalls = h :: r → t.squall.squalls = { h with x := x } :: r) ∧
      t.rd64 Reg.TIL_SQ_END Reg.TIL_SQ_END_4 = x ∧ (∀ i, i < 64 → (t.tile i).squallSaid = false) ∧ said (controlWord 0x07 x.toNat) u t)
    (exec (.squallEnd dt) s))

/-! ### Units, dispatcher, engines -/

/-- Units at the intake (R213, R214, R237, R238, R241, R242, R270, R323): what is still to be held is put into the store first; a unit
that closes is numbered and leaves the intake with the configuration of its run; it is held in the store in TRIGGERED, stays at the
intake while its ring has no room, is prescaled away, or stands at the side; at its decision time it becomes an item when data is
wanted, and is released otherwise. -/
def Obligations.UnitsAreTakenAndDecided : Prop :=
  ∀ (dt : Nat) (x : Side) (s : State), let u := s.elapse dt
  (∀ (i : Fin 64) pre own rest, u.serving x = true → findUnit (u.intake x i) = some (pre, own, rest) →
    let n := numberOf u i own; let sp := unitSpan u n; let v := holdUnits x (unheld u x i) u
    (unheld u x i = [] → v = u) ∧ Happens (bothOf .evt ++ bothOf .lnk ++ bothOf .dsp ++ bothOf .cmp ++ bothOf .bst ++ bothOf .tally)
        (inBlocks [17, 18, 19, 20, 21]) v (fun t =>
      (tooEarly u x i sp.1 = true → t.intake x i = rest ∧ (t.side x).dsp.units = (v.side x).dsp.units) ∧
      (tooEarly u x i sp.1 = false → prescaled u n = true → t.intake x i = rest ∧ (t.side x).dsp.units = (v.side x).dsp.units ∧
        t.rf (Reg.TRG_FRAMES_PRESCALED x) 31 0 = min (u.rf (Reg.TRG_FRAMES_PRESCALED x) 31 0 + 1) 4294967295) ∧
      (tooEarly u x i sp.1 = false → prescaled u n = false →
        (u.acq = 0 → t.intake x i = rest ∧ ∃ w ∈ (t.side x).dsp.units, w.number = BitVec.ofNat 48 n ∧ w.u0 = sp.1 ∧ w.u1 = sp.2 ∧
          w.pre = pre ∧ w.words = own ∧ w.held = none ∧ w.acq = 0 ∧ w.dt = u.rf (Reg.SE_CTRL x) 15 8) ∧
        (u.acq ≠ 0 → storeWords x (unitKind n) 0 (.unit (BitVec.ofNat 48 n)) (pre ++ own) v = none →
          t.intake x i = u.intake x i ∧ (t.side x).dsp.units = (v.side x).dsp.units) ∧
        (∀ q, u.acq ≠ 0 → storeWords x (unitKind n) 0 (.unit (BitVec.ofNat 48 n)) (pre ++ own) v = some q → t.intake x i = rest ∧
          (reached u.now (sp.2 + BitVec.ofNat 64 (preMax u + 1024)) = false → ∃ w ∈ (t.side x).dsp.units,
            w.number = BitVec.ofNat 48 n ∧ w.pre = pre ∧ w.words = own ∧ w.held = some q.2 ∧ w.decided = false ∧ w.acq = u.acq ∧
            w.dt = u.rf (Reg.SE_CTRL x) 15 8))))
      (exec (.unitArrival dt x i) s)) ∧
  (∀ n v, (u.side x).dsp.units.find? (fun v => v.number = n && !v.decided) = some v → reached u.now (decisionTime u v) = true →
    let wanted := u.acq = 0 ∨ (liveRecs u).any (fun r => r.meets v.u0 v.u1) = true
    Happens (bothOf .evt ++ bothOf .lnk ++ bothOf .dsp ++ bothOf .cmp ++ bothOf .bst ++ bothOf .tally)
        (inBlocks [17, 18, 19, 21]) u (fun t =>
      (wanted → (∀ w ∈ (t.side x).dsp.units, w.number = n → w.decided = true ∧ w.queued = true) ∧
        ((u.side x).dsp.ready.length < 4096 → (t.side x).dsp.ready =
          (u.side x).dsp.ready ++ [(prioOf u x (unitWork u x v), ⟨unitWork u x v, u.clock.ticks⟩)]) ∧
        (4096 ≤ (u.side x).dsp.ready.length → (t.side x).dsp.held = (u.side x).dsp.held ++ [⟨unitWork u x v, u.clock.ticks⟩]) ∧
        (u.acq ≠ 0 → t.rf (Reg.TRG_UNITS_KEPT x) 31 0 = min (u.rf (Reg.TRG_UNITS_KEPT x) 31 0 + 1) 4294967295)) ∧
      (¬ wanted → (t.side x).dsp.units = (u.side x).dsp.units.filter (fun w => w.number ≠ n) ∧
        t.rf (Reg.TRG_UNITS_RELEASED x) 31 0 = min (u.rf (Reg.TRG_UNITS_RELEASED x) 31 0 + 1) 4294967295))
      (exec (.unitDecided dt x n) s))

/-- The dispatcher (R257–R259, R261, R264, R265): a cycle starts a ready item on the engine that the rule names, and reports a ready
list whose pointers disagree; the delayed item that is due enters the ready list, and delay lists whose pointers disagree are emptied
and reported; a trap puts the running item back at the head of its priority, lets a pre-empted one resume after 128 ticks (log entry 56)
and has the instruction memory loaded again, and the third retires the engine. -/
def Obligations.TheDispatcherStartsItems : Prop :=
  ∀ (dt : Nat) (x : Side) (s : State), let u := s.elapse dt; enginesRun u x = true →
  (∀ mismatch : Bool, (u.side x).dsp.cycle < u.clock.ticks / 8 →
    Happens ([.tdc, .frames, .trg] ++ bothOf .evt ++ bothOf .lnk ++ bothOf .dsp ++ bothOf .cmp ++ bothOf .bst ++ bothOf .tally)
        (inBlocks [17, 19, 20, 21]) u (fun t => (t.side x).dsp.cycle = u.clock.ticks / 8 ∧
      (mismatch = true → RaisedSide x 572 u t ∧ t.rf (Reg.DSP_QERR x) 15 0 = min (u.rf (Reg.DSP_QERR x) 15 0 + 1) 65535 ∧
        t.rf (Reg.EVT_QERR x) 15 0 = min (u.rf (Reg.EVT_QERR x) 15 0 + 1) 65535) ∧
      (∀ p i (e : Fin 48), p < 4 → mismatch = false → (u.side x).dsp.held = [] → (u.side x).dsp.again = [] →
        (u.side x).dsp.ready = [(p, i)] → placeItem u x p i = some (e.val, false) → (t.eng x e).item = some (i, u.clock.ticks) ∧
          (t.eng x e).key = i.work.key ∧
          (homeOf u x i.work.key = some e.val → t.rf (Reg.DSP_AFF_HOME x) 31 0 = min (u.rf (Reg.DSP_AFF_HOME x) 31 0 + 1) 4294967295) ∧
          (homeOf u x i.work.key ≠ some e.val → t.rf (Reg.DSP_AFF_AWAY x) 31 0 = min (u.rf (Reg.DSP_AFF_AWAY x) 31 0 + 1) 4294967295)))
      (exec (.dispatchCycle dt x mismatch) s)) ∧
  (∀ q, firstDue u.now (u.side x).dsp.delay = some q → (u.side x).dsp.ready.length < 4096 →
    Happens [.dsp x] (fun a => a = Reg.DSP_READY_MAX x) u
      (fun t => (t.side x).dsp.delay = (u.side x).dsp.delay.erase q ∧
        (t.side x).dsp.ready = (u.side x).dsp.ready ++ [(q.1, ⟨q.2.1.work, u.clock.ticks⟩)]) (exec (.delayItemDue dt x false) s)) ∧
  Happens ([.tdc, .frames] ++ bothOf .evt ++ bothOf .lnk ++ bothOf .dsp ++ bothOf .cmp ++ bothOf .bst ++ bothOf .tally)
      (inBlocks [17, 19, 20, 21]) u
    (fun t => (t.side x).dsp.delay = [] ∧ RaisedSide x 572 u t ∧ t.rf (Reg.DSP_QERR x) 15 0 = min (u.rf (Reg.DSP_QERR x) 15 0 + 1) 65535 ∧
      t.rf (Reg.EVT_QERR x) 15 0 = min (u.rf (Reg.EVT_QERR x) 15 0 + 1) 65535 ∧
      ((∀ q ∈ (u.side x).dsp.delay, ∃ ws, q.2.1.work = .telemetry ws ∧ periodic ws = true) →
        (t.side x).dsp = { (u.side x).dsp with delay := [] }) ∧
      (∀ q ws, (u.side x).dsp.delay = [q] → q.2.1.work = .telemetry ws → periodic ws = false →
        (t.side x).dsp.again = (u.side x).dsp.again ++ [(.telemetry ws, u.clock.ticks)])) (exec (.delayItemDue dt x true) s) ∧
  (∀ e : Fin 48, engRetired u x e = false → let g := u.eng x e
    Happens ([.bg] ++ bothOf .evt ++ bothOf .dsp ++ bothOf .cmp ++ bothOf .tally)
        (inBlocks [17, 19]) u (fun t => RaisedSide x 570 u t ∧ t.rf (Reg.SE_TRAPS x) 15 0 = min (u.rf (Reg.SE_TRAPS x) 15 0 + 1) 65535 ∧
      (g.faults.third u.now = false → (t.eng x e).faults = g.faults.push u.now ∧ (t.eng x e).saved = none ∧
        (t.eng x e).item = g.saved ∧ (t.eng x e).busy = (if g.saved.isSome then u.clock.ticks + 128 else g.busy) ∧
        (t.eng x e).lines = [] ∧ (t.side x).dsp.ready = (g.item.map (fun q => (prioOf u x q.1.work, q.1))).toList ++ (u.side x).dsp.ready) ∧
      (g.faults.third u.now = true → engRetired t x e = true ∧ (t.eng x e).item = none ∧ (t.eng x e).saved = none ∧ RaisedSide x 571 u t))
      (exec (.engineTrap dt x e) s))

/-- Work items (R114, R150, R239, R245, R252, R257, R258, R262, R267, R287, R288, R492): an item that completes frees its engine, or
lets the pre-empted one resume after 128 ticks, gives its key a home and leaves its result: a sorted or clustered unit its output, a
record its head and tail pieces, a LACE_MERGE what it holds back, a VERIFY its count or event 576, a TELEMETRY its frame, a CAL_REDUCE
its tables and factors, with a failed attempt counted. One whose output finds no room, or which must wait for an older unit or a
decompressor, leaves the engine as it is. -/
def Obligations.WorkItemsComplete : Prop :=
  ∀ (dt : Nat) (x : Side) (e : Fin 48) (bad : InputFault) (s : State), let u := s.elapse dt; let g := u.eng x e
  let free := fun (w : Work) (t : State) => (t.eng x e).item = g.saved ∧
    (t.eng x e).busy = (if g.saved.isSome then u.clock.ticks + 128 else g.busy) ∧ (t.eng x e).key = (g.saved.map (·.1.work.key)).getD g.key ∧
    (t.eng x e).saved = none ∧ Sparse.get (t.side x).dsp.home w.key none = some e.val
  let done := fun (w : Work) (t : State) => free w t ∧ t.rd (Reg.SE_ITEMS x w.kind) = u.rd (Reg.SE_ITEMS x w.kind) + 1
  (∀ (cl : Bool) n v, let w := if cl then Work.cluster n else .sort n; let o := if cl then exec (.cluster dt x e bad) s else exec (.sliceSort dt x e bad) s
    runningOf u x e w.kind = some w → (u.side x).dsp.units.find? (fun v => v.number = n) = some v →
    (unitBehind u x v = true → o = .next u) ∧
    (∀ k, sortItem x cl n bad u = .waits k → o = .next k ∧ k.eng x e = g) ∧
    (∀ k, sortItem x cl n bad u = .done k → Next (fun t => free w t ∧ ∀ z ∈ (t.side x).dsp.units, z.number ≠ n) o) ∧
    (let out := unitOut cl v v.pre v.words;
      bad = .none → v.held = none → v.bad = [] → unitBehind u x v = false → v.acq ≠ 2 → assemblyBytes u x + 9 * out.length ≤ 33554432 →
      Next (fun t => done w t ∧ (t.side x).cmp.outputs =
        (u.side x).cmp.outputs ++ [⟨unitKind n.toNat, 0xFFFFFFFF, n, out, none, false⟩]) o) ∧
    (∀ i, bad = .sram i → i < v.pre.length + v.words.length + v.post.length → v.held = none → v.bad = [] →
      unitBehind u x v = false → v.acq ≠ 2 →
      let own := (v.words.set 0 (v.words.headD 0)).set (v.words.length - 1) (v.words.getLastD 0)
      assemblyBytes u x + 9 * (substitute (unitTile n.toNat) 0x11 [i] v.pre own v.post).length ≤ 33554432 →
      Next (fun t => done w t ∧ RaisedSide x 575 u t ∧ t.rf (Reg.SE_TRAPS x) 31 16 = min (u.rf (Reg.SE_TRAPS x) 31 16 + 1) 65535) o)) ∧
  (∀ id r, runningOf u x e 2 = some (.record id) → u.trg.closed.find? (fun r => r.id = id) = some r →
    let n := r.number.getD 0; let acc := Sparse.get (u.side x).dsp.accs id Acc.zero
    (∀ k, buildRecord x id u = .waits k → exec (.recordBuild dt x e) s = .next k ∧ k.eng x e = g) ∧
    (∀ k, buildRecord x id u = .done k → Next (fun t => done (.record id) t ∧ Sparse.get (t.side x).dsp.accs id Acc.zero = Acc.zero ∧
      ∀ k ws, ((k = 0 ∧ ws = headPiece u r n) ∨ (k = 1 ∧ ws = tailPiece u r n acc)) → ∃ o ∈ (t.side x).cmp.outputs,
        o.stream = 2 ∧ o.record = BitVec.ofNat 32 n ∧ o.unit = BitVec.ofNat 48 (2 ^ 47 + k) ∧ o.words = ws)
            (exec (.recordBuild dt x e) s))) ∧
  (∀ p l, runningOf u x e 3 = some (.merge p l) →
    (∀ k, mergeFrames x e p l u = .waits k → exec (.laceMerge dt x e) s = .next k ∧
      ((k.eng x e).item = g.item ∨ (k.eng x e).item = g.item.map (fun q => ({ q.1 with work := .merge p [] }, q.2)))) ∧
    (∀ k, mergeFrames x e p l u = .done k → Next (fun t => free (.merge p l) t ∧ Sparse.get (t.side x).lce.hold p [] =
      (parcels [] [] (Sparse.get (u.side x).lce.hold p [] ++ l)).2.1) (exec (.laceMerge dt x e) s))) ∧
  (∀ b, runningOf u x e 4 = some (.verify b) → hasDec u x e = false → exec (.verify dt x e) s = .next u) ∧
  (∀ b, runningOf u x e 4 = some (.verify b) → hasDec u x e = true → Next (fun t => done (.verify b) t ∧
    t.rf (Reg.CMP_VERIFY_STATUS x) 15 0 = min (u.rf (Reg.CMP_VERIFY_STATUS x) 15 0 + 1) 65535 ∧
    (verifyHalt b = .done → t.rf (Reg.CMP_VERIFY_STATUS x) 31 16 = u.rf (Reg.CMP_VERIFY_STATUS x) 31 16) ∧
    (verifyHalt b ≠ .done → RaisedSide x 576 u t ∧ t.rd (Reg.CMP_VERIFY_LAST x) = b.id.record ∧
      t.rf (Reg.CMP_VERIFY_STATUS x) 31 16 = min (u.rf (Reg.CMP_VERIFY_STATUS x) 31 16 + 1) 65535)) (exec (.verify dt x e) s)) ∧
  (∀ ws, runningOf u x e 5 = some (.telemetry ws) → Next (fun t => done (.telemetry ws) t ∧ t.frameSeq x 4 = u.frameSeq x 4 + 1 ∧
    ∀ p, p < 16 → (u.port x p).state = .up → u.role x p = 1 → u.rb (Reg.EVT_TELEM x) (16 + p) = true → (u.port x p).out = none →
      (u.port x p).waiting = [] → (t.port x p).out = some (plainFrame u x 4 3 (u.frameSeq x 4) ws)) (exec (.telemetry dt x e) s)) ∧
  (∀ i, runningOf u x e 6 = some (.reduce i) → i < 64 →
    Next (fun t => done (.reduce i) t ∧ Sparse.get t.tdc.fills i [] = [] ∧ Sparse.get t.frames.measured i [] = [] ∧
      (∀ f, Sparse.get u.tdc.fills i [] = [f] → (t.digi f.1).latest = reduceFrom 0 f.2 ∧
        (t.digi f.1).effectAt = some (nextBoundary u)) ∧
      (∀ m : AdcMeas, Sparse.get u.frames.measured i [] = [(m.gs.val, some m)] → faPasses m = true →
        t.rd (Reg.FRM_ADC_CAL (m.gs.val / 1024) (m.gs.val % 1024)) = faWord m) ∧
      (∀ d m, Sparse.get u.frames.measured i [] = [(d, m)] → m.any faPasses = false →
        t.rf Reg.FRM_FA_STATUS 15 0 = if u.adcRetired d then u.rf Reg.FRM_FA_STATUS 15 0 else min (u.rf Reg.FRM_FA_STATUS 15 0 + 1) 65535))
            (exec (.calReduce dt x e) s))

/-! ### Compression and the burst store -/

/-- Compressors and jobs (R285, R286, R292–R294): when the words of an output have been read and what is ready has been noted, the
oldest block to be made again, or block of a sequence at the head, that a free compressor may take is taken, and none where none may; a
word of a waiting output that does not read is reported with event 578. A decompression job answers with the bits of its input that it
has used (in R1, the first parameter word: log entry 11), the bytes it has produced and why it stopped, and can be resumed when it
stopped for more. -/
def Obligations.CompressorsTakeBlocksAndJobsAnswer : Prop :=
  ∀ (dt : Nat) (x : Side) (s : State), let u := s.elapse dt
  (∀ (n : BitVec 48) (bad : InputFault), u.live x = true → let v := scanReady x (retryEntering x (outputFault x n bad u))
    let o := exec (.compressorTakesBlock dt x n bad) s
    ((∀ r ∈ (v.side x).cmp.ready, freeComp v x r = none) → o = .next (scanReady x v)) ∧
    (∀ pre b rest e, (v.side x).cmp.ready = pre ++ .again b :: rest → (∀ r ∈ pre, freeComp v x r = none) →
      freeComp v x (.again b) = some e →
      Next (fun t => (t.comp x e).block = some { b with maker := e }) o) ∧
    (∀ pre b rest e, (v.side x).cmp.ready = pre ++ .redo b :: rest → (∀ r ∈ pre, freeComp v x r = none) →
      freeComp v x (.redo b) = some e → e ∈ compsIn u x ∧ (e = b.maker → compsIn u x = [e]) ∧
      Next (fun t => (t.comp x e).block = some b ∧ (t.comp x e).redo = true) o) ∧
    (∀ k rest e w c, (v.side x).cmp.ready = .seq k :: rest → freeComp v x (.seq k) = some e → readyCut x k 64 v = (w, some c) →
      Next (fun t => (t.comp x e).block = some (blockOf ((u.side x).cmp.runCtrl.getLsbD 0) k c e)) o) ∧
    (∀ i q, bad = .sram i → (u.side x).cmp.outputs.find? (fun q => q.unit = n) = some q → q.spill = none → unitKind n.toNat < 2 →
      takenOf u x q ≤ i → i < q.words.length → Next (fun t => RaisedSide x 578 u t) o)) ∧
  (∀ c : Ctx,
    let z := receiver u c; let y := namedSide u c
    let answer := fun (j : Job) (op : Nat) (o : Host.Outcome State Fault Refusal) =>
      let q := if j.block then unpackBlock j.declared ((j.written + j.room) / 9) j.input
        else unpackRaw j.declared (j.written + j.room) j.input
      let ws := [(q.out.drop j.written).length, q.out.length, b2n (q.stop = .done) + 2 * b2n (q.stop = .need)].map (BitVec.ofNat 72)
      ∃ v, runJob y j u = .done v q.stop.status (BitVec.ofNat 32 q.used) ws ∧ (v.side y).cmp.job.written = q.out.length ∧
        v.rd (Reg.CMP_JOB_CONSUMED y) = BitVec.ofNat 32 q.used ∧ v.rd (Reg.CMP_JOB_PRODUCED y) = BitVec.ofNat 32 q.out.length ∧
        v.rf (Reg.CMP_JOB_STATUS y) 31 24 = q.stop.status.code ∧
        Completes z c op q.stop.status (BitVec.ofNat 32 q.used) ws v o
    (∀ p1 p2 p3 : Word, let n := p1.toNat % 65536
      1 ≤ n → n ≤ 16384 → Admitted c (.decompressJob p1 p2 p3) none u →
      answer ⟨bit p1.toNat 16, (List.range n).map (jobByte u y), n, 0, p3.toNat, 0, p2.toNat % 65536⟩ 0x43
          (exec (.decompressJob dt c p1 p2 p3) s)) ∧
    (∀ p1 : Word, let n := p1.toNat % 65536; let j := (u.side y).cmp.job
      Admitted c (.jobResume p1) none u →
      (j.stopped ≠ 0 → resumeFits j n = true →
        answer { j with input := j.input ++ (List.range n).map (jobByte u y), given := j.input.length } 0x44
            (exec (.jobResume dt c p1) s)) ∧
      (j.stopped = 0 → Completes z c 0x44 .wrongState 0 [] u (exec (.jobResume dt c p1) s))))

/-- The burst store at work (R302, R303, R309–R313, R315, R328, R334, R340–R342): a drain reads its oldest block into the egress buffer,
waits for a channel in refresh, or halts at a word that does not read, and is resumed; refreshes are owed, made and ended, and the byte
fields that waited them out reach the store; the activate tables are cleared, and the rates of the interval noted; the patrol, once in
its period, puts right what it reads, and poisons what cannot be; a write of the management controller, one of the accesses that log
entry 117 gives the row, changes the byte fields that it names; the tag byte of a word written in part is log entry 118. -/
def Obligations.TheBurstStoreWorks : Prop :=
  ∀ (dt : Nat) (x : Side) (s : State), let u := s.elapse dt
  (∀ (c : Ctx) (p1 : Word), let y := namedSide u c; let r := p1.toNat % 8
    Admitted c (.resumeDrain p1) none u → u.rb (Reg.BST_RING_CTRL y r) 0 = true →
    (u.ring y r).halted = true → Completes (receiver u c) c 0x42 .ok 0 []
      (if bit p1.toNat 8 then skipHalted y r u else u.modRing y r (fun k => { k with halted := false })) (exec (.resumeDrain dt c p1) s)) ∧
  (∀ (r : Fin 8) i b, let v := settleStore x u; let k := v.ring x r; let d := fetchItem x 2 i (v.modItem x i.id (fun j => { j with begun := true }))
    u.live x = true → k.halted = false → k.items.find? (fun i => i.block?.isSome && !i.read) = some i → i.block? = some b →
    egressRoom v x i.size = true →
    let ids := fun (z : Ring) => z.items.map (·.id); let o := exec (.drainRead dt x r none) s
    (d.2 = none → o = .next d.1 ∧ ids (d.1.ring x r) = ids k ∧ (d.1.side x).lnk.egress = (v.side x).lnk.egress) ∧
    (∀ w, d.2 = some w → w.bad = [] → Next (fun t =>
      (t.side x).lnk.egress = (v.side x).lnk.egress ++ [{ b with words := w.words, ring := some r.val }] ∧
      ids (t.ring x r) = ids k ∧ ∀ j ∈ (t.ring x r).items, j.id = i.id → j.read = true) o) ∧
    (∀ w, d.2 = some w → w.bad ≠ [] → Next (fun t => RaisedSide x 591 u t ∧ t.rd (Reg.BST_DRAIN_HALT x r) = b.id.record ∧
      (u.rb (Reg.BST_DRAIN_CTRL x) 0 = false → (t.ring x r).halted = true ∧ ids (t.ring x r) = ids k ∧
        (t.side x).lnk.egress = (v.side x).lnk.egress) ∧
      (u.rb (Reg.BST_DRAIN_CTRL x) 0 = true → (t.ring x r).halted = false)) o)) ∧
  (∀ ch : Fin 16, let k := u.chan x ch; let due := u.clock.ticks - (u.clock.ticks + 11700 - 731 * ch.val) % 11700
    (storeRuns u x = true → chanRetired u x ch = false →
      (731 * ch.val ≤ u.clock.ticks → k.lastDue < due → k.refresh = none →
        Happens [.bst x] (fun a => a = Reg.BST_REFRESH x ch ∨ a = Reg.BST_REFRESH_4 x ch) u (fun t => (t.chan x ch).lastDue = due ∧
          (8 ≤ k.owed ∨ ingestActive u x ch = false → (t.chan x ch).owed = k.owed ∧ (t.chan x ch).refresh = some u.clock.ticks) ∧
          (k.owed < 8 → ingestActive u x ch = true → (t.chan x ch).owed = k.owed + 1 ∧ (t.chan x ch).refresh = none) ∧
          (8 ≤ k.owed → t.rf (Reg.BST_REFRESH_4 x ch) 31 0 = min (u.rf (Reg.BST_REFRESH_4 x ch) 31 0 + 1) 4294967295))
          (exec (.refreshDue dt x ch) s)) ∧
      (k.refresh = none → 0 < k.owed → k.owed < 9 → ingestActive u x ch = false →
        exec (.ingestQuiet dt x ch) s = .next (u.modChan x ch (fun c => { c with
          owed := c.owed - 1
          refresh := some u.clock.ticks })))) ∧
    (∀ t0, k.refresh = some t0 → t0 + 885 ≤ u.clock.ticks → chanRetired u x ch = false → (∀ r, r < 8 → (u.ring x r).waiting = []) →
      Next (fun t => (t.chan x ch).queue = [] ∧ (k.owed = 0 → (t.chan x ch).refresh = none) ∧
        ∀ q, k.queue = [q] → ∀ w, w < q.words.length → Sparse.get (t.bst x).dram (q.loc * 8 + w) 0 =
          mixStore (wordMask q.mask w) (q.words.getD w 0) (Sparse.get (u.bst x).dram (q.loc * 8 + w) 0))
        (exec (.refreshEnd dt x ch) s))) ∧
  ((u.bst x).actsTick < u.clock.ticks / 96000000 → exec (.activateTableClear dt x) s = .next (u.modBst x (fun b => { b with
    acts := []
    actsTick := u.clock.ticks / 96000000 }))) ∧
  (u.live x = true → (u.bst x).intervalTick < u.clock.ticks / 3000000 →
    Happens (bothOf .evt ++ bothOf .bst ++ bothOf .tally) (inBlocks [17, 21]) u
      (fun t => (t.bst x).intervalTick = u.clock.ticks / 3000000 ∧ (t.bst x).classUse = [0, 0, 0, 0, 0] ∧
        (∀ k, k < 5 → t.rf (Reg.BST_CLASS_USE x k) 9 0 = rateOver (nth (u.bst x).classUse k)) ∧
        ∀ ch, ch < 16 → (t.chan x ch).traffic = 0 ∧ t.rf (Reg.BST_CHAN_USE x ch) 9 0 = rateOver (u.chan x ch).traffic)
      (exec (.imbalanceInterval dt x) s)) ∧
  (∀ (raw : List (BitVec 120)) g0 g, storeRuns u x = true → u.rb (Reg.BST_SCRUB_CTRL x) 16 = false → raw.length = 8 →
    patrolAt u x = some g0 → patrolFrom u x (2 ^ 27) g0 = some g → let loc := mapGranule (u.bst x).k1 (u.bst x).k2 g
    refreshing u x loc = false →
    Happens (bothOf .evt ++ bothOf .bst ++ bothOf .tally) (inBlocks [17, 21]) u (fun t =>
      (∀ h, patrolFrom u x (2 ^ 27) (g + 1) = some h → (t.bst x).patrol = some h) ∧
      (patrolFrom u x (2 ^ 27) (g + 1) = none → (t.bst x).patrol = none ∧
        t.rf (Reg.BST_SCRUB_STATUS x) 31 16 = (u.rf (Reg.BST_SCRUB_STATUS x) 31 16 + 1) % 65536) ∧
      ((u.bst x).patrol = none → (t.bst x).patrolTick = some u.clock.ticks) ∧
      ((u.chan x (locChan loc)).queue = [] → ∀ w, w < 8 → let v := raw.getD w 0; let d := decodeStore v; let cls := bits v.toNat 117 116
        Sparse.get (t.bst x).dram (loc * 8 + w) 0 = if d.bad then poisonStore (if cls = 3 then 0 else cls) d.word
          else if d.corrected then encodeStore (if cls = 3 then 0 else cls) d.word
          else if cls = 3 ∧ v.getLsbD 119 = true then encodeStore 0 d.word else v))
      (exec (.patrolScrubAccess dt x raw []) s)) ∧
  (∀ (raw : List (BitVec 120)) b, (u.bst x).patrol = none → (u.bst x).patrolTick = some b →
    u.clock.ticks < b + max 60 (u.rf (Reg.BST_SCRUB_CTRL x) 15 0) * 3000000000 → exec (.patrolScrubAccess dt x raw []) s = .next u) ∧
  (∀ (g : Fin 134217728) (w : Fin 8) (m : BitVec 9) (d : Word72), storeRuns u x = true → u.rb (Reg.BST_SCRUB_CTRL x) 16 = true →
    let loc := areaLoc (u.bst x) g
    itemAt u x loc = false → chanRetired u x (locChan loc) = false → rowRetired u x loc = false → refreshing u x loc = false →
    stagingRoom u x [loc] = true → m ≠ 0 → Happens (bothOf .evt ++ bothOf .bst ++ bothOf .tally) (inBlocks [17, 21]) u (fun t =>
      Sparse.get (t.bst x).dram (loc * 8 + w) 0 =
        mixStore m (if m = 0x1FF then encodeStore 0 d else encodeBytes d) (Sparse.get (u.bst x).dram (loc * 8 + w) 0) ∧
      ∀ k, k ≠ loc * 8 + w → Sparse.get (t.bst x).dram k 0 = Sparse.get (u.bst x).dram k 0)
      (exec (.patrolScrubAccess dt x [] [.write g w m d]) s))

/-! ### Lanes, ports and frames -/

/-- Detectors and training of a lane (R352, R354, R356, R357, R359, R360, R365): a used lane that loses its signal, its lock or two
ALIGN blocks in a row is a lane fault, counted and reported, and so is every other that misses its second in the same slot; its third
retires it, and its port leaves UP; a lane that gains lock begins the count of its port's training; an ALIGN block that carries its lane
gives the peer's fields and counts BIP errors, and a slot that has its block on every lane with lock, or that a lane's next block ends,
is judged, and two in a row that agree bring the port UP, once every lane that is not retired is locked or left out (log entry 120); a
lane without lock is left out in time. Every 16 384 blocks the port's own ALIGN blocks go on its lanes. -/
def Obligations.LanesAreWatchedAndTrained : Prop :=
  ∀ (dt : Nat) (x : Side) (p : Fin 16) (l : Fin 8) (s : State), let u := s.elapse dt; let n := u.lane x p l; let q := u.port x p
  let hit := u.laneUsed x p l = true ∧ u.laneRetired x p l = false
  let down := fun t : State => ((t.port x p).state = .training ∨ (t.port x p).state = .failed) ∧ RaisedSide x 600 u t ∧ RaisedSide x 602 u t
  let fault := fun t : State => t.rf (Reg.LNK_LANE_STATUS x p l) 15 8 = min (u.rf (Reg.LNK_LANE_STATUS x p l) 15 8 + 1) 255 ∧
    (n.faults.third u.now = false → (t.lane x p l).faults = n.faults.push u.now ∧ t.laneRetired x p l = u.laneRetired x p l) ∧
    (n.faults.third u.now = true → t.laneRetired x p l = true)
  (¬ hit → exec (.laneSignalLost dt x p l) s = .next (u.modLane x p l (fun n => { n with signal := false, lock := false })) ∧
    exec (.laneLockLost dt x p l) s = .next (u.modLane x p l (fun n => { n with lock := false })) ∧
    exec (.blockLockLost dt x p l) s = .next (u.modLane x p l (fun n => { n with lock := false, aligned := false }))) ∧
  (hit → Next (fun t => down t ∧ fault t ∧ (t.lane x p l).signal = false ∧ (t.lane x p l).lock = false)
      (exec (.laneSignalLost dt x p l) s) ∧
    Next (fun t => down t ∧ fault t ∧ (t.lane x p l).signal = n.signal ∧ (t.lane x p l).lock = false) (exec (.laneLockLost dt x p l) s) ∧
    Next (fun t => down t ∧ fault t ∧ (t.lane x p l).signal = n.signal ∧ (t.lane x p l).lock = false) (exec (.blockLockLost dt x p l) s) ∧
    (alignDue u x p = true → 2 ≤ n.missed → Next (fun t => down t ∧ fault t) (exec (.alignSlot dt x p) s))) ∧
  (alignDue u x p = false → exec (.alignSlot dt x p) s = .next u) ∧
  (alignDue u x p = true → (∀ k : Fin 8, u.laneUsed x p k = true → u.laneRetired x p k = true ∨ (u.lane x p k).missed < 2) →
    Happens [.lnk x] noReg u
    (fun t => (∀ k : Fin 8, t.lane x p k = if u.laneUsed x p k then { u.lane x p k with missed := (u.lane x p k).missed + 1 } else u.lane x p k) ∧
      (t.port x p).alignTick = some u.clock.ticks ∧
      ((q.state = .training ∨ q.state = .up) → (t.port x p).wire =
        .lanes (((List.range 8).filter (fun l => !u.laneRetired x p l)).map (fun l => (l, sentAlign u x p l)))))
    (exec (.alignSlot dt x p) s)) ∧
  exec (.laneSignalReturn dt x p l) s = .next (u.modLane x p l (fun n => { n with signal := true })) ∧
  Happens [.lnk x] noReg u (fun t => t.lane x p l = { n with signal := true, lock := true } ∧
    (t.port x p).firstLock = if q.state = .training ∧ q.firstLock = none then some u.clock.ticks else q.firstLock)
    (exec (.blockLockGained dt x p l) s) ∧
  (∀ t0, q.firstLock = some t0 → q.state = .training → n.lock = false → n.excluded = false → u.laneRetired x p l = false →
    t0 + 3000000 ≤ u.clock.ticks → Next (fun t => fault t ∧ (t.lane x p l).excluded = true ∧ RaisedSide x 600 u t)
      (exec (.trainingLaneTimeout dt x p l) s)) ∧
  (∀ (blk : BitVec 56) (bip : Byte), n.lock = true → q.state = .training ∨ q.state = .up →
    let v := blk.toNat; let z := slotMissed x p l u
    let errs := ((List.range 8).filter (fun i => (bip ^^^ blk.extractLsb' 24 8).getLsbD i)).length
    let b := z.bump (Reg.LNK_LANE_STATUS x p l) 23 16 errs
    let w := (b.modLane x p l (fun n => { n with
      aligned := true, seen := true, missed := 0, peerLanes := blk.extractLsb' 32 8, peerWmax := bits v 20 19 })).modPort x p
        (fun q => { q with peerId := bits v 47 40, peerRole := bits v 23 21 })
    let o := exec (.alignReceived dt x p l blk bip) s
    z = (if q.state = .training ∧ n.seen = true then trainSlot x p u else u) ∧
    (bits v 51 49 ≠ l.val → o = .next (trainFull x p (b.modLane x p l (fun n => { n with aligned := false, seen := true })))) ∧
    (bits v 51 49 = l.val → o = .next (trainFull x p w))) ∧
  (∀ v : State, let q := v.port x p
    let y := (List.range 8).foldl (fun t l => t.modLane x p l (fun k => { k with aligned := k.aligned && k.seen, seen := false })) v
    let set := workingSet y x p; let own := v.rf (Reg.LNK_PORT_CTRL x p) 11 10
    let peer := set.foldl (fun m i => max m (y.lane x p i).peerWmax) 0
    let same := q.lastSet = laneMask set ∧ q.lastWmax = 4 * own + peer
    trainFull x p v = (if q.state = .training ∧ slotFull v x p = true then trainSlot x p v else v) ∧
    (q.state = .training → ((set = [] ∨ lanesSettled y x p = false) → trainSlot x p v = y.modPort x p (fun q => { q with stable := 0 })) ∧
      (set ≠ [] → lanesSettled y x p = true → let t := trainSlot x p v
        (∀ c, same → 1 ≤ q.stable → roleFits q.role q.peerRole = true → widthCode set.length own peer = some c →
          (t.port x p).state = .up ∧ (t.port x p).width = c ∧ (t.port x p).used = laneMask (set.take (widthOf c)) ∧
          (widthOf c < q.prevWidth → RaisedSide x 603 v t)) ∧
        (q.stable = 0 ∨ ¬ same → (t.port x p).state = .training ∧ (t.port x p).stable = 1 ∧
          (t.port x p).lastSet = laneMask set ∧ (t.port x p).lastWmax = 4 * own + peer))))

/-- What ports receive (R351, R358, R368, R371–R374, R415): a PAUSE sets the pauses of its streams, which end in time; CREDIT blocks
give and return credits, and their absence for 1 ms takes the port out of UP with events 607 and 602; a frame that fails its checks or
its port's role, and on a port that trains or is UP a block that nothing defines, are counted; of such a frame a lace port frees what it
has received (R374, log entry 155). -/
def Obligations.PortsTakeControlFrames : Prop :=
  ∀ (dt : Nat) (x : Side) (p : Fin 16) (f : RxFrame) (s : State), let u := s.elapse dt; let q := u.port x p; let st := sofStream f.sof
  let bad := fun t : State => t.rf (Reg.LNK_PORT_ERR x p) 23 16 = min (u.rf (Reg.LNK_PORT_ERR x p) 23 16 + 1) 255 ∧
    t.rf (Reg.LNK_PORT_ERR x p) 31 24 = u.rf (Reg.LNK_PORT_ERR x p) 31 24
  let good := q.state = .up ∧ checkFrame f = .ok ∧ roleAccepts (u.role x p) (sofType f.sof) = true
  (good → sofType f.sof = 6 → sofLen f.sof = 1 → Happens [.lnk x] (fun a => a = Reg.LNK_PORT_RX x p ∨ a = Reg.LNK_PORT_PAUSE x p) u
    (fun t => t.rd (Reg.LNK_PORT_RX x p) = u.rd (Reg.LNK_PORT_RX x p) + 1 ∧
      t.rf (Reg.LNK_PORT_PAUSE x p) 31 16 = min (u.rf (Reg.LNK_PORT_PAUSE x p) 31 16 + 1) 65535 ∧
      let w := bits (f.words.headD 0).toNat 15 0
      let pause : PauseState := if w = 0 then .none else if w = 0xFFFF then .open_ else .ticks (u.clock.ticks + w * 3000)
      (t.port x p).pauses = if st = 7 then q.pauses.map (fun _ => pause)
        else if st ≤ 2 then q.pauses.set st pause else if st = 6 then q.pauses.set 3 pause else q.pauses) (exec (.pause dt x p f) s)) ∧
  (good → sofType f.sof = 6 → sofLen f.sof ≠ 1 → Happens [.tally x, .lnk x] (fun a => a = Reg.LNK_PORT_ERR x p) u bad
      (exec (.pause dt x p f) s)) ∧
  (q.state = .up → checkFrame f = .format ∨ (checkFrame f = .ok ∧ roleAccepts (u.role x p) (sofType f.sof) = false) →
    Happens [.tally x, .lnk x] (fun a => a = Reg.LNK_PORT_ERR x p) u (fun t => bad t ∧
      (t.port x p).rxFreed = if laceRole (u.role x p) then (q.rxFreed + (f.words.length + 7) / 8) % 65536 else q.rxFreed)
      (exec (.frameNotAccepted dt x p f) s)) ∧
  (q.state = .up → checkFrame f = .crc → Happens (.lnk x :: raising) (fun a => raiseRegs a ∨ a = Reg.LNK_PORT_ERR x p) u
    (fun t => t.rf (Reg.LNK_PORT_ERR x p) 31 24 = min (u.rf (Reg.LNK_PORT_ERR x p) 31 24 + 1) 255 ∧ (t.port x p).crcSeen = true ∧
      (q.crcSeen = false → RaisedSide x 605 u t)) (exec (.frameNotAccepted dt x p f) s)) ∧
  (∀ (typ : Byte) (blk : BitVec 56), q.state = .up ∨ q.state = .training → typ ∉ [0x1E#8, 0x2D#8, 0x33#8, 0xE1#8] → ¬ (0x80 ≤ typ.toNat ∧
    typ.toNat ≤ 0xBF) →
    (typ = 0x66 → bits blk.toNat 55 52 = 0 ∨ 8 ≤ bits blk.toNat 55 52) →
    Happens [] (fun a => a = Reg.LNK_PORT_ERR x p) u bad (exec (.invalidControlBlock dt x p typ blk) s)) ∧
  (∀ i : Fin 4, q.pauses.getD i .none ≠ .none → (q.pauses.getD i .none).holds u.clock.ticks = false →
    Happens [.lnk x] noReg u (fun t => (t.port x p).pauses = q.pauses.set i .none) (exec (.pauseExpiry dt x p i) s)) ∧
  (q.state = .up → laceRole (u.role x p) = true →
    (∀ blk : BitVec 56, Happens [.lnk x] noReg u (fun t => (t.port x p).freed = bits blk.toNat 55 40 ∧
      (t.port x p).creditTick = u.clock.ticks) (exec (.creditReceived dt x p blk) s)) ∧
    (16 ≤ (q.rxFreed + 65536 - q.rxReported) % 65536 ∨ q.rxSentTick + 3000 ≤ u.clock.ticks →
      exec (.creditSend dt x p) s = .next (u.modPort x p (fun q =>
        { q.put (.stream [creditBlock q.rxFreed]) with rxReported := q.rxFreed, rxSentTick := u.clock.ticks }))) ∧
    (q.creditTick + 3000000 ≤ u.clock.ticks → Next (fun t => ((t.port x p).state = .training ∨ (t.port x p).state = .failed) ∧
      t.rf (Reg.LNK_PORT_CREDIT x p) 31 16 = min (u.rf (Reg.LNK_PORT_CREDIT x p) 31 16 + 1) 65535 ∧ RaisedSide x 607 u t ∧ RaisedSide x 602 u t)
      (exec (.creditStall dt x p) s)))

/-- Blocks and frames through the ports (R237, R369, R370, R373, R376, R406, R408, R428, R432, R483): the first block of the egress
buffer that has a port goes to it; a frame that ends is counted, what a command left for the time after its reply happens (log entry
156), the last of a block takes the block off its port, and an EVENT frame's entries count as sent; a frame that comes up from a child
waits in its port's batch, or answers an ARRAY_BARRIER (log entry 22), and one that comes down, or from a second master, or below depth
8, only gives its buffer back (log entry 65); a batch that ends becomes an item, which its producer holds while the ready list is full
or an older one of the port waits. -/
def Obligations.BlocksAndFramesCrossThePorts : Prop :=
  ∀ (dt : Nat) (x : Side) (p : Fin 16) (s : State), let u := s.elapse dt; let q := u.port x p; let e := (u.side x).lnk.egress
  (∀ (i j : Nat) b, e.findIdx? (fun b => (assignPort u x b).isSome) = some i → e[i]? = some b → assignPort u x b = some j →
    Happens [.lnk x] noReg u (fun t => (t.side x).lnk.egress = e.eraseIdx i ∧ (t.port x j).blocks = (u.port x j).blocks ++ [b])
      (exec (.blockAssign dt x) s)) ∧
  (∀ f a, q.out = some f → q.waiting.contains f = false → (u.side x).lnk.later = [(p.val, f, a)] → exec (.dataFrameSent dt x p) s =
    .next (portNext x p (runAfter a ((frameSent x p f u).modLnk x (fun l => { l with later := [] }))))) ∧
  (∀ f, q.out = some f → (∀ e ∈ (u.side x).lnk.later, e.1 ≠ p.val) → Next (fun t =>
      t.rd (Reg.LNK_PORT_TX x p) = u.rd (Reg.LNK_PORT_TX x p) + 1 ∧
      (f.type = 0 → f.last = true → (t.port x p).blocks = q.blocks.tail) ∧
      ((f.type ≠ 0 ∨ f.last = false) → (t.port x p).blocks = q.blocks) ∧
      (f.type = 3 → f.stream = 4 → f.origin = u.moduleId x → f.replica = sideNum x → ∀ a ∈ (t.side x).evt.queue,
        (frameSeqs f).contains a.seq = true → p.val ∈ a.sent ∧ p.val ∉ a.sending)) (exec (.dataFrameSent dt x p) s)) ∧
  (∀ f : RxFrame, let g := frameOf f; let gone := fun t : State => (t.port x p).rxFreed = (q.rxFreed + sofLen f.sof) % 65536
    q.state = .up → checkFrame f = .ok → sofType f.sof ≠ 1 → sofType f.sof ≤ 5 →
    (u.role x p = 2 → Happens [.lnk x] (fun a => a = Reg.LNK_PORT_RX x p) u gone (exec (.laceFrameReceived dt x p f) s)) ∧
    (u.role x p = 3 → ((u.child x p).master = true ∨ u.depth = 8) →
      Happens [.lnk x] (fun a => a = Reg.LNK_PORT_RX x p) u gone (exec (.laceFrameReceived dt x p f) s)) ∧
    (u.role x p = 3 → (u.child x p).master = false → u.depth ≠ 8 → barrierAnswer u x p g = none →
        Next (fun t => t.rd (Reg.LNK_PORT_RX x p) = u.rd (Reg.LNK_PORT_RX x p) + 1 ∧
      (batchOf t x p).map (·.2) = (batchOf u x p).map (·.2) ++ [g] ∧
      (batchOf u x p = [] → Sparse.get (t.side x).lce.batchTick p 0 = u.clock.ticks)) (exec (.laceFrameReceived dt x p f) s)) ∧
    (∀ b, u.role x p = 3 → (u.child x p).master = false → u.depth ≠ 8 → barrierAnswer u x p g = some b → let c := b.add u x p g
      let open_ := u.lace.barriers.map (fun k => if k = b then c else k)
      let d := { c with left := c.left.filter (fun q => (u.port (sideOf q.1) q.2).state = .up) }
      exec (.laceFrameReceived dt x p f) s =
        .next (barrierCheck ((freeGroups x p (sofLen f.sof) (u.count (Reg.LNK_PORT_RX x p) 31 0 1)).modLace (fun l => { l with barriers := open_ }))) ∧
      (u.lace.barriers = [b] → Next (fun t => t.lace.barriers = if barrierDone d u then [] else [d])
          (exec (.laceFrameReceived dt x p f) s)))) ∧
  (batchOf u x p ≠ [] → Sparse.get (u.side x).lce.batchTick p 0 + 3000 ≤ u.clock.ticks →
    let v := admitBatch x p u; let m := takeBatch (batchOf v x p)
    Next (fun t => batchOf t x p = m.2 ∧ Sparse.get (t.side x).lce.batchTick p 0 = u.clock.ticks ∧
      (m.1 = [] → (t.side x).dsp.ready = (u.side x).dsp.ready) ∧
      (let w := Work.merge p m.1; let d := (u.side x).dsp
        m.1 ≠ [] → ((behindMerge d w = false ∧ d.ready.length < 4096) → (t.side x).dsp.ready =
          d.ready ++ [(prioOf u x w, ⟨w, u.clock.ticks⟩)]) ∧
        ((behindMerge d w = true ∨ 4096 ≤ d.ready.length) → (t.side x).dsp.ready = d.ready ∧
          (t.side x).dsp.held = d.held ++ [⟨w, u.clock.ticks⟩]))) (exec (.laceBatchEnd dt x p) s))

/-! ### Lace arrays -/

/-- Timing exchanges with the children (R404, R408, R415, R416, R419): a port starts its exchange every 1 ms, an ECHO within 10 us gives
the round trip and is answered with FOLLOW and RTT, one that is late or does not come is given up; TIMING blocks of one tick go out
together; REACH and ROSTER blocks say what stands below, and a lace that is too deep or has a MODULE_ID twice is reported once. -/
def Obligations.ParentsMeasureTheirChildren : Prop :=
  ∀ (dt : Nat) (x : Side) (p : Fin 16) (blk : BitVec 56) (fu : Fin 1024) (s : State), let u := s.elapse dt; let e := u.exchange x p
  let v := blk.toNat; let n := (e.seq + 1) % 4; let kids := u.role x p = 3 ∧ (u.port x p).state = .up
  let source := u.role x p = 4 ∧ (u.port x p).state ≠ .disabled ∧ (u.port x p).state ≠ .failed
  let sends := fun (l : List (Nat × BitVec 56)) (t : State) => (t.side x).lce.timing =
    (if (u.side x).lce.timingTick = u.clock.ticks then (u.side x).lce.timing else []) ++ l
  (u.live x = true → e.started = 0 ∨ e.started + 3000000 ≤ u.clock.ticks → kids ∨ source → Happens [.lce x, .lnk x] noReg u
    (fun t => t.exchange x p = { e with
        seq := n
        t1 := u.now
        t1Fine := u.clock.fine
        started := u.clock.ticks
        waiting := decide kids } ∧ (t.side x).lce.idHeld = none ∧
      (kids → sends [(p.val, timingBlock 1 n 0)] t) ∧
      (source → sends [(p.val, timingBlock 1 n 0),
        (p.val, timingBlock 3 n (u.now.toNat % 2 ^ 40 * 1024 + u.clock.fine)), (p.val, timingBlock 4 n (u.now.toNat / 2 ^ 40 * 2 ^ 26))] t))
    (exec (.laceExchangeStart dt x p) s)) ∧
  (bits v 55 52 = 2 → e.waiting = true → bits v 51 50 = e.seq → (u.port x p).state = .up → e.started + 30000 < u.clock.ticks →
    exec (.echoReceived dt x p blk fu) s = .next (u.modExchange x p (fun e => { e with waiting := false }))) ∧
  (bits v 55 52 = 2 → e.waiting = true → bits v 51 50 = e.seq → (u.port x p).state = .up → u.clock.ticks ≤ e.started + 30000 →
    let rtt := ((since u.now e.t1 * 1024 : Nat) + (fu.val : Int) - e.t1Fine - bits v 29 0).toNat % 2 ^ 26
    Happens [.lce x, .lnk x] noReg u (fun t => t.exchange x p = { e with waiting := false, hist := (rtt :: e.hist).take 16 } ∧
      sends [(p.val, timingBlock 3 e.seq (e.t1.toNat % 2 ^ 40 * 1024 + e.t1Fine)),
        (p.val, timingBlock 4 e.seq (e.t1.toNat / 2 ^ 40 * 2 ^ 26 + rtt))] t) (exec (.echoReceived dt x p blk fu) s)) ∧
  (e.waiting = true → e.started + 30000 ≤ u.clock.ticks →
    exec (.exchangeTimeout dt x p) s = .next (u.modExchange x p (fun e => { e with waiting := false }))) ∧
  (bits v 55 52 = 5 → kids →
    (u.depth ≠ 8 → Happens [.lce x] noReg u (fun t => t.child x p = { u.child x p with
        master := bit v 51
        dup := bit v 50
        depth := bits v 49 46
        modules := bits v 40 32
        reach := bits v 23 0 }) (exec (.reachReceived dt x p blk) s)) ∧
    (u.depth = 8 → Happens raising (fun a => raiseRegs a ∨ a = Reg.LCE_STATUS x) u (fun t => t.rb (Reg.LCE_STATUS x) 16 = true ∧
      (u.rb (Reg.LCE_STATUS x) 16 = false → RaisedSide x 626 u t) ∧ (u.rb (Reg.LCE_STATUS x) 16 = true → t = u))
      (exec (.reachReceived dt x p blk) s))) ∧
  (bits v 55 52 = 6 → kids → u.depth ≠ 8 → let i := bits v 51 49
    Happens (.lce x :: raising) (fun a => raiseRegs a ∨ a = Reg.LCE_STATUS x) u (fun t =>
      (∀ k, k < 256 → (t.child x p).roster.getLsbD k =
        if 32 * i ≤ k ∧ k < 32 * i + 32 then v.testBit (k - 32 * i) else (u.child x p).roster.getLsbD k) ∧
      t.rb (Reg.LCE_STATUS x) 17 = rosterDup t x ∧
      (rosterDup t x = true → u.rb (Reg.LCE_STATUS x) 17 = false → RaisedSide x 622 u t)) (exec (.rosterReceived dt x p blk) s))

/-- Timing exchanges with the parent (R408, R415–R417, R421): a PROBE is answered with ECHO, REACH and the ROSTER chunks, brings a new
MODULE_ID into use and fixes the asymmetry of its exchange; FOLLOW gives T1, and RTT the offset of the tree and the depth below the far
end's (log entry 8); on the side that holds PRIMARY an attached module slews the offset, a small one over the next interval and else at
1 ppm, or steps it with event 625, which ends a run in progress; on the other side it is shown. The HOLD of the ECHO is a free value
(log entry 4); the rate of a slew is log entry 18, and of two stops the earlier stands (log entry 135). -/
def Obligations.ChildrenFollowTheirParent : Prop :=
  ∀ (dt : Nat) (x : Side) (blk : BitVec 56) (fu : Fin 1024) (s : State), let u := s.elapse dt; let v := blk.toNat; let l := (u.side x).lce
  (∀ p, u.upPort x = some p → bits v 55 52 = 1 → (u.port x p).state = .up → let w := u.modLce x (fun l => { l with idHeld := none })
    Happens [.lce x, .lnk x, .freeCount] noReg u
    (fun t => (t.side x).lce.t2 = u.now ∧ (t.side x).lce.t2Fine = fu.val ∧ (t.side x).lce.upSeq = bits v 51 50 ∧
      (t.side x).lce.gotFollow = false ∧ (t.side x).lce.idHeld = none ∧
      (t.side x).lce.asym = u.rf (Reg.LCE_ASYM u.arb.primary) 19 0 ∧ ∃ hold reach, hold ≤ 3072000 ∧ (t.side x).lce.timing =
        (if l.timingTick = u.clock.ticks then l.timing else []) ++
          (p, timingBlock 2 (bits v 51 50) hold) :: (p, reach) :: (List.range 8).map (fun i =>
          (p, BitVec.ofNat 56 (6 * 2 ^ 52 + i * 2 ^ 49 + bits (rosterOf w x).toNat (32 * i + 31) (32 * i)))) ∧
        bits reach.toNat 55 52 = 5 ∧ bits reach.toNat 49 46 = u.depth % 16 ∧ bits reach.toNat 23 0 = reachOf u x % 2 ^ 24 ∧
          bits reach.toNat 40 32 = modulesOf u x % 512)
    (exec (.probeReceived dt x blk fu) s)) ∧
  (bits v 55 52 = 3 → bits v 51 50 = l.upSeq → exec (.followReceived dt x blk) s =
    .next (u.modLce x (fun l => { l with t1Low := bits v 49 10, t1Fine := bits v 9 0, gotFollow := true }))) ∧
  (∀ p far, u.upPort x = some p → (u.port x p).state = .up → bits v 55 52 = 4 → bits v 51 50 = l.upSeq → l.gotFollow = true →
    u.power.strapMaster = false →
    let hist := (bits v 25 0 :: l.upHist).take 16; let mean := meanOf hist
    let t1 : Time := if l.exchanged then extend40 l.t1Low u.now else BitVec.ofNat 64 (bits v 49 26 * 2 ^ 40 + l.t1Low)
    let e : Int := (t1 - l.t2).toInt * 1024 + l.t1Fine - l.t2Fine + (mean / 2 : Nat) - signed 20 l.asym
    let near := e.natAbs < 1024; let good := if near then min (l.good + 1) 16 else 0
    let slews := near ∨ u.lace.newTree = true ∨ (u.trg.run ≠ .idle ∧ e.natAbs < 3000 * 1024)
    let d := match far with
      | some (k, _) => if k.val < 8 then k.val + 1 else 0
      | none => 0
    Next (fun t => (t.side x).lce.upHist = hist ∧ (t.side x).lce.gotFollow = false ∧ (t.side x).lce.exchanged = true ∧
      (t.side x).lce.depth = d ∧ t.rf (Reg.LCE_RTT x) 25 0 = mean % 2 ^ 26 ∧ (d = 0 → t.rf (Reg.LCE_PATH x) 23 0 = 0) ∧
      (x ≠ u.arb.primary → t.clock = u.clock ∧ ∀ y, t.rd (Reg.LCE_TREE_DIFF y) = sat32 e) ∧
      (x = u.arb.primary → t.rd (Reg.LCE_OFFSET x) = sat32 e) ∧ (x = u.arb.primary → d = 0 → t.clock = u.clock) ∧
      (x = u.arb.primary → d ≠ 0 → (t.side x).lce.good = good ∧ (near → t.lace.newTree = false) ∧
        t.lace.onTree = true ∧
        (∀ y, t.rb (Reg.LCE_STATUS y) 15 = decide (16 ≤ good) ∧ t.rb (Reg.LCE_STATUS y) 14 = false) ∧
        (slews → t.clock = { u.clock with
          slew := e
          slewRate := if near then e.natAbs else 3072
          slewRest := 0 }) ∧
        (¬ slews → t.clock = (stepTime e u).clock ∧ (u.trg.run = .running → t.trg.stopAt =
            some (match u.trg.stopAt with | some b => earlier b t.now | none => t.now)) ∧ (u.trg.run = .armed → t.trg.run = .idle) ∧
          (u.live x = true → Sparse.get (t.side x).evt.recs (srcOn x 625) SrcRec.zero =
            (Sparse.get (u.side x).evt.recs (srcOn x 625) SrcRec.zero).raise t.now)))) (exec (.rttReceived dt x blk far) s))

/-- The trigger bus and the master's references (R411–R413, R423, R424): a BUS block goes down from the root and is kept as one
assertion, delivered 16 ticks later, and goes up below it; the loss of the reference clock is reported and its lock shown; an edge of
PPS sets the time that waits for it and answers its command (log entry 27), shows its error by the time it then has (log entry 160) and
steers array time, at 1 ppm where it does not step it (log entry 18). Which way a BUS block goes on is log entry 21. -/
def Obligations.TheBusAndTheReferencesAreFollowed : Prop :=
  ∀ (dt : Nat) (s : State), let u := s.elapse dt
  (∀ (x : Side) (p : Fin 16) (blk : BitVec 56), bits blk.toNat 55 52 = 7 → (u.port x p).state = .up →
    let line := bits blk.toNat 51 49; let eff := extend40 (bits blk.toNat 39 0) u.now
    let kept := fun t : State => (∃ a ∈ t.lace.bus, a.line = line ∧ a.eff = eff) ∧
      ((∀ a ∈ u.lace.bus, a.line ≠ line ∨ a.eff ≠ eff) → ∃ r, t.lace.bus = r ++ [⟨line, eff, u.now + 16, false⟩])
    let sends := fun (y : Side) (l : List (Nat × BitVec 56)) (t : State) => (t.side y).lce.timing =
      (if (u.side y).lce.timingTick = u.clock.ticks then (u.side y).lce.timing else []) ++ l
    let o := exec (.busBlockReceived dt x p blk) s; let below := u.role x p = 3 ∧ (u.child x p).master = false ∧ u.depth ≠ 8
    (u.role x p = 2 → u.power.strapMaster = false → Happens [.lace, .lce x, .lnk x] noReg u
      (fun t => kept t ∧ sends x ((downPorts u x).map (fun p => (p, blk))) t) o) ∧
    (below → u.isRoot = true → Happens [.lace, .lce .a, .lce .b, .lnk .a, .lnk .b] noReg u
      (fun t => kept t ∧ ∀ y, sends y ((downPorts u y).map (fun p => (p, blk))) t) o) ∧
    (∀ q, below → u.isRoot = false → u.upPort x = some q → Happens [.lce x, .lnk x] noReg u (fun t => sends x [(q, blk)] t) o)) ∧
  (refSelected u = true →
    (u.rb (Reg.LCE_STATUS u.arb.primary) 13 = true → Happens raising (fun a => raiseRegs a ∨ ∃ y, a = Reg.LCE_STATUS y) u
      (fun t => ∀ y, t.rb (Reg.LCE_STATUS y) 13 = false ∧ RaisedSide y 627 u t) (exec (.refinLost dt) s)) ∧
    Happens [] (fun a => ∃ y, a = Reg.LCE_STATUS y) u (fun t => ∀ y, t.rb (Reg.LCE_STATUS y) 13 = true) (exec (.refinLock dt) s)) ∧
  (u.power.strapMaster = true → u.rb (Reg.LCE_CTRL u.arb.primary) 0 = true → u.power.booted = true →
    (∀ l v w, u.lace.timeSet = l ++ [(v, w)] → u.lace.barriers = [] → let e := ppsError v (u.rd (Reg.LCE_PPS_PHASE u.arb.primary)).toNat
      let good := if e = 0 then min (u.lace.ppsGood + 1) 16 else 0; let steps := u.trg.run = .idle ∧ 3000 ≤ e.natAbs
      Happens (.clock :: .lace :: answering) (fun a => answerRegs a ∨ ∃ y, a = Reg.LCE_PPS_ERR y ∨ a = Reg.LCE_STATUS y) u
      (fun t => t.lace.timeSet = [] ∧ t.lace.ppsGood = good ∧ t.clock.setTick = u.clock.ticks ∧
        (∀ y, t.rd (Reg.LCE_PPS_ERR y) = sat32 e ∧ t.rb (Reg.LCE_STATUS y) 12 = decide (16 ≤ good)) ∧
        (let k := fun now slew rate rest => { u.clock with
            now := now
            fine := 0
            slew := slew
            slewRate := rate
            slewRest := rest
            setTick := u.clock.ticks
            boundary := t.clock.boundary };
          (steps → t.clock = k (v + BitVec.ofInt 64 (-e)) 0 u.clock.slewRate u.clock.slewRest) ∧
          (¬ steps → t.clock = k v (-e * 1024) 3072 0)) ∧
        Replied w.x w.ctx 0x74 .ok (u.now.setWidth 32) [paramWord ((u.now >>> 32).setWidth 32)] t) (exec (.ppsEdge dt) s)) ∧
    (u.lace.timeSet = [] → let e := ppsError u.now (u.rd (Reg.LCE_PPS_PHASE u.arb.primary)).toNat
      let good := if e = 0 then min (u.lace.ppsGood + 1) 16 else 0; let steps := u.trg.run = .idle ∧ 3000 ≤ e.natAbs
      Happens [.clock, .lace] (fun a => ∃ y, a = Reg.LCE_PPS_ERR y ∨ a = Reg.LCE_STATUS y) u
        (fun t => t.lace.ppsGood = good ∧ (∀ y, t.rd (Reg.LCE_PPS_ERR y) = sat32 e ∧ t.rb (Reg.LCE_STATUS y) 12 = decide (16 ≤ good)) ∧
          (steps → t.clock = (stepTime (-e * 1024) u).clock) ∧ (¬ steps → t.clock = { u.clock with
            slew := -e * 1024
            slewRate := 3072
            slewRest := 0 }))
        (exec (.ppsEdge dt) s)))

/-- Array commands (R406, R414, R422, R426–R430, R434, R492, R494): the master sends a copy down every lace port of both trees;
ARRAY_BROADCAST takes its inner packet up as a command; ARRAY_BARRIER answers at once, or waits for the children and for the commands
accepted before it; a snapshot and a reset are set for a T far enough away, and refused as LATE otherwise; TIME_SET acts, or waits for
PPS; at T, and at each period, a capture enters a delay list. LCE_OPS counts on both sides when the command is accepted. Where a
TIME_SET acts, V − 1 stands in the tick of its acceptance (log entry 122); of several resets that wait the earliest is kept (log entry
123). LCE_OPS on both sides is log entry 131, the place of a reply's first word log entry 11, and whom a barrier awaits log entry 22. -/
def Obligations.ArrayCommandsTakeEffect : Prop :=
  ∀ (dt : Nat) (c : Ctx) (s : State), let u := s.elapse dt; let x := receiver u c; let k := taken x c u
  let sent := fun (op : Nat) (p1 : Word) (ws : List Word72) (t : State) => c.bcast = false → u.power.strapMaster = true →
    ∀ y, ∀ p ∈ downPorts u y, ∃ f ∈ (t.port y p).waiting, f.type = 1 ∧
      f.words = padGroup (packetOf op { c with target := 0xFF } true p1 ws)
  let ops := fun t : State => ∀ y, u.live y = true → t.rf (Reg.LCE_OPS y) 15 0 = min (u.rf (Reg.LCE_OPS y) 15 0 + 1) 65535
  let opsReg := fun a : Nat => answerRegs a ∨ ∃ y, a = Reg.LCE_OPS y
  (∀ inner : List Word72, 2 ≤ inner.length → inner.length ≤ 31 → innerOk inner = true → c.via ≠ .inner →
    Admitted c (.arrayBroadcast inner) none u → let op := innerOp inner; let n := bits (inner.headD 0).toNat 55 48
    let barred := (0x70 ≤ op ∧ op ≤ 0x74) ∨ op = 0x7E ∨ op = 0x7F ∨ op ∉ knownOps; let y := u.arb.primary
    Happens (answering ++ raising) (fun a => opsReg a ∨ raiseRegs a ∨ a = Reg.MGT_QUEUE y) u (fun t => Replied x c 0x70 .ok 0 [] t ∧
      sent 0x70 0 inner t ∧ ops t ∧ (barred → innerRefusal inner = some .badOpcode) ∧
      (∀ st, innerRefusal inner = some st →
        (∀ z, u.live z = true → t.rf (Reg.LCE_BCAST z) 15 8 = op ∧ t.rf (Reg.LCE_BCAST z) 7 0 = st.code) ∧
        ∀ z, (t.side z).mgt.queue = (k.side z).mgt.queue) ∧
      (innerRefusal inner = none → (k.side y).mgt.queue.length < 64 → (t.side y).mgt.queue =
        placePacket ⟨.inner, inner.take (n + 1), (inner.getD (n + 1) 0).setWidth 32, arrivedAt c u⟩ (k.side y).mgt.queue))
      (exec (.arrayBroadcast dt c inner) s)) ∧
  (Admitted c .arrayBarrier none u → let y := u.arb.primary; let own := bcastBad u x
    let below := if u.power.strapMaster = true ∨ c.bcast = true then barrierPorts u else []
    let low := if own then min 0xFF (u.moduleId x) else 0xFF
    let b : Barrier := ⟨⟨x, 0x71, c, u.clock.ticks⟩, below, 1, 0, 0xFF⟩
    let early := barrierDone { b with left := [] } k
    let z := if c.bcast then y else x
    (below = [] → early = true → Happens (.lace :: answering) opsReg u (fun t => ops t ∧ t.lace.barriers = [] ∧
      Replied z (barrierCtx b u) 0x71 .ok 1 [BitVec.ofNat 72 (b2n own), BitVec.ofNat 72 low, BitVec.ofNat 72 (arrayReach u z)] t)
      (exec (.arrayBarrier dt c) s)) ∧
    (below ≠ [] ∨ early = false → Happens (.lace :: answering) opsReg u (fun t => ops t ∧ sent 0x71 0 [] t ∧
      t.lace.barriers = [b])
      (exec (.arrayBarrier dt c) s))) ∧
  (∀ (op : Nat) (t0 : Time), let o := if op = 0x72 then exec (.arraySnapshot dt c t0) s else exec (.arrayReset dt c t0) s
    let below := c.bcast = true ∨ u.isRoot = false; let lead := (if c.bcast || !u.isRoot then 0 else arrayReach u x) + 6000
    op = 0x72 ∨ op = 0x73 → Admitted c (.scheduled op t0) none u →
    (c.sched = false ∨ t0.toNat % 8 ≠ 0 → Completes x c op .badParam 0 [] u o) ∧
    (c.sched = true → t0.toNat % 8 = 0 → (t0 - u.now).toInt < lead → ¬ below → Completes x c op .late 0 [] u o) ∧
    (c.sched = true → t0.toNat % 8 = 0 → (t0 - u.now).toInt < lead → below → Next (fun t => RaisedSide x 623 u t ∧
      (∀ y, u.live y = true → t.rf (Reg.LCE_OPS y) 31 16 = min (u.rf (Reg.LCE_OPS y) 31 16 + 1) 65535) ∧
      Replied x c op .late 0 [] t) o) ∧
    (c.sched = true → t0.toNat % 8 = 0 → lead ≤ (t0 - u.now).toInt → Happens (.lace :: answering) opsReg u (fun t =>
      Replied x c op .ok 0 [] t ∧ sent op (t0.setWidth 32) [paramWord ((t0 >>> 32).setWidth 32)] t ∧ ops t ∧
      (op = 0x72 → t.lace = { u.lace with snapshotAt := u.lace.snapshotAt ++ [t0] }) ∧
      (op = 0x73 → t.lace = { u.lace with resetAt := some (match u.lace.resetAt with | some b => earlier b t0 | none => t0) })) o)) ∧
  (∀ (v : Time) (p3 : Word), Admitted c (.timeSet v p3) none u → let o := exec (.timeSet dt c v p3) s
    (u.power.strapMaster = false ∨ u.trg.run ≠ .idle → Completes x c 0x74 .wrongState 0 [] u o) ∧
    (u.power.strapMaster = true → u.trg.run = .idle →
      (bit p3.toNat 0 = false → Completes x c 0x74 .ok (u.now.setWidth 32) [paramWord ((u.now >>> 32).setWidth 32)] (setTime (v - 1) u) o) ∧
      (bit p3.toNat 0 = true → u.rb (Reg.LCE_CTRL u.arb.primary) 0 = false → Completes x c 0x74 .notReady 0 [] u o) ∧
      (bit p3.toNat 0 = true → u.rb (Reg.LCE_CTRL u.arb.primary) 0 = true →
        o = .next (k.modLace (fun b => { b with timeSet := b.timeSet ++ [(v, ⟨x, 0x74, c, u.clock.ticks⟩)] }))))) ∧
  (let item := fun (y : Side) (t0 : Time) (snap : Bool) (t : State) =>
      let i : Item := ⟨.telemetry (telemWords u y t0 snap), u.clock.ticks⟩; let due : Time := BitVec.ofNat 64 (alignUp 3000 u.now.toNat)
      ((u.side y).dsp.delay.length < 1024 → (t.side y).dsp.delay = (u.side y).dsp.delay ++ [(prioOf u y i.work, i, due)]) ∧
      (1024 ≤ (u.side y).dsp.delay.length → (t.side y).dsp.retry = (u.side y).dsp.retry ++ [(i, due)]);
    (∀ t0, u.lace.snapshotAt.find? (reached u.now) = some t0 →
      Happens [.lace, .dsp .a, .dsp .b] (fun a => ∃ y, a = Reg.LCE_SNAP_TIME y ∨ a = Reg.LCE_SNAP_TIME_4 y) u
        (fun t => t.lace.snapshotAt = u.lace.snapshotAt.erase t0 ∧ ∀ y, u.live y = true → item y t0 true t ∧
          t.rd64 (Reg.LCE_SNAP_TIME y) (Reg.LCE_SNAP_TIME_4 y) = t0) (exec (.snapshotAtT dt) s)) ∧
    (∀ y : Side, let per := u.rf (Reg.EVT_TELEM y) 7 0 * 30000000; let t0 : Time := BitVec.ofNat 64 (u.now.toNat / per * per)
      enginesRun u y = true → per ≠ 0 → (u.side y).mgt.telemAt ≠ some t0 →
      Happens [.mgt y, .dsp y] noReg u (fun t => (t.side y).mgt.telemAt = some t0 ∧ item y t0 false t) (exec (.telemetryCapture dt y) s)))

/-! ### Housekeeping, loop output and pins -/

/-- Housekeeping (R472, R498–R510, R517): a conversion records its result and is held against its limits, an internal rail against the
open ones of log entry 147; the injected sequence goes on or ends; HK_CAL writes its factors; a current above the over-current threshold
trips once until it has stayed below for 1 ms; the loop follows its channel, or its fault level, under its registers as an update takes
them, and a loop whose current has differed by 0.5 mA for 1 s is reported open until it agrees again. That a sequence counts at its
start is log entry 73, and when the fault level of the loop is looked at is log entry 134. -/
def Obligations.HousekeepingConvertsAndWatches : Prop :=
  ∀ (dt : Nat) (code : Int) (ovr : Bool) (s : State), let u := s.elapse dt; let up := u.baseUp = true; let now := u.clock.ticks
  let got := fun (c : Nat) (t : State) => let q := recordedCode c code ovr; let out := beyond u c q.1 q.2 (biasRange u);
    Sparse.get t.hk.latest c none = some now ∧
    (39 ≤ c → c ≤ 47 → Config.railOut c q.1 = true → c ∉ u.hk.rails → c ∈ t.hk.rails ∧ RaisedBase 514 u t) ∧
    (u.rb (Reg.HK_LIM_CTRL c) 0 = false → inAlarm t c = inAlarm u c) ∧
    (u.rb (Reg.HK_LIM_CTRL c) 0 = true →
      (out = true → inAlarm t c = true ∧ (inAlarm u c = false → RaisedBase (if u.rb (Reg.HK_LIM_CTRL c) 2 then 532 else 534) u t)) ∧
      (out = false → inAlarm t c = (inAlarm u c && decide (Sparse.get u.hk.good c 0 ≠ 3))))
  let inj := fun t : State => u.hk.inj = none → u.rf Reg.HK_INJ_CTRL 11 8 ≠ 0 →
    (∃ l, t.hk.inj = some (l, 0, now)) ∧ t.hk.began = none ∧ t.rf Reg.HK_INJ_STATUS 15 0 = (u.rf Reg.HK_INJ_STATUS 15 0 + 1) % 65536
  (∀ b, u.hk.began = some b → up → b + 120000000 ≤ now → let c := nth u.hk.seq u.hk.pos; let p := u.hk.pos + 1; c < 64 →
    Happens ([.hk, .bg] ++ bothOf .evt ++ bothOf .tally) (inBlocks [2, 17]) u (fun t => got c t ∧
        t.rd (Reg.HK_RESULT c) = resultWord u c false (recordedCode c code ovr).1 (recordedCode c code ovr).2 ∧
        t.hk.pos = (if p < u.hk.seq.length then p else 0) ∧
        t.rf Reg.HK_STATUS 31 16 = (if p < u.hk.seq.length then u.rf Reg.HK_STATUS 31 16 else (u.rf Reg.HK_STATUS 31 16 + 1) % 65536))
      (exec (.hkConversionDone dt code ovr) s)) ∧
  (∀ l p b, u.hk.inj = some (l, p, b) → up → b + 7500000 ≤ now → let c := nth l p; c < 64 →
    Happens ([.hk, .bg] ++ bothOf .evt ++ bothOf .tally) (inBlocks [2, 17]) u (fun t => got c t ∧
        t.rd (Reg.HK_RESULT c) = resultWord u c true (recordedCode c code ovr).1 (recordedCode c code ovr).2 ∧
        (p + 1 < l.length → t.hk.inj = some (l, p + 1, now)) ∧
        (l.length ≤ p + 1 → t.hk.inj = none ∧ (u.hk.cal.isSome = true → t.hk.cal = some now)))
      (exec (.hkInjectedConversionDone dt code ovr) s)) ∧
  (∀ (factors : List PathFactor) b, u.hk.cal = some b → up → u.hk.inj = none → factors.length = 7 → b + 288000000 ≤ now →
    Happens ([.hk] ++ bothOf .evt ++ bothOf .tally)
        (inBlocks [2, 17]) u (fun t => t.hk.cal = none ∧ t.rb Reg.HK_STATUS 0 = true ∧ RaisedBase 535 u t ∧
        ∀ i f, factors[i]? = some f → t.rd (Reg.HK_CAL_OFS i) = f.offset ∧
          t.rd (Reg.HK_CAL_GAIN i) = BitVec.ofNat 32 (2 ^ 31 + f.gain.toNat)) (exec (.hkCalDone dt factors) s)) ∧
  (∀ current : Nat, let thr := u.rf Reg.HK_BIAS_CTRL 7 0
    (up → thr ≠ 0 → thr * 40 < current → u.hk.tripped = none →
      Happens ([.hk] ++ bothOf .evt ++ bothOf .tally)
          (inBlocks [2, 17]) u (fun t => t.rb Reg.HK_STATUS 3 = true ∧ RaisedBase 533 u t ∧ t.hk.tripped = some now ∧
        (u.rb Reg.HK_INJ_CTRL 0 = true → inj t)) (exec (.overcurrentTrip dt current) s)) ∧
    (thr = 0 ∨ current ≤ thr * 40 ∨ u.hk.tripped.isSome = true → exec (.overcurrentTrip dt current) s = .next u)) ∧
  (∀ below t0 : Nat, u.hk.tripped = some t0 → 3000000 ≤ below → t0 + below ≤ now →
    exec (.overcurrentRearm dt below) s = .next (u.modHk (fun h => { h with tripped := none }))) ∧
  (let k := u.now.toNat / 300000000
    let v := u.modHk (fun h => { h with loopSet := ⟨u.rd Reg.HK_LOOP_CTRL, u.rd Reg.HK_LOOP_ZERO, u.rd Reg.HK_LOOP_SPAN⟩ });
    up → k ≠ u.hk.loopTick → Happens [.hk] (fun a => a = Reg.HK_LOOP_STATUS) u (fun t => t.hk.loopTick = k ∧ t.hk.loopSet = v.hk.loopSet ∧
      t.rf Reg.HK_LOOP_STATUS 31 16 = loopCurrent v ∧ t.rb Reg.HK_LOOP_STATUS 1 = loopFault v ∧
      (u.rb Reg.HK_LOOP_CTRL 9 = false → t.rf Reg.HK_LOOP_STATUS 31 16 = if u.rb Reg.HK_LOOP_CTRL 8 then 21000 else 3600))
      (exec (.loopUpdate dt) s)) ∧
  (∀ current held : Nat, let set := u.rf Reg.HK_LOOP_STATUS 31 16; let differs := set + 500 < current ∨ current + 500 < set
    (up → u.rb Reg.HK_LOOP_STATUS 2 = false → differs → 3000000000 ≤ held →
      Happens raising (fun a => raiseRegs a ∨ a = Reg.HK_LOOP_STATUS) u
        (fun t => t.rb Reg.HK_LOOP_STATUS 2 = true ∧ RaisedBase 536 u t) (exec (.loopOpenDetect dt current held) s)) ∧
    (¬ differs → exec (.loopOpenDetect dt current held) s = .next u ∧
      exec (.loopOpenClear dt current) s = .next (u.wf Reg.HK_LOOP_STATUS 2 2 0)) ∧
    (differs → exec (.loopOpenClear dt current) s = .next u))

/-- Multipurpose pins (R500, R512–R515): a new level is seen after INV by an input's consumers, and an output drives its level after
INV; a pin that switches is driven by its old output for 2 ticks more, then held at its last level until its keeper has let go, and
keeps still until then, a new input for its window too, which then takes its pad's level without an edge (log entry 163). -/
def Obligations.PinsSwitchWithoutEdges : Prop :=
  ∀ (dt : Nat) (i : Fin 12) (level : Bool) (s : State), let u := s.elapse dt; let now := u.clock.ticks; let f := pinFunc u i
  let edge := fun (level : Bool) (t : State) => (t.pin i).pad = level ∧ (t.pin i).switch = (u.pin i).switch ∧
    (∀ j, j ≠ i.val → t.pin j = u.pin j) ∧
    let seen : Prop := u.baseUp = true ∧ inputFunc f = true ∧ switching u i = false; let v := pinLevel u i level
    (seen → t.rb Reg.MP_IN i = v) ∧ (¬ seen → t.rb Reg.MP_IN i = u.rb Reg.MP_IN i ∧ t.trg = u.trg ∧ t.hk = u.hk) ∧
    (seen → v ≠ u.rb Reg.MP_IN i → f = 1 → trgTakes u = true →
      t.trg.hits = u.trg.hits ++ [⟨if v then 4 else 5, i, u.now, 0, u.now⟩]) ∧
    (seen → v = true → u.rb Reg.MP_IN i = false → f = 2 → u.rb Reg.HK_INJ_CTRL 2 = true →
      (u.hk.inj = none → u.rf Reg.HK_INJ_CTRL 11 8 ≠ 0 → ∃ l, t.hk.inj = some (l, 0, now)) ∧
      (u.hk.inj ≠ none → t.rf Reg.HK_INJ_STATUS 31 16 = min (u.rf Reg.HK_INJ_STATUS 31 16 + 1) 65535))
  (switching u i = false → (f = 4 → pinDrive u i = some (u.rb Reg.MP_OUT i != u.rb (Reg.MP_CTRL i) 5)) ∧
    (f = 6 → pinDrive u i = some (alarmOut u != u.rb (Reg.MP_CTRL i) 5))) ∧
  (∀ b w, (u.pin i).switch = some (b, w) → now < b + 2 → pinDrive u i = driveBy u i (u.pin i).old u.now ∧ pinKeeper u i = none) ∧
  (∀ b w, (u.pin i).switch = some (b, w) → b + 2 ≤ now → pinDrive u i = none ∧
    (w = none → pinKeeper u i = some (u.pin i).pad) ∧ (w.isSome = true → pinKeeper u i = none)) ∧
  (∀ ctrl at_, (bits ctrl.toNat 3 0 = 4 → driveBy u i ctrl at_ = some (u.rb Reg.MP_OUT i != bit ctrl.toNat 5)) ∧
    (bits ctrl.toNat 3 0 = 6 → driveBy u i ctrl at_ = some (alarmOut u != bit ctrl.toNat 5)) ∧
    (bits ctrl.toNat 3 0 < 4 → driveBy u i ctrl at_ = none)) ∧
  Happens [.frames, .trg, .hk, .pins] (inBlocks [2, 3]) u (edge level) (exec (.mpPinEdge dt i level) s) ∧
  (f = 2 → Happens [.frames, .trg, .hk, .pins] (inBlocks [2, 3]) u (edge (!u.rb (Reg.MP_CTRL i) 5)) (exec (.hkInjectPinEdge dt i) s)) ∧
  (f ≠ 2 → exec (.hkInjectPinEdge dt i) s = .next u) ∧
  (∀ b, (u.pin i).switch = some (b, none) → now < b + 183105 → exec (.keeperRelease dt i) s = .next u) ∧
  (∀ b w, (u.pin i).switch = some (b, some w) → now < w + 183106 → exec (.ignoreWindowEnd dt i) s = .next u) ∧
  (∀ b, (u.pin i).switch = some (b, none) → u.baseUp = true → b + 183105 ≤ now →
    Happens ([.pins] ++ bothOf .evt ++ bothOf .tally) (inBlocks [3, 17]) u (fun t => RaisedBase 537 u t ∧
      (inputFunc f = true → (t.pin i).switch = some (b, some now) ∧ t.rd Reg.MP_IN = u.rd Reg.MP_IN) ∧
      (inputFunc f = false → (t.pin i).switch = none ∧ t.rb Reg.MP_IN (16 + i) = false ∧ t.rb Reg.MP_IN i = false))
      (exec (.keeperRelease dt i) s)) ∧
  (∀ b w, (u.pin i).switch = some (b, some w) → u.baseUp = true → w + 183106 ≤ now →
    Happens [.pins] (fun a => a = Reg.MP_IN) u (fun t => (t.pin i).switch = none ∧ t.rb Reg.MP_IN (16 + i) = false ∧
      t.rb Reg.MP_IN i = pinLevel u i (u.pin i).pad) (exec (.ignoreWindowEnd dt i) s))

/-! ### Retirement, background work and events -/

/-- Retirement and the lists (R84, R192, R265, R289, R338, R339, R365, R392, R467, R468, R552–R557): RETIRE takes a resource out and
lists it, one already retired changes nothing, a side goes after the reply; RETIRE_LIST reads what is listed, and REMOVE strikes an
entry in IDLE; an update writes the lists that it found when it began to every side that serves, and one wanted since begins when it
ends, while VIN is inside its limits (R460; log entry 159). An index out of range is refused. -/
def Obligations.RetirementsAreListed : Prop :=
  ∀ (dt : Nat) (c : Ctx) (kind index : Word) (s : State), let u := s.elapse dt; let x := receiver u c; let y := namedSide u c
  let k := bits kind.toNat 7 0; let n := index.toNat
  (Admitted c (.retire kind index) none u → retireRange k n = false →
    Completes x c 0x40 .badParam 0 [] u (exec (.retire dt c kind index) s)) ∧
  (Admitted c (.retire kind index) none u → retireRange k n = true →
    let o := exec (.retire dt c kind index) s
    let acts := fun (was : Bool) (v : State) (is : Bool) => Completes x c 0x40 .ok 0 [] v o ∧ is = true ∧ (was = true → v = u)
    (k = 1 → acts (u.pixelRetired n) (retirePixel n u) ((retirePixel n u).pixelRetired n)) ∧
    (k = 2 → acts (u.digiRetired n) (retireDigitizer n u) ((retireDigitizer n u).digiRetired n)) ∧
    (k = 3 → acts (u.adcRetired n) (retireAdc n u) ((retireAdc n u).adcRetired n)) ∧
    (k = 4 → acts (u.tileRetired n) (retireTile n u) ((retireTile n u).tileRetired n)) ∧
    (k = 5 → (n ∈ u.bg.inForce.lanes → Completes x c 0x40 .ok 0 [] u o) ∧
      (n ∉ u.bg.inForce.lanes → Next (fun t => Replied x c 0x40 .ok 0 [] t ∧ n ∈ t.bg.inForce.lanes) o)) ∧
    (k = 6 → let full := 512 ≤ (u.bg.inForce.rows.filter (fun r => r / 2 ^ 22 = sideNum y && r % 16 = n % 16)).length
      (rowEntry y n ∈ u.bg.inForce.rows → Completes x c 0x40 .ok 0 [] u o) ∧
      (rowEntry y n ∉ u.bg.inForce.rows → full → Completes x c 0x40 .badParam 0 [] u o) ∧
      (rowEntry y n ∉ u.bg.inForce.rows → ¬ full → Completes x c 0x40 .ok 0 [] (retireRow y n u) o ∧
        rowEntry y n ∈ (retireRow y n u).bg.inForce.rows)) ∧
    (k = 7 → acts (chanRetired u y n) (retireChannel y n u) (chanRetired (retireChannel y n u) y n)) ∧
    (k = 8 → acts (engRetired u y n) (retireEngine y n u) (engRetired (retireEngine y n u) y n)) ∧
    (k = 9 → acts (compRetired u y n) (retireCompressor y n u) (compRetired (retireCompressor y n u) y n)) ∧
    (k = 10 → let z := sideOf n
      (u.arb.svc.get z ≠ .retired → u.serving (peerOf z) = false → Completes x c 0x40 .sideDown 0 [] u o) ∧
      (u.arb.svc.get z = .retired ∨ u.serving (peerOf z) = true → RepliesThen x c 0x40 u (afterReply c (.retire z) (retireSide z)) o) ∧
      (u.arb.svc.get z ≠ .retired → u.serving (peerOf z) = true →
        Next (fun t => t.arb.svc.get z = .retired ∧ sideNum z ∈ t.bg.inForce.sides) o))) ∧
  (Admitted c (.retireListRead kind index) none u → 1 ≤ k → k ≤ 10 → let l := listed u y k
    Completes x c 0x41 .ok (BitVec.ofNat 32 l.length) (pairWords ((l.drop n).take 60)) u (exec (.retireListRead dt c kind index) s)) ∧
  (Admitted c (.retireListRemove kind index) none u → retireRange k n = true → let o := exec (.retireListRemove dt c kind index) s
    (n ∉ listed u y k → Completes x c 0x41 .badParam 0 [] u o) ∧
    (n ∈ listed u y k → u.trg.run ≠ .idle → Completes x c 0x41 .wrongState 0 [] u o) ∧
    (n ∈ listed u y k → u.trg.run = .idle → let e := kindSpan k * sideNum y + n
      Happens (.bg :: answering) answerRegs u (fun t => Replied x c 0x41 .ok 0 [] t ∧ t.bg.inForce = u.bg.inForce ∧
        e ∈ kindOf t.bg.removed k ∧ e ∉ kindOf (presentLists t) k ∧
        (u.bg.updating = none → vinOutside u = false → t.bg.updating = some (presentLists t)) ∧
        (u.bg.updating.isSome = true ∨ vinOutside u = true → t.bg.updating = u.bg.updating ∧ t.bg.again = true)) o)) ∧
  (∀ lists, u.bg.updating = some lists → u.serving .a = true ∨ u.serving .b = true →
    Happens ([.bg] ++ bothOf .mgt ++ bothOf .evt ++ bothOf .tally) (inBlocks [17]) u (fun t => t.bg.inForce = u.bg.inForce ∧
      (u.bg.again = true → vinOutside u = false → t.bg.updating = some (presentLists t) ∧ t.bg.again = false) ∧
      (u.bg.again = false ∨ vinOutside u = true → t.bg.updating = none ∧ t.bg.again = u.bg.again) ∧
      ∀ z, (u.serving z = true → t.bg.nvm.get z = lists ∧ (t.side z).mgt.listCurrent = peerOf (u.side z).mgt.listCurrent ∧
          (t.side z).mgt.listWrites.get (peerOf (u.side z).mgt.listCurrent) =
            (u.side z).mgt.listWrites.get (peerOf (u.side z).mgt.listCurrent) + 1) ∧
        (u.serving z = false → t.bg.nvm.get z = u.bg.nvm.get z)) (exec (.retirementListUpdate dt) s))

/-- Dose accounting and the SRAM scrubbers (R559, R562–R564): each second the increments move into the dosimeters' and tiles' totals,
their remainders kept, and a tier past 80 % or 100 % of its rating is marked; totals are saved by a list update; a base-tier access
reports an uncorrectable word and acts by its owner's rule, and a pass is counted at its period; a side's access marks a staging word or
a line of instruction memory bad, corrects one bit of a queued word or of a word of the egress buffer and leaves what is more in it (log
entry 84), traps the engine whose local SRAM does not read, and replaces a unit in the assembly buffer with event 578 (R264, R266, R286,
R335, R345). -/
def Obligations.BackgroundWorkKeepsItsTotals : Prop :=
  ∀ (dt : Nat) (s : State), let u := s.elapse dt; let now := u.clock.ticks
  (∀ charges : List Nat, u.baseUp = true → u.bg.doseTick + 3000000000 ≤ now →
    Happens ([.bg] ++ bothOf .evt ++ bothOf .tally)
        (inBlocks [2, 17]) u (fun t => t.bg.doseTick = now ∧ t.bg.inc = [0, 0, 0, 0] ∧ t.bg.inForce = u.bg.inForce ∧
      (∀ d, d < 4 → nth t.bg.rest d = detGain u d % 65536 ∧
        detDose t d = min (detDose u d + detGain u d / 65536) 4294967295) ∧
      (∀ i, i < 64 → let g := u.bg.tileRest.getD i 0 + tileShare u charges i (detGain u (tileQuadrant i) / 65536)
        tileDose t i = min (tileDose u i + g / 65536) 4294967295 ∧
        (u.bg.tileRest = [] ∨ u.bg.tileRest.length = 64 → t.bg.tileRest.getD i 0 = g % 65536)) ∧
      (∀ n, n < 3 → let q := tierDose t n
        t.rb Reg.HK_DOSE_STATUS n = (u.rb Reg.HK_DOSE_STATUS n || decide (4 * q.2 < 5 * q.1)) ∧
        t.rb Reg.HK_DOSE_STATUS (3 + n) = (u.rb Reg.HK_DOSE_STATUS (3 + n) || decide (q.2 < q.1)))) (exec (.doseSecond dt charges) s)) ∧
  (let n := u.rf Reg.HK_DOSE_CTRL 15 0;
    u.baseUp = true → n ≠ 0 → u.bg.saveTick + n * 180000000000 ≤ now → Happens [.bg] noReg u (fun t => t.bg.saveTick = now ∧
      (u.bg.updating = none → vinOutside u = false → t.bg.updating = some (presentLists t) ∧ t.bg.again = false) ∧
      (u.bg.updating ≠ none ∨ vinOutside u = true → t.bg.updating = u.bg.updating ∧ t.bg.again = true)) (exec (.doseSave dt) s)) ∧
  (∀ found : SramFind, u.baseUp = true → u.rb Reg.TIL_SRAM_SCRUB 16 = false →
    let good : Prop := found = .sound ∨ found = .corrected; let ends := u.bg.scrubTick + sramPeriod u Reg.TIL_SRAM_SCRUB ≤ u.clock.sram
    Happens ([.bg, .pix, .tiles] ++ bothOf .evt ++ bothOf .tally) (inBlocks [4, 7, 8, 17]) u (fun t =>
      (good → t.rf Reg.TIL_SRAM_STATUS 15 0 = u.rf Reg.TIL_SRAM_STATUS 15 0 ∧ t.pix = u.pix ∧ t.tiles = u.tiles) ∧
      (¬ good → t.rf Reg.TIL_SRAM_STATUS 15 0 = min (u.rf Reg.TIL_SRAM_STATUS 15 0 + 1) 65535 ∧ RaisedBase 538 u t) ∧
      (∀ p, found = .shadow p → imageWord t.pix.shadow p = 0 ∧ RaisedBase 522 u t) ∧
      (∀ p, found = .image p → imageWord t.pix.applied p = 0 ∧ (imageWord t.pix.latches p).getLsbD 0 = false ∧ RaisedBase 522 u t) ∧
      (∀ i lp, found = .chain i lp → Sparse.get (t.tile i).chains lp Chain.zero = { Chain.zero with blank := 8 } ∧
        RaisedBase (i.val * 8 + 5) u t) ∧
      (ends → t.bg.scrubTick = u.clock.sram ∧ t.rf Reg.TIL_SRAM_STATUS 31 16 = (u.rf Reg.TIL_SRAM_STATUS 31 16 + 1) % 65536) ∧
      (¬ ends → t.bg = u.bg ∧ t.rf Reg.TIL_SRAM_STATUS 31 16 = u.rf Reg.TIL_SRAM_STATUS 31 16)) (exec (.baseSramScrub dt found) s)) ∧
  (∀ (x : Side) (found : SideFind), u.live x = true → u.rb (Reg.MGT_SRAM_SCRUB x) 16 = false →
    let ends := (u.side x).mgt.scrubTick + sramPeriod u (Reg.MGT_SRAM_SCRUB x) ≤ u.clock.sramSide.get x
    let v := u.modMgt x (fun g => { g with scrubPos := if ends then 0 else g.scrubPos + 1, scrubTick := if ends then u.clock.sramSide.get x else g.scrubTick })
    let o := exec (.sideSramScrub dt x found) s
    (found = .sound ∨ found = .corrected ∨ found = .other → o = .next v) ∧
    (∀ ch k w mask, found = .queued ch k w mask → beyondCode mask = false → o = .next v) ∧
    (∀ k i mask, found = .egress k i mask → beyondCode mask = false → o = .next v) ∧
    (∀ ch k w mask, found = .queued ch k w mask → beyondCode mask = true →
      Happens [.bst x] noReg v (fun t => ∀ q r, (u.chan x ch).queue[k]? = some q →
      q.words[w.val]? = some r → ∃ q', (t.chan x ch).queue[k]? = some q' ∧ q'.words[w.val]? = some (r ^^^ mask)) o) ∧
    (∀ k i mask, found = .egress k i mask → beyondCode mask = true →
      Happens [.lnk x] noReg v (fun t => ∀ b r, (u.side x).lnk.egress[k]? = some b → b.words[i]? = some r →
      ∃ b', (t.side x).lnk.egress[k]? = some b' ∧ b'.words[i]? = some (r ^^^ mask)) o) ∧
    (∀ e line, found = .code (some e) line → Happens [.dsp x] noReg v (fun t => line ∈ (t.eng x e).lines) o) ∧
    (∀ line, found = .code none line → Happens [.mgt x] noReg v (fun t => line ∈ (t.side x).mgt.lines) o) ∧
    (∀ e : Fin 48, found = .engine e → (enginesRun u x = false ∨ engRetired u x e = true → o = .next v) ∧
      (enginesRun u x = true → engRetired u x e = false → let g := u.eng x e
        Happens ([.bg] ++ bothOf .evt ++ bothOf .dsp ++ bothOf .cmp ++ bothOf .tally)
            (inBlocks [17, 19]) v (fun t => RaisedSide x 570 u t ∧ t.rf (Reg.SE_TRAPS x) 15 0 = min (u.rf (Reg.SE_TRAPS x) 15 0 + 1) 65535 ∧
          (g.faults.third u.now = false → (t.eng x e).item = g.saved ∧ (t.eng x e).faults = g.faults.push u.now ∧
            (t.side x).dsp.ready = (g.item.map (fun q => (prioOf u x q.1.work, q.1))).toList ++ (u.side x).dsp.ready) ∧
          (g.faults.third u.now = true → engRetired t x e = true)) o)) ∧
    (∀ n i, found = .staging n i → Happens [.dsp x] noReg v (fun t => ∀ q ∈ (u.dsp x).units, q.number = n → q.held = none →
      ∃ q' ∈ (t.dsp x).units, q'.number = n ∧ i ∈ q'.bad) o) ∧
    (∀ n i r, found = .assembly n i → (u.side x).cmp.outputs.find? (fun q => q.unit = n) = some r → r.spill = none → unitKind n.toNat < 2 →
      takenOf u x r = 0 → i < r.words.length → let p := splitUnit r.words
      Next (fun t => RaisedSide x 578 u t ∧ ∃ q ∈ (t.side x).cmp.outputs, q.unit = n ∧
        q.words = substitute (unitTile n.toNat) 0x12 [i] p.1 p.2.1 p.2.2) o))

/-- A raise that reaches a side, whatever the source's enable: COUNT grows by 1 and saturates at 65 535, FIRST takes the raise time when
COUNT was 0, LAST always takes it (R475). Where the source is not enabled and the severity is not CRITICAL the queue stays (R476). Else,
as the first raise of its tick, it enters a pending entry of its kind, or a new one at the tail while fewer than 512 wait (R477); in a
full queue the oldest entry of the lowest severity that is not being sent and not above its own gives way to it, else it is discarded
and takes no SEQ, and EVT_LOST counts what is lost (R479); entries that may leave do (R483). A CRITICAL one is copied into EVT_FF unless
an earlier one stands there, and then counts in LATER (R486). Two raises of one tick by two sources leave the same queue, SEQs and
EVT_FF whichever row comes first (R478; log entry 132). -/
def Obligations.EveryRaiseIsRecorded : Prop :=
  ∀ (x : Side) (src sev inst : Nat) (s : State), let t := raiseAt x src sev inst s
  let r := Sparse.get (s.side x).evt.recs src SrcRec.zero; let r' := Sparse.get (t.side x).evt.recs src SrcRec.zero
  let q := (s.side x).evt.queue; let w := (s.side x).evt.next; let now := s.now
  let fresh := ∀ k, (s.side x).evt.round = some k → k.tick ≠ s.clock.ticks
  let lost := fun (k : Nat) (s : State) => s.rf (if k < 2 then Reg.EVT_LOST x else Reg.EVT_LOST_4 x) (16 * (k % 2) + 15) (16 * (k % 2))
  let loses := fun k : Nat => lost k t = min (lost k s + 1) 65535 ∧ ∀ j, j < 4 → j ≠ k → lost j t = lost j s
  let holds := fun (l : List EvEntry) (v : Word) => (t.side x).evt.queue = l.filter (fun e => !evLeaves x s e) ∧ (t.side x).evt.next = v
  let n : EvEntry := ⟨src, sev, false, 1, w, now, now, inst, false, [], []⟩
  (r'.count = min (r.count + 1) 65535 ∧ (r.count = 0 → r'.first = now) ∧ (r.count ≠ 0 → r'.first = r.first) ∧ r'.last = now) ∧
  (∀ n, n ≠ src → Sparse.get (t.side x).evt.recs n SrcRec.zero = Sparse.get (s.side x).evt.recs n SrcRec.zero) ∧
  Only [.evt x, .tally x] (fun a => a = Reg.EVT_FF_STATUS x ∨ a = Reg.EVT_LOST x ∨ a = Reg.EVT_LOST_4 x) s t ∧
  (evEnabled x src s = false → sev ≠ 3 → (t.side x).evt.queue = q ∧ (t.side x).evt.next = w ∧ ∀ a, t.rd a = s.rd a) ∧
  (evEnabled x src s = true ∨ sev = 3 → fresh →
    (∀ l e r, q = l ++ e :: r → (∀ e' ∈ l, e'.takes src sev inst = false) → e.takes src sev inst = true →
      holds (l ++ { e with count := min (e.count + 1) 65535, last := now } :: r) w ∧ ∀ k, k < 4 → lost k t = lost k s) ∧
    ((∀ e ∈ q, e.takes src sev inst = false) →
      (q.length < 512 → holds (q ++ [n]) (w + 1) ∧ ∀ k, k < 4 → lost k t = lost k s) ∧
      (512 ≤ q.length →
        (∀ l e r, q = l ++ e :: r → e.sending = [] → e.sev ≤ sev → e.sev < 4 → (∀ e' ∈ q, e'.sending = [] → e.sev ≤ e'.sev) →
          (∀ e' ∈ l, e'.sending = [] → e'.sev ≠ e.sev) → holds (l ++ r ++ [n]) (w + 1) ∧ loses e.sev) ∧
        (sev < 4 → (∀ e ∈ q, e.sending = [] → sev < e.sev) → holds q w ∧ loses sev)))) ∧
  (sev = 3 → fresh → t.rb (Reg.EVT_FF_STATUS x) 31 = true ∧
    (s.rb (Reg.EVT_FF_STATUS x) 31 = false → (t.side x).evt.ff.src = src ∧ (t.side x).evt.ff.first = now ∧ (t.side x).evt.ff.count = 1 ∧
      ((∃ e ∈ q, e.takes src sev inst = true ∨ (e.sending = [] ∧ e.sev ≤ 3)) ∨ q.length < 512 ↔ t.rb (Reg.EVT_FF_STATUS x) 30 = true)) ∧
    (s.rb (Reg.EVT_FF_STATUS x) 31 = true → (t.side x).evt.ff = (s.side x).evt.ff ∧
      t.rb (Reg.EVT_FF_STATUS x) 30 = s.rb (Reg.EVT_FF_STATUS x) 30 ∧
      t.rf (Reg.EVT_FF_STATUS x) 15 0 = min (s.rf (Reg.EVT_FF_STATUS x) 15 0 + 1) 65535)) ∧
  (∀ src2 sev2 inst2, src2 ≠ src → let a := raiseAt x src2 sev2 inst2 t; let b := raiseAt x src sev inst (raiseAt x src2 sev2 inst2 s)
    (a.side x).evt.queue = (b.side x).evt.queue ∧ (a.side x).evt.next = (b.side x).evt.next ∧ (a.side x).evt.ff = (b.side x).evt.ff ∧
    a.rd (Reg.EVT_FF_STATUS x) = b.rd (Reg.EVT_FF_STATUS x))

/-- The event commands and EVENT frames (R364, R481–R484, R486, R489): EVENT_SUBSCRIBE sets the ports it names, EVENT_ACK acknowledges
through a SEQ and lets go what may leave, FIRST_FAILURE_CLEAR arms the copy again, both before the raises of the same tick, which are
taken again after it (R478; log entry 132); an UP subscribed port sends the oldest entries it has not sent as its allowance permits, a
copy of a frame under the SEQ that frame has; a queue whose pointers disagree is emptied and reported. -/
def Obligations.EventsAreSubscribedSentAndAcknowledged : Prop :=
  ∀ (dt : Nat) (c : Ctx) (s : State), let u := s.elapse dt; let x := receiver u c; let q := (u.side x).evt.queue
  (∀ p1 : Word, Admitted c (.eventSubscribe p1) none u → let o := exec (.eventSubscribe dt c p1) s
    let ownOnly := ∃ y q, c.via = .port y q ∧ ∀ p, p < 16 → bit p1.toNat p = decide (p = q.val)
    let wrongRole := bit p1.toNat 18 = true ∧ ∃ p, p < 16 ∧ bit p1.toNat p = true ∧ u.role x p ≠ 1
    (privileged u c.via = false → ¬ ownOnly → Completes x c 0x60 .noAccess 0 [] u o) ∧
    (privileged u c.via = true ∨ ownOnly → wrongRole → Completes x c 0x60 .badParam 0 [] u o) ∧
    (privileged u c.via = true ∨ ownOnly → ¬ wrongRole → Happens (.evt x :: answering) (fun a => answerRegs a ∨ ∃ p, p < 16 ∧
      a = Reg.EVT_SUB x p) u
      (fun t => Replied x c 0x60 .ok 0 [] t ∧ ∀ p, p < 16 → t.rd (Reg.EVT_SUB x p) =
        if bit p1.toNat p then (if bit p1.toNat 18 then BitVec.ofNat 32 (4 + bits p1.toNat 17 16) else 0) else u.rd (Reg.EVT_SUB x p)) o)) ∧
  (∀ (seq : Option Word) (mismatch : Bool), Admitted c (.eventAck seq) none u → let o := exec (.eventAck dt c seq mismatch) s
    let r := evRound x u; let last := r.base.next - 1; let w := seq.getD last
    let acked := fun (l : List EvEntry) => l.map (fun e => if seqLater e.seq w then e else { e with acked := true })
    let evRegs := fun (a : Nat) => raiseRegs a ∨ a = Reg.EVT_ACKED x
    (seq.isSome = true → seqLater w last = true ∨ seqLater (u.rd (Reg.EVT_ACKED x)) w = true →
      Completes x c 0x61 .badParam 0 [] u o) ∧
    (seq = none ∨ (seqLater w last = false ∧ seqLater (u.rd (Reg.EVT_ACKED x)) w = false) →
      (mismatch = true → Happens (answering ++ raising) (fun a => answerRegs a ∨ raiseRegs a ∨ a = Reg.EVT_ACKED x ∨ a = Reg.EVT_QERR x) u
        (fun t => Replied x c 0x61 .ok 0 [] t ∧ t.rd (Reg.EVT_ACKED x) = w ∧ RaisedSide x 630 u t ∧ (t.side x).evt.queue.length ≤ 1 ∧
          t.rf (Reg.EVT_QERR x) 15 0 = min (u.rf (Reg.EVT_QERR x) 15 0 + 1) 65535) o) ∧
      (mismatch = false → Happens (.evt x :: answering) (fun a => answerRegs a ∨ evRegs a) u
        (fun t => Replied x c 0x61 .ok 0 [] t ∧ t.rd (Reg.EVT_ACKED x) = w ∧ (t.side x).evt.recs = (u.side x).evt.recs ∧
          (t.side x).evt.queue = (r.raises.foldl EvCore.raise { r.base with queue := acked r.base.queue }).queue.filter (fun e => !evLeaves x u e) ∧
          ((∀ k, (u.side x).evt.round = some k → k.tick ≠ u.clock.ticks) → (t.side x).evt.next = (u.side x).evt.next ∧
            (t.side x).evt.queue = (acked q).filter (fun e => !evLeaves x u e) ∧ ∀ a, raiseRegs a → t.rd a = u.rd a)) o))) ∧
  (Admitted c .firstFailureClear none u →
    let now := (evRound x u).raises.filter (fun e => e.sev = 3)
    Happens (.evt x :: answering) (fun a => answerRegs a ∨ raiseRegs a) u (fun t => Replied x c 0x62 .ok 0 [] t ∧
      (t.side x).evt.recs = (u.side x).evt.recs ∧
      (now = [] → t.rb (Reg.EVT_FF_STATUS x) 31 = false ∧ t.rf (Reg.EVT_FF_STATUS x) 15 0 = 0) ∧
      (now ≠ [] → t.rb (Reg.EVT_FF_STATUS x) 31 = true ∧ t.rf (Reg.EVT_FF_STATUS x) 15 0 = min (now.length - 1) 65535) ∧
      ((∀ k, (u.side x).evt.round = some k → k.tick ≠ u.clock.ticks) → (t.side x).evt.queue = q.filter (fun e => !evLeaves x u e) ∧
        (t.side x).evt.next = (u.side x).evt.next ∧ (t.side x).evt.ff = (u.side x).evt.ff))
      (exec (.firstFailureClear dt c) s)) ∧
  (∀ (y : Side) (p : Fin 16), let todo := (u.side y).evt.queue.filter (unsentOn y p u)
    let n := min (min (allowNow u y p / allowUnit) ((todo.length + 1) / 2)) 64; let go := todo.take (2 * n)
    let ws := go.flatMap entryWords ++ List.replicate (8 * n - 4 * go.length) 0; let old := (u.side y).evt.formed.find? (fun e => e.2 = ws)
    let seq := match old with | some e => e.1 | none => u.frameSeq y 3
    ((u.port y p).state = .up → u.role y p = 1 → n ≠ 0 → Happens [.evt y, .lnk y] noReg u (fun t =>
      (let f := plainFrame u y 3 4 seq ws; f ∈ (t.port y p).waiting ∨ (t.port y p).out = some f) ∧ (seq, ws) ∈ (t.side y).evt.formed ∧
      t.frameSeq y 3 = (if old.isSome then u.frameSeq y 3 else u.frameSeq y 3 + 1) ∧ (t.port y p).allow = allowNow u y p - n * allowUnit ∧
      (t.side y).evt.queue = (u.side y).evt.queue.map (fun e =>
        if (go.map (·.seq)).contains e.seq then { e with begun := true, sending := insertNat p e.sending } else e))
      (exec (.eventFrameSend dt y p false) s)) ∧
    ((u.port y p).state ≠ .up ∨ u.role y p ≠ 1 ∨ n = 0 → exec (.eventFrameSend dt y p false) s = .next u) ∧
    (u.live y = true → Happens [.evt y, .lnk y, .tally y] (inBlocks [17]) u (fun t => RaisedSide y 630 u t ∧
      t.rf (Reg.EVT_QERR y) 15 0 = min (u.rf (Reg.EVT_QERR y) 15 0 + 1) 65535) (exec (.eventFrameSend dt y p true) s)))
end

