-- ==== Sys2Proof/Laws/State.lean ====
section
/-!
SUPPORT. What each update of the state leaves and sets, one lemma for each field and update.
-/

namespace Sys2Proof.Machine

/-! modPix -/

@[simp] theorem State.modPix_clock (s : State) (f : Pix → Pix) : (s.modPix f).clock = s.clock := (rfl)
@[simp] theorem State.modPix_regs (s : State) (f : Pix → Pix) : (s.modPix f).regs = s.regs := (rfl)
@[simp] theorem State.modPix_fresh (s : State) (f : Pix → Pix) : (s.modPix f).fresh = s.fresh := (rfl)
@[simp] theorem State.modPix_late (s : State) (f : Pix → Pix) : (s.modPix f).late = s.late := (rfl)
@[simp] theorem State.modPix_capture (s : State) (f : Pix → Pix) : (s.modPix f).capture = s.capture := (rfl)
@[simp] theorem State.modPix_pix (s : State) (f : Pix → Pix) : (s.modPix f).pix = f s.pix := (rfl)
@[simp] theorem State.modPix_tdc (s : State) (f : Pix → Pix) : (s.modPix f).tdc = s.tdc := (rfl)
@[simp] theorem State.modPix_frames (s : State) (f : Pix → Pix) : (s.modPix f).frames = s.frames := (rfl)
@[simp] theorem State.modPix_tiles (s : State) (f : Pix → Pix) : (s.modPix f).tiles = s.tiles := (rfl)
@[simp] theorem State.modPix_squall (s : State) (f : Pix → Pix) : (s.modPix f).squall = s.squall := (rfl)
@[simp] theorem State.modPix_trg (s : State) (f : Pix → Pix) : (s.modPix f).trg = s.trg := (rfl)
@[simp] theorem State.modPix_sideA (s : State) (f : Pix → Pix) : (s.modPix f).sideA = s.sideA := (rfl)
@[simp] theorem State.modPix_sideB (s : State) (f : Pix → Pix) : (s.modPix f).sideB = s.sideB := (rfl)
@[simp] theorem State.modPix_spi (s : State) (f : Pix → Pix) : (s.modPix f).spi = s.spi := (rfl)
@[simp] theorem State.modPix_power (s : State) (f : Pix → Pix) : (s.modPix f).power = s.power := (rfl)
@[simp] theorem State.modPix_arb (s : State) (f : Pix → Pix) : (s.modPix f).arb = s.arb := (rfl)
@[simp] theorem State.modPix_bg (s : State) (f : Pix → Pix) : (s.modPix f).bg = s.bg := (rfl)
@[simp] theorem State.modPix_lace (s : State) (f : Pix → Pix) : (s.modPix f).lace = s.lace := (rfl)
@[simp] theorem State.modPix_hk (s : State) (f : Pix → Pix) : (s.modPix f).hk = s.hk := (rfl)
@[simp] theorem State.modPix_pins (s : State) (f : Pix → Pix) : (s.modPix f).pins = s.pins := (rfl)
@[simp] theorem State.modPix_freeCount (s : State) (f : Pix → Pix) : (s.modPix f).freeCount = s.freeCount := (rfl)
@[simp] theorem State.modPix_pending (s : State) (f : Pix → Pix) : (s.modPix f).pending = s.pending := (rfl)
@[simp] theorem State.modPix_side (s : State) (f : Pix → Pix) (x : Side) : (s.modPix f).side x = s.side x := by cases x <;> rfl
@[simp] theorem State.modPix_rd (s : State) (f : Pix → Pix) (a : Nat) : (s.modPix f).rd a = s.rd a := (rfl)

/-! modTdc -/

@[simp] theorem State.modTdc_clock (s : State) (f : Tdc → Tdc) : (s.modTdc f).clock = s.clock := (rfl)
@[simp] theorem State.modTdc_regs (s : State) (f : Tdc → Tdc) : (s.modTdc f).regs = s.regs := (rfl)
@[simp] theorem State.modTdc_fresh (s : State) (f : Tdc → Tdc) : (s.modTdc f).fresh = s.fresh := (rfl)
@[simp] theorem State.modTdc_late (s : State) (f : Tdc → Tdc) : (s.modTdc f).late = s.late := (rfl)
@[simp] theorem State.modTdc_capture (s : State) (f : Tdc → Tdc) : (s.modTdc f).capture = s.capture := (rfl)
@[simp] theorem State.modTdc_pix (s : State) (f : Tdc → Tdc) : (s.modTdc f).pix = s.pix := (rfl)
@[simp] theorem State.modTdc_tdc (s : State) (f : Tdc → Tdc) : (s.modTdc f).tdc = f s.tdc := (rfl)
@[simp] theorem State.modTdc_frames (s : State) (f : Tdc → Tdc) : (s.modTdc f).frames = s.frames := (rfl)
@[simp] theorem State.modTdc_tiles (s : State) (f : Tdc → Tdc) : (s.modTdc f).tiles = s.tiles := (rfl)
@[simp] theorem State.modTdc_squall (s : State) (f : Tdc → Tdc) : (s.modTdc f).squall = s.squall := (rfl)
@[simp] theorem State.modTdc_trg (s : State) (f : Tdc → Tdc) : (s.modTdc f).trg = s.trg := (rfl)
@[simp] theorem State.modTdc_sideA (s : State) (f : Tdc → Tdc) : (s.modTdc f).sideA = s.sideA := (rfl)
@[simp] theorem State.modTdc_sideB (s : State) (f : Tdc → Tdc) : (s.modTdc f).sideB = s.sideB := (rfl)
@[simp] theorem State.modTdc_spi (s : State) (f : Tdc → Tdc) : (s.modTdc f).spi = s.spi := (rfl)
@[simp] theorem State.modTdc_power (s : State) (f : Tdc → Tdc) : (s.modTdc f).power = s.power := (rfl)
@[simp] theorem State.modTdc_arb (s : State) (f : Tdc → Tdc) : (s.modTdc f).arb = s.arb := (rfl)
@[simp] theorem State.modTdc_bg (s : State) (f : Tdc → Tdc) : (s.modTdc f).bg = s.bg := (rfl)
@[simp] theorem State.modTdc_lace (s : State) (f : Tdc → Tdc) : (s.modTdc f).lace = s.lace := (rfl)
@[simp] theorem State.modTdc_hk (s : State) (f : Tdc → Tdc) : (s.modTdc f).hk = s.hk := (rfl)
@[simp] theorem State.modTdc_pins (s : State) (f : Tdc → Tdc) : (s.modTdc f).pins = s.pins := (rfl)
@[simp] theorem State.modTdc_freeCount (s : State) (f : Tdc → Tdc) : (s.modTdc f).freeCount = s.freeCount := (rfl)
@[simp] theorem State.modTdc_pending (s : State) (f : Tdc → Tdc) : (s.modTdc f).pending = s.pending := (rfl)
@[simp] theorem State.modTdc_side (s : State) (f : Tdc → Tdc) (x : Side) : (s.modTdc f).side x = s.side x := by cases x <;> rfl
@[simp] theorem State.modTdc_rd (s : State) (f : Tdc → Tdc) (a : Nat) : (s.modTdc f).rd a = s.rd a := (rfl)

/-! modFrames -/

@[simp] theorem State.modFrames_clock (s : State) (f : Frames → Frames) : (s.modFrames f).clock = s.clock := (rfl)
@[simp] theorem State.modFrames_regs (s : State) (f : Frames → Frames) : (s.modFrames f).regs = s.regs := (rfl)
@[simp] theorem State.modFrames_fresh (s : State) (f : Frames → Frames) : (s.modFrames f).fresh = s.fresh := (rfl)
@[simp] theorem State.modFrames_late (s : State) (f : Frames → Frames) : (s.modFrames f).late = s.late := (rfl)
@[simp] theorem State.modFrames_capture (s : State) (f : Frames → Frames) : (s.modFrames f).capture = s.capture := (rfl)
@[simp] theorem State.modFrames_pix (s : State) (f : Frames → Frames) : (s.modFrames f).pix = s.pix := (rfl)
@[simp] theorem State.modFrames_tdc (s : State) (f : Frames → Frames) : (s.modFrames f).tdc = s.tdc := (rfl)
@[simp] theorem State.modFrames_frames (s : State) (f : Frames → Frames) : (s.modFrames f).frames = f s.frames := (rfl)
@[simp] theorem State.modFrames_tiles (s : State) (f : Frames → Frames) : (s.modFrames f).tiles = s.tiles := (rfl)
@[simp] theorem State.modFrames_squall (s : State) (f : Frames → Frames) : (s.modFrames f).squall = s.squall := (rfl)
@[simp] theorem State.modFrames_trg (s : State) (f : Frames → Frames) : (s.modFrames f).trg = s.trg := (rfl)
@[simp] theorem State.modFrames_sideA (s : State) (f : Frames → Frames) : (s.modFrames f).sideA = s.sideA := (rfl)
@[simp] theorem State.modFrames_sideB (s : State) (f : Frames → Frames) : (s.modFrames f).sideB = s.sideB := (rfl)
@[simp] theorem State.modFrames_spi (s : State) (f : Frames → Frames) : (s.modFrames f).spi = s.spi := (rfl)
@[simp] theorem State.modFrames_power (s : State) (f : Frames → Frames) : (s.modFrames f).power = s.power := (rfl)
@[simp] theorem State.modFrames_arb (s : State) (f : Frames → Frames) : (s.modFrames f).arb = s.arb := (rfl)
@[simp] theorem State.modFrames_bg (s : State) (f : Frames → Frames) : (s.modFrames f).bg = s.bg := (rfl)
@[simp] theorem State.modFrames_lace (s : State) (f : Frames → Frames) : (s.modFrames f).lace = s.lace := (rfl)
@[simp] theorem State.modFrames_hk (s : State) (f : Frames → Frames) : (s.modFrames f).hk = s.hk := (rfl)
@[simp] theorem State.modFrames_pins (s : State) (f : Frames → Frames) : (s.modFrames f).pins = s.pins := (rfl)
@[simp] theorem State.modFrames_freeCount (s : State) (f : Frames → Frames) : (s.modFrames f).freeCount = s.freeCount := (rfl)
@[simp] theorem State.modFrames_pending (s : State) (f : Frames → Frames) : (s.modFrames f).pending = s.pending := (rfl)
@[simp] theorem State.modFrames_side (s : State) (f : Frames → Frames) (x : Side) : (s.modFrames f).side x = s.side x :=
  by cases x <;> rfl
@[simp] theorem State.modFrames_rd (s : State) (f : Frames → Frames) (a : Nat) : (s.modFrames f).rd a = s.rd a := (rfl)

/-! modTrg -/

@[simp] theorem State.modTrg_clock (s : State) (f : Trg → Trg) : (s.modTrg f).clock = s.clock := (rfl)
@[simp] theorem State.modTrg_regs (s : State) (f : Trg → Trg) : (s.modTrg f).regs = s.regs := (rfl)
@[simp] theorem State.modTrg_fresh (s : State) (f : Trg → Trg) : (s.modTrg f).fresh = s.fresh := (rfl)
@[simp] theorem State.modTrg_late (s : State) (f : Trg → Trg) : (s.modTrg f).late = s.late := (rfl)
@[simp] theorem State.modTrg_capture (s : State) (f : Trg → Trg) : (s.modTrg f).capture = s.capture := (rfl)
@[simp] theorem State.modTrg_pix (s : State) (f : Trg → Trg) : (s.modTrg f).pix = s.pix := (rfl)
@[simp] theorem State.modTrg_tdc (s : State) (f : Trg → Trg) : (s.modTrg f).tdc = s.tdc := (rfl)
@[simp] theorem State.modTrg_frames (s : State) (f : Trg → Trg) : (s.modTrg f).frames = s.frames := (rfl)
@[simp] theorem State.modTrg_tiles (s : State) (f : Trg → Trg) : (s.modTrg f).tiles = s.tiles := (rfl)
@[simp] theorem State.modTrg_squall (s : State) (f : Trg → Trg) : (s.modTrg f).squall = s.squall := (rfl)
@[simp] theorem State.modTrg_trg (s : State) (f : Trg → Trg) : (s.modTrg f).trg = f s.trg := (rfl)
@[simp] theorem State.modTrg_sideA (s : State) (f : Trg → Trg) : (s.modTrg f).sideA = s.sideA := (rfl)
@[simp] theorem State.modTrg_sideB (s : State) (f : Trg → Trg) : (s.modTrg f).sideB = s.sideB := (rfl)
@[simp] theorem State.modTrg_spi (s : State) (f : Trg → Trg) : (s.modTrg f).spi = s.spi := (rfl)
@[simp] theorem State.modTrg_power (s : State) (f : Trg → Trg) : (s.modTrg f).power = s.power := (rfl)
@[simp] theorem State.modTrg_arb (s : State) (f : Trg → Trg) : (s.modTrg f).arb = s.arb := (rfl)
@[simp] theorem State.modTrg_bg (s : State) (f : Trg → Trg) : (s.modTrg f).bg = s.bg := (rfl)
@[simp] theorem State.modTrg_lace (s : State) (f : Trg → Trg) : (s.modTrg f).lace = s.lace := (rfl)
@[simp] theorem State.modTrg_hk (s : State) (f : Trg → Trg) : (s.modTrg f).hk = s.hk := (rfl)
@[simp] theorem State.modTrg_pins (s : State) (f : Trg → Trg) : (s.modTrg f).pins = s.pins := (rfl)
@[simp] theorem State.modTrg_freeCount (s : State) (f : Trg → Trg) : (s.modTrg f).freeCount = s.freeCount := (rfl)
@[simp] theorem State.modTrg_pending (s : State) (f : Trg → Trg) : (s.modTrg f).pending = s.pending := (rfl)
@[simp] theorem State.modTrg_side (s : State) (f : Trg → Trg) (x : Side) : (s.modTrg f).side x = s.side x := by cases x <;> rfl
@[simp] theorem State.modTrg_rd (s : State) (f : Trg → Trg) (a : Nat) : (s.modTrg f).rd a = s.rd a := (rfl)

/-! modPower -/

@[simp] theorem State.modPower_clock (s : State) (f : Power → Power) : (s.modPower f).clock = s.clock := (rfl)
@[simp] theorem State.modPower_regs (s : State) (f : Power → Power) : (s.modPower f).regs = s.regs := (rfl)
@[simp] theorem State.modPower_fresh (s : State) (f : Power → Power) : (s.modPower f).fresh = s.fresh := (rfl)
@[simp] theorem State.modPower_late (s : State) (f : Power → Power) : (s.modPower f).late = s.late := (rfl)
@[simp] theorem State.modPower_capture (s : State) (f : Power → Power) : (s.modPower f).capture = s.capture := (rfl)
@[simp] theorem State.modPower_pix (s : State) (f : Power → Power) : (s.modPower f).pix = s.pix := (rfl)
@[simp] theorem State.modPower_tdc (s : State) (f : Power → Power) : (s.modPower f).tdc = s.tdc := (rfl)
@[simp] theorem State.modPower_frames (s : State) (f : Power → Power) : (s.modPower f).frames = s.frames := (rfl)
@[simp] theorem State.modPower_tiles (s : State) (f : Power → Power) : (s.modPower f).tiles = s.tiles := (rfl)
@[simp] theorem State.modPower_squall (s : State) (f : Power → Power) : (s.modPower f).squall = s.squall := (rfl)
@[simp] theorem State.modPower_trg (s : State) (f : Power → Power) : (s.modPower f).trg = s.trg := (rfl)
@[simp] theorem State.modPower_sideA (s : State) (f : Power → Power) : (s.modPower f).sideA = s.sideA := (rfl)
@[simp] theorem State.modPower_sideB (s : State) (f : Power → Power) : (s.modPower f).sideB = s.sideB := (rfl)
@[simp] theorem State.modPower_spi (s : State) (f : Power → Power) : (s.modPower f).spi = s.spi := (rfl)
@[simp] theorem State.modPower_power (s : State) (f : Power → Power) : (s.modPower f).power = f s.power := (rfl)
@[simp] theorem State.modPower_arb (s : State) (f : Power → Power) : (s.modPower f).arb = s.arb := (rfl)
@[simp] theorem State.modPower_bg (s : State) (f : Power → Power) : (s.modPower f).bg = s.bg := (rfl)
@[simp] theorem State.modPower_lace (s : State) (f : Power → Power) : (s.modPower f).lace = s.lace := (rfl)
@[simp] theorem State.modPower_hk (s : State) (f : Power → Power) : (s.modPower f).hk = s.hk := (rfl)
@[simp] theorem State.modPower_pins (s : State) (f : Power → Power) : (s.modPower f).pins = s.pins := (rfl)
@[simp] theorem State.modPower_freeCount (s : State) (f : Power → Power) : (s.modPower f).freeCount = s.freeCount := (rfl)
@[simp] theorem State.modPower_pending (s : State) (f : Power → Power) : (s.modPower f).pending = s.pending := (rfl)
@[simp] theorem State.modPower_side (s : State) (f : Power → Power) (x : Side) : (s.modPower f).side x = s.side x :=
  by cases x <;> rfl
@[simp] theorem State.modPower_rd (s : State) (f : Power → Power) (a : Nat) : (s.modPower f).rd a = s.rd a := (rfl)

/-! modArb -/

@[simp] theorem State.modArb_clock (s : State) (f : Arb → Arb) : (s.modArb f).clock = s.clock := (rfl)
@[simp] theorem State.modArb_regs (s : State) (f : Arb → Arb) : (s.modArb f).regs = s.regs := (rfl)
@[simp] theorem State.modArb_fresh (s : State) (f : Arb → Arb) : (s.modArb f).fresh = s.fresh := (rfl)
@[simp] theorem State.modArb_late (s : State) (f : Arb → Arb) : (s.modArb f).late = s.late := (rfl)
@[simp] theorem State.modArb_capture (s : State) (f : Arb → Arb) : (s.modArb f).capture = s.capture := (rfl)
@[simp] theorem State.modArb_pix (s : State) (f : Arb → Arb) : (s.modArb f).pix = s.pix := (rfl)
@[simp] theorem State.modArb_tdc (s : State) (f : Arb → Arb) : (s.modArb f).tdc = s.tdc := (rfl)
@[simp] theorem State.modArb_frames (s : State) (f : Arb → Arb) : (s.modArb f).frames = s.frames := (rfl)
@[simp] theorem State.modArb_tiles (s : State) (f : Arb → Arb) : (s.modArb f).tiles = s.tiles := (rfl)
@[simp] theorem State.modArb_squall (s : State) (f : Arb → Arb) : (s.modArb f).squall = s.squall := (rfl)
@[simp] theorem State.modArb_trg (s : State) (f : Arb → Arb) : (s.modArb f).trg = s.trg := (rfl)
@[simp] theorem State.modArb_sideA (s : State) (f : Arb → Arb) : (s.modArb f).sideA = s.sideA := (rfl)
@[simp] theorem State.modArb_sideB (s : State) (f : Arb → Arb) : (s.modArb f).sideB = s.sideB := (rfl)
@[simp] theorem State.modArb_spi (s : State) (f : Arb → Arb) : (s.modArb f).spi = s.spi := (rfl)
@[simp] theorem State.modArb_power (s : State) (f : Arb → Arb) : (s.modArb f).power = s.power := (rfl)
@[simp] theorem State.modArb_arb (s : State) (f : Arb → Arb) : (s.modArb f).arb = f s.arb := (rfl)
@[simp] theorem State.modArb_bg (s : State) (f : Arb → Arb) : (s.modArb f).bg = s.bg := (rfl)
@[simp] theorem State.modArb_lace (s : State) (f : Arb → Arb) : (s.modArb f).lace = s.lace := (rfl)
@[simp] theorem State.modArb_hk (s : State) (f : Arb → Arb) : (s.modArb f).hk = s.hk := (rfl)
@[simp] theorem State.modArb_pins (s : State) (f : Arb → Arb) : (s.modArb f).pins = s.pins := (rfl)
@[simp] theorem State.modArb_freeCount (s : State) (f : Arb → Arb) : (s.modArb f).freeCount = s.freeCount := (rfl)
@[simp] theorem State.modArb_pending (s : State) (f : Arb → Arb) : (s.modArb f).pending = s.pending := (rfl)
@[simp] theorem State.modArb_side (s : State) (f : Arb → Arb) (x : Side) : (s.modArb f).side x = s.side x := by cases x <;> rfl
@[simp] theorem State.modArb_rd (s : State) (f : Arb → Arb) (a : Nat) : (s.modArb f).rd a = s.rd a := (rfl)

/-! modBg -/

@[simp] theorem State.modBg_clock (s : State) (f : Background → Background) : (s.modBg f).clock = s.clock := (rfl)
@[simp] theorem State.modBg_regs (s : State) (f : Background → Background) : (s.modBg f).regs = s.regs := (rfl)
@[simp] theorem State.modBg_fresh (s : State) (f : Background → Background) : (s.modBg f).fresh = s.fresh := (rfl)
@[simp] theorem State.modBg_late (s : State) (f : Background → Background) : (s.modBg f).late = s.late := (rfl)
@[simp] theorem State.modBg_capture (s : State) (f : Background → Background) : (s.modBg f).capture = s.capture := (rfl)
@[simp] theorem State.modBg_pix (s : State) (f : Background → Background) : (s.modBg f).pix = s.pix := (rfl)
@[simp] theorem State.modBg_tdc (s : State) (f : Background → Background) : (s.modBg f).tdc = s.tdc := (rfl)
@[simp] theorem State.modBg_frames (s : State) (f : Background → Background) : (s.modBg f).frames = s.frames := (rfl)
@[simp] theorem State.modBg_tiles (s : State) (f : Background → Background) : (s.modBg f).tiles = s.tiles := (rfl)
@[simp] theorem State.modBg_squall (s : State) (f : Background → Background) : (s.modBg f).squall = s.squall := (rfl)
@[simp] theorem State.modBg_trg (s : State) (f : Background → Background) : (s.modBg f).trg = s.trg := (rfl)
@[simp] theorem State.modBg_sideA (s : State) (f : Background → Background) : (s.modBg f).sideA = s.sideA := (rfl)
@[simp] theorem State.modBg_sideB (s : State) (f : Background → Background) : (s.modBg f).sideB = s.sideB := (rfl)
@[simp] theorem State.modBg_spi (s : State) (f : Background → Background) : (s.modBg f).spi = s.spi := (rfl)
@[simp] theorem State.modBg_power (s : State) (f : Background → Background) : (s.modBg f).power = s.power := (rfl)
@[simp] theorem State.modBg_arb (s : State) (f : Background → Background) : (s.modBg f).arb = s.arb := (rfl)
@[simp] theorem State.modBg_bg (s : State) (f : Background → Background) : (s.modBg f).bg = f s.bg := (rfl)
@[simp] theorem State.modBg_lace (s : State) (f : Background → Background) : (s.modBg f).lace = s.lace := (rfl)
@[simp] theorem State.modBg_hk (s : State) (f : Background → Background) : (s.modBg f).hk = s.hk := (rfl)
@[simp] theorem State.modBg_pins (s : State) (f : Background → Background) : (s.modBg f).pins = s.pins := (rfl)
@[simp] theorem State.modBg_freeCount (s : State) (f : Background → Background) : (s.modBg f).freeCount = s.freeCount := (rfl)
@[simp] theorem State.modBg_pending (s : State) (f : Background → Background) : (s.modBg f).pending = s.pending := (rfl)
@[simp] theorem State.modBg_side (s : State) (f : Background → Background) (x : Side) : (s.modBg f).side x = s.side x :=
  by cases x <;> rfl
@[simp] theorem State.modBg_rd (s : State) (f : Background → Background) (a : Nat) : (s.modBg f).rd a = s.rd a := (rfl)

/-! modLace -/

@[simp] theorem State.modLace_clock (s : State) (f : LaceBase → LaceBase) : (s.modLace f).clock = s.clock := (rfl)
@[simp] theorem State.modLace_regs (s : State) (f : LaceBase → LaceBase) : (s.modLace f).regs = s.regs := (rfl)
@[simp] theorem State.modLace_fresh (s : State) (f : LaceBase → LaceBase) : (s.modLace f).fresh = s.fresh := (rfl)
@[simp] theorem State.modLace_late (s : State) (f : LaceBase → LaceBase) : (s.modLace f).late = s.late := (rfl)
@[simp] theorem State.modLace_capture (s : State) (f : LaceBase → LaceBase) : (s.modLace f).capture = s.capture := (rfl)
@[simp] theorem State.modLace_pix (s : State) (f : LaceBase → LaceBase) : (s.modLace f).pix = s.pix := (rfl)
@[simp] theorem State.modLace_tdc (s : State) (f : LaceBase → LaceBase) : (s.modLace f).tdc = s.tdc := (rfl)
@[simp] theorem State.modLace_frames (s : State) (f : LaceBase → LaceBase) : (s.modLace f).frames = s.frames := (rfl)
@[simp] theorem State.modLace_tiles (s : State) (f : LaceBase → LaceBase) : (s.modLace f).tiles = s.tiles := (rfl)
@[simp] theorem State.modLace_squall (s : State) (f : LaceBase → LaceBase) : (s.modLace f).squall = s.squall := (rfl)
@[simp] theorem State.modLace_trg (s : State) (f : LaceBase → LaceBase) : (s.modLace f).trg = s.trg := (rfl)
@[simp] theorem State.modLace_sideA (s : State) (f : LaceBase → LaceBase) : (s.modLace f).sideA = s.sideA := (rfl)
@[simp] theorem State.modLace_sideB (s : State) (f : LaceBase → LaceBase) : (s.modLace f).sideB = s.sideB := (rfl)
@[simp] theorem State.modLace_spi (s : State) (f : LaceBase → LaceBase) : (s.modLace f).spi = s.spi := (rfl)
@[simp] theorem State.modLace_power (s : State) (f : LaceBase → LaceBase) : (s.modLace f).power = s.power := (rfl)
@[simp] theorem State.modLace_arb (s : State) (f : LaceBase → LaceBase) : (s.modLace f).arb = s.arb := (rfl)
@[simp] theorem State.modLace_bg (s : State) (f : LaceBase → LaceBase) : (s.modLace f).bg = s.bg := (rfl)
@[simp] theorem State.modLace_lace (s : State) (f : LaceBase → LaceBase) : (s.modLace f).lace = f s.lace := (rfl)
@[simp] theorem State.modLace_hk (s : State) (f : LaceBase → LaceBase) : (s.modLace f).hk = s.hk := (rfl)
@[simp] theorem State.modLace_pins (s : State) (f : LaceBase → LaceBase) : (s.modLace f).pins = s.pins := (rfl)
@[simp] theorem State.modLace_freeCount (s : State) (f : LaceBase → LaceBase) : (s.modLace f).freeCount = s.freeCount := (rfl)
@[simp] theorem State.modLace_pending (s : State) (f : LaceBase → LaceBase) : (s.modLace f).pending = s.pending := (rfl)
@[simp] theorem State.modLace_side (s : State) (f : LaceBase → LaceBase) (x : Side) : (s.modLace f).side x = s.side x :=
  by cases x <;> rfl
@[simp] theorem State.modLace_rd (s : State) (f : LaceBase → LaceBase) (a : Nat) : (s.modLace f).rd a = s.rd a := (rfl)

/-! modHk -/

@[simp] theorem State.modHk_clock (s : State) (f : Hk → Hk) : (s.modHk f).clock = s.clock := (rfl)
@[simp] theorem State.modHk_regs (s : State) (f : Hk → Hk) : (s.modHk f).regs = s.regs := (rfl)
@[simp] theorem State.modHk_fresh (s : State) (f : Hk → Hk) : (s.modHk f).fresh = s.fresh := (rfl)
@[simp] theorem State.modHk_late (s : State) (f : Hk → Hk) : (s.modHk f).late = s.late := (rfl)
@[simp] theorem State.modHk_capture (s : State) (f : Hk → Hk) : (s.modHk f).capture = s.capture := (rfl)
@[simp] theorem State.modHk_pix (s : State) (f : Hk → Hk) : (s.modHk f).pix = s.pix := (rfl)
@[simp] theorem State.modHk_tdc (s : State) (f : Hk → Hk) : (s.modHk f).tdc = s.tdc := (rfl)
@[simp] theorem State.modHk_frames (s : State) (f : Hk → Hk) : (s.modHk f).frames = s.frames := (rfl)
@[simp] theorem State.modHk_tiles (s : State) (f : Hk → Hk) : (s.modHk f).tiles = s.tiles := (rfl)
@[simp] theorem State.modHk_squall (s : State) (f : Hk → Hk) : (s.modHk f).squall = s.squall := (rfl)
@[simp] theorem State.modHk_trg (s : State) (f : Hk → Hk) : (s.modHk f).trg = s.trg := (rfl)
@[simp] theorem State.modHk_sideA (s : State) (f : Hk → Hk) : (s.modHk f).sideA = s.sideA := (rfl)
@[simp] theorem State.modHk_sideB (s : State) (f : Hk → Hk) : (s.modHk f).sideB = s.sideB := (rfl)
@[simp] theorem State.modHk_spi (s : State) (f : Hk → Hk) : (s.modHk f).spi = s.spi := (rfl)
@[simp] theorem State.modHk_power (s : State) (f : Hk → Hk) : (s.modHk f).power = s.power := (rfl)
@[simp] theorem State.modHk_arb (s : State) (f : Hk → Hk) : (s.modHk f).arb = s.arb := (rfl)
@[simp] theorem State.modHk_bg (s : State) (f : Hk → Hk) : (s.modHk f).bg = s.bg := (rfl)
@[simp] theorem State.modHk_lace (s : State) (f : Hk → Hk) : (s.modHk f).lace = s.lace := (rfl)
@[simp] theorem State.modHk_hk (s : State) (f : Hk → Hk) : (s.modHk f).hk = f s.hk := (rfl)
@[simp] theorem State.modHk_pins (s : State) (f : Hk → Hk) : (s.modHk f).pins = s.pins := (rfl)
@[simp] theorem State.modHk_freeCount (s : State) (f : Hk → Hk) : (s.modHk f).freeCount = s.freeCount := (rfl)
@[simp] theorem State.modHk_pending (s : State) (f : Hk → Hk) : (s.modHk f).pending = s.pending := (rfl)
@[simp] theorem State.modHk_side (s : State) (f : Hk → Hk) (x : Side) : (s.modHk f).side x = s.side x := by cases x <;> rfl
@[simp] theorem State.modHk_rd (s : State) (f : Hk → Hk) (a : Nat) : (s.modHk f).rd a = s.rd a := (rfl)

/-! wr -/

@[simp] theorem State.wr_clock (s : State) (a : Nat) (v : Word) : (s.wr a v).clock = s.clock := (rfl)
@[simp] theorem State.wr_fresh (s : State) (a : Nat) (v : Word) : (s.wr a v).fresh = s.fresh := (rfl)
@[simp] theorem State.wr_late (s : State) (a : Nat) (v : Word) : (s.wr a v).late = s.late := (rfl)
@[simp] theorem State.wr_capture (s : State) (a : Nat) (v : Word) : (s.wr a v).capture = s.capture := (rfl)
@[simp] theorem State.wr_pix (s : State) (a : Nat) (v : Word) : (s.wr a v).pix = s.pix := (rfl)
@[simp] theorem State.wr_tdc (s : State) (a : Nat) (v : Word) : (s.wr a v).tdc = s.tdc := (rfl)
@[simp] theorem State.wr_frames (s : State) (a : Nat) (v : Word) : (s.wr a v).frames = s.frames := (rfl)
@[simp] theorem State.wr_tiles (s : State) (a : Nat) (v : Word) : (s.wr a v).tiles = s.tiles := (rfl)
@[simp] theorem State.wr_squall (s : State) (a : Nat) (v : Word) : (s.wr a v).squall = s.squall := (rfl)
@[simp] theorem State.wr_trg (s : State) (a : Nat) (v : Word) : (s.wr a v).trg = s.trg := (rfl)
@[simp] theorem State.wr_sideA (s : State) (a : Nat) (v : Word) : (s.wr a v).sideA = s.sideA := (rfl)
@[simp] theorem State.wr_sideB (s : State) (a : Nat) (v : Word) : (s.wr a v).sideB = s.sideB := (rfl)
@[simp] theorem State.wr_spi (s : State) (a : Nat) (v : Word) : (s.wr a v).spi = s.spi := (rfl)
@[simp] theorem State.wr_power (s : State) (a : Nat) (v : Word) : (s.wr a v).power = s.power := (rfl)
@[simp] theorem State.wr_arb (s : State) (a : Nat) (v : Word) : (s.wr a v).arb = s.arb := (rfl)
@[simp] theorem State.wr_bg (s : State) (a : Nat) (v : Word) : (s.wr a v).bg = s.bg := (rfl)
@[simp] theorem State.wr_lace (s : State) (a : Nat) (v : Word) : (s.wr a v).lace = s.lace := (rfl)
@[simp] theorem State.wr_hk (s : State) (a : Nat) (v : Word) : (s.wr a v).hk = s.hk := (rfl)
@[simp] theorem State.wr_pins (s : State) (a : Nat) (v : Word) : (s.wr a v).pins = s.pins := (rfl)
@[simp] theorem State.wr_freeCount (s : State) (a : Nat) (v : Word) : (s.wr a v).freeCount = s.freeCount := (rfl)
@[simp] theorem State.wr_pending (s : State) (a : Nat) (v : Word) : (s.wr a v).pending = s.pending := (rfl)
@[simp] theorem State.wr_side (s : State) (a : Nat) (v : Word) (x : Side) : (s.wr a v).side x = s.side x := by cases x <;> rfl

/-! wf -/

@[simp] theorem State.wf_clock (s : State) (a hi lo v : Nat) : (s.wf a hi lo v).clock = s.clock := (rfl)
@[simp] theorem State.wf_fresh (s : State) (a hi lo v : Nat) : (s.wf a hi lo v).fresh = s.fresh := (rfl)
@[simp] theorem State.wf_late (s : State) (a hi lo v : Nat) : (s.wf a hi lo v).late = s.late := (rfl)
@[simp] theorem State.wf_capture (s : State) (a hi lo v : Nat) : (s.wf a hi lo v).capture = s.capture := (rfl)
@[simp] theorem State.wf_pix (s : State) (a hi lo v : Nat) : (s.wf a hi lo v).pix = s.pix := (rfl)
@[simp] theorem State.wf_tdc (s : State) (a hi lo v : Nat) : (s.wf a hi lo v).tdc = s.tdc := (rfl)
@[simp] theorem State.wf_frames (s : State) (a hi lo v : Nat) : (s.wf a hi lo v).frames = s.frames := (rfl)
@[simp] theorem State.wf_tiles (s : State) (a hi lo v : Nat) : (s.wf a hi lo v).tiles = s.tiles := (rfl)
@[simp] theorem State.wf_squall (s : State) (a hi lo v : Nat) : (s.wf a hi lo v).squall = s.squall := (rfl)
@[simp] theorem State.wf_trg (s : State) (a hi lo v : Nat) : (s.wf a hi lo v).trg = s.trg := (rfl)
@[simp] theorem State.wf_sideA (s : State) (a hi lo v : Nat) : (s.wf a hi lo v).sideA = s.sideA := (rfl)
@[simp] theorem State.wf_sideB (s : State) (a hi lo v : Nat) : (s.wf a hi lo v).sideB = s.sideB := (rfl)
@[simp] theorem State.wf_spi (s : State) (a hi lo v : Nat) : (s.wf a hi lo v).spi = s.spi := (rfl)
@[simp] theorem State.wf_power (s : State) (a hi lo v : Nat) : (s.wf a hi lo v).power = s.power := (rfl)
@[simp] theorem State.wf_arb (s : State) (a hi lo v : Nat) : (s.wf a hi lo v).arb = s.arb := (rfl)
@[simp] theorem State.wf_bg (s : State) (a hi lo v : Nat) : (s.wf a hi lo v).bg = s.bg := (rfl)
@[simp] theorem State.wf_lace (s : State) (a hi lo v : Nat) : (s.wf a hi lo v).lace = s.lace := (rfl)
@[simp] theorem State.wf_hk (s : State) (a hi lo v : Nat) : (s.wf a hi lo v).hk = s.hk := (rfl)
@[simp] theorem State.wf_pins (s : State) (a hi lo v : Nat) : (s.wf a hi lo v).pins = s.pins := (rfl)
@[simp] theorem State.wf_freeCount (s : State) (a hi lo v : Nat) : (s.wf a hi lo v).freeCount = s.freeCount := (rfl)
@[simp] theorem State.wf_pending (s : State) (a hi lo v : Nat) : (s.wf a hi lo v).pending = s.pending := (rfl)
@[simp] theorem State.wf_side (s : State) (a hi lo v : Nat) (x : Side) : (s.wf a hi lo v).side x = s.side x := by cases x <;> rfl

/-! noteSet -/

@[simp] theorem State.noteSet_clock (s : State) (a hi lo : Nat) (f : Nat → Nat) : (s.noteSet a hi lo f).clock = s.clock := (rfl)
@[simp] theorem State.noteSet_capture (s : State) (a hi lo : Nat) (f : Nat → Nat) : (s.noteSet a hi lo f).capture = s.capture := (rfl)
@[simp] theorem State.noteSet_pix (s : State) (a hi lo : Nat) (f : Nat → Nat) : (s.noteSet a hi lo f).pix = s.pix := (rfl)
@[simp] theorem State.noteSet_tdc (s : State) (a hi lo : Nat) (f : Nat → Nat) : (s.noteSet a hi lo f).tdc = s.tdc := (rfl)
@[simp] theorem State.noteSet_frames (s : State) (a hi lo : Nat) (f : Nat → Nat) : (s.noteSet a hi lo f).frames = s.frames := (rfl)
@[simp] theorem State.noteSet_tiles (s : State) (a hi lo : Nat) (f : Nat → Nat) : (s.noteSet a hi lo f).tiles = s.tiles := (rfl)
@[simp] theorem State.noteSet_squall (s : State) (a hi lo : Nat) (f : Nat → Nat) : (s.noteSet a hi lo f).squall = s.squall := (rfl)
@[simp] theorem State.noteSet_trg (s : State) (a hi lo : Nat) (f : Nat → Nat) : (s.noteSet a hi lo f).trg = s.trg := (rfl)
@[simp] theorem State.noteSet_sideA (s : State) (a hi lo : Nat) (f : Nat → Nat) : (s.noteSet a hi lo f).sideA = s.sideA := (rfl)
@[simp] theorem State.noteSet_sideB (s : State) (a hi lo : Nat) (f : Nat → Nat) : (s.noteSet a hi lo f).sideB = s.sideB := (rfl)
@[simp] theorem State.noteSet_spi (s : State) (a hi lo : Nat) (f : Nat → Nat) : (s.noteSet a hi lo f).spi = s.spi := (rfl)
@[simp] theorem State.noteSet_power (s : State) (a hi lo : Nat) (f : Nat → Nat) : (s.noteSet a hi lo f).power = s.power := (rfl)
@[simp] theorem State.noteSet_arb (s : State) (a hi lo : Nat) (f : Nat → Nat) : (s.noteSet a hi lo f).arb = s.arb := (rfl)
@[simp] theorem State.noteSet_bg (s : State) (a hi lo : Nat) (f : Nat → Nat) : (s.noteSet a hi lo f).bg = s.bg := (rfl)
@[simp] theorem State.noteSet_lace (s : State) (a hi lo : Nat) (f : Nat → Nat) : (s.noteSet a hi lo f).lace = s.lace := (rfl)
@[simp] theorem State.noteSet_hk (s : State) (a hi lo : Nat) (f : Nat → Nat) : (s.noteSet a hi lo f).hk = s.hk := (rfl)
@[simp] theorem State.noteSet_pins (s : State) (a hi lo : Nat) (f : Nat → Nat) : (s.noteSet a hi lo f).pins = s.pins := (rfl)
@[simp] theorem State.noteSet_freeCount (s : State) (a hi lo : Nat) (f : Nat → Nat) : (s.noteSet a hi lo f).freeCount = s.freeCount := (rfl)
@[simp] theorem State.noteSet_pending (s : State) (a hi lo : Nat) (f : Nat → Nat) : (s.noteSet a hi lo f).pending = s.pending := (rfl)
@[simp] theorem State.noteSet_regs (s : State) (a hi lo : Nat) (f : Nat → Nat) : (s.noteSet a hi lo f).regs = s.regs := (rfl)
@[simp] theorem State.noteSet_side (s : State) (a hi lo : Nat) (f : Nat → Nat) (x : Side) : (s.noteSet a hi lo f).side x = s.side x := by cases x <;> rfl
@[simp] theorem State.noteSet_rd (s : State) (a hi lo : Nat) (f : Nat → Nat) (b : Nat) : (s.noteSet a hi lo f).rd b = s.rd b := (rfl)

/-! raiseBit -/

@[simp] theorem State.raiseBit_clock (s : State) (a i : Nat) : (s.raiseBit a i).clock = s.clock := (rfl)
@[simp] theorem State.raiseBit_capture (s : State) (a i : Nat) : (s.raiseBit a i).capture = s.capture := (rfl)
@[simp] theorem State.raiseBit_pix (s : State) (a i : Nat) : (s.raiseBit a i).pix = s.pix := (rfl)
@[simp] theorem State.raiseBit_tdc (s : State) (a i : Nat) : (s.raiseBit a i).tdc = s.tdc := (rfl)
@[simp] theorem State.raiseBit_frames (s : State) (a i : Nat) : (s.raiseBit a i).frames = s.frames := (rfl)
@[simp] theorem State.raiseBit_tiles (s : State) (a i : Nat) : (s.raiseBit a i).tiles = s.tiles := (rfl)
@[simp] theorem State.raiseBit_squall (s : State) (a i : Nat) : (s.raiseBit a i).squall = s.squall := (rfl)
@[simp] theorem State.raiseBit_trg (s : State) (a i : Nat) : (s.raiseBit a i).trg = s.trg := (rfl)
@[simp] theorem State.raiseBit_sideA (s : State) (a i : Nat) : (s.raiseBit a i).sideA = s.sideA := (rfl)
@[simp] theorem State.raiseBit_sideB (s : State) (a i : Nat) : (s.raiseBit a i).sideB = s.sideB := (rfl)
@[simp] theorem State.raiseBit_spi (s : State) (a i : Nat) : (s.raiseBit a i).spi = s.spi := (rfl)
@[simp] theorem State.raiseBit_power (s : State) (a i : Nat) : (s.raiseBit a i).power = s.power := (rfl)
@[simp] theorem State.raiseBit_arb (s : State) (a i : Nat) : (s.raiseBit a i).arb = s.arb := (rfl)
@[simp] theorem State.raiseBit_bg (s : State) (a i : Nat) : (s.raiseBit a i).bg = s.bg := (rfl)
@[simp] theorem State.raiseBit_lace (s : State) (a i : Nat) : (s.raiseBit a i).lace = s.lace := (rfl)
@[simp] theorem State.raiseBit_hk (s : State) (a i : Nat) : (s.raiseBit a i).hk = s.hk := (rfl)
@[simp] theorem State.raiseBit_pins (s : State) (a i : Nat) : (s.raiseBit a i).pins = s.pins := (rfl)
@[simp] theorem State.raiseBit_freeCount (s : State) (a i : Nat) : (s.raiseBit a i).freeCount = s.freeCount := (rfl)
@[simp] theorem State.raiseBit_pending (s : State) (a i : Nat) : (s.raiseBit a i).pending = s.pending := (rfl)
@[simp] theorem State.raiseBit_side (s : State) (a i : Nat) (x : Side) : (s.raiseBit a i).side x = s.side x := by cases x <;> rfl

/-! bump -/

@[simp] theorem State.bump_clock (s : State) (a hi lo n : Nat) : (s.bump a hi lo n).clock = s.clock := (rfl)
@[simp] theorem State.bump_capture (s : State) (a hi lo n : Nat) : (s.bump a hi lo n).capture = s.capture := (rfl)
@[simp] theorem State.bump_pix (s : State) (a hi lo n : Nat) : (s.bump a hi lo n).pix = s.pix := (rfl)
@[simp] theorem State.bump_tdc (s : State) (a hi lo n : Nat) : (s.bump a hi lo n).tdc = s.tdc := (rfl)
@[simp] theorem State.bump_frames (s : State) (a hi lo n : Nat) : (s.bump a hi lo n).frames = s.frames := (rfl)
@[simp] theorem State.bump_tiles (s : State) (a hi lo n : Nat) : (s.bump a hi lo n).tiles = s.tiles := (rfl)
@[simp] theorem State.bump_squall (s : State) (a hi lo n : Nat) : (s.bump a hi lo n).squall = s.squall := (rfl)
@[simp] theorem State.bump_trg (s : State) (a hi lo n : Nat) : (s.bump a hi lo n).trg = s.trg := (rfl)
@[simp] theorem State.bump_sideA (s : State) (a hi lo n : Nat) : (s.bump a hi lo n).sideA = s.sideA := (rfl)
@[simp] theorem State.bump_sideB (s : State) (a hi lo n : Nat) : (s.bump a hi lo n).sideB = s.sideB := (rfl)
@[simp] theorem State.bump_spi (s : State) (a hi lo n : Nat) : (s.bump a hi lo n).spi = s.spi := (rfl)
@[simp] theorem State.bump_power (s : State) (a hi lo n : Nat) : (s.bump a hi lo n).power = s.power := (rfl)
@[simp] theorem State.bump_arb (s : State) (a hi lo n : Nat) : (s.bump a hi lo n).arb = s.arb := (rfl)
@[simp] theorem State.bump_bg (s : State) (a hi lo n : Nat) : (s.bump a hi lo n).bg = s.bg := (rfl)
@[simp] theorem State.bump_lace (s : State) (a hi lo n : Nat) : (s.bump a hi lo n).lace = s.lace := (rfl)
@[simp] theorem State.bump_hk (s : State) (a hi lo n : Nat) : (s.bump a hi lo n).hk = s.hk := (rfl)
@[simp] theorem State.bump_pins (s : State) (a hi lo n : Nat) : (s.bump a hi lo n).pins = s.pins := (rfl)
@[simp] theorem State.bump_freeCount (s : State) (a hi lo n : Nat) : (s.bump a hi lo n).freeCount = s.freeCount := (rfl)
@[simp] theorem State.bump_pending (s : State) (a hi lo n : Nat) : (s.bump a hi lo n).pending = s.pending := (rfl)
@[simp] theorem State.bump_side (s : State) (a hi lo n : Nat) (x : Side) : (s.bump a hi lo n).side x = s.side x :=
  by cases x <;> rfl
@[simp] theorem State.bump_rd (s : State) (a hi lo n b : Nat) :
    (s.bump a hi lo n).rd b = (s.wf a hi lo (min (s.rf a hi lo + n) (2 ^ (hi + 1 - lo) - 1))).rd b := (rfl)

/-! count -/

@[simp] theorem State.count_clock (s : State) (a hi lo n : Nat) : (s.count a hi lo n).clock = s.clock := (rfl)
@[simp] theorem State.count_fresh (s : State) (a hi lo n : Nat) : (s.count a hi lo n).fresh = s.fresh := (rfl)
@[simp] theorem State.count_late (s : State) (a hi lo n : Nat) : (s.count a hi lo n).late = s.late := (rfl)
@[simp] theorem State.count_capture (s : State) (a hi lo n : Nat) : (s.count a hi lo n).capture = s.capture := (rfl)
@[simp] theorem State.count_pix (s : State) (a hi lo n : Nat) : (s.count a hi lo n).pix = s.pix := (rfl)
@[simp] theorem State.count_tdc (s : State) (a hi lo n : Nat) : (s.count a hi lo n).tdc = s.tdc := (rfl)
@[simp] theorem State.count_frames (s : State) (a hi lo n : Nat) : (s.count a hi lo n).frames = s.frames := (rfl)
@[simp] theorem State.count_tiles (s : State) (a hi lo n : Nat) : (s.count a hi lo n).tiles = s.tiles := (rfl)
@[simp] theorem State.count_squall (s : State) (a hi lo n : Nat) : (s.count a hi lo n).squall = s.squall := (rfl)
@[simp] theorem State.count_trg (s : State) (a hi lo n : Nat) : (s.count a hi lo n).trg = s.trg := (rfl)
@[simp] theorem State.count_sideA (s : State) (a hi lo n : Nat) : (s.count a hi lo n).sideA = s.sideA := (rfl)
@[simp] theorem State.count_sideB (s : State) (a hi lo n : Nat) : (s.count a hi lo n).sideB = s.sideB := (rfl)
@[simp] theorem State.count_spi (s : State) (a hi lo n : Nat) : (s.count a hi lo n).spi = s.spi := (rfl)
@[simp] theorem State.count_power (s : State) (a hi lo n : Nat) : (s.count a hi lo n).power = s.power := (rfl)
@[simp] theorem State.count_arb (s : State) (a hi lo n : Nat) : (s.count a hi lo n).arb = s.arb := (rfl)
@[simp] theorem State.count_bg (s : State) (a hi lo n : Nat) : (s.count a hi lo n).bg = s.bg := (rfl)
@[simp] theorem State.count_lace (s : State) (a hi lo n : Nat) : (s.count a hi lo n).lace = s.lace := (rfl)
@[simp] theorem State.count_hk (s : State) (a hi lo n : Nat) : (s.count a hi lo n).hk = s.hk := (rfl)
@[simp] theorem State.count_pins (s : State) (a hi lo n : Nat) : (s.count a hi lo n).pins = s.pins := (rfl)
@[simp] theorem State.count_freeCount (s : State) (a hi lo n : Nat) : (s.count a hi lo n).freeCount = s.freeCount := (rfl)
@[simp] theorem State.count_pending (s : State) (a hi lo n : Nat) : (s.count a hi lo n).pending = s.pending := (rfl)
@[simp] theorem State.count_side (s : State) (a hi lo n : Nat) (x : Side) : (s.count a hi lo n).side x = s.side x :=
  by cases x <;> rfl

/-! wr64 -/

@[simp] theorem State.wr64_clock (s : State) (a b : Nat) (v : Time) : (s.wr64 a b v).clock = s.clock := (rfl)
@[simp] theorem State.wr64_fresh (s : State) (a b : Nat) (v : Time) : (s.wr64 a b v).fresh = s.fresh := (rfl)
@[simp] theorem State.wr64_late (s : State) (a b : Nat) (v : Time) : (s.wr64 a b v).late = s.late := (rfl)
@[simp] theorem State.wr64_capture (s : State) (a b : Nat) (v : Time) : (s.wr64 a b v).capture = s.capture := (rfl)
@[simp] theorem State.wr64_pix (s : State) (a b : Nat) (v : Time) : (s.wr64 a b v).pix = s.pix := (rfl)
@[simp] theorem State.wr64_tdc (s : State) (a b : Nat) (v : Time) : (s.wr64 a b v).tdc = s.tdc := (rfl)
@[simp] theorem State.wr64_frames (s : State) (a b : Nat) (v : Time) : (s.wr64 a b v).frames = s.frames := (rfl)
@[simp] theorem State.wr64_tiles (s : State) (a b : Nat) (v : Time) : (s.wr64 a b v).tiles = s.tiles := (rfl)
@[simp] theorem State.wr64_squall (s : State) (a b : Nat) (v : Time) : (s.wr64 a b v).squall = s.squall := (rfl)
@[simp] theorem State.wr64_trg (s : State) (a b : Nat) (v : Time) : (s.wr64 a b v).trg = s.trg := (rfl)
@[simp] theorem State.wr64_sideA (s : State) (a b : Nat) (v : Time) : (s.wr64 a b v).sideA = s.sideA := (rfl)
@[simp] theorem State.wr64_sideB (s : State) (a b : Nat) (v : Time) : (s.wr64 a b v).sideB = s.sideB := (rfl)
@[simp] theorem State.wr64_spi (s : State) (a b : Nat) (v : Time) : (s.wr64 a b v).spi = s.spi := (rfl)
@[simp] theorem State.wr64_power (s : State) (a b : Nat) (v : Time) : (s.wr64 a b v).power = s.power := (rfl)
@[simp] theorem State.wr64_arb (s : State) (a b : Nat) (v : Time) : (s.wr64 a b v).arb = s.arb := (rfl)
@[simp] theorem State.wr64_bg (s : State) (a b : Nat) (v : Time) : (s.wr64 a b v).bg = s.bg := (rfl)
@[simp] theorem State.wr64_lace (s : State) (a b : Nat) (v : Time) : (s.wr64 a b v).lace = s.lace := (rfl)
@[simp] theorem State.wr64_hk (s : State) (a b : Nat) (v : Time) : (s.wr64 a b v).hk = s.hk := (rfl)
@[simp] theorem State.wr64_pins (s : State) (a b : Nat) (v : Time) : (s.wr64 a b v).pins = s.pins := (rfl)
@[simp] theorem State.wr64_freeCount (s : State) (a b : Nat) (v : Time) : (s.wr64 a b v).freeCount = s.freeCount := (rfl)
@[simp] theorem State.wr64_pending (s : State) (a b : Nat) (v : Time) : (s.wr64 a b v).pending = s.pending := (rfl)
@[simp] theorem State.wr64_side (s : State) (a b : Nat) (v : Time) (x : Side) : (s.wr64 a b v).side x = s.side x :=
  by cases x <;> rfl

/-! high -/

@[simp] theorem State.high_clock (s : State) (a hi lo v : Nat) : (s.high a hi lo v).clock = s.clock :=
  by unfold State.high; dsimp only; split <;> rfl
@[simp] theorem State.high_capture (s : State) (a hi lo v : Nat) : (s.high a hi lo v).capture = s.capture :=
  by unfold State.high; dsimp only; split <;> rfl
@[simp] theorem State.high_pix (s : State) (a hi lo v : Nat) : (s.high a hi lo v).pix = s.pix :=
  by unfold State.high; dsimp only; split <;> rfl
@[simp] theorem State.high_tdc (s : State) (a hi lo v : Nat) : (s.high a hi lo v).tdc = s.tdc :=
  by unfold State.high; dsimp only; split <;> rfl
@[simp] theorem State.high_frames (s : State) (a hi lo v : Nat) : (s.high a hi lo v).frames = s.frames :=
  by unfold State.high; dsimp only; split <;> rfl
@[simp] theorem State.high_tiles (s : State) (a hi lo v : Nat) : (s.high a hi lo v).tiles = s.tiles :=
  by unfold State.high; dsimp only; split <;> rfl
@[simp] theorem State.high_squall (s : State) (a hi lo v : Nat) : (s.high a hi lo v).squall = s.squall :=
  by unfold State.high; dsimp only; split <;> rfl
@[simp] theorem State.high_trg (s : State) (a hi lo v : Nat) : (s.high a hi lo v).trg = s.trg :=
  by unfold State.high; dsimp only; split <;> rfl
@[simp] theorem State.high_sideA (s : State) (a hi lo v : Nat) : (s.high a hi lo v).sideA = s.sideA :=
  by unfold State.high; dsimp only; split <;> rfl
@[simp] theorem State.high_sideB (s : State) (a hi lo v : Nat) : (s.high a hi lo v).sideB = s.sideB :=
  by unfold State.high; dsimp only; split <;> rfl
@[simp] theorem State.high_spi (s : State) (a hi lo v : Nat) : (s.high a hi lo v).spi = s.spi :=
  by unfold State.high; dsimp only; split <;> rfl
@[simp] theorem State.high_power (s : State) (a hi lo v : Nat) : (s.high a hi lo v).power = s.power :=
  by unfold State.high; dsimp only; split <;> rfl
@[simp] theorem State.high_arb (s : State) (a hi lo v : Nat) : (s.high a hi lo v).arb = s.arb :=
  by unfold State.high; dsimp only; split <;> rfl
@[simp] theorem State.high_bg (s : State) (a hi lo v : Nat) : (s.high a hi lo v).bg = s.bg := by unfold State.high; dsimp only; split <;> rfl
@[simp] theorem State.high_lace (s : State) (a hi lo v : Nat) : (s.high a hi lo v).lace = s.lace :=
  by unfold State.high; dsimp only; split <;> rfl
@[simp] theorem State.high_hk (s : State) (a hi lo v : Nat) : (s.high a hi lo v).hk = s.hk := by unfold State.high; dsimp only; split <;> rfl
@[simp] theorem State.high_pins (s : State) (a hi lo v : Nat) : (s.high a hi lo v).pins = s.pins :=
  by unfold State.high; dsimp only; split <;> rfl
@[simp] theorem State.high_freeCount (s : State) (a hi lo v : Nat) : (s.high a hi lo v).freeCount = s.freeCount :=
  by unfold State.high; dsimp only; split <;> rfl
@[simp] theorem State.high_pending (s : State) (a hi lo v : Nat) : (s.high a hi lo v).pending = s.pending :=
  by unfold State.high; dsimp only; split <;> rfl
@[simp] theorem State.high_side (s : State) (a hi lo v : Nat) (x : Side) : (s.high a hi lo v).side x = s.side x :=
  by unfold State.high; dsimp only; split <;> cases x <;> rfl

/-! elapse -/

@[simp] theorem State.elapse_regs (s : State) (dt : Nat) : (s.elapse dt).regs = s.regs := (rfl)
@[simp] theorem State.elapse_capture (s : State) (dt : Nat) : (s.elapse dt).capture = s.capture := (rfl)
@[simp] theorem State.elapse_pix (s : State) (dt : Nat) : (s.elapse dt).pix = s.pix := (rfl)
@[simp] theorem State.elapse_tdc (s : State) (dt : Nat) : (s.elapse dt).tdc = s.tdc := (rfl)
@[simp] theorem State.elapse_frames (s : State) (dt : Nat) : (s.elapse dt).frames = s.frames := (rfl)
@[simp] theorem State.elapse_tiles (s : State) (dt : Nat) : (s.elapse dt).tiles = s.tiles := (rfl)
@[simp] theorem State.elapse_squall (s : State) (dt : Nat) : (s.elapse dt).squall = s.squall := (rfl)
@[simp] theorem State.elapse_trg (s : State) (dt : Nat) : (s.elapse dt).trg = s.trg := (rfl)
@[simp] theorem State.elapse_sideA (s : State) (dt : Nat) : (s.elapse dt).sideA = s.sideA := (rfl)
@[simp] theorem State.elapse_sideB (s : State) (dt : Nat) : (s.elapse dt).sideB = s.sideB := (rfl)
@[simp] theorem State.elapse_spi (s : State) (dt : Nat) : (s.elapse dt).spi = s.spi := (rfl)
@[simp] theorem State.elapse_power (s : State) (dt : Nat) : (s.elapse dt).power = s.power := (rfl)
@[simp] theorem State.elapse_arb (s : State) (dt : Nat) : (s.elapse dt).arb = s.arb := (rfl)
@[simp] theorem State.elapse_bg (s : State) (dt : Nat) : (s.elapse dt).bg = s.bg := (rfl)
@[simp] theorem State.elapse_lace (s : State) (dt : Nat) : (s.elapse dt).lace = s.lace := (rfl)
@[simp] theorem State.elapse_hk (s : State) (dt : Nat) : (s.elapse dt).hk = s.hk := (rfl)
@[simp] theorem State.elapse_pins (s : State) (dt : Nat) : (s.elapse dt).pins = s.pins := (rfl)
@[simp] theorem State.elapse_freeCount (s : State) (dt : Nat) : (s.elapse dt).freeCount = s.freeCount := (rfl)
@[simp] theorem State.elapse_pending (s : State) (dt : Nat) : (s.elapse dt).pending = s.pending := (rfl)
@[simp] theorem State.elapse_side (s : State) (dt : Nat) (x : Side) : (s.elapse dt).side x = s.side x := by cases x <;> rfl
@[simp] theorem State.elapse_rd (s : State) (dt a : Nat) : (s.elapse dt).rd a = s.rd a := (rfl)

/-! took -/

@[simp] theorem State.took_clock (s : State) : s.took.clock = s.clock := (rfl)
@[simp] theorem State.took_regs (s : State) : s.took.regs = s.regs := (rfl)
@[simp] theorem State.took_fresh (s : State) : s.took.fresh = s.fresh := (rfl)
@[simp] theorem State.took_late (s : State) : s.took.late = s.late := (rfl)
@[simp] theorem State.took_capture (s : State) : s.took.capture = s.capture := (rfl)
@[simp] theorem State.took_pix (s : State) : s.took.pix = s.pix := (rfl)
@[simp] theorem State.took_tdc (s : State) : s.took.tdc = s.tdc := (rfl)
@[simp] theorem State.took_frames (s : State) : s.took.frames = s.frames := (rfl)
@[simp] theorem State.took_tiles (s : State) : s.took.tiles = s.tiles := (rfl)
@[simp] theorem State.took_squall (s : State) : s.took.squall = s.squall := (rfl)
@[simp] theorem State.took_trg (s : State) : s.took.trg = s.trg := (rfl)
@[simp] theorem State.took_sideA (s : State) : s.took.sideA = s.sideA := (rfl)
@[simp] theorem State.took_sideB (s : State) : s.took.sideB = s.sideB := (rfl)
@[simp] theorem State.took_spi (s : State) : s.took.spi = s.spi := (rfl)
@[simp] theorem State.took_power (s : State) : s.took.power = s.power := (rfl)
@[simp] theorem State.took_arb (s : State) : s.took.arb = s.arb := (rfl)
@[simp] theorem State.took_bg (s : State) : s.took.bg = s.bg := (rfl)
@[simp] theorem State.took_lace (s : State) : s.took.lace = s.lace := (rfl)
@[simp] theorem State.took_hk (s : State) : s.took.hk = s.hk := (rfl)
@[simp] theorem State.took_pins (s : State) : s.took.pins = s.pins := (rfl)
@[simp] theorem State.took_pending (s : State) : s.took.pending = s.pending := (rfl)
@[simp] theorem State.took_side (s : State) (x : Side) : s.took.side x = s.side x := by cases x <;> rfl
@[simp] theorem State.took_rd (s : State) (a : Nat) : s.took.rd a = s.rd a := (rfl)

/-! modSide -/

@[simp] theorem State.modSide_clock (s : State) (x : Side) (f : SideState → SideState) : (s.modSide x f).clock = s.clock :=
  by cases x <;> rfl
@[simp] theorem State.modSide_regs (s : State) (x : Side) (f : SideState → SideState) : (s.modSide x f).regs = s.regs :=
  by cases x <;> rfl
@[simp] theorem State.modSide_fresh (s : State) (x : Side) (f : SideState → SideState) : (s.modSide x f).fresh = s.fresh :=
  by cases x <;> rfl
@[simp] theorem State.modSide_late (s : State) (x : Side) (f : SideState → SideState) : (s.modSide x f).late = s.late :=
  by cases x <;> rfl
@[simp] theorem State.modSide_capture (s : State) (x : Side) (f : SideState → SideState) : (s.modSide x f).capture = s.capture :=
  by cases x <;> rfl
@[simp] theorem State.modSide_pix (s : State) (x : Side) (f : SideState → SideState) : (s.modSide x f).pix = s.pix :=
  by cases x <;> rfl
@[simp] theorem State.modSide_tdc (s : State) (x : Side) (f : SideState → SideState) : (s.modSide x f).tdc = s.tdc :=
  by cases x <;> rfl
@[simp] theorem State.modSide_frames (s : State) (x : Side) (f : SideState → SideState) : (s.modSide x f).frames = s.frames :=
  by cases x <;> rfl
@[simp] theorem State.modSide_tiles (s : State) (x : Side) (f : SideState → SideState) : (s.modSide x f).tiles = s.tiles :=
  by cases x <;> rfl
@[simp] theorem State.modSide_squall (s : State) (x : Side) (f : SideState → SideState) : (s.modSide x f).squall = s.squall :=
  by cases x <;> rfl
@[simp] theorem State.modSide_trg (s : State) (x : Side) (f : SideState → SideState) : (s.modSide x f).trg = s.trg :=
  by cases x <;> rfl
@[simp] theorem State.modSide_spi (s : State) (x : Side) (f : SideState → SideState) : (s.modSide x f).spi = s.spi :=
  by cases x <;> rfl
@[simp] theorem State.modSide_power (s : State) (x : Side) (f : SideState → SideState) : (s.modSide x f).power = s.power :=
  by cases x <;> rfl
@[simp] theorem State.modSide_arb (s : State) (x : Side) (f : SideState → SideState) : (s.modSide x f).arb = s.arb :=
  by cases x <;> rfl
@[simp] theorem State.modSide_bg (s : State) (x : Side) (f : SideState → SideState) : (s.modSide x f).bg = s.bg :=
  by cases x <;> rfl
@[simp] theorem State.modSide_lace (s : State) (x : Side) (f : SideState → SideState) : (s.modSide x f).lace = s.lace :=
  by cases x <;> rfl
@[simp] theorem State.modSide_hk (s : State) (x : Side) (f : SideState → SideState) : (s.modSide x f).hk = s.hk :=
  by cases x <;> rfl
@[simp] theorem State.modSide_pins (s : State) (x : Side) (f : SideState → SideState) : (s.modSide x f).pins = s.pins :=
  by cases x <;> rfl
@[simp] theorem State.modSide_freeCount (s : State) (x : Side) (f : SideState → SideState) : (s.modSide x f).freeCount = s.freeCount :=
  by cases x <;> rfl
@[simp] theorem State.modSide_pending (s : State) (x : Side) (f : SideState → SideState) : (s.modSide x f).pending = s.pending :=
  by cases x <;> rfl
@[simp] theorem State.modSide_rd (s : State) (x : Side) (f : SideState → SideState) (a : Nat) : (s.modSide x f).rd a = s.rd a :=
  by cases x <;> rfl
@[simp] theorem State.modSide_self (s : State) (x : Side) (f : SideState → SideState) : (s.modSide x f).side x = f (s.side x) :=
  by cases x <;> rfl
theorem State.modSide_ne (s : State) {x y : Side} (f : SideState → SideState) (h : y ≠ x) : (s.modSide x f).side y = s.side y :=
  by
  cases x <;> cases y <;> first | rfl | exact absurd rfl h

/-! modMgt -/

@[simp] theorem State.modMgt_clock (s : State) (x : Side) (f : Mgt → Mgt) : (s.modMgt x f).clock = s.clock := by cases x <;> rfl
@[simp] theorem State.modMgt_regs (s : State) (x : Side) (f : Mgt → Mgt) : (s.modMgt x f).regs = s.regs := by cases x <;> rfl
@[simp] theorem State.modMgt_fresh (s : State) (x : Side) (f : Mgt → Mgt) : (s.modMgt x f).fresh = s.fresh :=
  by cases x <;> rfl
@[simp] theorem State.modMgt_late (s : State) (x : Side) (f : Mgt → Mgt) : (s.modMgt x f).late = s.late :=
  by cases x <;> rfl
@[simp] theorem State.modMgt_capture (s : State) (x : Side) (f : Mgt → Mgt) : (s.modMgt x f).capture = s.capture :=
  by cases x <;> rfl
@[simp] theorem State.modMgt_pix (s : State) (x : Side) (f : Mgt → Mgt) : (s.modMgt x f).pix = s.pix := by cases x <;> rfl
@[simp] theorem State.modMgt_tdc (s : State) (x : Side) (f : Mgt → Mgt) : (s.modMgt x f).tdc = s.tdc := by cases x <;> rfl
@[simp] theorem State.modMgt_frames (s : State) (x : Side) (f : Mgt → Mgt) : (s.modMgt x f).frames = s.frames :=
  by cases x <;> rfl
@[simp] theorem State.modMgt_tiles (s : State) (x : Side) (f : Mgt → Mgt) : (s.modMgt x f).tiles = s.tiles := by cases x <;> rfl
@[simp] theorem State.modMgt_squall (s : State) (x : Side) (f : Mgt → Mgt) : (s.modMgt x f).squall = s.squall :=
  by cases x <;> rfl
@[simp] theorem State.modMgt_trg (s : State) (x : Side) (f : Mgt → Mgt) : (s.modMgt x f).trg = s.trg := by cases x <;> rfl
@[simp] theorem State.modMgt_spi (s : State) (x : Side) (f : Mgt → Mgt) : (s.modMgt x f).spi = s.spi := by cases x <;> rfl
@[simp] theorem State.modMgt_power (s : State) (x : Side) (f : Mgt → Mgt) : (s.modMgt x f).power = s.power := by cases x <;> rfl
@[simp] theorem State.modMgt_arb (s : State) (x : Side) (f : Mgt → Mgt) : (s.modMgt x f).arb = s.arb := by cases x <;> rfl
@[simp] theorem State.modMgt_bg (s : State) (x : Side) (f : Mgt → Mgt) : (s.modMgt x f).bg = s.bg := by cases x <;> rfl
@[simp] theorem State.modMgt_lace (s : State) (x : Side) (f : Mgt → Mgt) : (s.modMgt x f).lace = s.lace := by cases x <;> rfl
@[simp] theorem State.modMgt_hk (s : State) (x : Side) (f : Mgt → Mgt) : (s.modMgt x f).hk = s.hk := by cases x <;> rfl
@[simp] theorem State.modMgt_pins (s : State) (x : Side) (f : Mgt → Mgt) : (s.modMgt x f).pins = s.pins := by cases x <;> rfl
@[simp] theorem State.modMgt_freeCount (s : State) (x : Side) (f : Mgt → Mgt) : (s.modMgt x f).freeCount = s.freeCount :=
  by cases x <;> rfl
@[simp] theorem State.modMgt_pending (s : State) (x : Side) (f : Mgt → Mgt) : (s.modMgt x f).pending = s.pending :=
  by cases x <;> rfl
@[simp] theorem State.modMgt_rd (s : State) (x : Side) (f : Mgt → Mgt) (a : Nat) : (s.modMgt x f).rd a = s.rd a :=
  by cases x <;> rfl
@[simp] theorem State.modMgt_self (s : State) (x : Side) (f : Mgt → Mgt) : ((s.modMgt x f).side x).mgt = f (s.side x).mgt :=
  by cases x <;> rfl
@[simp] theorem State.modMgt_side_evt (s : State) (x y : Side) (f : Mgt → Mgt) : ((s.modMgt x f).side y).evt = (s.side y).evt :=
  by cases x <;> cases y <;> rfl
@[simp] theorem State.modMgt_side_lnk (s : State) (x y : Side) (f : Mgt → Mgt) : ((s.modMgt x f).side y).lnk = (s.side y).lnk :=
  by cases x <;> cases y <;> rfl
@[simp] theorem State.modMgt_side_wlt (s : State) (x y : Side) (f : Mgt → Mgt) : ((s.modMgt x f).side y).wlt = (s.side y).wlt :=
  by cases x <;> cases y <;> rfl
@[simp] theorem State.modMgt_side_lce (s : State) (x y : Side) (f : Mgt → Mgt) : ((s.modMgt x f).side y).lce = (s.side y).lce :=
  by cases x <;> cases y <;> rfl
@[simp] theorem State.modMgt_side_dsp (s : State) (x y : Side) (f : Mgt → Mgt) : ((s.modMgt x f).side y).dsp = (s.side y).dsp :=
  by cases x <;> cases y <;> rfl
@[simp] theorem State.modMgt_side_cmp (s : State) (x y : Side) (f : Mgt → Mgt) : ((s.modMgt x f).side y).cmp = (s.side y).cmp :=
  by cases x <;> cases y <;> rfl
@[simp] theorem State.modMgt_side_bst (s : State) (x y : Side) (f : Mgt → Mgt) : ((s.modMgt x f).side y).bst = (s.side y).bst :=
  by cases x <;> cases y <;> rfl
@[simp] theorem State.modMgt_side_tally (s : State) (x y : Side) (f : Mgt → Mgt) : ((s.modMgt x f).side y).tally = (s.side y).tally :=
  by cases x <;> cases y <;> rfl
theorem State.modMgt_ne (s : State) {x y : Side} (f : Mgt → Mgt) (h : y ≠ x) : (s.modMgt x f).side y = s.side y := by
  cases x <;> cases y <;> first | rfl | exact absurd rfl h

/-! modEvt -/

@[simp] theorem State.modEvt_clock (s : State) (x : Side) (f : EvState → EvState) : (s.modEvt x f).clock = s.clock :=
  by cases x <;> rfl
@[simp] theorem State.modEvt_regs (s : State) (x : Side) (f : EvState → EvState) : (s.modEvt x f).regs = s.regs :=
  by cases x <;> rfl
@[simp] theorem State.modEvt_fresh (s : State) (x : Side) (f : EvState → EvState) : (s.modEvt x f).fresh = s.fresh :=
  by cases x <;> rfl
@[simp] theorem State.modEvt_late (s : State) (x : Side) (f : EvState → EvState) : (s.modEvt x f).late = s.late :=
  by cases x <;> rfl
@[simp] theorem State.modEvt_capture (s : State) (x : Side) (f : EvState → EvState) : (s.modEvt x f).capture = s.capture :=
  by cases x <;> rfl
@[simp] theorem State.modEvt_pix (s : State) (x : Side) (f : EvState → EvState) : (s.modEvt x f).pix = s.pix := by cases x <;> rfl
@[simp] theorem State.modEvt_tdc (s : State) (x : Side) (f : EvState → EvState) : (s.modEvt x f).tdc = s.tdc := by cases x <;> rfl
@[simp] theorem State.modEvt_frames (s : State) (x : Side) (f : EvState → EvState) : (s.modEvt x f).frames = s.frames :=
  by cases x <;> rfl
@[simp] theorem State.modEvt_tiles (s : State) (x : Side) (f : EvState → EvState) : (s.modEvt x f).tiles = s.tiles :=
  by cases x <;> rfl
@[simp] theorem State.modEvt_squall (s : State) (x : Side) (f : EvState → EvState) : (s.modEvt x f).squall = s.squall :=
  by cases x <;> rfl
@[simp] theorem State.modEvt_trg (s : State) (x : Side) (f : EvState → EvState) : (s.modEvt x f).trg = s.trg := by cases x <;> rfl
@[simp] theorem State.modEvt_spi (s : State) (x : Side) (f : EvState → EvState) : (s.modEvt x f).spi = s.spi := by cases x <;> rfl
@[simp] theorem State.modEvt_power (s : State) (x : Side) (f : EvState → EvState) : (s.modEvt x f).power = s.power :=
  by cases x <;> rfl
@[simp] theorem State.modEvt_arb (s : State) (x : Side) (f : EvState → EvState) : (s.modEvt x f).arb = s.arb := by cases x <;> rfl
@[simp] theorem State.modEvt_bg (s : State) (x : Side) (f : EvState → EvState) : (s.modEvt x f).bg = s.bg := by cases x <;> rfl
@[simp] theorem State.modEvt_lace (s : State) (x : Side) (f : EvState → EvState) : (s.modEvt x f).lace = s.lace :=
  by cases x <;> rfl
@[simp] theorem State.modEvt_hk (s : State) (x : Side) (f : EvState → EvState) : (s.modEvt x f).hk = s.hk := by cases x <;> rfl
@[simp] theorem State.modEvt_pins (s : State) (x : Side) (f : EvState → EvState) : (s.modEvt x f).pins = s.pins :=
  by cases x <;> rfl
@[simp] theorem State.modEvt_freeCount (s : State) (x : Side) (f : EvState → EvState) : (s.modEvt x f).freeCount = s.freeCount :=
  by cases x <;> rfl
@[simp] theorem State.modEvt_pending (s : State) (x : Side) (f : EvState → EvState) : (s.modEvt x f).pending = s.pending :=
  by cases x <;> rfl
@[simp] theorem State.modEvt_rd (s : State) (x : Side) (f : EvState → EvState) (a : Nat) : (s.modEvt x f).rd a = s.rd a :=
  by cases x <;> rfl
@[simp] theorem State.modEvt_self (s : State) (x : Side) (f : EvState → EvState) : ((s.modEvt x f).side x).evt = f (s.side x).evt :=
  by cases x <;> rfl
@[simp] theorem State.modEvt_side_mgt (s : State) (x y : Side) (f : EvState → EvState) : ((s.modEvt x f).side y).mgt = (s.side y).mgt :=
  by cases x <;> cases y <;> rfl
@[simp] theorem State.modEvt_side_lnk (s : State) (x y : Side) (f : EvState → EvState) : ((s.modEvt x f).side y).lnk = (s.side y).lnk :=
  by cases x <;> cases y <;> rfl
@[simp] theorem State.modEvt_side_wlt (s : State) (x y : Side) (f : EvState → EvState) : ((s.modEvt x f).side y).wlt = (s.side y).wlt :=
  by cases x <;> cases y <;> rfl
@[simp] theorem State.modEvt_side_lce (s : State) (x y : Side) (f : EvState → EvState) : ((s.modEvt x f).side y).lce = (s.side y).lce :=
  by cases x <;> cases y <;> rfl
@[simp] theorem State.modEvt_side_dsp (s : State) (x y : Side) (f : EvState → EvState) : ((s.modEvt x f).side y).dsp = (s.side y).dsp :=
  by cases x <;> cases y <;> rfl
@[simp] theorem State.modEvt_side_cmp (s : State) (x y : Side) (f : EvState → EvState) : ((s.modEvt x f).side y).cmp = (s.side y).cmp :=
  by cases x <;> cases y <;> rfl
@[simp] theorem State.modEvt_side_bst (s : State) (x y : Side) (f : EvState → EvState) : ((s.modEvt x f).side y).bst = (s.side y).bst :=
  by cases x <;> cases y <;> rfl
@[simp] theorem State.modEvt_side_tally (s : State) (x y : Side) (f : EvState → EvState) : ((s.modEvt x f).side y).tally = (s.side y).tally :=
  by cases x <;> cases y <;> rfl
theorem State.modEvt_ne (s : State) {x y : Side} (f : EvState → EvState) (h : y ≠ x) : (s.modEvt x f).side y = s.side y := by
  cases x <;> cases y <;> first | rfl | exact absurd rfl h

/-! modLnk -/

@[simp] theorem State.modLnk_clock (s : State) (x : Side) (f : Lnk → Lnk) : (s.modLnk x f).clock = s.clock := by cases x <;> rfl
@[simp] theorem State.modLnk_regs (s : State) (x : Side) (f : Lnk → Lnk) : (s.modLnk x f).regs = s.regs := by cases x <;> rfl
@[simp] theorem State.modLnk_fresh (s : State) (x : Side) (f : Lnk → Lnk) : (s.modLnk x f).fresh = s.fresh :=
  by cases x <;> rfl
@[simp] theorem State.modLnk_late (s : State) (x : Side) (f : Lnk → Lnk) : (s.modLnk x f).late = s.late :=
  by cases x <;> rfl
@[simp] theorem State.modLnk_capture (s : State) (x : Side) (f : Lnk → Lnk) : (s.modLnk x f).capture = s.capture :=
  by cases x <;> rfl
@[simp] theorem State.modLnk_pix (s : State) (x : Side) (f : Lnk → Lnk) : (s.modLnk x f).pix = s.pix := by cases x <;> rfl
@[simp] theorem State.modLnk_tdc (s : State) (x : Side) (f : Lnk → Lnk) : (s.modLnk x f).tdc = s.tdc := by cases x <;> rfl
@[simp] theorem State.modLnk_frames (s : State) (x : Side) (f : Lnk → Lnk) : (s.modLnk x f).frames = s.frames :=
  by cases x <;> rfl
@[simp] theorem State.modLnk_tiles (s : State) (x : Side) (f : Lnk → Lnk) : (s.modLnk x f).tiles = s.tiles := by cases x <;> rfl
@[simp] theorem State.modLnk_squall (s : State) (x : Side) (f : Lnk → Lnk) : (s.modLnk x f).squall = s.squall :=
  by cases x <;> rfl
@[simp] theorem State.modLnk_trg (s : State) (x : Side) (f : Lnk → Lnk) : (s.modLnk x f).trg = s.trg := by cases x <;> rfl
@[simp] theorem State.modLnk_spi (s : State) (x : Side) (f : Lnk → Lnk) : (s.modLnk x f).spi = s.spi := by cases x <;> rfl
@[simp] theorem State.modLnk_power (s : State) (x : Side) (f : Lnk → Lnk) : (s.modLnk x f).power = s.power := by cases x <;> rfl
@[simp] theorem State.modLnk_arb (s : State) (x : Side) (f : Lnk → Lnk) : (s.modLnk x f).arb = s.arb := by cases x <;> rfl
@[simp] theorem State.modLnk_bg (s : State) (x : Side) (f : Lnk → Lnk) : (s.modLnk x f).bg = s.bg := by cases x <;> rfl
@[simp] theorem State.modLnk_lace (s : State) (x : Side) (f : Lnk → Lnk) : (s.modLnk x f).lace = s.lace := by cases x <;> rfl
@[simp] theorem State.modLnk_hk (s : State) (x : Side) (f : Lnk → Lnk) : (s.modLnk x f).hk = s.hk := by cases x <;> rfl
@[simp] theorem State.modLnk_pins (s : State) (x : Side) (f : Lnk → Lnk) : (s.modLnk x f).pins = s.pins := by cases x <;> rfl
@[simp] theorem State.modLnk_freeCount (s : State) (x : Side) (f : Lnk → Lnk) : (s.modLnk x f).freeCount = s.freeCount :=
  by cases x <;> rfl
@[simp] theorem State.modLnk_pending (s : State) (x : Side) (f : Lnk → Lnk) : (s.modLnk x f).pending = s.pending :=
  by cases x <;> rfl
@[simp] theorem State.modLnk_rd (s : State) (x : Side) (f : Lnk → Lnk) (a : Nat) : (s.modLnk x f).rd a = s.rd a :=
  by cases x <;> rfl
@[simp] theorem State.modLnk_self (s : State) (x : Side) (f : Lnk → Lnk) : ((s.modLnk x f).side x).lnk = f (s.side x).lnk :=
  by cases x <;> rfl
@[simp] theorem State.modLnk_side_mgt (s : State) (x y : Side) (f : Lnk → Lnk) : ((s.modLnk x f).side y).mgt = (s.side y).mgt :=
  by cases x <;> cases y <;> rfl
@[simp] theorem State.modLnk_side_evt (s : State) (x y : Side) (f : Lnk → Lnk) : ((s.modLnk x f).side y).evt = (s.side y).evt :=
  by cases x <;> cases y <;> rfl
@[simp] theorem State.modLnk_side_wlt (s : State) (x y : Side) (f : Lnk → Lnk) : ((s.modLnk x f).side y).wlt = (s.side y).wlt :=
  by cases x <;> cases y <;> rfl
@[simp] theorem State.modLnk_side_lce (s : State) (x y : Side) (f : Lnk → Lnk) : ((s.modLnk x f).side y).lce = (s.side y).lce :=
  by cases x <;> cases y <;> rfl
@[simp] theorem State.modLnk_side_dsp (s : State) (x y : Side) (f : Lnk → Lnk) : ((s.modLnk x f).side y).dsp = (s.side y).dsp :=
  by cases x <;> cases y <;> rfl
@[simp] theorem State.modLnk_side_cmp (s : State) (x y : Side) (f : Lnk → Lnk) : ((s.modLnk x f).side y).cmp = (s.side y).cmp :=
  by cases x <;> cases y <;> rfl
@[simp] theorem State.modLnk_side_bst (s : State) (x y : Side) (f : Lnk → Lnk) : ((s.modLnk x f).side y).bst = (s.side y).bst :=
  by cases x <;> cases y <;> rfl
@[simp] theorem State.modLnk_side_tally (s : State) (x y : Side) (f : Lnk → Lnk) : ((s.modLnk x f).side y).tally = (s.side y).tally :=
  by cases x <;> cases y <;> rfl
theorem State.modLnk_ne (s : State) {x y : Side} (f : Lnk → Lnk) (h : y ≠ x) : (s.modLnk x f).side y = s.side y := by
  cases x <;> cases y <;> first | rfl | exact absurd rfl h

/-! modWlt -/

@[simp] theorem State.modWlt_clock (s : State) (x : Side) (f : Wlt → Wlt) : (s.modWlt x f).clock = s.clock := by cases x <;> rfl
@[simp] theorem State.modWlt_regs (s : State) (x : Side) (f : Wlt → Wlt) : (s.modWlt x f).regs = s.regs := by cases x <;> rfl
@[simp] theorem State.modWlt_fresh (s : State) (x : Side) (f : Wlt → Wlt) : (s.modWlt x f).fresh = s.fresh :=
  by cases x <;> rfl
@[simp] theorem State.modWlt_late (s : State) (x : Side) (f : Wlt → Wlt) : (s.modWlt x f).late = s.late :=
  by cases x <;> rfl
@[simp] theorem State.modWlt_capture (s : State) (x : Side) (f : Wlt → Wlt) : (s.modWlt x f).capture = s.capture :=
  by cases x <;> rfl
@[simp] theorem State.modWlt_pix (s : State) (x : Side) (f : Wlt → Wlt) : (s.modWlt x f).pix = s.pix := by cases x <;> rfl
@[simp] theorem State.modWlt_tdc (s : State) (x : Side) (f : Wlt → Wlt) : (s.modWlt x f).tdc = s.tdc := by cases x <;> rfl
@[simp] theorem State.modWlt_frames (s : State) (x : Side) (f : Wlt → Wlt) : (s.modWlt x f).frames = s.frames :=
  by cases x <;> rfl
@[simp] theorem State.modWlt_tiles (s : State) (x : Side) (f : Wlt → Wlt) : (s.modWlt x f).tiles = s.tiles := by cases x <;> rfl
@[simp] theorem State.modWlt_squall (s : State) (x : Side) (f : Wlt → Wlt) : (s.modWlt x f).squall = s.squall :=
  by cases x <;> rfl
@[simp] theorem State.modWlt_trg (s : State) (x : Side) (f : Wlt → Wlt) : (s.modWlt x f).trg = s.trg := by cases x <;> rfl
@[simp] theorem State.modWlt_spi (s : State) (x : Side) (f : Wlt → Wlt) : (s.modWlt x f).spi = s.spi := by cases x <;> rfl
@[simp] theorem State.modWlt_power (s : State) (x : Side) (f : Wlt → Wlt) : (s.modWlt x f).power = s.power := by cases x <;> rfl
@[simp] theorem State.modWlt_arb (s : State) (x : Side) (f : Wlt → Wlt) : (s.modWlt x f).arb = s.arb := by cases x <;> rfl
@[simp] theorem State.modWlt_bg (s : State) (x : Side) (f : Wlt → Wlt) : (s.modWlt x f).bg = s.bg := by cases x <;> rfl
@[simp] theorem State.modWlt_lace (s : State) (x : Side) (f : Wlt → Wlt) : (s.modWlt x f).lace = s.lace := by cases x <;> rfl
@[simp] theorem State.modWlt_hk (s : State) (x : Side) (f : Wlt → Wlt) : (s.modWlt x f).hk = s.hk := by cases x <;> rfl
@[simp] theorem State.modWlt_pins (s : State) (x : Side) (f : Wlt → Wlt) : (s.modWlt x f).pins = s.pins := by cases x <;> rfl
@[simp] theorem State.modWlt_freeCount (s : State) (x : Side) (f : Wlt → Wlt) : (s.modWlt x f).freeCount = s.freeCount :=
  by cases x <;> rfl
@[simp] theorem State.modWlt_pending (s : State) (x : Side) (f : Wlt → Wlt) : (s.modWlt x f).pending = s.pending :=
  by cases x <;> rfl
@[simp] theorem State.modWlt_rd (s : State) (x : Side) (f : Wlt → Wlt) (a : Nat) : (s.modWlt x f).rd a = s.rd a :=
  by cases x <;> rfl
@[simp] theorem State.modWlt_self (s : State) (x : Side) (f : Wlt → Wlt) : ((s.modWlt x f).side x).wlt = f (s.side x).wlt :=
  by cases x <;> rfl
@[simp] theorem State.modWlt_side_mgt (s : State) (x y : Side) (f : Wlt → Wlt) : ((s.modWlt x f).side y).mgt = (s.side y).mgt :=
  by cases x <;> cases y <;> rfl
@[simp] theorem State.modWlt_side_evt (s : State) (x y : Side) (f : Wlt → Wlt) : ((s.modWlt x f).side y).evt = (s.side y).evt :=
  by cases x <;> cases y <;> rfl
@[simp] theorem State.modWlt_side_lnk (s : State) (x y : Side) (f : Wlt → Wlt) : ((s.modWlt x f).side y).lnk = (s.side y).lnk :=
  by cases x <;> cases y <;> rfl
@[simp] theorem State.modWlt_side_lce (s : State) (x y : Side) (f : Wlt → Wlt) : ((s.modWlt x f).side y).lce = (s.side y).lce :=
  by cases x <;> cases y <;> rfl
@[simp] theorem State.modWlt_side_dsp (s : State) (x y : Side) (f : Wlt → Wlt) : ((s.modWlt x f).side y).dsp = (s.side y).dsp :=
  by cases x <;> cases y <;> rfl
@[simp] theorem State.modWlt_side_cmp (s : State) (x y : Side) (f : Wlt → Wlt) : ((s.modWlt x f).side y).cmp = (s.side y).cmp :=
  by cases x <;> cases y <;> rfl
@[simp] theorem State.modWlt_side_bst (s : State) (x y : Side) (f : Wlt → Wlt) : ((s.modWlt x f).side y).bst = (s.side y).bst :=
  by cases x <;> cases y <;> rfl
@[simp] theorem State.modWlt_side_tally (s : State) (x y : Side) (f : Wlt → Wlt) : ((s.modWlt x f).side y).tally = (s.side y).tally :=
  by cases x <;> cases y <;> rfl
theorem State.modWlt_ne (s : State) {x y : Side} (f : Wlt → Wlt) (h : y ≠ x) : (s.modWlt x f).side y = s.side y := by
  cases x <;> cases y <;> first | rfl | exact absurd rfl h

/-! modLce -/

@[simp] theorem State.modLce_clock (s : State) (x : Side) (f : Lce → Lce) : (s.modLce x f).clock = s.clock := by cases x <;> rfl
@[simp] theorem State.modLce_regs (s : State) (x : Side) (f : Lce → Lce) : (s.modLce x f).regs = s.regs := by cases x <;> rfl
@[simp] theorem State.modLce_fresh (s : State) (x : Side) (f : Lce → Lce) : (s.modLce x f).fresh = s.fresh :=
  by cases x <;> rfl
@[simp] theorem State.modLce_late (s : State) (x : Side) (f : Lce → Lce) : (s.modLce x f).late = s.late :=
  by cases x <;> rfl
@[simp] theorem State.modLce_capture (s : State) (x : Side) (f : Lce → Lce) : (s.modLce x f).capture = s.capture :=
  by cases x <;> rfl
@[simp] theorem State.modLce_pix (s : State) (x : Side) (f : Lce → Lce) : (s.modLce x f).pix = s.pix := by cases x <;> rfl
@[simp] theorem State.modLce_tdc (s : State) (x : Side) (f : Lce → Lce) : (s.modLce x f).tdc = s.tdc := by cases x <;> rfl
@[simp] theorem State.modLce_frames (s : State) (x : Side) (f : Lce → Lce) : (s.modLce x f).frames = s.frames :=
  by cases x <;> rfl
@[simp] theorem State.modLce_tiles (s : State) (x : Side) (f : Lce → Lce) : (s.modLce x f).tiles = s.tiles := by cases x <;> rfl
@[simp] theorem State.modLce_squall (s : State) (x : Side) (f : Lce → Lce) : (s.modLce x f).squall = s.squall :=
  by cases x <;> rfl
@[simp] theorem State.modLce_trg (s : State) (x : Side) (f : Lce → Lce) : (s.modLce x f).trg = s.trg := by cases x <;> rfl
@[simp] theorem State.modLce_spi (s : State) (x : Side) (f : Lce → Lce) : (s.modLce x f).spi = s.spi := by cases x <;> rfl
@[simp] theorem State.modLce_power (s : State) (x : Side) (f : Lce → Lce) : (s.modLce x f).power = s.power := by cases x <;> rfl
@[simp] theorem State.modLce_arb (s : State) (x : Side) (f : Lce → Lce) : (s.modLce x f).arb = s.arb := by cases x <;> rfl
@[simp] theorem State.modLce_bg (s : State) (x : Side) (f : Lce → Lce) : (s.modLce x f).bg = s.bg := by cases x <;> rfl
@[simp] theorem State.modLce_lace (s : State) (x : Side) (f : Lce → Lce) : (s.modLce x f).lace = s.lace := by cases x <;> rfl
@[simp] theorem State.modLce_hk (s : State) (x : Side) (f : Lce → Lce) : (s.modLce x f).hk = s.hk := by cases x <;> rfl
@[simp] theorem State.modLce_pins (s : State) (x : Side) (f : Lce → Lce) : (s.modLce x f).pins = s.pins := by cases x <;> rfl
@[simp] theorem State.modLce_freeCount (s : State) (x : Side) (f : Lce → Lce) : (s.modLce x f).freeCount = s.freeCount :=
  by cases x <;> rfl
@[simp] theorem State.modLce_pending (s : State) (x : Side) (f : Lce → Lce) : (s.modLce x f).pending = s.pending :=
  by cases x <;> rfl
@[simp] theorem State.modLce_rd (s : State) (x : Side) (f : Lce → Lce) (a : Nat) : (s.modLce x f).rd a = s.rd a :=
  by cases x <;> rfl
@[simp] theorem State.modLce_self (s : State) (x : Side) (f : Lce → Lce) : ((s.modLce x f).side x).lce = f (s.side x).lce :=
  by cases x <;> rfl
@[simp] theorem State.modLce_side_mgt (s : State) (x y : Side) (f : Lce → Lce) : ((s.modLce x f).side y).mgt = (s.side y).mgt :=
  by cases x <;> cases y <;> rfl
@[simp] theorem State.modLce_side_evt (s : State) (x y : Side) (f : Lce → Lce) : ((s.modLce x f).side y).evt = (s.side y).evt :=
  by cases x <;> cases y <;> rfl
@[simp] theorem State.modLce_side_lnk (s : State) (x y : Side) (f : Lce → Lce) : ((s.modLce x f).side y).lnk = (s.side y).lnk :=
  by cases x <;> cases y <;> rfl
@[simp] theorem State.modLce_side_wlt (s : State) (x y : Side) (f : Lce → Lce) : ((s.modLce x f).side y).wlt = (s.side y).wlt :=
  by cases x <;> cases y <;> rfl
@[simp] theorem State.modLce_side_dsp (s : State) (x y : Side) (f : Lce → Lce) : ((s.modLce x f).side y).dsp = (s.side y).dsp :=
  by cases x <;> cases y <;> rfl
@[simp] theorem State.modLce_side_cmp (s : State) (x y : Side) (f : Lce → Lce) : ((s.modLce x f).side y).cmp = (s.side y).cmp :=
  by cases x <;> cases y <;> rfl
@[simp] theorem State.modLce_side_bst (s : State) (x y : Side) (f : Lce → Lce) : ((s.modLce x f).side y).bst = (s.side y).bst :=
  by cases x <;> cases y <;> rfl
@[simp] theorem State.modLce_side_tally (s : State) (x y : Side) (f : Lce → Lce) : ((s.modLce x f).side y).tally = (s.side y).tally :=
  by cases x <;> cases y <;> rfl
theorem State.modLce_ne (s : State) {x y : Side} (f : Lce → Lce) (h : y ≠ x) : (s.modLce x f).side y = s.side y := by
  cases x <;> cases y <;> first | rfl | exact absurd rfl h

/-! modDsp -/

@[simp] theorem State.modDsp_clock (s : State) (x : Side) (f : Dsp → Dsp) : (s.modDsp x f).clock = s.clock := by cases x <;> rfl
@[simp] theorem State.modDsp_regs (s : State) (x : Side) (f : Dsp → Dsp) : (s.modDsp x f).regs = s.regs := by cases x <;> rfl
@[simp] theorem State.modDsp_fresh (s : State) (x : Side) (f : Dsp → Dsp) : (s.modDsp x f).fresh = s.fresh :=
  by cases x <;> rfl
@[simp] theorem State.modDsp_late (s : State) (x : Side) (f : Dsp → Dsp) : (s.modDsp x f).late = s.late :=
  by cases x <;> rfl
@[simp] theorem State.modDsp_capture (s : State) (x : Side) (f : Dsp → Dsp) : (s.modDsp x f).capture = s.capture :=
  by cases x <;> rfl
@[simp] theorem State.modDsp_pix (s : State) (x : Side) (f : Dsp → Dsp) : (s.modDsp x f).pix = s.pix := by cases x <;> rfl
@[simp] theorem State.modDsp_tdc (s : State) (x : Side) (f : Dsp → Dsp) : (s.modDsp x f).tdc = s.tdc := by cases x <;> rfl
@[simp] theorem State.modDsp_frames (s : State) (x : Side) (f : Dsp → Dsp) : (s.modDsp x f).frames = s.frames :=
  by cases x <;> rfl
@[simp] theorem State.modDsp_tiles (s : State) (x : Side) (f : Dsp → Dsp) : (s.modDsp x f).tiles = s.tiles := by cases x <;> rfl
@[simp] theorem State.modDsp_squall (s : State) (x : Side) (f : Dsp → Dsp) : (s.modDsp x f).squall = s.squall :=
  by cases x <;> rfl
@[simp] theorem State.modDsp_trg (s : State) (x : Side) (f : Dsp → Dsp) : (s.modDsp x f).trg = s.trg := by cases x <;> rfl
@[simp] theorem State.modDsp_spi (s : State) (x : Side) (f : Dsp → Dsp) : (s.modDsp x f).spi = s.spi := by cases x <;> rfl
@[simp] theorem State.modDsp_power (s : State) (x : Side) (f : Dsp → Dsp) : (s.modDsp x f).power = s.power := by cases x <;> rfl
@[simp] theorem State.modDsp_arb (s : State) (x : Side) (f : Dsp → Dsp) : (s.modDsp x f).arb = s.arb := by cases x <;> rfl
@[simp] theorem State.modDsp_bg (s : State) (x : Side) (f : Dsp → Dsp) : (s.modDsp x f).bg = s.bg := by cases x <;> rfl
@[simp] theorem State.modDsp_lace (s : State) (x : Side) (f : Dsp → Dsp) : (s.modDsp x f).lace = s.lace := by cases x <;> rfl
@[simp] theorem State.modDsp_hk (s : State) (x : Side) (f : Dsp → Dsp) : (s.modDsp x f).hk = s.hk := by cases x <;> rfl
@[simp] theorem State.modDsp_pins (s : State) (x : Side) (f : Dsp → Dsp) : (s.modDsp x f).pins = s.pins := by cases x <;> rfl
@[simp] theorem State.modDsp_freeCount (s : State) (x : Side) (f : Dsp → Dsp) : (s.modDsp x f).freeCount = s.freeCount :=
  by cases x <;> rfl
@[simp] theorem State.modDsp_pending (s : State) (x : Side) (f : Dsp → Dsp) : (s.modDsp x f).pending = s.pending :=
  by cases x <;> rfl
@[simp] theorem State.modDsp_rd (s : State) (x : Side) (f : Dsp → Dsp) (a : Nat) : (s.modDsp x f).rd a = s.rd a :=
  by cases x <;> rfl
@[simp] theorem State.modDsp_self (s : State) (x : Side) (f : Dsp → Dsp) : ((s.modDsp x f).side x).dsp = f (s.side x).dsp :=
  by cases x <;> rfl
@[simp] theorem State.modDsp_side_mgt (s : State) (x y : Side) (f : Dsp → Dsp) : ((s.modDsp x f).side y).mgt = (s.side y).mgt :=
  by cases x <;> cases y <;> rfl
@[simp] theorem State.modDsp_side_evt (s : State) (x y : Side) (f : Dsp → Dsp) : ((s.modDsp x f).side y).evt = (s.side y).evt :=
  by cases x <;> cases y <;> rfl
@[simp] theorem State.modDsp_side_lnk (s : State) (x y : Side) (f : Dsp → Dsp) : ((s.modDsp x f).side y).lnk = (s.side y).lnk :=
  by cases x <;> cases y <;> rfl
@[simp] theorem State.modDsp_side_wlt (s : State) (x y : Side) (f : Dsp → Dsp) : ((s.modDsp x f).side y).wlt = (s.side y).wlt :=
  by cases x <;> cases y <;> rfl
@[simp] theorem State.modDsp_side_lce (s : State) (x y : Side) (f : Dsp → Dsp) : ((s.modDsp x f).side y).lce = (s.side y).lce :=
  by cases x <;> cases y <;> rfl
@[simp] theorem State.modDsp_side_cmp (s : State) (x y : Side) (f : Dsp → Dsp) : ((s.modDsp x f).side y).cmp = (s.side y).cmp :=
  by cases x <;> cases y <;> rfl
@[simp] theorem State.modDsp_side_bst (s : State) (x y : Side) (f : Dsp → Dsp) : ((s.modDsp x f).side y).bst = (s.side y).bst :=
  by cases x <;> cases y <;> rfl
@[simp] theorem State.modDsp_side_tally (s : State) (x y : Side) (f : Dsp → Dsp) : ((s.modDsp x f).side y).tally = (s.side y).tally :=
  by cases x <;> cases y <;> rfl
theorem State.modDsp_ne (s : State) {x y : Side} (f : Dsp → Dsp) (h : y ≠ x) : (s.modDsp x f).side y = s.side y := by
  cases x <;> cases y <;> first | rfl | exact absurd rfl h

/-! modCmp -/

@[simp] theorem State.modCmp_clock (s : State) (x : Side) (f : Cmp → Cmp) : (s.modCmp x f).clock = s.clock := by cases x <;> rfl
@[simp] theorem State.modCmp_regs (s : State) (x : Side) (f : Cmp → Cmp) : (s.modCmp x f).regs = s.regs := by cases x <;> rfl
@[simp] theorem State.modCmp_fresh (s : State) (x : Side) (f : Cmp → Cmp) : (s.modCmp x f).fresh = s.fresh :=
  by cases x <;> rfl
@[simp] theorem State.modCmp_late (s : State) (x : Side) (f : Cmp → Cmp) : (s.modCmp x f).late = s.late :=
  by cases x <;> rfl
@[simp] theorem State.modCmp_capture (s : State) (x : Side) (f : Cmp → Cmp) : (s.modCmp x f).capture = s.capture :=
  by cases x <;> rfl
@[simp] theorem State.modCmp_pix (s : State) (x : Side) (f : Cmp → Cmp) : (s.modCmp x f).pix = s.pix := by cases x <;> rfl
@[simp] theorem State.modCmp_tdc (s : State) (x : Side) (f : Cmp → Cmp) : (s.modCmp x f).tdc = s.tdc := by cases x <;> rfl
@[simp] theorem State.modCmp_frames (s : State) (x : Side) (f : Cmp → Cmp) : (s.modCmp x f).frames = s.frames :=
  by cases x <;> rfl
@[simp] theorem State.modCmp_tiles (s : State) (x : Side) (f : Cmp → Cmp) : (s.modCmp x f).tiles = s.tiles := by cases x <;> rfl
@[simp] theorem State.modCmp_squall (s : State) (x : Side) (f : Cmp → Cmp) : (s.modCmp x f).squall = s.squall :=
  by cases x <;> rfl
@[simp] theorem State.modCmp_trg (s : State) (x : Side) (f : Cmp → Cmp) : (s.modCmp x f).trg = s.trg := by cases x <;> rfl
@[simp] theorem State.modCmp_spi (s : State) (x : Side) (f : Cmp → Cmp) : (s.modCmp x f).spi = s.spi := by cases x <;> rfl
@[simp] theorem State.modCmp_power (s : State) (x : Side) (f : Cmp → Cmp) : (s.modCmp x f).power = s.power := by cases x <;> rfl
@[simp] theorem State.modCmp_arb (s : State) (x : Side) (f : Cmp → Cmp) : (s.modCmp x f).arb = s.arb := by cases x <;> rfl
@[simp] theorem State.modCmp_bg (s : State) (x : Side) (f : Cmp → Cmp) : (s.modCmp x f).bg = s.bg := by cases x <;> rfl
@[simp] theorem State.modCmp_lace (s : State) (x : Side) (f : Cmp → Cmp) : (s.modCmp x f).lace = s.lace := by cases x <;> rfl
@[simp] theorem State.modCmp_hk (s : State) (x : Side) (f : Cmp → Cmp) : (s.modCmp x f).hk = s.hk := by cases x <;> rfl
@[simp] theorem State.modCmp_pins (s : State) (x : Side) (f : Cmp → Cmp) : (s.modCmp x f).pins = s.pins := by cases x <;> rfl
@[simp] theorem State.modCmp_freeCount (s : State) (x : Side) (f : Cmp → Cmp) : (s.modCmp x f).freeCount = s.freeCount :=
  by cases x <;> rfl
@[simp] theorem State.modCmp_pending (s : State) (x : Side) (f : Cmp → Cmp) : (s.modCmp x f).pending = s.pending :=
  by cases x <;> rfl
@[simp] theorem State.modCmp_rd (s : State) (x : Side) (f : Cmp → Cmp) (a : Nat) : (s.modCmp x f).rd a = s.rd a :=
  by cases x <;> rfl
@[simp] theorem State.modCmp_self (s : State) (x : Side) (f : Cmp → Cmp) : ((s.modCmp x f).side x).cmp = f (s.side x).cmp :=
  by cases x <;> rfl
@[simp] theorem State.modCmp_side_mgt (s : State) (x y : Side) (f : Cmp → Cmp) : ((s.modCmp x f).side y).mgt = (s.side y).mgt :=
  by cases x <;> cases y <;> rfl
@[simp] theorem State.modCmp_side_evt (s : State) (x y : Side) (f : Cmp → Cmp) : ((s.modCmp x f).side y).evt = (s.side y).evt :=
  by cases x <;> cases y <;> rfl
@[simp] theorem State.modCmp_side_lnk (s : State) (x y : Side) (f : Cmp → Cmp) : ((s.modCmp x f).side y).lnk = (s.side y).lnk :=
  by cases x <;> cases y <;> rfl
@[simp] theorem State.modCmp_side_wlt (s : State) (x y : Side) (f : Cmp → Cmp) : ((s.modCmp x f).side y).wlt = (s.side y).wlt :=
  by cases x <;> cases y <;> rfl
@[simp] theorem State.modCmp_side_lce (s : State) (x y : Side) (f : Cmp → Cmp) : ((s.modCmp x f).side y).lce = (s.side y).lce :=
  by cases x <;> cases y <;> rfl
@[simp] theorem State.modCmp_side_dsp (s : State) (x y : Side) (f : Cmp → Cmp) : ((s.modCmp x f).side y).dsp = (s.side y).dsp :=
  by cases x <;> cases y <;> rfl
@[simp] theorem State.modCmp_side_bst (s : State) (x y : Side) (f : Cmp → Cmp) : ((s.modCmp x f).side y).bst = (s.side y).bst :=
  by cases x <;> cases y <;> rfl
@[simp] theorem State.modCmp_side_tally (s : State) (x y : Side) (f : Cmp → Cmp) : ((s.modCmp x f).side y).tally = (s.side y).tally :=
  by cases x <;> cases y <;> rfl
theorem State.modCmp_ne (s : State) {x y : Side} (f : Cmp → Cmp) (h : y ≠ x) : (s.modCmp x f).side y = s.side y := by
  cases x <;> cases y <;> first | rfl | exact absurd rfl h

/-! modBst -/

@[simp] theorem State.modBst_clock (s : State) (x : Side) (f : Bst → Bst) : (s.modBst x f).clock = s.clock := by cases x <;> rfl
@[simp] theorem State.modBst_regs (s : State) (x : Side) (f : Bst → Bst) : (s.modBst x f).regs = s.regs := by cases x <;> rfl
@[simp] theorem State.modBst_fresh (s : State) (x : Side) (f : Bst → Bst) : (s.modBst x f).fresh = s.fresh :=
  by cases x <;> rfl
@[simp] theorem State.modBst_late (s : State) (x : Side) (f : Bst → Bst) : (s.modBst x f).late = s.late :=
  by cases x <;> rfl
@[simp] theorem State.modBst_capture (s : State) (x : Side) (f : Bst → Bst) : (s.modBst x f).capture = s.capture :=
  by cases x <;> rfl
@[simp] theorem State.modBst_pix (s : State) (x : Side) (f : Bst → Bst) : (s.modBst x f).pix = s.pix := by cases x <;> rfl
@[simp] theorem State.modBst_tdc (s : State) (x : Side) (f : Bst → Bst) : (s.modBst x f).tdc = s.tdc := by cases x <;> rfl
@[simp] theorem State.modBst_frames (s : State) (x : Side) (f : Bst → Bst) : (s.modBst x f).frames = s.frames :=
  by cases x <;> rfl
@[simp] theorem State.modBst_tiles (s : State) (x : Side) (f : Bst → Bst) : (s.modBst x f).tiles = s.tiles := by cases x <;> rfl
@[simp] theorem State.modBst_squall (s : State) (x : Side) (f : Bst → Bst) : (s.modBst x f).squall = s.squall :=
  by cases x <;> rfl
@[simp] theorem State.modBst_trg (s : State) (x : Side) (f : Bst → Bst) : (s.modBst x f).trg = s.trg := by cases x <;> rfl
@[simp] theorem State.modBst_spi (s : State) (x : Side) (f : Bst → Bst) : (s.modBst x f).spi = s.spi := by cases x <;> rfl
@[simp] theorem State.modBst_power (s : State) (x : Side) (f : Bst → Bst) : (s.modBst x f).power = s.power := by cases x <;> rfl
@[simp] theorem State.modBst_arb (s : State) (x : Side) (f : Bst → Bst) : (s.modBst x f).arb = s.arb := by cases x <;> rfl
@[simp] theorem State.modBst_bg (s : State) (x : Side) (f : Bst → Bst) : (s.modBst x f).bg = s.bg := by cases x <;> rfl
@[simp] theorem State.modBst_lace (s : State) (x : Side) (f : Bst → Bst) : (s.modBst x f).lace = s.lace := by cases x <;> rfl
@[simp] theorem State.modBst_hk (s : State) (x : Side) (f : Bst → Bst) : (s.modBst x f).hk = s.hk := by cases x <;> rfl
@[simp] theorem State.modBst_pins (s : State) (x : Side) (f : Bst → Bst) : (s.modBst x f).pins = s.pins := by cases x <;> rfl
@[simp] theorem State.modBst_freeCount (s : State) (x : Side) (f : Bst → Bst) : (s.modBst x f).freeCount = s.freeCount :=
  by cases x <;> rfl
@[simp] theorem State.modBst_pending (s : State) (x : Side) (f : Bst → Bst) : (s.modBst x f).pending = s.pending :=
  by cases x <;> rfl
@[simp] theorem State.modBst_rd (s : State) (x : Side) (f : Bst → Bst) (a : Nat) : (s.modBst x f).rd a = s.rd a :=
  by cases x <;> rfl
@[simp] theorem State.modBst_self (s : State) (x : Side) (f : Bst → Bst) : ((s.modBst x f).side x).bst = f (s.side x).bst :=
  by cases x <;> rfl
@[simp] theorem State.modBst_side_mgt (s : State) (x y : Side) (f : Bst → Bst) : ((s.modBst x f).side y).mgt = (s.side y).mgt :=
  by cases x <;> cases y <;> rfl
@[simp] theorem State.modBst_side_evt (s : State) (x y : Side) (f : Bst → Bst) : ((s.modBst x f).side y).evt = (s.side y).evt :=
  by cases x <;> cases y <;> rfl
@[simp] theorem State.modBst_side_lnk (s : State) (x y : Side) (f : Bst → Bst) : ((s.modBst x f).side y).lnk = (s.side y).lnk :=
  by cases x <;> cases y <;> rfl
@[simp] theorem State.modBst_side_wlt (s : State) (x y : Side) (f : Bst → Bst) : ((s.modBst x f).side y).wlt = (s.side y).wlt :=
  by cases x <;> cases y <;> rfl
@[simp] theorem State.modBst_side_lce (s : State) (x y : Side) (f : Bst → Bst) : ((s.modBst x f).side y).lce = (s.side y).lce :=
  by cases x <;> cases y <;> rfl
@[simp] theorem State.modBst_side_dsp (s : State) (x y : Side) (f : Bst → Bst) : ((s.modBst x f).side y).dsp = (s.side y).dsp :=
  by cases x <;> cases y <;> rfl
@[simp] theorem State.modBst_side_cmp (s : State) (x y : Side) (f : Bst → Bst) : ((s.modBst x f).side y).cmp = (s.side y).cmp :=
  by cases x <;> cases y <;> rfl
@[simp] theorem State.modBst_side_tally (s : State) (x y : Side) (f : Bst → Bst) : ((s.modBst x f).side y).tally = (s.side y).tally :=
  by cases x <;> cases y <;> rfl
theorem State.modBst_ne (s : State) {x y : Side} (f : Bst → Bst) (h : y ≠ x) : (s.modBst x f).side y = s.side y := by
  cases x <;> cases y <;> first | rfl | exact absurd rfl h

/-! tally -/

@[simp] theorem State.tally_clock (s : State) (x : Side) (c : Tally) (n : Nat) : (s.tally x c n).clock = s.clock :=
  by cases x <;> rfl
@[simp] theorem State.tally_regs (s : State) (x : Side) (c : Tally) (n : Nat) : (s.tally x c n).regs = s.regs :=
  by cases x <;> rfl
@[simp] theorem State.tally_fresh (s : State) (x : Side) (c : Tally) (n : Nat) : (s.tally x c n).fresh = s.fresh :=
  by cases x <;> rfl
@[simp] theorem State.tally_late (s : State) (x : Side) (c : Tally) (n : Nat) : (s.tally x c n).late = s.late :=
  by cases x <;> rfl
@[simp] theorem State.tally_capture (s : State) (x : Side) (c : Tally) (n : Nat) : (s.tally x c n).capture = s.capture :=
  by cases x <;> rfl
@[simp] theorem State.tally_pix (s : State) (x : Side) (c : Tally) (n : Nat) : (s.tally x c n).pix = s.pix := by cases x <;> rfl
@[simp] theorem State.tally_tdc (s : State) (x : Side) (c : Tally) (n : Nat) : (s.tally x c n).tdc = s.tdc := by cases x <;> rfl
@[simp] theorem State.tally_frames (s : State) (x : Side) (c : Tally) (n : Nat) : (s.tally x c n).frames = s.frames :=
  by cases x <;> rfl
@[simp] theorem State.tally_tiles (s : State) (x : Side) (c : Tally) (n : Nat) : (s.tally x c n).tiles = s.tiles :=
  by cases x <;> rfl
@[simp] theorem State.tally_squall (s : State) (x : Side) (c : Tally) (n : Nat) : (s.tally x c n).squall = s.squall :=
  by cases x <;> rfl
@[simp] theorem State.tally_trg (s : State) (x : Side) (c : Tally) (n : Nat) : (s.tally x c n).trg = s.trg := by cases x <;> rfl
@[simp] theorem State.tally_spi (s : State) (x : Side) (c : Tally) (n : Nat) : (s.tally x c n).spi = s.spi := by cases x <;> rfl
@[simp] theorem State.tally_power (s : State) (x : Side) (c : Tally) (n : Nat) : (s.tally x c n).power = s.power :=
  by cases x <;> rfl
@[simp] theorem State.tally_arb (s : State) (x : Side) (c : Tally) (n : Nat) : (s.tally x c n).arb = s.arb := by cases x <;> rfl
@[simp] theorem State.tally_bg (s : State) (x : Side) (c : Tally) (n : Nat) : (s.tally x c n).bg = s.bg := by cases x <;> rfl
@[simp] theorem State.tally_lace (s : State) (x : Side) (c : Tally) (n : Nat) : (s.tally x c n).lace = s.lace :=
  by cases x <;> rfl
@[simp] theorem State.tally_hk (s : State) (x : Side) (c : Tally) (n : Nat) : (s.tally x c n).hk = s.hk := by cases x <;> rfl
@[simp] theorem State.tally_pins (s : State) (x : Side) (c : Tally) (n : Nat) : (s.tally x c n).pins = s.pins :=
  by cases x <;> rfl
@[simp] theorem State.tally_freeCount (s : State) (x : Side) (c : Tally) (n : Nat) : (s.tally x c n).freeCount = s.freeCount :=
  by cases x <;> rfl
@[simp] theorem State.tally_pending (s : State) (x : Side) (c : Tally) (n : Nat) : (s.tally x c n).pending = s.pending :=
  by cases x <;> rfl
@[simp] theorem State.tally_rd (s : State) (x : Side) (c : Tally) (n a : Nat) : (s.tally x c n).rd a = s.rd a :=
  by cases x <;> rfl
@[simp] theorem State.tally_side_mgt (s : State) (x y : Side) (c : Tally) (n : Nat) : ((s.tally x c n).side y).mgt = (s.side y).mgt :=
  by cases x <;> cases y <;> rfl
@[simp] theorem State.tally_side_evt (s : State) (x y : Side) (c : Tally) (n : Nat) : ((s.tally x c n).side y).evt = (s.side y).evt :=
  by cases x <;> cases y <;> rfl
@[simp] theorem State.tally_side_lnk (s : State) (x y : Side) (c : Tally) (n : Nat) : ((s.tally x c n).side y).lnk = (s.side y).lnk :=
  by cases x <;> cases y <;> rfl
@[simp] theorem State.tally_side_wlt (s : State) (x y : Side) (c : Tally) (n : Nat) : ((s.tally x c n).side y).wlt = (s.side y).wlt :=
  by cases x <;> cases y <;> rfl
@[simp] theorem State.tally_side_lce (s : State) (x y : Side) (c : Tally) (n : Nat) : ((s.tally x c n).side y).lce = (s.side y).lce :=
  by cases x <;> cases y <;> rfl
@[simp] theorem State.tally_side_dsp (s : State) (x y : Side) (c : Tally) (n : Nat) : ((s.tally x c n).side y).dsp = (s.side y).dsp :=
  by cases x <;> cases y <;> rfl
@[simp] theorem State.tally_side_cmp (s : State) (x y : Side) (c : Tally) (n : Nat) : ((s.tally x c n).side y).cmp = (s.side y).cmp :=
  by cases x <;> cases y <;> rfl
@[simp] theorem State.tally_side_bst (s : State) (x y : Side) (c : Tally) (n : Nat) : ((s.tally x c n).side y).bst = (s.side y).bst :=
  by cases x <;> cases y <;> rfl

/-! modTile -/

@[simp] theorem State.modTile_clock (s : State) (i : Nat) (f : Tile → Tile) : (s.modTile i f).clock = s.clock := (rfl)
@[simp] theorem State.modTile_regs (s : State) (i : Nat) (f : Tile → Tile) : (s.modTile i f).regs = s.regs := (rfl)
@[simp] theorem State.modTile_fresh (s : State) (i : Nat) (f : Tile → Tile) : (s.modTile i f).fresh = s.fresh := (rfl)
@[simp] theorem State.modTile_late (s : State) (i : Nat) (f : Tile → Tile) : (s.modTile i f).late = s.late := (rfl)
@[simp] theorem State.modTile_capture (s : State) (i : Nat) (f : Tile → Tile) : (s.modTile i f).capture = s.capture := (rfl)
@[simp] theorem State.modTile_pix (s : State) (i : Nat) (f : Tile → Tile) : (s.modTile i f).pix = s.pix := (rfl)
@[simp] theorem State.modTile_tdc (s : State) (i : Nat) (f : Tile → Tile) : (s.modTile i f).tdc = s.tdc := (rfl)
@[simp] theorem State.modTile_frames (s : State) (i : Nat) (f : Tile → Tile) : (s.modTile i f).frames = s.frames := (rfl)
@[simp] theorem State.modTile_tiles (s : State) (i : Nat) (f : Tile → Tile) : (s.modTile i f).tiles = Sparse.upd s.tiles i Tile.idle f := (rfl)
@[simp] theorem State.modTile_squall (s : State) (i : Nat) (f : Tile → Tile) : (s.modTile i f).squall = s.squall := (rfl)
@[simp] theorem State.modTile_trg (s : State) (i : Nat) (f : Tile → Tile) : (s.modTile i f).trg = s.trg := (rfl)
@[simp] theorem State.modTile_sideA (s : State) (i : Nat) (f : Tile → Tile) : (s.modTile i f).sideA = s.sideA := (rfl)
@[simp] theorem State.modTile_sideB (s : State) (i : Nat) (f : Tile → Tile) : (s.modTile i f).sideB = s.sideB := (rfl)
@[simp] theorem State.modTile_spi (s : State) (i : Nat) (f : Tile → Tile) : (s.modTile i f).spi = s.spi := (rfl)
@[simp] theorem State.modTile_power (s : State) (i : Nat) (f : Tile → Tile) : (s.modTile i f).power = s.power := (rfl)
@[simp] theorem State.modTile_arb (s : State) (i : Nat) (f : Tile → Tile) : (s.modTile i f).arb = s.arb := (rfl)
@[simp] theorem State.modTile_bg (s : State) (i : Nat) (f : Tile → Tile) : (s.modTile i f).bg = s.bg := (rfl)
@[simp] theorem State.modTile_lace (s : State) (i : Nat) (f : Tile → Tile) : (s.modTile i f).lace = s.lace := (rfl)
@[simp] theorem State.modTile_hk (s : State) (i : Nat) (f : Tile → Tile) : (s.modTile i f).hk = s.hk := (rfl)
@[simp] theorem State.modTile_pins (s : State) (i : Nat) (f : Tile → Tile) : (s.modTile i f).pins = s.pins := (rfl)
@[simp] theorem State.modTile_freeCount (s : State) (i : Nat) (f : Tile → Tile) : (s.modTile i f).freeCount = s.freeCount := (rfl)
@[simp] theorem State.modTile_pending (s : State) (i : Nat) (f : Tile → Tile) : (s.modTile i f).pending = s.pending := (rfl)
@[simp] theorem State.modTile_side (s : State) (i : Nat) (f : Tile → Tile) (x : Side) : (s.modTile i f).side x = s.side x := by cases x <;> rfl
@[simp] theorem State.modTile_rd (s : State) (i : Nat) (f : Tile → Tile) (a : Nat) : (s.modTile i f).rd a = s.rd a := (rfl)

/-! modPin -/

@[simp] theorem State.modPin_clock (s : State) (i : Nat) (f : Pin → Pin) : (s.modPin i f).clock = s.clock := (rfl)
@[simp] theorem State.modPin_regs (s : State) (i : Nat) (f : Pin → Pin) : (s.modPin i f).regs = s.regs := (rfl)
@[simp] theorem State.modPin_fresh (s : State) (i : Nat) (f : Pin → Pin) : (s.modPin i f).fresh = s.fresh := (rfl)
@[simp] theorem State.modPin_late (s : State) (i : Nat) (f : Pin → Pin) : (s.modPin i f).late = s.late := (rfl)
@[simp] theorem State.modPin_capture (s : State) (i : Nat) (f : Pin → Pin) : (s.modPin i f).capture = s.capture := (rfl)
@[simp] theorem State.modPin_pix (s : State) (i : Nat) (f : Pin → Pin) : (s.modPin i f).pix = s.pix := (rfl)
@[simp] theorem State.modPin_tdc (s : State) (i : Nat) (f : Pin → Pin) : (s.modPin i f).tdc = s.tdc := (rfl)
@[simp] theorem State.modPin_frames (s : State) (i : Nat) (f : Pin → Pin) : (s.modPin i f).frames = s.frames := (rfl)
@[simp] theorem State.modPin_tiles (s : State) (i : Nat) (f : Pin → Pin) : (s.modPin i f).tiles = s.tiles := (rfl)
@[simp] theorem State.modPin_squall (s : State) (i : Nat) (f : Pin → Pin) : (s.modPin i f).squall = s.squall := (rfl)
@[simp] theorem State.modPin_trg (s : State) (i : Nat) (f : Pin → Pin) : (s.modPin i f).trg = s.trg := (rfl)
@[simp] theorem State.modPin_sideA (s : State) (i : Nat) (f : Pin → Pin) : (s.modPin i f).sideA = s.sideA := (rfl)
@[simp] theorem State.modPin_sideB (s : State) (i : Nat) (f : Pin → Pin) : (s.modPin i f).sideB = s.sideB := (rfl)
@[simp] theorem State.modPin_spi (s : State) (i : Nat) (f : Pin → Pin) : (s.modPin i f).spi = s.spi := (rfl)
@[simp] theorem State.modPin_power (s : State) (i : Nat) (f : Pin → Pin) : (s.modPin i f).power = s.power := (rfl)
@[simp] theorem State.modPin_arb (s : State) (i : Nat) (f : Pin → Pin) : (s.modPin i f).arb = s.arb := (rfl)
@[simp] theorem State.modPin_bg (s : State) (i : Nat) (f : Pin → Pin) : (s.modPin i f).bg = s.bg := (rfl)
@[simp] theorem State.modPin_lace (s : State) (i : Nat) (f : Pin → Pin) : (s.modPin i f).lace = s.lace := (rfl)
@[simp] theorem State.modPin_hk (s : State) (i : Nat) (f : Pin → Pin) : (s.modPin i f).hk = s.hk := (rfl)
@[simp] theorem State.modPin_pins (s : State) (i : Nat) (f : Pin → Pin) : (s.modPin i f).pins = Sparse.upd s.pins i Pin.idle f := (rfl)
@[simp] theorem State.modPin_freeCount (s : State) (i : Nat) (f : Pin → Pin) : (s.modPin i f).freeCount = s.freeCount := (rfl)
@[simp] theorem State.modPin_pending (s : State) (i : Nat) (f : Pin → Pin) : (s.modPin i f).pending = s.pending := (rfl)
@[simp] theorem State.modPin_side (s : State) (i : Nat) (f : Pin → Pin) (x : Side) : (s.modPin i f).side x = s.side x := by cases x <;> rfl
@[simp] theorem State.modPin_rd (s : State) (i : Nat) (f : Pin → Pin) (a : Nat) : (s.modPin i f).rd a = s.rd a := (rfl)

end Sys2Proof.Machine
end

