-- ==== Sys2Proof/Laws/Frames.lean ====
section
/-!
SUPPORT. The algebra of frames: Only is reflexive and composes, and what each primitive operation may change.
-/

namespace Sys2Proof.Machine

theorem Only.refl (ps : List Part) (w : Nat → Prop) (s : State) : Only ps w s s :=
  ⟨by intro p _; cases p <;> simp [Part.same], fun _ _ => ⟨rfl, rfl⟩⟩

theorem Part.same_trans {p : Part} {s t u : State} (h : p.same s t) (k : p.same t u) : p.same s u := by
  cases p <;> simp_all [Part.same]

theorem Only.trans {ps : List Part} {w : Nat → Prop} {s t u : State} (h : Only ps w s t) (k : Only ps w t u) :
    Only ps w s u :=
  ⟨fun p hp => Part.same_trans (h.1 p hp) (k.1 p hp), fun a ha => ⟨(k.2 a ha).1.trans (h.2 a ha).1, (k.2 a ha).2.trans (h.2 a ha).2⟩⟩

theorem Only.mono {ps qs : List Part} {v w : Nat → Prop} {s t : State} (h : Only qs v s t) (k : qs ⊆ ps)
    (l : ∀ a, v a → w a) : Only ps w s t :=
  ⟨fun p hp => h.1 p (fun hq => hp (k hq)), fun a ha => h.2 a (fun hv => ha (l a hv))⟩

/-- A last operation, within the frame, on a state within the frame. -/
theorem Only.after {ps : List Part} {w : Nat → Prop} {s u t : State} (g : Only ps w u t) (h : Only ps w s u) :
    Only ps w s t := h.trans g

theorem Only.foldl {α : Type} {ps : List Part} {w : Nat → Prop} {f : State → α → State} {l : List α} {s u : State}
    (h : ∀ t a, Only ps w t (f t a)) (k : Only ps w s u) : Only ps w s (l.foldl f u) := by
  induction l generalizing u with
  | nil => exact k
  | cons a l ih => exact ih (k.trans (h u a))

theorem Only.both {ps : List Part} {w : Nat → Prop} {f : Side → State → State} {s u : State}
    (h : ∀ x t, Only ps w t (f x t)) (k : Only ps w s u) : Only ps w s (u.both f) := (k.trans (h .a u)).trans (h .b _)

theorem Sparse.get_del_ne {α : Type} (m : Sparse α) {k j : Nat} (d : α) (h : j ≠ k) :
    Sparse.get (Sparse.del m k) j d = Sparse.get m j d := by
  induction m with
  | nil => rfl
  | cons e r ih =>
    obtain ⟨i, v⟩ := e
    simp only [Sparse.del]
    split
    · next hi => subst hi; simp [Sparse.get, Ne.symm h, ih]
    · simp [Sparse.get, ih]

theorem Sparse.get_ins_ne {α : Type} (m : Sparse α) {k j : Nat} (v d : α) (h : j ≠ k) :
    Sparse.get (Sparse.ins m k v) j d = Sparse.get m j d := by
  induction m with
  | nil => simp [Sparse.ins, Sparse.get, Ne.symm h]
  | cons e r ih =>
    obtain ⟨i, w⟩ := e
    simp only [Sparse.ins]
    split
    · simp [Sparse.get, Ne.symm h]
    · split
      · next hi => subst hi; simp [Sparse.get, Ne.symm h]
      · simp [Sparse.get, ih]

/-- Setting one entry leaves every other one alone. -/
theorem Sparse.get_set_ne {α : Type} [DecidableEq α] (m : Sparse α) {k j : Nat} (v d : α) (h : j ≠ k) (e : α) :
    Sparse.get (Sparse.set m k v d) j e = Sparse.get m j e := by
  unfold Sparse.set; split
  · exact Sparse.get_del_ne m e h
  · exact Sparse.get_ins_ne m v e h

theorem State.rd_wr_ne (s : State) {a b : Nat} (w : Word) (h : b ≠ a) : (s.wr a w).rd b = s.rd b := by
  simp [State.wr, State.rd, Sparse.get_set_ne _ _ _ h]

/-- A register write changes that register only. -/
theorem Only.wr {ps : List Part} {w : Nat → Prop} (s : State) (a : Nat) (v : Word) (h : w a) : Only ps w s (s.wr a v) :=
  ⟨by intro p _; cases p <;> simp [Part.same, State.wr, State.side],
   fun b hb => ⟨State.rd_wr_ne s v (fun e => hb (e ▸ h)), rfl⟩⟩

theorem Only.wf {ps : List Part} {w : Nat → Prop} (s : State) (a hi lo v : Nat) (h : w a) : Only ps w s (s.wf a hi lo v) :=
  Only.wr s a _ h

/-- A set noted changes what is known of that register only. -/
theorem Only.noteSet {ps : List Part} {w : Nat → Prop} (s : State) (a hi lo : Nat) (f : Nat → Nat) (h : w a) :
    Only ps w s (s.noteSet a hi lo f) :=
  ⟨by intro p _; cases p <;> simp [Part.same, State.noteSet, State.side],
   fun b hb => ⟨rfl, Sparse.get_ins_ne _ _ _ (fun e => hb (e ▸ h))⟩⟩

theorem Only.raiseBit {ps : List Part} {w : Nat → Prop} (s : State) (a i : Nat) (h : w a) : Only ps w s (s.raiseBit a i) :=
  (Only.noteSet s a i i _ h).trans (Only.wr _ a _ h)

theorem Only.bump {ps : List Part} {w : Nat → Prop} (s : State) (a hi lo n : Nat) (h : w a) :
    Only ps w s (s.bump a hi lo n) := (Only.noteSet s a hi lo _ h).trans (Only.wr _ a _ h)

theorem Only.count {ps : List Part} {w : Nat → Prop} (s : State) (a hi lo n : Nat) (h : w a) :
    Only ps w s (s.count a hi lo n) := Only.wr s a _ h

theorem Only.high {ps : List Part} {w : Nat → Prop} (s : State) (a hi lo v : Nat) (h : w a) :
    Only ps w s (s.high a hi lo v) := by
  unfold State.high; dsimp only; split
  · exact (Only.noteSet s a hi lo _ h).trans (Only.wr _ a _ h)
  · exact Only.noteSet s a hi lo _ h

theorem Only.wr64 {ps : List Part} {w : Nat → Prop} (s : State) (a b : Nat) (v : Time) (h : w a) (k : w b) :
    Only ps w s (s.wr64 a b v) := (Only.wr s a _ h).trans (Only.wr _ b _ k)

/-- An update of a side changes that side only, and of it the fields that its function changes. -/
theorem Only.modSide {ps : List Part} {w : Nat → Prop} (s : State) (x : Side) (f : SideState → SideState)
    (h : ∀ d, (.mgt x ∈ ps ∨ (f d).mgt = d.mgt) ∧ (.evt x ∈ ps ∨ (f d).evt = d.evt) ∧
      (.lnk x ∈ ps ∨ (f d).lnk = d.lnk) ∧ (.wlt x ∈ ps ∨ (f d).wlt = d.wlt) ∧ (.lce x ∈ ps ∨ (f d).lce = d.lce) ∧
      (.dsp x ∈ ps ∨ (f d).dsp = d.dsp) ∧ (.cmp x ∈ ps ∨ (f d).cmp = d.cmp) ∧ (.bst x ∈ ps ∨ (f d).bst = d.bst) ∧
      (.tally x ∈ ps ∨ (f d).tally = d.tally)) : Only ps w s (s.modSide x f) := by
  have h := h (s.side x)
  refine ⟨fun p hp => ?_, fun a _ => by cases x <;> exact ⟨rfl, rfl⟩⟩
  cases p with
  | mgt y | evt y | lnk y | wlt y | lce y | dsp y | cmp y | bst y | tally y =>
    cases x <;> cases y <;> simp_all [Part.same, State.modSide, State.setSide, State.side]
  | _ => cases x <;> simp_all [Part.same, State.modSide, State.setSide]

theorem Only.modMgt {ps : List Part} {w : Nat → Prop} (s : State) (x : Side) (f : Mgt → Mgt) (h : .mgt x ∈ ps) :
    Only ps w s (s.modMgt x f) := Only.modSide s x _ (by simp [h])

theorem Only.modEvt {ps : List Part} {w : Nat → Prop} (s : State) (x : Side) (f : EvState → EvState) (h : .evt x ∈ ps) :
    Only ps w s (s.modEvt x f) := Only.modSide s x _ (by simp [h])

theorem Only.modLnk {ps : List Part} {w : Nat → Prop} (s : State) (x : Side) (f : Lnk → Lnk) (h : .lnk x ∈ ps) :
    Only ps w s (s.modLnk x f) := Only.modSide s x _ (by simp [h])

theorem Only.modWlt {ps : List Part} {w : Nat → Prop} (s : State) (x : Side) (f : Wlt → Wlt) (h : .wlt x ∈ ps) :
    Only ps w s (s.modWlt x f) := Only.modSide s x _ (by simp [h])

theorem Only.modLce {ps : List Part} {w : Nat → Prop} (s : State) (x : Side) (f : Lce → Lce) (h : .lce x ∈ ps) :
    Only ps w s (s.modLce x f) := Only.modSide s x _ (by simp [h])

theorem Only.modDsp {ps : List Part} {w : Nat → Prop} (s : State) (x : Side) (f : Dsp → Dsp) (h : .dsp x ∈ ps) :
    Only ps w s (s.modDsp x f) := Only.modSide s x _ (by simp [h])

theorem Only.modCmp {ps : List Part} {w : Nat → Prop} (s : State) (x : Side) (f : Cmp → Cmp) (h : .cmp x ∈ ps) :
    Only ps w s (s.modCmp x f) := Only.modSide s x _ (by simp [h])

theorem Only.modBst {ps : List Part} {w : Nat → Prop} (s : State) (x : Side) (f : Bst → Bst) (h : .bst x ∈ ps) :
    Only ps w s (s.modBst x f) := Only.modSide s x _ (by simp [h])

theorem Only.tally {ps : List Part} {w : Nat → Prop} (s : State) (x : Side) (c : Tally) (n : Nat) (h : .tally x ∈ ps) :
    Only ps w s (s.tally x c n) := Only.modSide s x _ (by simp [h])

theorem Only.setClock {ps : List Part} {w : Nat → Prop} (s : State) (v : Clock) (h : .clock ∈ ps) :
    Only ps w s { s with clock := v } :=
  ⟨by intro p hp; cases p <;> first | (exact absurd h hp) | rfl, fun _ _ => ⟨rfl, rfl⟩⟩

theorem Only.setCapture {ps : List Part} {w : Nat → Prop} (s : State) (v : Sparse Word) (h : .capture ∈ ps) :
    Only ps w s { s with capture := v } :=
  ⟨by intro p hp; cases p <;> first | (exact absurd h hp) | rfl, fun _ _ => ⟨rfl, rfl⟩⟩

theorem Only.setPix {ps : List Part} {w : Nat → Prop} (s : State) (v : Pix) (h : .pix ∈ ps) :
    Only ps w s { s with pix := v } :=
  ⟨by intro p hp; cases p <;> first | (exact absurd h hp) | rfl, fun _ _ => ⟨rfl, rfl⟩⟩

theorem Only.setTdc {ps : List Part} {w : Nat → Prop} (s : State) (v : Tdc) (h : .tdc ∈ ps) :
    Only ps w s { s with tdc := v } :=
  ⟨by intro p hp; cases p <;> first | (exact absurd h hp) | rfl, fun _ _ => ⟨rfl, rfl⟩⟩

theorem Only.setFrames {ps : List Part} {w : Nat → Prop} (s : State) (v : Frames) (h : .frames ∈ ps) :
    Only ps w s { s with frames := v } :=
  ⟨by intro p hp; cases p <;> first | (exact absurd h hp) | rfl, fun _ _ => ⟨rfl, rfl⟩⟩

theorem Only.setTiles {ps : List Part} {w : Nat → Prop} (s : State) (v : Sparse Tile) (h : .tiles ∈ ps) :
    Only ps w s { s with tiles := v } :=
  ⟨by intro p hp; cases p <;> first | (exact absurd h hp) | rfl, fun _ _ => ⟨rfl, rfl⟩⟩

theorem Only.setSquall {ps : List Part} {w : Nat → Prop} (s : State) (v : Detector) (h : .squall ∈ ps) :
    Only ps w s { s with squall := v } :=
  ⟨by intro p hp; cases p <;> first | (exact absurd h hp) | rfl, fun _ _ => ⟨rfl, rfl⟩⟩

theorem Only.setTrg {ps : List Part} {w : Nat → Prop} (s : State) (v : Trg) (h : .trg ∈ ps) :
    Only ps w s { s with trg := v } :=
  ⟨by intro p hp; cases p <;> first | (exact absurd h hp) | rfl, fun _ _ => ⟨rfl, rfl⟩⟩

theorem Only.setSpi {ps : List Part} {w : Nat → Prop} (s : State) (v : Spi) (h : .spi ∈ ps) :
    Only ps w s { s with spi := v } :=
  ⟨by intro p hp; cases p <;> first | (exact absurd h hp) | rfl, fun _ _ => ⟨rfl, rfl⟩⟩

theorem Only.setPower {ps : List Part} {w : Nat → Prop} (s : State) (v : Power) (h : .power ∈ ps) :
    Only ps w s { s with power := v } :=
  ⟨by intro p hp; cases p <;> first | (exact absurd h hp) | rfl, fun _ _ => ⟨rfl, rfl⟩⟩

theorem Only.setArb {ps : List Part} {w : Nat → Prop} (s : State) (v : Arb) (h : .arb ∈ ps) :
    Only ps w s { s with arb := v } :=
  ⟨by intro p hp; cases p <;> first | (exact absurd h hp) | rfl, fun _ _ => ⟨rfl, rfl⟩⟩

theorem Only.setBg {ps : List Part} {w : Nat → Prop} (s : State) (v : Background) (h : .bg ∈ ps) :
    Only ps w s { s with bg := v } :=
  ⟨by intro p hp; cases p <;> first | (exact absurd h hp) | rfl, fun _ _ => ⟨rfl, rfl⟩⟩

theorem Only.setLace {ps : List Part} {w : Nat → Prop} (s : State) (v : LaceBase) (h : .lace ∈ ps) :
    Only ps w s { s with lace := v } :=
  ⟨by intro p hp; cases p <;> first | (exact absurd h hp) | rfl, fun _ _ => ⟨rfl, rfl⟩⟩

theorem Only.setHk {ps : List Part} {w : Nat → Prop} (s : State) (v : Hk) (h : .hk ∈ ps) :
    Only ps w s { s with hk := v } :=
  ⟨by intro p hp; cases p <;> first | (exact absurd h hp) | rfl, fun _ _ => ⟨rfl, rfl⟩⟩

theorem Only.setPins {ps : List Part} {w : Nat → Prop} (s : State) (v : Sparse Pin) (h : .pins ∈ ps) :
    Only ps w s { s with pins := v } :=
  ⟨by intro p hp; cases p <;> first | (exact absurd h hp) | rfl, fun _ _ => ⟨rfl, rfl⟩⟩

theorem Only.setFreeCount {ps : List Part} {w : Nat → Prop} (s : State) (v : Nat) (h : .freeCount ∈ ps) :
    Only ps w s { s with freeCount := v } :=
  ⟨by intro p hp; cases p <;> first | (exact absurd h hp) | rfl, fun _ _ => ⟨rfl, rfl⟩⟩

/-- The passing of time changes the clock, and ends what is known of the present tick. -/
theorem State.elapse_same (s : State) (dt : Nat) {p : Part} (h : p ≠ .clock) : p.same s (s.elapse dt) := by
  cases p <;> first | exact absurd rfl h | rfl

end Sys2Proof.Machine
end

