-- ==== Sys2Proof/Laws/Tables.lean ====
section
/-!
SUPPORT. The algebra of tables and registers: what an entry reads after a write, the canonical form kept, and the fields
of a register after a write of one of them.
-/

namespace Sys2Proof.Machine

theorem Sparse.get_ins_self {α : Type} (m : Sparse α) (k : Nat) (v d : α) : Sparse.get (Sparse.ins m k v) k d = v := by
  induction m with
  | nil => simp [Sparse.ins, Sparse.get]
  | cons e r ih =>
    obtain ⟨i, w⟩ := e
    simp only [Sparse.ins]
    split
    · simp [Sparse.get]
    · split
      · simp [Sparse.get]
      · next h1 h2 => simp [Sparse.get, ih, Ne.symm h2]

theorem Sparse.get_del_self {α : Type} (m : Sparse α) (k : Nat) (d : α) : Sparse.get (Sparse.del m k) k d = d := by
  induction m with
  | nil => rfl
  | cons e r ih =>
    obtain ⟨i, w⟩ := e
    simp only [Sparse.del]
    split
    · exact ih
    · next hi => simp [Sparse.get, hi, ih]

/-- Reading the entry just set gives the value set. -/
theorem Sparse.get_set_self {α : Type} [DecidableEq α] (m : Sparse α) (k : Nat) (v d : α) :
    Sparse.get (Sparse.set m k v d) k d = v := by
  unfold Sparse.set; split
  · next e => subst e; exact Sparse.get_del_self m k v
  · exact Sparse.get_ins_self m k v d

theorem Sparse.sorted_mono {α : Type} {m : Sparse α} {lo lo' : Nat} (h : Sparse.sorted m lo = true) (hl : lo' ≤ lo) :
    Sparse.sorted m lo' = true := by
  cases m with
  | nil => rfl
  | cons e r => obtain ⟨i, w⟩ := e; simp_all [Sparse.sorted]; omega

theorem Sparse.sorted_del {α : Type} {m : Sparse α} {lo : Nat} (h : Sparse.sorted m lo = true) (k : Nat) :
    Sparse.sorted (Sparse.del m k) lo = true := by
  induction m generalizing lo with
  | nil => rfl
  | cons e r ih =>
    obtain ⟨i, w⟩ := e
    simp only [Sparse.sorted, Bool.and_eq_true, decide_eq_true_eq] at h
    simp only [Sparse.del]
    split
    · exact Sparse.sorted_mono (ih h.2) (by omega)
    · simp [Sparse.sorted, h.1, ih h.2]

theorem Sparse.sorted_ins {α : Type} {m : Sparse α} {lo : Nat} (h : Sparse.sorted m lo = true) {k : Nat} (hk : lo ≤ k)
    (v : α) : Sparse.sorted (Sparse.ins m k v) lo = true := by
  induction m generalizing lo with
  | nil => simp [Sparse.ins, Sparse.sorted, hk]
  | cons e r ih =>
    obtain ⟨i, w⟩ := e
    simp only [Sparse.sorted, Bool.and_eq_true, decide_eq_true_eq] at h
    simp only [Sparse.ins]
    split
    · next h1 => simp only [Sparse.sorted, Bool.and_eq_true, decide_eq_true_eq]; exact ⟨hk, by omega, h.2⟩
    · split
      · next h2 => subst h2; simp [Sparse.sorted, hk, h.2]
      · next h1 h2 => simp only [Sparse.sorted, Bool.and_eq_true, decide_eq_true_eq]; exact ⟨h.1, ih h.2 (by omega)⟩

theorem Sparse.mem_del {α : Type} {m : Sparse α} {k : Nat} {e : Nat × α} (h : e ∈ Sparse.del m k) : e ∈ m := by
  induction m with
  | nil => exact h
  | cons f r ih =>
    obtain ⟨i, w⟩ := f
    simp only [Sparse.del] at h
    split at h
    · exact List.mem_cons_of_mem _ (ih h)
    · rcases List.mem_cons.1 h with h | h
      · exact h ▸ List.mem_cons_self
      · exact List.mem_cons_of_mem _ (ih h)

theorem Sparse.mem_ins {α : Type} {m : Sparse α} {k : Nat} {v : α} {e : Nat × α} (h : e ∈ Sparse.ins m k v) :
    e = (k, v) ∨ e ∈ m := by
  induction m with
  | nil => simpa [Sparse.ins] using h
  | cons f r ih =>
    obtain ⟨i, w⟩ := f
    simp only [Sparse.ins] at h
    split at h
    · exact List.mem_cons.1 h
    · split at h
      · rcases List.mem_cons.1 h with h | h
        · exact .inl h
        · exact .inr (List.mem_cons_of_mem _ h)
      · rcases List.mem_cons.1 h with h | h
        · exact .inr (h ▸ List.mem_cons_self)
        · exact (ih h).imp id (List.mem_cons_of_mem _)

/-- Setting an entry keeps the canonical form. -/
theorem Sparse.wf_set {α : Type} [DecidableEq α] {m : Sparse α} {d : α} (h : Sparse.wf m d = true) (k : Nat) (v : α) :
    Sparse.wf (Sparse.set m k v d) d = true := by
  simp only [Sparse.wf, Bool.and_eq_true, List.all_eq_true, decide_eq_true_eq] at h ⊢
  unfold Sparse.set; split
  · exact ⟨Sparse.sorted_del h.1 k, fun e he => h.2 e (Sparse.mem_del he)⟩
  · next hv =>
    refine ⟨Sparse.sorted_ins h.1 (Nat.zero_le k) v, fun e he => ?_⟩
    rcases Sparse.mem_ins he with rfl | he
    · exact hv
    · exact h.2 e he

/-- Changing an entry keeps the canonical form. -/
theorem Sparse.wf_upd {α : Type} [DecidableEq α] {m : Sparse α} {d : α} (h : Sparse.wf m d = true) (k : Nat)
    (f : α → α) : Sparse.wf (Sparse.upd m k d f) d = true := Sparse.wf_set h k _

/-- A register write keeps the registers' canonical form. -/
theorem State.regsWf_wr {s : State} (h : s.regsWf = true) (a : Nat) (v : Word) : (s.wr a v).regsWf = true := by
  simp only [State.regsWf, Bool.and_eq_true, List.all_eq_true, decide_eq_true_eq] at h ⊢
  simp only [State.wr]
  unfold Sparse.set; split
  · exact ⟨Sparse.sorted_del h.1 a, fun e he => h.2 e (Sparse.mem_del he)⟩
  · next hv =>
    refine ⟨Sparse.sorted_ins h.1 (Nat.zero_le a) v, fun e he => ?_⟩
    rcases Sparse.mem_ins he with rfl | he
    · exact hv
    · exact h.2 e he

/-- Reading the register just written gives the word written. -/
@[simp] theorem State.rd_wr_self (s : State) (a : Nat) (v : Word) : (s.wr a v).rd a = v := Sparse.get_set_self _ a v _

/-- A field of a word just set reads as the value set. -/
theorem bits_setBits_self {w hi lo v : Nat} : bits (setBits w hi lo v) hi lo = v % 2 ^ (hi + 1 - lo) := by
  have h1 : bits w hi lo * 2 ^ lo ≤ w := by
    unfold bits; rw [Nat.shiftRight_eq_div_pow]
    calc _ ≤ (w / 2 ^ lo) * 2 ^ lo := Nat.mul_le_mul_right _ (Nat.mod_le _ _)
      _ ≤ w := Nat.div_mul_le_self _ _
  have hw : (w - bits w hi lo * 2 ^ lo) / 2 ^ lo = w / 2 ^ lo - bits w hi lo := by
    rw [Nat.mul_comm, Nat.sub_mul_div]
  have he : bits (setBits w hi lo v) hi lo =
      ((w - bits w hi lo * 2 ^ lo + v % 2 ^ (hi + 1 - lo) * 2 ^ lo) >>> lo) % 2 ^ (hi + 1 - lo) := rfl
  rw [he, Nat.shiftRight_eq_div_pow, Nat.add_mul_div_right _ _ (Nat.two_pow_pos lo), hw]
  generalize hm : 2 ^ (hi + 1 - lo) = m at *
  have hb : bits w hi lo = (w / 2 ^ lo) % m := by unfold bits; rw [Nat.shiftRight_eq_div_pow, hm]
  rw [hb]
  have := Nat.div_add_mod (w / 2 ^ lo) m
  have h2 : w / 2 ^ lo - (w / 2 ^ lo) % m = m * (w / 2 ^ lo / m) := by omega
  rw [h2, Nat.mul_add_mod]; exact Nat.mod_mod _ _

theorem setBits_lt {w hi lo v n : Nat} (hw : w < 2 ^ n) (hh : hi < n) (hl : lo ≤ hi) : setBits w hi lo v < 2 ^ n := by
  unfold setBits bits
  rw [Nat.shiftRight_eq_div_pow]
  generalize hp : 2 ^ (hi + 1 - lo) = p
  have hq : 2 ^ n = 2 ^ lo * (p * 2 ^ (n - (hi + 1))) := by
    rw [← hp, ← Nat.pow_add, ← Nat.pow_add]; congr 1; omega
  have hp0 : 0 < p := hp ▸ Nat.two_pow_pos _
  have h0 : 0 < 2 ^ lo := Nat.two_pow_pos lo
  generalize 2 ^ (n - (hi + 1)) = r at hq
  generalize 2 ^ lo = q at *
  have e1 := Nat.div_add_mod w q
  have e2 := Nat.div_add_mod (w / q) p
  have hd : w / q / p < r := by
    rw [Nat.div_div_eq_div_mul, Nat.div_lt_iff_lt_mul (Nat.mul_pos h0 hp0)]
    calc w < 2 ^ n := hw
      _ = r * (q * p) := by rw [hq]; ring
  have hv : v % p < p := Nat.mod_lt _ hp0
  have hm : w % q < q := Nat.mod_lt _ h0
  have e3 : w = q * (p * (w / q / p) + w / q % p) + w % q := by rw [e2]; exact e1.symm
  generalize w / q / p = A at *
  generalize w / q % p = B at *
  generalize w % q = C at *
  generalize v % p = V at *
  have : w - B * q + V * q = q * (p * A + V) + C := by
    rw [e3]
    have : q * (p * A + B) + C = (q * (p * A) + C) + B * q := by ring
    rw [this, Nat.add_sub_cancel]; ring
  rw [this, hq]
  calc q * (p * A + V) + C < q * (p * A + V) + q := by omega
    _ = q * (p * A + (V + 1)) := by ring
    _ ≤ q * (p * A + p) := Nat.mul_le_mul_left _ (by omega)
    _ = q * (p * (A + 1)) := by ring
    _ ≤ q * (p * r) := Nat.mul_le_mul_left _ (Nat.mul_le_mul_left _ (by omega))

/-- A field of a register just written reads as the value written. -/
theorem State.rf_wf_self (s : State) (a : Nat) {hi lo v : Nat} (hh : hi < 32) (hl : lo ≤ hi) :
    (s.wf a hi lo v).rf a hi lo = v % 2 ^ (hi + 1 - lo) := by
  unfold State.rf State.wf
  rw [State.rd_wr_self, BitVec.toNat_ofNat, Nat.mod_eq_of_lt (setBits_lt (s.rd a).isLt hh hl)]
  exact bits_setBits_self

theorem setBits_mod {w hi lo v : Nat} : setBits w hi lo v % 2 ^ lo = w % 2 ^ lo := by
  have h1 : bits w hi lo * 2 ^ lo ≤ w := by
    unfold bits; rw [Nat.shiftRight_eq_div_pow]
    calc _ ≤ (w / 2 ^ lo) * 2 ^ lo := Nat.mul_le_mul_right _ (Nat.mod_le _ _)
      _ ≤ w := Nat.div_mul_le_self _ _
  unfold setBits
  rw [Nat.add_mul_mod_self_right, Nat.mul_comm, Nat.sub_mul_mod (by rw [Nat.mul_comm]; exact h1)]

theorem setBits_div {w hi lo v : Nat} (hl : lo ≤ hi) : setBits w hi lo v / 2 ^ (hi + 1) = w / 2 ^ (hi + 1) := by
  unfold setBits bits
  rw [Nat.shiftRight_eq_div_pow]
  have hq : 2 ^ (hi + 1) = 2 ^ lo * 2 ^ (hi + 1 - lo) := by rw [← Nat.pow_add]; congr 1; omega
  have hv : v % 2 ^ (hi + 1 - lo) < 2 ^ (hi + 1 - lo) := Nat.mod_lt _ (Nat.two_pow_pos _)
  have e1 := Nat.div_add_mod w (2 ^ lo)
  have e2 := Nat.div_add_mod (w / 2 ^ lo) (2 ^ (hi + 1 - lo))
  have hm : w % 2 ^ lo < 2 ^ lo := Nat.mod_lt _ (Nat.two_pow_pos _)
  have h0 : 0 < 2 ^ lo := Nat.two_pow_pos lo
  have hp0 : 0 < 2 ^ (hi + 1 - lo) := Nat.two_pow_pos _
  rw [hq, ← Nat.div_div_eq_div_mul, ← Nat.div_div_eq_div_mul]
  have e3 : w = 2 ^ lo * (2 ^ (hi + 1 - lo) * (w / 2 ^ lo / 2 ^ (hi + 1 - lo)) + w / 2 ^ lo % 2 ^ (hi + 1 - lo)) + w % 2 ^ lo := by
    rw [e2]; exact e1.symm
  generalize w / 2 ^ lo / 2 ^ (hi + 1 - lo) = A at *
  generalize w / 2 ^ lo % 2 ^ (hi + 1 - lo) = B at *
  generalize w % 2 ^ lo = C at *
  generalize v % 2 ^ (hi + 1 - lo) = V at *
  generalize 2 ^ (hi + 1 - lo) = p at *
  generalize 2 ^ lo = q at *
  have : w - B * q + V * q = C + q * (V + p * A) := by
    rw [e3]
    have : q * (p * A + B) + C = (q * (p * A) + C) + B * q := by ring
    rw [this, Nat.add_sub_cancel]; ring
  rw [this, Nat.add_mul_div_left _ _ h0, Nat.div_eq_of_lt hm, Nat.zero_add, Nat.add_mul_div_left _ _ hp0,
    Nat.div_eq_of_lt hv, Nat.zero_add]

/-- A field of a word stands through a write of another. -/
theorem bits_setBits_ne {w hi lo v h l : Nat} (hl : lo ≤ hi) (k : h < lo ∨ hi < l) :
    bits (setBits w hi lo v) h l = bits w h l := by
  unfold bits
  rw [Nat.shiftRight_eq_div_pow, Nat.shiftRight_eq_div_pow]
  rcases k with k | k
  · by_cases hh : l ≤ h
    · have e : ∀ u, u / 2 ^ l % 2 ^ (h + 1 - l) = u % 2 ^ lo / 2 ^ l % 2 ^ (h + 1 - l) := by
        intro u
        have hlo : 2 ^ lo = 2 ^ l * (2 ^ (h + 1 - l) * 2 ^ (lo - (h + 1))) := by
          rw [← Nat.pow_add, ← Nat.pow_add]; congr 1; omega
        rw [hlo, Nat.mod_mul_right_div_self, Nat.mod_mul_right_mod]
      rw [e, setBits_mod, ← e]
    · have : h + 1 - l = 0 := by omega
      rw [this]; simp [Nat.mod_one]
  · have e : ∀ u, u / 2 ^ l = u / 2 ^ (hi + 1) / 2 ^ (l - (hi + 1)) := by
      intro u; rw [Nat.div_div_eq_div_mul, ← Nat.pow_add]; congr 2; omega
    rw [e, setBits_div hl, ← e]

/-- A field of a register stands through a write of another of its fields. -/
theorem State.rf_wf_ne (s : State) (a : Nat) {hi lo v h l : Nat} (hh : hi < 32) (hl : lo ≤ hi) (k : h < lo ∨ hi < l) :
    (s.wf a hi lo v).rf a h l = s.rf a h l := by
  unfold State.rf State.wf
  rw [State.rd_wr_self, BitVec.toNat_ofNat, Nat.mod_eq_of_lt (setBits_lt (s.rd a).isLt hh hl)]
  exact bits_setBits_ne hl k

/-- A register field stands through a write of another register. -/
theorem State.rf_wr_ne (s : State) {a b : Nat} (v : Word) (hi lo : Nat) (h : b ≠ a) : (s.wr a v).rf b hi lo = s.rf b hi lo := by
  unfold State.rf; rw [State.rd_wr_ne s v h]

/-- A register field stands through a write of a field of another register. -/
theorem State.rf_wf_other (s : State) {a b : Nat} (hi lo v h l : Nat) (k : b ≠ a) : (s.wf a hi lo v).rf b h l = s.rf b h l :=
  State.rf_wr_ne s _ h l k

end Sys2Proof.Machine
end

