-- ==== Sys2Proof/Laws/Commands.lean ====
section
/-!
SUPPORT. What taking up and answering a command does, said once: a reply that is formed changes nothing outside the answering
parts and is the one that Replied speaks of; a command that is admitted runs its body; one that a check refuses runs nothing.
-/

namespace Sys2Proof.Machine

theorem answerRegs_count (x : Side) : answerRegs (Reg.MGT_CMD_COUNT x) := ⟨x, .inl rfl⟩

theorem answerRegs_status (x : Side) : answerRegs (Reg.MGT_CMD_STATUS x) := ⟨x, .inr (.inl rfl)⟩

theorem answerRegs_bcast (x : Side) : answerRegs (Reg.LCE_BCAST x) := ⟨x, .inr (.inr (.inl rfl))⟩

theorem answerRegs_link (x : Side) : answerRegs (Reg.WLT_LINK x) := ⟨x, .inr (.inr (.inr rfl))⟩

theorem mgt_answering (x : Side) : Part.mgt x ∈ answering := by cases x <;> decide

theorem lnk_answering (x : Side) : Part.lnk x ∈ answering := by cases x <;> decide

theorem tally_answering (x : Side) : Part.tally x ∈ answering := by cases x <;> decide

theorem wlt_answering (x : Side) : Part.wlt x ∈ answering := by cases x <;> decide

/-- What deliver can change. -/
theorem deliver_only (x : Side) (via : Via) (r : Reply) (s : State) : Only answering answerRegs s (deliver x via r s) := by
  cases via with
  | spi =>
    simp only [deliver]; split
    · exact Only.setSpi s _ (by decide)
    · exact Only.bump s _ _ _ _ (answerRegs_status x)
  | port y p =>
    simp only [deliver]; split
    · refine Only.after (Only.modLnk _ y _ (lnk_answering y)) ?_
      exact (Only.modLnk s y _ (lnk_answering y) : Only answering answerRegs s (s.modPort y p.val _))
    · exact Only.bump s _ _ _ _ (answerRegs_status y)
  | inner =>
    have h : ∀ (y : Side) (t : State), Only answering answerRegs t ((t.wf (Reg.LCE_BCAST y) 15 8 r.op).wf (Reg.LCE_BCAST y) 7 0 r.status) :=
      fun y t => (Only.wf t _ _ _ _ (answerRegs_bcast y)).trans (Only.wf _ _ _ _ _ (answerRegs_bcast y))
    simp only [deliver]; split
    · exact (h _ s).trans (h x _)
    · exact h x s

/-- The state with a reply in the replay cache of its transport. -/
def withCached (c : Ctx) (r : Reply) (s : State) : State :=
  match c.via with
  | .spi => { s with spi := { s.spi with cache := cacheDrop s.clock.ticks c.via c.tag s.spi.cache ++
      [⟨c.via, c.tag, c.crc, r, s.clock.ticks⟩] } }
  | .port y _ => s.modMgt y (fun m => { m with cache := cacheDrop s.clock.ticks c.via c.tag m.cache ++
      [⟨c.via, c.tag, c.crc, r, s.clock.ticks⟩] })
  | .inner => s

/-- The state with a command that was executed counted (R469). -/
def tallied (x : Side) (r : Reply) (s : State) : State :=
  if executedStatus r.status then (s.count (Reg.MGT_CMD_COUNT x) 31 0 1).tally x .commands 1 else s

/-- The state with a command counted and its reply, where it goes out, delivered. -/
def counted (x : Side) (c : Ctx) (r : Reply) (s : State) : State :=
  if c.bcast && r.status < 0x10 && r.op ≠ 0x71 then tallied x r s else deliver x c.via r (tallied x r s)

/-- What counting a command can change. -/
theorem tallied_only (x : Side) (r : Reply) (s : State) : Only answering answerRegs s (tallied x r s) := by
  unfold tallied; split
  · exact (Only.count s _ _ _ _ (answerRegs_count x)).trans (Only.tally _ x _ _ (tally_answering x))
  · exact Only.refl _ _ s

theorem tallied_cache (x : Side) (r : Reply) (s : State) :
    (tallied x r s).spi.cache = s.spi.cache ∧ ∀ y, ((tallied x r s).side y).mgt = (s.side y).mgt := by
  unfold tallied; split <;> simp

theorem formReply_eq (x : Side) (c : Ctx) (r : Reply) (s : State) : formReply x c r s = counted x c r (withCached c r s) := rfl

/-- What formReply can change. -/
theorem formReply_only (x : Side) (c : Ctx) (r : Reply) (s : State) : Only answering answerRegs s (formReply x c r s) := by
  rw [formReply_eq]
  have h : ∀ u : State, Only answering answerRegs u (counted x c r u) := by
    intro u
    have k := tallied_only x r u
    unfold counted; split
    · exact k
    · exact k.trans (deliver_only x c.via r _)
  refine Only.trans ?_ (h _)
  unfold withCached; split
  · exact Only.setSpi s _ (by decide)
  · exact Only.modMgt s _ _ (mgt_answering _)
  · exact Only.refl _ _ s

/-- What dequeue can change. -/
theorem dequeue_only (x : Side) (c : Ctx) (s : State) : Only answering answerRegs s (dequeue x c s) :=
  Only.modMgt s x _ (mgt_answering x)

/-- What endForward can change. -/
theorem endForward_only (x : Side) (s : State) : Only answering answerRegs s (endForward x s) := by
  unfold endForward
  exact Only.modSide s x _ (by simp [mgt_answering x, wlt_answering x])

theorem taken_only (x : Side) (c : Ctx) (s : State) : Only answering answerRegs s (taken x c s) :=
  (dequeue_only x c s).trans (endForward_only x _)

/-- With no ARRAY_BARRIER open there is none to answer (R428). -/
theorem barrierCheck_none (s : State) (h : s.lace.barriers = []) : barrierCheck s = s := by
  unfold barrierCheck; rw [h]; rfl

/-- What answers a command leaves the lace's base-tier part alone. -/
theorem formReply_lace (x : Side) (c : Ctx) (r : Reply) (s : State) : (formReply x c r s).lace = s.lace :=
  (formReply_only x c r s).1 .lace (by decide)

/-- A reply that no open ARRAY_BARRIER waits for ends the command. -/
theorem barrierCheck_formReply (x : Side) (c : Ctx) (r : Reply) (s : State) (h : s.lace.barriers = []) :
    barrierCheck (formReply x c r s) = formReply x c r s := barrierCheck_none _ (by rw [formReply_lace, h])

/-- What a command that crosses Welt leaves at the peer (R381). -/
theorem crossed_only (x : Side) (n : Need) (s : State) : Only answering answerRegs s (crossed x n s) := by
  unfold crossed; split
  · unfold heard
    exact (Only.high s _ _ _ _ (answerRegs_link _)).trans (Only.modWlt _ _ _ (wlt_answering _))
  · exact Only.refl _ _ _

theorem crossed_lace (x : Side) (n : Need) (s : State) : (crossed x n s).lace = s.lace := (crossed_only x n s).1 .lace (by decide)

/-- Pointers that agree change nothing. -/
theorem pointers_agree (x : Side) (c : Ctx) (s : State) (h : c.ptr = .agree) : pointers x c s = s := by simp [pointers, h]

/-- An admitted command runs its body and answers what the body says. -/
theorem runCommand_done {dt : Nat} {c : Ctx} {n : Need} {par : Side → State → Option Status} {body : Side → State → Res}
    {s s2 : State} {st : Status} {r1 : Word} {ws : List Word72}
    (h : Admitted c n (par (receiver (s.elapse dt) c) (s.elapse dt)) (s.elapse dt))
    (hb : body (receiver (s.elapse dt) c) (taken (receiver (s.elapse dt) c) c (s.elapse dt)) = .done s2 st r1 ws)
    (hn : s2.lace.barriers = []) :
    runCommand dt c n par body s =
      (formReply (receiver (s.elapse dt) c) c (replyTo s2 (receiver (s.elapse dt) c) c n.op st r1 ws)
          (crossed (receiver (s.elapse dt) c) n s2),
        decide (st.code < 0x10) || (n.op = 0x05 && r1 ≠ 0)) := by
  obtain ⟨⟨h1, ht, -, hp⟩, h2, h3⟩ := h
  have hf : (mustForward (s.elapse dt) (receiver (s.elapse dt) c) n && !weltCarries (s.elapse dt)) = false := by
    cases hm : mustForward (s.elapse dt) (receiver (s.elapse dt) c) n
    · rfl
    · simp [h3 hm]
  unfold taken at hb
  simp [runCommand, h1, ht, hp, pointers_agree, h2, hf, hb, barrierCheck_formReply, crossed_lace, hn]

/-- An admitted command whose reply is still to come runs its body. -/
theorem runCommand_later {dt : Nat} {c : Ctx} {n : Need} {par : Side → State → Option Status} {body : Side → State → Res}
    {s s2 : State}
    (h : Admitted c n (par (receiver (s.elapse dt) c) (s.elapse dt)) (s.elapse dt))
    (hb : body (receiver (s.elapse dt) c) (taken (receiver (s.elapse dt) c) c (s.elapse dt)) = .later s2) :
    runCommand dt c n par body s = (crossed (receiver (s.elapse dt) c) n s2, true) := by
  obtain ⟨⟨h1, ht, -, hp⟩, h2, h3⟩ := h
  have hf : (mustForward (s.elapse dt) (receiver (s.elapse dt) c) n && !weltCarries (s.elapse dt)) = false := by
    cases hm : mustForward (s.elapse dt) (receiver (s.elapse dt) c) n
    · rfl
    · simp [h3 hm]
  unfold taken at hb
  simp [runCommand, h1, ht, hp, pointers_agree, h2, hf, hb]

/-- A command that a check of R444 turns away is answered, and runs nothing. -/
theorem runCommand_refused {dt : Nat} {c : Ctx} {n : Need} {par : Side → State → Option Status} {body : Side → State → Res}
    {s : State} {st : Status} (hl : TakesUp c n (s.elapse dt))
    (h : precheck (s.elapse dt) (receiver (s.elapse dt) c) c n (par (receiver (s.elapse dt) c) (s.elapse dt)) = some st) :
    runCommand dt c n par body s =
      (formReply (receiver (s.elapse dt) c) c
        (replyTo (dequeue (receiver (s.elapse dt) c) c (s.elapse dt)) (receiver (s.elapse dt) c) c n.op st 0 [])
        (dequeue (receiver (s.elapse dt) c) c (s.elapse dt)), false) := by
  obtain ⟨h1, ht, hb, hp⟩ := hl
  have k : (dequeue (receiver (s.elapse dt) c) c (s.elapse dt)).lace.barriers = [] := by
    rw [(dequeue_only _ c _).1 .lace (by decide : Part.lace ∉ answering)]; exact hb
  simp [runCommand, h1, ht, hp, pointers_agree, h, barrierCheck_formReply, k]

/-- The replay caches stand through delivery. -/
theorem deliver_cache (x : Side) (via : Via) (r : Reply) (s : State) :
    (deliver x via r s).spi.cache = s.spi.cache ∧ ∀ y, ((deliver x via r s).side y).mgt = (s.side y).mgt := by
  cases via with
  | spi => simp only [deliver]; split <;> (constructor <;> first | rfl | (intro y; cases y <;> rfl))
  | port z p =>
    simp only [deliver]; split
    · constructor
      · simp [State.tookSeq, State.queueFrame, State.modPort]
      · intro y; simp [State.tookSeq, State.queueFrame, State.modPort]
    · constructor <;> first | rfl | (intro y; cases y <;> rfl)
  | inner => simp only [deliver]; split <;> simp

theorem counted_cache (x : Side) (c : Ctx) (r : Reply) (s : State) :
    (counted x c r s).spi.cache = s.spi.cache ∧ ∀ y, ((counted x c r s).side y).mgt = (s.side y).mgt := by
  have k := tallied_cache x r s
  unfold counted; split
  · exact k
  · have d := deliver_cache x c.via r (tallied x r s)
    exact ⟨d.1.trans k.1, fun y => (d.2 y).trans (k.2 y)⟩

/-- What LCE_BCAST of the answering side shows after an inner packet's reply (R427). -/
theorem deliver_inner (x : Side) (r : Reply) (s : State) :
    (deliver x .inner r s).rf (Reg.LCE_BCAST x) 15 8 = r.op % 256 ∧ (deliver x .inner r s).rf (Reg.LCE_BCAST x) 7 0 = r.status % 256 := by
  have h : ∀ t : State, ((t.wf (Reg.LCE_BCAST x) 15 8 r.op).wf (Reg.LCE_BCAST x) 7 0 r.status).rf (Reg.LCE_BCAST x) 15 8 = r.op % 256 ∧
      ((t.wf (Reg.LCE_BCAST x) 15 8 r.op).wf (Reg.LCE_BCAST x) 7 0 r.status).rf (Reg.LCE_BCAST x) 7 0 = r.status % 256 := by
    intro t
    rw [State.rf_wf_ne _ _ (by decide) (by decide) (by decide), State.rf_wf_self _ _ (by decide) (by decide),
      State.rf_wf_self _ _ (by decide) (by decide)]
    norm_num
  simp only [deliver]; split <;> exact h _

/-- The reply formed is the one that Replied speaks of. -/
theorem formReply_replied (x : Side) (c : Ctx) (op : Nat) (st : Status) (r1 : Word) (ws : List Word72) (m : Nat)
    (s : State) : Replied x c op st r1 ws (formReply x c ⟨op, c.tag, m, st.code, r1, ws⟩ s) := by
  rw [formReply_eq]
  obtain ⟨k1, k2⟩ := counted_cache x c ⟨op, c.tag, m, st.code, r1, ws⟩ (withCached c ⟨op, c.tag, m, st.code, r1, ws⟩ s)
  unfold Replied
  cases hv : c.via with
  | spi =>
    refine ⟨⟨c.via, c.tag, c.crc, ⟨op, c.tag, m, st.code, r1, ws⟩, s.clock.ticks⟩, ?_, hv, rfl, rfl, rfl, rfl, rfl, rfl, rfl⟩
    rw [k1]; simp [withCached, hv]
  | port y p =>
    refine ⟨⟨c.via, c.tag, c.crc, ⟨op, c.tag, m, st.code, r1, ws⟩, s.clock.ticks⟩, ?_, hv, rfl, rfl, rfl, rfl, rfl, rfl, rfl⟩
    rw [k2]; simp [withCached, hv]
  | inner =>
    simp only
    by_cases hb : c.bcast = true ∧ st.code < 0x10 ∧ op ≠ 0x71
    · exact .inl hb
    · right
      have hn : (c.bcast && decide (st.code < 0x10) && decide (op ≠ 0x71)) = false := by
        simp only [not_and_or] at hb; simp; rcases hb with h | h | h <;> simp_all
      have hst : st.code < 256 := by cases st <;> decide
      unfold counted
      rw [if_neg (by rw [hn]; exact Bool.false_ne_true)]
      rw [hv]
      obtain ⟨h1, h2⟩ := deliver_inner x ⟨op, c.tag, m, st.code, r1, ws⟩
        (tallied x ⟨op, c.tag, m, st.code, r1, ws⟩ (withCached c ⟨op, c.tag, m, st.code, r1, ws⟩ s))
      exact ⟨h1, h2.trans (Nat.mod_eq_of_lt hst)⟩

/-- An admitted command that its body completes: its reply is formed, and beside answering it nothing more changes than what
the body changed. -/
theorem command_next {dt : Nat} {c : Ctx} {n : Need} {par : Side → State → Option Status} {body : Side → State → Res}
    {s s2 : State} {st : Status} {r1 : Word} {ws : List Word72} {P : State → Prop}
    (h : Admitted c n (par (receiver (s.elapse dt) c) (s.elapse dt)) (s.elapse dt))
    (hb : body (receiver (s.elapse dt) c) (taken (receiver (s.elapse dt) c) c (s.elapse dt)) = .done s2 st r1 ws)
    (hn : s2.lace.barriers = []) (hp : ∀ t, Only answering answerRegs s2 t → P t) :
    Next (fun t => P t ∧ Replied (receiver (s.elapse dt) c) c n.op st r1 ws t) (.next (command dt c n par body s)) := by
  refine ⟨_, rfl, ?_⟩
  unfold command; rw [runCommand_done h hb hn]
  exact ⟨hp _ ((crossed_only _ n s2).trans (formReply_only _ c _ _)), formReply_replied _ c _ st r1 ws _ _⟩

end Sys2Proof.Machine
end

