-- ==== Sys2Proof/Laws/Wire.lean ====
section
/-!
SUPPORT. What stands on the lanes reads back: the far end's descrambler gives the bits the scrambler took, the order of a block's bits
loses none of them, and striping keeps every block.
-/

namespace Sys2Proof.Machine

/-- A descrambler in the scrambler's state gives back what went in, and stays in the scrambler's state (R350). -/
theorem descramble_scramble (l : List Bool) : ∀ st, descramble (scramble l st).1 st = (l, (scramble l st).2) := by
  induction l with
  | nil => intro st; rfl
  | cons b r ih =>
    intro st; simp [scramble, descramble, ih]
    generalize st[38] = u; generalize st[57] = v
    cases b <;> cases u <;> cases v <;> rfl

theorem scramble_length (l : List Bool) : ∀ st, (scramble l st).1.length = l.length := by
  induction l with
  | nil => intro st; rfl
  | cons b r ih => intro st; simp [scramble, ih]

/-- Bit 8 × (7 − j) + i of a block stands at place 8 × j + i (R350). -/
theorem payload_getElem (b : WireBlock) (i : Nat) (h : i < b.payload.length) :
    b.payload[i] = b.bits.getLsbD (56 - i / 8 * 8 + i % 8) := by simp [WireBlock.payload]

/-- The lanes together hold every block of the run once. -/
theorem stripe_length (n : Nat) (hn : 0 < n) (bs : List WireBlock) : ∀ k,
    ((List.range n).map (fun i => (stripe n i k bs).length)).sum = bs.length := by
  induction bs with
  | nil => intro k; simp [stripe]
  | cons b r ih =>
    intro k
    have h : ∀ i, (stripe n i k (b :: r)).length = (stripe n i (k + 1) r).length + if i = k % n then 1 else 0 := by
      intro i; by_cases hi : k % n = i
      · simp [stripe, hi]
      · simp [stripe, hi, Ne.symm hi]
    have hs : ∀ m j, ((List.range m).map (fun i => if i = j then 1 else 0)).sum = if j < m then 1 else 0 := by
      intro m; induction m with
      | zero => simp
      | succ m ihm => intro j; rw [List.range_succ]; simp [ihm]; split <;> split <;> (try split) <;> omega
    simp only [h, List.sum_map_add, ih, hs, Nat.mod_lt _ hn, if_true, List.length_cons]

end Sys2Proof.Machine
end

