-- ==== Sys2Proof/WellFormed.lean ====
section
/-!
DEFINITION. Which commands are well formed: the operands that a list can carry and the hardware cannot, such as a data
block of another length than its count.
-/

namespace Sys2Proof

/-- A frame's words are whole word groups, 1 to 64 of them (R362, R370). -/
def RxFrame.wf (f : RxFrame) : Bool :=
  decide (f.words.length % 8 = 0) && decide (8 ≤ f.words.length) && decide (f.words.length ≤ 512)

/-- A conversion's code has 24 bits in two's complement (R498). -/
def code24 (code : Int) : Bool := decide (-8388608 ≤ code) && decide (code ≤ 8388607)

/-- No number stands twice in a list. -/
def once (l : List Nat) : Bool := decide l.Nodup

/-- Whether a command is well formed. -/
def Instr.wf : Instr → Bool
  | .nop .. => true
  | .getStatus .. => true
  | .readReg .. => true
  | .writeReg .. => true
  | .readBlock _ _ _ count bad => decide (1 ≤ count.toNat) && decide (count.toNat ≤ 60) && once (bad.map (fun q => q.val))
  | .writeBlock _ _ _ count data => decide (data.length = count.toNat) && decide (1 ≤ count.toNat) && decide (count.toNat ≤ 60)
  | .modifyReg .. => true
  | .cmdFrameReceived _ _ _ f _ => f.wf
  | .spiWrite _ bytes _ => decide (1 ≤ bytes.length)
  | .spiRead .. => true
  | .peerTimeout .. => true
  | .runArm .. => true
  | .runStart .. => true
  | .runStartEffect .. => true
  | .runStop .. => true
  | .runStopEffect .. => true
  | .runStoppingComplete .. => true
  | .flush .. => true
  | .flushCut .. => true
  | .triggerSw .. => true
  | .trigCommit .. => true
  | .configApply _ _ _ _ bad => once (bad.map (fun q => q.val))
  | .configStagingDone .. => true
  | .configCommit .. => true
  | .lastLoad .. => true
  | .lastStore _ _ _ _ _ bad => once (bad.map (fun q => q.val))
  | .modeSet .. => true
  | .faCal .. => true
  | .faCalPhaseStart .. => true
  | .faCalAttemptEnd _ meas => once (meas.map (fun m => m.gs.val))
  | .tdcCal .. => true
  | .tdcInitAttemptStart .. => true
  | .tdcInitPassEnd .. => true
  | .initFillTimeout .. => true
  | .hkCal .. => true
  | .hkCalDone _ factors => decide (factors.length = 7)
  | .threshScan .. => true
  | .threshScanDone _ bad => once (bad.map (fun q => q.val))
  | .retire .. => true
  | .retireListRead .. => true
  | .retireListRemove .. => true
  | .resumeDrain .. => true
  | .decompressJob .. => true
  | .jobResume .. => true
  | .getMeasurement .. => true
  | .attest .. => true
  | .getIdentity .. => true
  | .patchLoad .. => true
  | .eventSubscribe .. => true
  | .eventAck .. => true
  | .firstFailureClear .. => true
  | .arrayBroadcast _ _ inner => decide (2 ≤ inner.length) && decide (inner.length ≤ 31)
  | .arrayBarrier .. => true
  | .arraySnapshot .. => true
  | .snapshotAtT .. => true
  | .arrayReset .. => true
  | .arrayResetAtT .. => true
  | .timeSet .. => true
  | .sideReset .. => true
  | .moduleReset .. => true
  | .awlFire .. => true
  | .awlAbort .. => true
  | .awlPulse .. => true
  | .readyFlush .. => true
  | .delayFlush .. => true
  | .retrain .. => true
  | .portCtrlWrite .. => true
  | .wltResync .. => true
  | .srcClear .. => true
  | .qflushStore .. => true
  | .qflushLace .. => true
  | .qflushEgress .. => true
  | .qflushStaging .. => true
  | .qflushWelt .. => true
  | .qflushCmd .. => true
  | .qflushEvents .. => true
  | .logClear .. => true
  | .injStart .. => true
  | .standbyEntry .. => true
  | .standbyExit .. => true
  | .mpSwitch .. => true
  | .keeperRelease .. => true
  | .ignoreWindowEnd .. => true
  | .tdcCalPauseWrite .. => true
  | .tdcTableWrite .. => true
  | .pixScrubPass _ flips bad => once (flips.map (fun q => q.p.val)) && once (bad.map (fun q => q.val))
  | .driftMeasure .. => true
  | .pixelLeadingEdge .. => true
  | .pixelTrailingEdge .. => true
  | .vernierConversionEnd .. => true
  | .clusterWindowEnd .. => true
  | .digitizerReady .. => true
  | .clusterAssembled .. => true
  | .calEdgeDelivered .. => true
  | .calConversionEnd .. => true
  | .fillAbandoned .. => true
  | .rotationGapEnd .. => true
  | .calTableTakesEffect .. => true
  | .etdEdge .. => true
  | .etdStampArrives .. => true
  | .etdCalFill _ _ edges => once (edges.map (fun e => e.tick))
  | .frameTrigger .. => true
  | .frameConversionEnd _ _ samples bad => once (samples.map (fun q => q.lp.val)) && once (bad.map (fun q => q.val))
  | .tileLinkWord .. => true
  | .tilePllRelockTimeout .. => true
  | .unitClose .. => true
  | .epochWrite .. => true
  | .occupancySummary .. => true
  | .occSummaryArrives .. => true
  | .tileClockGate .. => true
  | .squallWindowEval .. => true
  | .squallDeclaration .. => true
  | .squallEnd .. => true
  | .tilePllLockLost .. => true
  | .tilePllRelock .. => true
  | .sequencerStep .. => true
  | .sequencerEntry .. => true
  | .timerExpiry .. => true
  | .mpPulseEnd .. => true
  | .unitDecided .. => true
  | .unitArrival .. => true
  | .dispatchCycle .. => true
  | .delayItemDue .. => true
  | .sliceSort .. => true
  | .cluster .. => true
  | .recordBuild .. => true
  | .laceMerge .. => true
  | .verify .. => true
  | .telemetry .. => true
  | .calReduce .. => true
  | .engineTrap .. => true
  | .compressorTakesBlock .. => true
  | .blockCompressed .. => true
  | .activateTableClear .. => true
  | .drainRead .. => true
  | .refreshDue .. => true
  | .refreshEnd .. => true
  | .ingestQuiet .. => true
  | .imbalanceInterval .. => true
  | .patrolScrubAccess _ _ raw _ => decide (raw.length = 8)
  | .blockAssign .. => true
  | .dataFrameSent .. => true
  | .eventFrameSend .. => true
  | .laneSignalLost .. => true
  | .laneLockLost .. => true
  | .blockLockGained .. => true
  | .blockLockLost .. => true
  | .alignSlot .. => true
  | .alignReceived .. => true
  | .trainingLaneTimeout .. => true
  | .pause _ _ _ f => f.wf
  | .pauseExpiry .. => true
  | .laceFrameReceived _ _ _ f => f.wf
  | .creditReceived .. => true
  | .creditSend .. => true
  | .creditStall .. => true
  | .weltHeartbeat .. => true
  | .weltRetransmit .. => true
  | .weltSilence .. => true
  | .signatureReceived .. => true
  | .signatureOrphan .. => true
  | .recomputeDone .. => true
  | .sideBootDone .. => true
  | .resyncTransferEnd .. => true
  | .resyncPoint .. => true
  | .twinTakeover .. => true
  | .laceExchangeStart .. => true
  | .probeReceived .. => true
  | .echoReceived .. => true
  | .followReceived .. => true
  | .rttReceived _ _ _ far => match far with | some (_, path) => decide (path < 2 ^ 24) | none => true
  | .exchangeTimeout .. => true
  | .reachReceived .. => true
  | .rosterReceived .. => true
  | .busBlockReceived .. => true
  | .busAssertionDelivered .. => true
  | .refinLost .. => true
  | .refinLock .. => true
  | .ppsEdge .. => true
  | .telemetryCapture .. => true
  | .mpPinEdge .. => true
  | .hkInjectPinEdge .. => true
  | .hkConversionDone _ code _ => code24 code
  | .hkInjectedConversionDone _ code _ => code24 code
  | .overcurrentTrip .. => true
  | .overcurrentRearm .. => true
  | .loopUpdate .. => true
  | .loopOpenDetect .. => true
  | .doseSecond _ charges => decide (charges.length = 64)
  | .doseSave .. => true
  | .retirementListUpdate .. => true
  | .baseSramScrub .. => true
  | .sideSramScrub .. => true
  | .mgtFetchFail .. => true
  | .vinValid .. => true
  | .vinLost .. => true
  | .vaonValid .. => true
  | .vaonLost .. => true
  | .resetN .. => true
  | .sideResetPin .. => true
  | .startupStep .. => true
  | .wakeStep .. => true
  | .basePllLockLost .. => true
  | .basePllRelock .. => true
  | .resetNRelease .. => true
  | .sideResetPinRelease .. => true
  | .laneSignalReturn .. => true
  | .loopOpenClear .. => true
  | .laceBatchEnd .. => true
  | .frameNotAccepted _ _ _ f => f.wf
  | .invalidControlBlock .. => true

end Sys2Proof
end

