-- ==== Sys2Proof/Tests/Slice0.lean ====
section
/-!
SUPPORT. Tests of the model's own: a witness for the hypotheses of every statement, an ill-formed command for every check of
WellFormed, the worked examples of the spec, and single steps.
-/

open Sys2Proof Sys2Proof.Machine

namespace Sys2Proof.Tests

set_option Elab.async false

/-! ### States and contexts for the witnesses -/

/-- A packet of the service SPI for the module with MODULE_ID 0. -/
def spi : Ctx := ⟨.spi, 1, 0, false, false, 0, 0, .agree⟩

/-- A packet of port 0 of side A, privileged, for the module with MODULE_ID 0. -/
def port0 : Ctx := ⟨.port .a 0, 1, 0, false, false, 0, 0, .agree⟩

/-- A module in ACTIVE whose start-up is complete, both sides in service, the Welt link up, port 0 of side A privileged. -/
def on : State :=
  { State.reset.wr (Reg.MGT_PRIV_PORTS .a) 1 with
    clock := ⟨0x100000000#64, 0, 0, 0, 0, 1000000000000, 0, 0, 0, none, 1000000000000, ⟨1000000000000, 1000000000000⟩, 0, 0⟩
    power := { State.reset.power with
      mode := .active
      vaon := true
      feed := ⟨true, true⟩
      step := 8
      ready := true
      booted := true
      baseLock := true }
    arb := { State.reset.arb with svc := ⟨.inService, .inService⟩ }
    sideA := { State.reset.sideA with wlt := { State.reset.sideA.wlt with rxOk := true } }
    sideB := { State.reset.sideB with wlt := { State.reset.sideB.wlt with rxOk := true } } }

/-- A module whose side B is out of service. -/
def simplex : State := on.modArb (fun b => { b with svc := ⟨.inService, .out⟩ })

/-- A module in a run state. -/
def inRun (r : RunState) : State := on.modTrg (fun g => { g with run := r })

/-- What a state and a command need for every check of R444 that does not rest on the command's own parameters. -/
def fit (c : Ctx) (s : State) : Bool :=
  decide (c.target = 0) && !c.bcast && decide (c.sel ≠ 3) && decide (s.moduleId (receiver s c) = 0) && s.serving .a && s.serving .b
  && decide (s.power.mode ≠ .standby) && s.power.ready && weltCarries s && privileged s c.via && !ownDup s (receiver s c)
  && decide ((s.side (receiver s c)).mgt.queue = []) && decide (s.executing (receiver s c) = []) && decide (s.lace.barriers = []) && decide (c.ptr = .agree)

/-- A command that fits is admitted. -/
theorem adm {c : Ctx} {s : State} {par : Option Status} (h : fit c s = true) (n : Need) (hp : par = none)
    (hc : (c.sched && !n.sched) = false) : Admitted c n par s := by
  simp only [fit, Bool.and_eq_true, decide_eq_true_eq, Bool.not_eq_true'] at h
  obtain ⟨⟨⟨⟨⟨⟨⟨⟨⟨⟨⟨⟨⟨⟨ht, hb⟩, hsel⟩, hm⟩, ha⟩, hB⟩, hs⟩, hr⟩, hw⟩, hv⟩, hd⟩, hq0⟩, he⟩, hba⟩, hptr⟩ := h
  have hserv : ∀ x, s.serving x = true := fun x => by cases x <;> assumption
  have hl : ∀ x, s.live x = true := fun x => by
    have := hserv x
    simp only [State.serving, State.live, Bool.and_eq_true, decide_eq_true_eq] at *
    simp [this.1, this.2]
  subst hp
  refine ⟨⟨hl _, by simp [inTurn, hq0, he], hba, hptr⟩, ?_, fun _ => hw⟩
  have hq : ¬ c.sel = 3#2 := hsel
  simp [precheck, targetOk, hm, hserv, hs, hr, hv, ht, hb, hq, hc, hd]

/-- A frame that passes the checks of R368. -/
def goodFrame (type stream : Nat) (ws : List Word72) : RxFrame :=
  let sof := 2 ^ 63 + type * 2 ^ 59 + stream * 2 ^ 56 + (ws.length / 8 - 1) * 2 ^ 48
  ⟨BitVec.ofNat 64 sof, ws, BitVec.ofNat 64 (0xE1 * 2 ^ 56 + swap32 (crc32 (wordsBytes ws)) * 2 ^ 24 + crc8 (bytesBE 8 sof) * 2 ^ 16), true⟩

/-- Port 0 of side A UP at a width code, in a role. -/
def portUp (role : Word) (s : State) : State :=
  (s.wr (Reg.LNK_PORT_CTRL .a 0) role).modPort .a 0 (fun q => { q with state := .up, used := 0xFF, width := 3, role := role.toNat })

/-- A NOP as a packet. -/
def nopPacket : List Word72 := packetOf 0x00 spi false 0 []

/-- A NOP as the bytes of an SPI WRITE, its kind byte left out. -/
def nopBytes : List Byte := (wordsBytes nopPacket).map (BitVec.ofNat 8)

/-- A frame that waits or is sent. -/
def anyFrame : Frame := ⟨0, 0, 0, [], 0, 0, true, 0, 0⟩

/-- A command that waits. -/
def waits (op : Nat) : Waiting := ⟨.a, op, spi, 0⟩

/-- A state whose VIN measurements lie inside their limits. -/
def vinGood (s : State) : State := (s.wr (Reg.HK_RESULT 36) 6000000).wr (Reg.HK_RESULT 37) 6000000

/-- Two faults of the last 600 s: the next is the third. -/
def twice : Faults := ⟨some 1, some 2⟩

/-- Any block. -/
def anyBlock : Block := ⟨⟨0, 0xFFFFFFFF, 0, 0⟩, false, false, false, 1, [0], [], 0, none, none, false⟩

/-- Any signature. -/
def anySig : Sig := ⟨⟨0, 0xFFFFFFFF, 0, 0⟩, 1, 2, 3⟩

/-- A cluster of pixel 0 of its tile that began at tick 0 and closed at tick 4. -/
def oldCluster : Cluster := ⟨0, 0, 0, [], none, 0, 0, [⟨0, 0, 1, false, 0, some 1, 0⟩], 4, some 4⟩

/-- Digitizer 0 changed. -/
def digi0 (f : Digi → Digi) (s : State) : State := s.modDigi 0 f

/-- Tile 0 in a run since tick 0, its slice n open. -/
def runTile (n : Nat) (s : State) : State :=
  s.modTile 0 (fun k => { k with state := .running, startAt := 0, slice := some n })

/-- A run with eight enabled tiles. -/
def eightOn : State := (List.range 8).foldl (fun t i => t.wr (Reg.TIL_CTRL i) 1) (inRun .running)

/-- Those tiles, in each of which the pixels of a list fired in the bin before bin 214 748 364. -/
def crowd (l : List Nat) : State :=
  { eightOn with tiles := (List.range 8).map (fun i => (i, { Tile.idle with bins := [(214748363, l)] })) }

/-! ### Witnesses: states and operands that meet the hypotheses of a statement, clause by clause -/

theorem witness_StepRunsTheFrontCommand : State.reset.pending = [] := rfl

theorem witness_AStepTakesOneCommandFromTheQueue :
    (∃ t, exec (.vaonValid 0) on = .next t) ∧ ∃ t, step { on with pending := [.vaonValid 0] } = .next t := ⟨⟨_, rfl⟩, ⟨_, rfl⟩⟩

theorem witness_RegistersKeepTheirForm :
    State.reset.regsWf = true ∧ ∃ t, step { State.reset with pending := [.vaonValid 0] } = .next t := ⟨by decide, ⟨_, rfl⟩⟩

theorem witness_FactoryLastIsKept :
    State.reset.factoryKept ∧ ∃ t, step { State.reset with pending := [.vaonValid 0] } = .next t := ⟨⟨rfl, rfl⟩, ⟨_, rfl⟩⟩

theorem witness_RegisterWriteFollowsItsFieldTypes : (31 : Nat) < 32 := by decide

theorem witness_RegisterReadClearsRcFields :
    tileOfAddr Reg.HK_CTRL = none ∧ on.setNow Reg.HK_CTRL = none ∧ tileOfAddr (Reg.TIL_CTRL 63) = some 63 ∧
      ((on.bump (Reg.MGT_CMD_STATUS .a) 23 16 1).setNow (Reg.MGT_CMD_STATUS .a)).isSome = true := by decide

theorem witness_PlainCommandsReply : let u := on.elapse 0
    (∀ n, Admitted spi n none u) ∧ (2 : Word).toNat % 256 ≤ 2 ∧ (0 : Word).toNat < chainLen .b ∧
    ∃ w : Word, w.toNat < ((u.modMgt .a (fun m => { m with log := [⟨0, 0, 0, 0⟩] })).side .a).mgt.log.length :=
  ⟨fun n => adm (by decide) n rfl rfl, by decide, by unfold chainLen; simp, 0, by decide⟩

theorem witness_ReadCommandsReplyWithValues : let u := on.elapse 0; let d := forAddr spi (Reg.MGT_QUEUE .a)
    (∀ n, Admitted d n none u) ∧ placeOf (Reg.MGT_QUEUE .a) = some (.reg (Reg.MGT_QUEUE .a)) ∧
    placeOf 0x10000000 = some (.shadow 0) ∧ (1 : BitVec 8).toNat ≤ 60 ∧ (60 : BitVec 8).toNat ≤ 60 ∧
    (∀ i, i < 2 → ∃ q, placeOf (Reg.TIL_CTRL 0 + 4 * i) = some q ∧ (privileged u spi.via || q.open_) = true ∧
      ∀ y, sideOfAddr (Reg.TIL_CTRL 0 + 4 * i) = some y → u.serving y = true) :=
  ⟨fun n => adm (by decide) n rfl rfl, by decide⟩

theorem witness_WriteCommandsWrite : let u := on.elapse 0; let k := taken .a spi u; let a := Reg.HK_SEQ_LEN
    (∀ n, Admitted (forAddr spi a) n (rangeCheck u (some (.reg a)) 5) u) ∧
    (placeOf a = some (.reg a) ∧ k.staging = false ∧ refusalOf k (.reg a) 5 = none ∧ wakes k (.reg a) 5 = false ∧
      deferred spi (.reg a) 5 = false) ∧
    (∀ w : Word, deferred spi (.reg a) w = false) ∧
    refusalOf (readReg true a k).2 (.reg a) (modified (.reg a) 60 0xF 5) = none ∧ ([5, 6] : List Word).length = (2 : BitVec 8).toNat ∧
    (blockPlace k a true = .ok (.reg a) ∧ blockPlace k 0x0000FFFC true = .error .badParam ∧ refusalOf k (.reg (Reg.MP_CTRL 0)) 7 ≠ none) ∧
    placeOf a ≠ none ∧ shadowPixel a = none :=
  ⟨fun n => adm (by decide) n (by decide) rfl, by decide, fun _ => rfl, by decide⟩

/-- A module that stages a CONFIG_APPLY. -/
def staging : State := on.modPix (fun f => { f with apply := some ⟨[], [], [], 0, 0, 0, false, none⟩ })

/-- A WRITE_REG of an ordinary register while a CONFIG_APPLY stages, and a MODIFY_REG of a table word. -/
theorem witness_WriteCommandsWrite_staging :
    (let u := staging.elapse 0; let k := taken .a spi u; let a := Reg.HK_SEQ_LEN
      (∀ n, Admitted (forAddr spi a) n (rangeCheck u (some (.reg a)) 5) u) ∧ k.staging = true ∧ (∀ p, Place.reg a ≠ .shadow p) ∧
        refusalOf k (.reg a) 5 = none) ∧
    (let u := on.elapse 0; let k := taken .a spi u; let q : Place := .table 0 1
      placeOf 0x12000004 = some q ∧ (∀ n, Admitted (forAddr spi 0x12000004) n (rangeCheck u (some q) (modified q (readPlace true false q u).1 1 1)) u) ∧
        refusalOf k q (modified q (readPlace true false q k).1 1 1) = none ∧ (∀ w : Word, deferred spi q w = false)) :=
  ⟨⟨fun n => adm (by decide) n (by decide) rfl, by decide, fun _ h => Place.noConfusion h, by decide⟩,
    ⟨by decide, fun n => adm (by decide) n (by decide +kernel) rfl, by decide +kernel, fun _ => rfl⟩⟩

theorem witness_ShadowWritesLandOrWait :
    let u := (on.modPix (fun f => { f with apply := some ⟨[], [], [], 0, 0, 0, false, none⟩ })).elapse 0
    (∀ n, Admitted spi n none u) ∧ u.staging = true ∧ placeOf 0x10000000 = some (.shadow 0) ∧ (on.elapse 0).staging = false :=
  ⟨fun n => adm (by decide) n rfl rfl, by decide⟩

theorem witness_WritesOfTheOwnPortFollowTheReply : let u := on.elapse 0; let a := Reg.LNK_PORT_CTRL .a 0
    (∀ n, Admitted (forAddr port0 a) n (rangeCheck u (some (.reg a)) 1) u) ∧ port0.via = .port .a 0 ∧ placeOf a = some (.reg a) ∧
    refusalOf (taken .a port0 u) (.reg a) 1 = none ∧ placeOf (Reg.MGT_PRIV_PORTS .a) = some (.reg (Reg.MGT_PRIV_PORTS .a)) :=
  ⟨fun n => adm (by decide) n (by decide) rfl, by decide⟩

/-- MODIFY_REG and WRITE_BLOCK of those registers, and a reply that waits on its port. -/
theorem witness_WritesOfTheOwnPortFollowTheReply_others :
    (let u := on.elapse 0; let a := Reg.LNK_PORT_CTRL .a 0; let k := taken .a port0 u; let r := readPlace true false (.reg a) k
      let v := modified (.reg a) r.1 7 1
      (∀ n, Admitted (forAddr port0 a) n (rangeCheck u (some (.reg a)) (modified (.reg a) (readPlace true false (.reg a) u).1 7 1)) u) ∧
        refusalOf k (.reg a) v = none ∧ refusalOf r.2 (.reg a) v = none) ∧
    (let u := on.elapse 0; let a := Reg.MGT_PRIV_PORTS .a; let k := taken .a port0 u
      (∀ n, Admitted (forAddr port0 a) n none u) ∧ placeOf a ≠ none ∧ shadowPixel a = none ∧
        ([3] : List Word).length = (1 : BitVec 8).toNat ∧ blockPlace k a true = .ok (.reg a) ∧ refusalOf k (.reg a) 3 = none) ∧
    (let f : Frame := { anyFrame with type := 2, words := [BitVec.ofNat 72 (2 ^ 56)] }; let t := on.modPort .a 0 (fun q => { q with waiting := [f] })
      replyOn port0 t = some (.a, 0, f)) :=
  ⟨⟨fun n => adm (by decide) n (by decide) rfl, by decide⟩, ⟨fun n => adm (by decide) n rfl rfl, by decide⟩, by decide⟩

theorem witness_StatusShowsItsFields : ∀ n, Admitted spi n none (on.elapse 0) := fun n => adm (by decide) n rfl rfl

theorem witness_RefusedCommandsChangeNothing : let u := on.elapse 0; let c := { spi with sel := 3 }
    (∀ n, TakesUp c n u) ∧ precheck u .a c .nop none = some .badParam ∧
    precheck u .a c (.writeReg on c Reg.HK_SEQ_LEN 5 false true false) (rangeCheck u (placeOf Reg.HK_SEQ_LEN) 5) = some .badParam ∧
    precheck u .a c (.runStart none) (runParam c none) = some .badParam ∧
    precheck u .a c (.configApply 0 0) none = some .badParam :=
  ⟨fun _ => ⟨by decide, rfl, by decide⟩, by decide⟩

theorem witness_PacketsWaitInOrderOfArrival_spi : let u := on.elapse 0; let ws := bytesWords nopBytes
    u.serving .a = true ∧ ws ≠ [] ∧ hdr (ws.headD 0) 55 48 + 2 ≤ ws.length ∧ u.spi.replies.length < 4 ∧
    (u.side .a).mgt.queue.length < 64 := by decide +kernel

theorem witness_PacketsWaitInOrderOfArrival_intake :
    PassesIntake .a .spi (bytesWords nopBytes) (nopPacket.take 1) ((nopPacket.getD 1 0).setWidth 32) (on.elapse 0) := by
  unfold PassesIntake; decide +kernel

theorem witness_PacketsWaitInOrderOfArrival_full :
    let u := (on.modMgt .a (fun m => { m with queue := List.replicate 64 ⟨.port .a 0, [0], 0, 0⟩ })).elapse 0
    64 ≤ (u.side .a).mgt.queue.length ∧
      stillHeld u .a .spi (BitVec.ofNat 8 (hdr (nopPacket.headD 0) 63 56)) ((nopPacket.getD 1 0).setWidth 32) = false := by decide +kernel

theorem witness_PacketsWaitInOrderOfArrival_frame : let u := (portUp 1 on).elapse 0; let f := goodFrame 1 0 (padGroup nopPacket)
    (u.port .a 0).state = .up ∧ checkFrame f = .ok ∧ roleAccepts (u.role .a 0) (sofType f.sof) = true ∧ sofType f.sof = 1 ∧ u.live .a = true ∧
      ¬(u.role .a 0 = 3 ∧ (u.child .a 0).master = true) := by decide +kernel

theorem witness_PacketsWaitInOrderOfArrival_frameIntake :
    PassesIntake .a (.port .a 0) (padGroup nopPacket) (nopPacket.take 1) ((nopPacket.getD 1 0).setWidth 32)
      ((portUp 1 on).elapse 0) := by
  unfold PassesIntake; decide +kernel

theorem witness_ServiceSpiDiscardsWritesAndShiftsOutReplies : let u := on.elapse 0; let ws := bytesWords nopBytes
    let full := { on with spi := ⟨List.replicate 4 (.a, ⟨0, 0, 0, 0, 0, []⟩), [], []⟩ }
    (0xA5 : Byte) ≠ 0x5A ∧ State.reset.serving .a = false ∧ u.serving .a = true ∧ hdr (ws.headD 0) 55 48 + 2 ≤ ws.length ∧
    4 ≤ (full.elapse 0).spi.replies.length ∧
    (takePacket (ws.set 1 0) = some (ws.take 1, 0) ∧ (0 : Word72).toNat ≠ crc32 (wordsBytes (ws.take 1))) := by decide +kernel

theorem witness_RepeatsAreReplayedAndSilentPeersTimeOut :
    let crc : Word := (nopPacket.getD 1 0).setWidth 32; let e : Cached := ⟨.spi, 1, crc, ⟨0, 1, 0, 0, 0, []⟩, 1000000000000⟩
    let u := { on with spi := ⟨[], [e], []⟩ }.elapse 0; let ws := bytesWords nopBytes
    let v := (on.modMgt .a (fun m => { m with fwd := some (waits 0x12) })).elapse 0
    (u.serving .a = true ∧ ws ≠ [] ∧ hdr (ws.headD 0) 55 48 + 2 ≤ ws.length ∧ u.spi.replies.length < 4 ∧
      takePacket ws = some (nopPacket.take 1, paramWord crc) ∧ crc.toNat = crc32 (wordsBytes (nopPacket.take 1)) ∧
      findCached u.clock.ticks .spi (BitVec.ofNat 8 (hdr (nopPacket.headD 0) 63 56)) crc u.spi.cache = some e) ∧
    (v.side .a).mgt.fwd = some (waits 0x12) ∧ v.serving .b = true ∧ (waits 0x12).since + 300000 ≤ v.clock.ticks := by decide +kernel

theorem witness_RunCommandsTakeEffect :
    (let u := on.elapse 0; (∀ n, Admitted spi n none u) ∧ armRefusal (taken .a spi u) = none) ∧
    (let u := (inRun .armed).elapse 0; (∀ n, Admitted spi n none u) ∧ runParam spi none = none ∧ u.trg.run = .armed ∧
      u.trg.startAt = none ∧ tooSoon u (soonest u 6000) (leadOf u .a spi) = false) ∧
    (let u := (inRun .running).elapse 0; (∀ n, Admitted spi n none u) ∧ u.trg.run = .running ∧ u.trg.stopAt = none ∧
      tooSoon u (soonest u 6000) (leadOf u .a spi) = false ∧ tooSoon u (soonest u 6000) 6000 = false ∧ u.trg.cuts.length < 8 ∧
      (none : Option Time).isSome = spi.sched ∧ u.trg.commitAt = none) :=
  ⟨⟨fun n => adm (by decide) n rfl rfl, by decide +kernel⟩, ⟨fun n => adm (by decide) n rfl rfl, by decide +kernel⟩,
    ⟨fun n => adm (by decide) n rfl rfl, by decide +kernel⟩⟩

theorem witness_ArmingLoadsTheTableAndClearsTheCounters : on.live .b = true ∧ (15 : Nat) < 16 ∧ (7 : Nat) < 8 := by decide

theorem witness_RunCommandsAreRefusedByState :
    (let u := (inRun .running).elapse 0; (∀ n, Admitted spi n none u) ∧ u.trg.run ≠ .idle ∧ u.trg.run ≠ .armed) ∧
    (let u := ((inRun .armed).modTrg (fun g => { g with startAt := some 0 })).elapse 0;
      (∀ n, Admitted spi n none u) ∧ u.trg.run = .armed ∧ u.trg.startAt.isSome = true ∧ u.trg.run ≠ .running) ∧
    (let u := (inRun .stopping).elapse 0; (∀ n, Admitted spi n none u) ∧ u.trg.run = .stopping) ∧
    (let u := ((inRun .running).modTrg (fun g => { g with stopAt := some 0, commitAt := some 0 })).elapse 0;
      (∀ n, Admitted spi n none u) ∧ u.trg.stopAt.isSome = true ∧ u.trg.commitAt.isSome = true) :=
  ⟨⟨fun n => adm (by decide) n rfl rfl, by decide⟩, ⟨fun n => adm (by decide) n rfl rfl, by decide⟩,
    ⟨fun n => adm (by decide) n rfl rfl, by decide⟩, ⟨fun n => adm (by decide) n rfl rfl, by decide⟩⟩

theorem witness_RunMomentsMoveTheRunState :
    (let u := ((inRun .armed).modTrg (fun g => { g with startAt := some 0 })).elapse 0;
      u.trg.run = .armed ∧ u.trg.startAt = some 0 ∧ reached u.now 0 = true) ∧
    (let u := ((inRun .running).modTrg (fun g => { g with stopAt := some 0, cuts := [0] })).elapse 0;
      u.trg.run = .running ∧ u.trg.stopAt = some 0 ∧ reached u.now 0 = true ∧ u.trg.cuts.find? (reached u.now) = some 0) ∧
    (let u := (inRun .stopping).elapse 0;
      let k := u.both (fun x t => if t.serving x then (List.range 64).foldl (fun v i => trailing x i v) t else t)
      u.trg.run = .stopping ∧ (∀ i : Fin 64, (u.tile i).state = .idle) ∧ u.trg.opened = [] ∧ u.trg.closed = [] ∧
      sideDone k .a = true ∧ sideDone k .b = true) := by decide +kernel

theorem witness_TheSequencerRunsOnWhatReachesIt :
    (let u := ((inRun .running).modTrg (fun g => { g with entry := [0, 0, 0, 0, 0, 0, 0, 0], lastStep := some 0 })).elapse 0;
      let m := u.now - BitVec.ofNat 64 (u.now.toNat % 8)
      u.trg.run = .running ∧ reached m u.runStart = true ∧ beforeStop u m = true ∧ u.trg.lastStep = some 0 ∧ (0 : Time) ≠ m ∧
      reached m 0 = true ∧ u.trg.due = none) ∧
    (let u := ((inRun .running).modTrg (fun g => { g with due := some (0, 3, 0, 0), timers := [(2, some 0)] })).elapse 0;
      u.trg.due = some (0, 3, 0, 0) ∧ reached u.now 0 = true ∧ beforeStop u 0 = true ∧ Sparse.get u.trg.timers 2 none = some 0) ∧
    (let q : Stamp := ⟨0, 0, 0, true, 5⟩; let a : Assertion := ⟨1, 0, 0, false⟩
      let u := (((inRun .running).modTrg (fun g => { g with coming := [(0, [])] })).modTdc (fun k => { k with stamps := [q] })).modLace
        (fun l => { l with bus := [a] }) |>.elapse 0
      u.trg.coming = [(0, [])] ∧ reached u.now (0 + 8) = true ∧ u.tdc.stamps.find? (fun k => k.i = 0) = some q ∧
      q.arrive ≤ u.clock.ticks ∧ u.lace.bus.find? (fun a => !a.given && reached u.now a.due) = some a) := by decide +kernel

theorem witness_ConfigurationIsAppliedAtItsBoundary :
    (let u := on.elapse 0; (∀ n, Admitted spi n none u) ∧ u.pix.apply = none ∧ u.pix.scan = none ∧ polarityChange u = false) ∧
    (let a : Apply := ⟨[63], [], [], 0, 0, 0, false, some (waits 0x20)⟩
      let u := (on.modPix (fun f => { f with apply := some a })).elapse 0; let k := stagingDone u
      u.pix.apply = some a ∧ a.staged = false ∧ (∃ b, k.pix.apply = some b ∧ reached k.now b.commitAt = true ∧ k.lace.barriers = [] ∧
        (∀ i ∈ b.tiles, i < 64) ∧ b.wait = some (waits 0x20)) ∧ (waits 0x20).op ≠ 0x21) ∧
    (let a : Apply := ⟨[0], [], [], 0, 0, 0, true, some (waits 0x21)⟩
      let k := stagingDone ((on.modPix (fun f => { f with apply := some a })).elapse 0)
      k.pix.apply = some a ∧ reached k.now a.commitAt = true ∧ a.wait = some (waits 0x21)) ∧
    (let a : Apply := ⟨[0], [], [], 0, 0, 0, false, some (waits 0x20)⟩; let h : Held := ⟨waits 0x06, [(0x10000004, 0x3FF, 1)], 0, true, false, false⟩
      let u := (on.modPix (fun f => { f with apply := some a, held := [h] })).elapse 0
      u.pix.apply = some a ∧ u.pix.held = [h] ∧ shadowPixel 0x10000004 = some 1 ∧ u.lace.barriers = [] ∧
        (let h2 : Held := ⟨waits 0x03, [(0x10000004, 0xFFFFFFFF, 1)], 0, false, false, false⟩
          let v := (on.modPix (fun f => { f with apply := some a, held := [h2] })).elapse 0
          v.pix.apply = some a ∧ v.pix.held = [h2])) :=
  ⟨⟨fun n => adm (by decide) n rfl rfl, by decide +kernel⟩, ⟨rfl, rfl, ⟨_, rfl, by decide +kernel⟩, by decide⟩, by decide +kernel, by decide +kernel⟩

theorem witness_MatrixOperationsTakeEffect :
    (let u := on.elapse 0; (∀ n, Admitted spi n none u) ∧ scanRange 0x00101000 0x10001 = true ∧ u.trg.run = .idle ∧ u.pix.apply = none ∧
      u.pix.scan = none ∧ calBusy u = false) ∧
    (let m : Train := ⟨2, 0, 3000⟩; let k : Scan := ⟨[63], 0, 4, 1, 1, 64, false, 0, []⟩
      let u := (on.modPix (fun f => { f with train := some m, scan := some k })).elapse 0
      u.pix.train = some m ∧ reached u.now m.next = true ∧ u.pix.scan = some k ∧ (∀ i ∈ k.tiles, i < 64) ∧
      k.since + 16 * k.points.length * k.pulses * 3000 ≤ u.clock.ticks) ∧
    (let k : Scan := ⟨[63], 0, 4, 1, 2, 64, true, 0, [(1032192, [2, 2, 1, 0, 0])]⟩;
      (∀ v ∈ k.points, v < 1024) ∧ d50Of k [2, 2, 1, 0, 0] = some 2 ∧ rms8 [2] < 1024) ∧
    (let u := { on with clock := { on.clock with scrub := scrubPeriod on } }.elapse 0;
      u.power.mode = .active ∧ u.rb Reg.PIX_SCRUB_CTRL 0 = false ∧ scrubPeriod u ≤ u.clock.scrub ∧
      u.pix.apply = none ∧ u.pix.latches = u.pix.applied ∧ (0 : BitVec 10) ≠ imageWord u.pix.applied 5) ∧
    (let u := { on.wr Reg.PIX_DRIFT_CTRL 1 with clock := { on.clock with drift := some (3, 150000000) } }.elapse 0; driftDone u 3 = true) :=
  ⟨⟨fun n => adm (by decide) n rfl rfl, by decide +kernel⟩, by decide +kernel, by decide +kernel, by decide +kernel, by decide +kernel⟩

theorem witness_StrobesTriggerTheirActions : let u := on.elapse 0
    (∀ n, Admitted (forAddr spi Reg.PIX_AWL_FIRE) n none u) ∧ (∀ n, Admitted (forAddr spi (Reg.EVT_QFLUSH .b)) n none u) ∧
    refusalOf (taken .a (forAddr spi (Reg.EVT_QFLUSH .b)) u) (.reg (Reg.EVT_QFLUSH .b)) 0x40 = none ∧
    refusalOf (taken .a (forAddr spi Reg.PIX_AWL_FIRE) u) (.reg Reg.PIX_AWL_FIRE) 2 = none ∧ u.pix.scan = none ∧ u.pix.train = none ∧
    ((on.wr Reg.PIX_AWL_CTRL 0x30000).elapse 0).rf Reg.PIX_AWL_CTRL 31 16 ≠ 0 ∧ u.hk.inj = none ∧
    (List.range (min 8 (u.rf Reg.HK_INJ_CTRL 11 8))).map (fun i => u.rf (Reg.HK_INJ i) 5 0) ≠ [] ∧
    (let v := (simplex.modArb (fun b => { b with passed := ⟨false, true⟩ })).elapse 0;
      v.serving .a = true ∧ v.arb.svc.get .b = .out ∧ v.arb.passed.get .b = true ∧ weltUp v = true) :=
  ⟨fun n => adm (by decide) n rfl rfl, fun n => adm (by decide) n rfl rfl, by decide +kernel⟩

theorem witness_PortControlTrainsThePort : let u := (portUp 1 on).elapse 0; let a := Reg.LNK_PORT_CTRL .a 0
    WriteAdmitted 0 spi a ((u.rd a &&& storeBits a) ||| 0x8000) (portUp 1 on) ∧ WriteAdmitted 0 spi a 0 (portUp 1 on) ∧
    WriteAdmitted 0 port0 a 0 (portUp 1 on) ∧ spi.via ≠ .port .a 0 ∧ port0.via = .port .a 0 ∧ (u.port .a 0).state = .up ∧
    u.role .a 0 ≠ 0 :=
  ⟨⟨adm (by decide) _ (by decide) rfl, by decide⟩, ⟨adm (by decide) _ (by decide) rfl, by decide⟩,
    ⟨adm (by decide) _ (by decide) rfl, by decide⟩, by decide⟩

theorem witness_NvmCommandsTakeEffect :
    (let u := (vinGood on).elapse 0; (∀ n, Admitted spi n none u) ∧ bits (1 : Word).toNat 2 0 ≠ 0 ∧
      nvmRefusal (taken .a spi u) .a (!vinOutside u) = none ∧
      nvmRefusal (taken .a spi u) .a ([Side.a, Side.b].all (fun y => !u.serving y || (slotOf u y 0).isSome)) = none ∧
      slotOf u u.arb.primary 0 = some Last.factory) ∧
    ((none : Option Word).isSome = bit (0 : Word).toNat 1 ∧ (0 : Word).toNat % 4 = 0 ∧ 1 ≤ (32768 : Word).toNat ∧
      (32768 : Word).toNat ≤ 32768 ∧ (0 : Word).toNat + (32768 : Word).toNat ≤ 524288) :=
  ⟨⟨fun n => adm (by decide) n rfl rfl, by decide, by decide +kernel, by decide +kernel, rfl⟩, by decide⟩

theorem witness_ServiceCommandsTakeEffect :
    (let u := on.elapse 0; (∀ n, Admitted spi n none u) ∧ u.duplexed = true ∧ u.trg.run = .idle ∧ (1 : Word).toNat ≤ 1 ∧
      u.serving (peerOf (sideOf 1)) = true ∧ u.power.mode ≠ .standby ∧ standbyBusy u = false) ∧
    (let s := (on.wr Reg.PWR_CTRL 1).modPower (fun p => { p with mode := .standby }); let u := s.elapse 0
      Admitted spi (.writeReg s spi Reg.PWR_CTRL 1 true false false) none u ∧
      Admitted spi (.writeReg s spi Reg.PWR_CTRL 0 true false false) none u ∧ u.power.mode = .standby ∧ u.waking = false) ∧
    (let w : Waiting := { waits 0x03 with x := .b }
      let s := on.modPower (fun p => { p with mode := .standby, changing := some w }); let u := s.elapse 0
      Admitted spi (.writeReg s spi Reg.PWR_CTRL 1 true false false) none u ∧ u.power.mode = .standby ∧ u.waking = true) :=
  ⟨⟨fun n => adm (by decide) n rfl rfl, by decide +kernel⟩,
    ⟨⟨⟨by decide, rfl, by decide⟩, by decide, by decide⟩, ⟨⟨by decide, rfl, by decide⟩, by decide, by decide⟩, by decide⟩,
    ⟨⟨⟨by decide, rfl, by decide⟩, by decide, by decide⟩, by decide⟩⟩

theorem witness_SidesLeaveAndReturn :
    (let u := on.elapse 0; u.power.heldSide.get .a = false ∧ State.reset.powered = false ∧ u.powered = true) ∧
    (let u := (simplex.modPower (fun p => { p with heldSide := ⟨false, true⟩ })).elapse 0;
      canBoot .b (u.modPower (fun p => { p with heldSide := p.heldSide.set .b false })) = true) ∧
    (let u := ((simplex.modArb (fun b => { b with booting := ⟨none, some 0⟩ })).wr (Reg.WLT_CTRL .a) 1).elapse 0;
      (u.arb.booting.get .b).isSome = true ∧ u.power.wake.any (fun q => (sideUnits .b).contains q.1) = false ∧
      u.serving .a = true ∧ u.arb.svc.get .b = .out ∧ weltUp u = true ∧ u.rb (Reg.WLT_CTRL .a) 0 = true) ∧
    (let u := (on.modArb (fun b => { b with svc := ⟨.out, .out⟩, booting := ⟨some 0, none⟩ })).elapse 0;
      (u.arb.booting.get .a).isSome = true ∧ u.power.booted = true ∧ u.arb.svc.get .b = .out ∧
      (u.modPower (fun p => { p with booted := false })).power.booted = false) ∧
    (let u := ((on.modArb (fun b => { b with svc := ⟨.inService, .resync⟩, returnAt := ⟨none, some 0⟩, takeover := some 0 })).modWlt .b
        (fun w => { w with transferring := true })).elapse 0;
      u.arb.svc.get .b = .resync ∧ (u.side .b).wlt.transferring = true ∧ u.trg.run = .idle ∧ u.arb.returnAt.get .b = some 0 ∧
      reached u.now 0 = true ∧ u.arb.takeover = some 0) ∧
    (let u := (on.modMgt .b (fun g => { g with fetchFaults := twice })).elapse 0;
      u.live .b = true ∧ (u.side .b).mgt.fetchFaults.third u.now = true ∧ u.serving .a = true ∧ u.live .a = true ∧
      (u.side .a).mgt.fetchFaults.third u.now = false) ∧
    (let u := (simplex.modMgt .a (fun g => { g with fetchFaults := twice })).elapse 0;
      u.live .a = true ∧ (u.side .a).mgt.fetchFaults.third u.now = true ∧ u.serving .b = false) := by decide +kernel

theorem witness_WeltCarriesMessages :
    (let u := (on.modWlt .a (fun w => { w with unacked := [(2, 0), (1, 0)] })).elapse 0;
      sendsBeats u .a = true ∧ sendsBeats u .b = true ∧ (u.side .a).wlt.heartbeat + 3000 ≤ u.clock.ticks ∧
      overdue u .a = some (1, 0) ∧
      u.live .a = true ∧ u.live .b = true ∧ silent u .a = true ∧ u.duplexed = true ∧ (u.side .a).wlt.retransSeen = false) ∧
    sendsBeats (simplex.elapse 0) .b = false ∧
    (let u := (on.modArb (fun b => { b with svc := ⟨.inService, .resync⟩ })).elapse 0;
      u.live .a = true ∧ u.live .b = true ∧ silent u .a = true ∧ silent u .b = true ∧ u.serving .a = true ∧
      u.arb.svc.get .b = .resync) := by decide +kernel

theorem witness_SignaturesAreCompared :
    (let e : SigEntry := ⟨anySig, true, 0⟩;
      let u := (on.modWlt .a (fun w => { w with inbox := [{ anySig with crc := 9 }], table := [e] })).elapse 0;
      let v := (on.modWlt .b (fun w => { w with inbox := [anySig] })).elapse 0;
      (u.side .a).wlt.inbox = [{ anySig with crc := 9 }] ∧
      (u.side .a).wlt.table.find? (fun e => e.sig.id = anySig.id && e.own) = some e ∧ e.sig.agrees { anySig with crc := 9 } = false ∧
      e.sig.agrees anySig = true ∧ u.arb.twin = false ∧ (u.modArb (fun b => { b with twin := true })).arb.twin = true ∧ (v.side .b).wlt.inbox = [anySig] ∧ (v.side .b).wlt.table.length < 16384 ∧
      (v.side .b).wlt.table.find? (fun e => e.sig.id = anySig.id && e.own) = none ∧
      (u.side .a).wlt.table.find? (fun e => decide (e.entered + 30000000 ≤ u.clock.ticks)) = some e ∧
      (u.arb.losses.get .b).third u.now = false) ∧
    (let d : Dispute := ⟨anySig.id, some anySig, none, none, none, [], [], []⟩; let q : Sig × Bool := (anySig, false)
      let u := (on.modWlt .a (fun w => { w with disputes := [d], inboxRe := [q] })).elapse 0; let w := (u.side .a).wlt
      w.inbox = [] ∧ w.inboxRe.find? (fun q => w.disputes.any (fun d => d.id = q.1.id)) = some q ∧ (∀ d ∈ w.disputes, d.myRe = none)) ∧
    (let d : Dispute := ⟨anySig.id, some anySig, none, none, none, [], [], []⟩;
      let u := ((on.modWlt .a (fun w => { w with disputes := [d] })).modComp .a 31 (fun k => { k with block := some anyBlock, redo := true })).elapse 0;
      redoing u .a = some (31, anyBlock) ∧ enginesRun u .a = true ∧
      u.duplexed = true ∧ (∀ q ∈ (u.side .a).wlt.disputes, q.theirRe = none)) ∧
    (let d : Dispute := ⟨anySig.id, some anySig, none, none, some (anySig, false), [], [], []⟩;
      let u := ((on.modWlt .a (fun w => { w with disputes := [d] })).modComp .a 31 (fun k => { k with block := some anyBlock, redo := true })).elapse 0;
      redoing u .a = some (31, anyBlock) ∧ d.id = anyBlock.id ∧ d.theirRe.isSome = true) := by decide +kernel

theorem witness_SignaturesAreCompared_block :
    let b : Block := { anyBlock with maker := 31 }; let u := (simplex.modComp .a 31 (fun k => { k with block := some b })).elapse 0;
    (u.comp .a (31 : Fin 32)).block = some b ∧ b.words = [] ∧ b.maker = (31 : Fin 32).val ∧ (u.comp .a 31).redo = false ∧
      enginesRun u .a = true ∧ (signBlock .a (buildBlock b none).1 u).isSome = true ∧ cutThrough u .a (buildBlock b none).1 = true := by decide +kernel

theorem witness_PowerEventsMoveTheModule :
    (let u := State.reset.elapse 0; u.power.vaon = false ∧ u.power.feed.a = false ∧ u.power.feed.b = false ∧ u.powered = false ∧
      u.power.feed.get .a = false ∧ u.power.heldN = false) ∧
    (let u := (State.reset.modPower (fun p => { p with feed := ⟨true, false⟩ })).elapse 0;
      u.power.vaon = false ∧ u.power.feed.a = true ∧ u.power.feed.get .a = true ∧ u.powered = false) ∧
    (let u := (State.reset.modPower (fun p => { p with vaon := true, heldN := true })).elapse 0;
      u.power.vaon = true ∧ u.power.feed.get .b = false ∧ u.powered = false ∧ u.power.heldN = true) ∧
    (let u := on.elapse 0; u.power.vaon = true ∧ u.powered = true ∧ u.power.feed.get .a = true ∧ u.power.feed.get .b = true ∧
      u.serving .b = true ∧ u.power.heldN = false) ∧
    (let u := (on.modPower (fun p => { p with feed := ⟨true, false⟩ })).elapse 0;
      u.power.vaon = true ∧ u.powered = true ∧ u.power.feed.get .b = false ∧ u.power.feed.get .a = true) ∧
    (let u := (on.modLace (fun l => { l with resetAt := some 0 })).elapse 0;
      u.lace.resetAt = some 0 ∧ reached u.now 0 = true) := by decide +kernel

/-- A module in step n of start-up. -/
def starting (n : Nat) : State := (on.modPower (fun p => { p with step := n })).modArb (fun b => { b with passed := ⟨true, false⟩ })

theorem witness_StartUpStepsInOrder :
    (let u := (starting 0).elapse 0; u.power.mode = .active ∧ u.power.heldN = false ∧ u.power.step = 0) ∧
    (let u := (starting 1).elapse 0; u.power.step = 1 ∧ u.arb.booting.a = none ∧ u.arb.booting.b = none ∧ u.arb.passed.a = true) ∧
    (starting 2).power.step = 2 ∧
    (let u := ((starting 3).modPower (fun p => { p with on := List.range 64 })).elapse 0;
      u.power.step = 3 ∧ ∀ i, i < 64 → i ∈ u.power.on) ∧
    (let u := (starting 4).elapse 0; u.power.step = 4 ∧ u.pix.apply = none ∧ u.power.stepTick + 150000000 ≤ u.clock.ticks) ∧
    (let u := (starting 5).elapse 0; u.power.step = 5 ∧ u.tdc.pass = none) ∧
    (let u := (starting 6).elapse 0; u.power.step = 6 ∧ u.frames.cal = none) ∧ (starting 7).power.step = 7 ∧
    (let u := ((on.wr Reg.PWR_CTRL 0).modPower (fun p => { p with mode := .standby, wake := [(3, 0)] })).elapse 0;
      u.powered = true ∧ u.power.wake ≠ [] ∧ u.waking = true ∧ u.power.wakeTick + 60000 ≤ u.clock.ticks ∧
      (wakeOrder u.power).drop 4 = []) ∧
    (let u := ((inRun .running)).elapse 0; u.baseUp = true ∧ u.power.baseLock = true ∧ u.trg.run = .running ∧ u.trg.stopAt = none ∧
      (inRun .armed).trg.run = .armed) := by decide +kernel

theorem witness_CalibrationCommandsBegin :
    let u := on.elapse 0
    (∀ n, Admitted spi n none u) ∧ (u.trg.run = .idle ∧ calBusy u = false ∧ u.pix.scan = none ∧ u.pix.apply = none ∧ u.hk.cal = none ∧
      u.trg.run ≠ .running ∧ u.tdc.pass = none ∧ tableWord 0x12000000 ≠ none ∧ bits (6 : Word).toNat 3 0 < 7 ∧ switching u 11 = false) :=
  ⟨fun n => adm (by decide) n rfl rfl, by decide +kernel⟩

theorem witness_CalibrationsRunTheirCourse :
    (let k : FaCal := ⟨[0], 0, 1, 1, []⟩; let u := (on.modFrames (fun f => { f with cal := some k })).elapse 0;
      u.frames.cal = some k ∧ k.phase < 2 ∧ k.since + faPhaseAt k.attempt (k.phase + 1) ≤ u.clock.ticks ∧
      k.since + k.attempt * 1800000000 ≤ u.clock.ticks ∧
      (let h : FaCal := { k with attempt := 3, failed := [5] }; 3 ≤ h.attempt ∧ h.since + h.attempt * 1800000000 ≤ u.clock.ticks ∧
        (faIncluded u k).filter (fun d => d / 1024 = 0) ≠ [] ∧ u.serving (reduceSide u) = true ∧ twice.third u.now = true ∧ faPasses ⟨5, false, 0, 0⟩ = false ∧
        faPasses ⟨5, true, 0, 240000⟩ = true)) ∧
    (let p : InitPass := ⟨[0], true, 0, 1, [], [], [], 0⟩; let u := (on.modTdc (fun k => { k with pass := some p })).elapse 0;
      u.tdc.pass = some p ∧ p.attempt < 3 ∧ p.since + attemptAt p.attempt ≤ u.clock.ticks ∧ p.since + 900000000 ≤ u.clock.ticks ∧
      passFills (settleCodes 5 u) 5 = true ∧ passFills (settleCodes 65539 u) 65539 = true ∧ p.since + attemptAt (p.attempt - 1) + 288000000 ≤ u.clock.ticks) ∧
    (let r : Rotation := ⟨5, true, some 0, 0⟩;
      let u := (on.modTdc (fun k => { k with rot := [(63, r)], digis := [(3, { Digi.idle with effectAt := some 0 })] })).elapse 0;
      let v := settleCodes (1024 * 63 + r.cur) u
      u.rotation 63 = r ∧ r.cur < 1024 ∧ v.rotation 63 = r ∧ 0 + 3000000000 ≤ u.clock.ticks ∧ passFills v (1024 * 63 + r.cur) = false ∧
      (u.digi 3).effectAt = some 0 ∧ reached u.now 0 = true) ∧
    (let u := on.elapse 0; u.power.mode = .active ∧ (u.rotation 0).active = false ∧ passHas u 0 = false ∧
      u.rb (Reg.TDC_CAL_CTRL 0) 0 = false ∧
      (u.rotation 0).ended + u.rf (Reg.TDC_CAL_CTRL 0) 3 1 * 196608000 ≤ u.clock.ticks ∧ nextInRotation u 0 = some 0) := by
  decide +kernel

theorem witness_PixelEdgesMakeClusters :
    let s := on.modPix (fun f => { f with latches := putWord f.latches 0 1 })
    (let u := s.elapse 0; u.power.mode = .active ∧ scanOf u 0 = none ∧ u.firesAt 0 (collected u 5000) = true ∧ u.firesAt 0 0 = false ∧
      u.frameTile 0 = false ∧ ((closeIfOver 0 u).digi 0).phase = .ready ∧ (u.tile 0).busy u.clock.ticks = false) ∧
    (let u := ((s.modTile 0 (fun k => { k with full := true, state := .running, startAt := 0 }))).elapse 0;
      (u.tile 0).busy u.clock.ticks = true ∧ (u.tile 0).inRun u.now = true) ∧
    (let c : Cluster := { oldCluster with c := s.now - 1, closed := none, taken := 3, window := 64, pulses := [⟨0, 0, 1, false, 0, none, 0⟩] };
      let u := (digi0 (fun g => { g with phase := .cluster, cluster := some c }) s).elapse 0;
      let g := (closeIfOver 0 u).digi 0;
      g.phase = .cluster ∧ g.cluster = some c ∧ c.pulses.any (fun q => q.lp = 0) = true ∧ c.pulses.any (fun q => q.lp = 1) = false ∧
      c.taken = 3 ∧ g.waiting.any (·.open_ 0) = false ∧ c.open_ 0 = true ∧ c.lp = 0) ∧
    (let u := (digi0 (fun g => { g with phase := .dead, waiting := [{ oldCluster with pulses := [⟨0, 0, 1, false, 0, none, 0⟩] }] }) s).elapse 0;
      let g := (closeIfOver 0 u).digi 0;
      g.phase = .dead ∧ g.cluster = none ∧ fifthStop g 0 u.now = false ∧ g.waiting.any (·.open_ 0) = true) ∧
    (let u := (((on.modTile 0 id).wr (Reg.TIL_CTRL 0) 3)).elapse 0; u.frameTile 0 = true) := by decide +kernel

theorem witness_ClustersReachTheirTile :
    (let k : Conv := ⟨0, 0, 63, true, none, false⟩; let c : Cluster := { oldCluster with closed := none };
      let u := (digi0 (fun g => { g with conv := some k, cluster := some c, phase := .dead, readyAt := 0 }) on).elapse 0;
      (u.digi 0).conv = some k ∧ k.cal = none ∧ k.over u.now 1023 = true ∧ (u.digi 0).cluster = some c ∧
      reached u.now c.windowEnd = true ∧ (u.digi 0).phase = .dead ∧ reached u.now (u.digi 0).readyAt = true) ∧
    (let s := digi0 (fun g => { g with waiting := [oldCluster] }) on; let u := s.elapse 0;
      (u.tile 0).waitPll.isSome = false ∧ (u.digi 0).waiting.findIdx? (·.due u.now) = some 0 ∧ (u.digi 0).waiting[0]? = some oldCluster ∧
      (let v := settleTile 0 (u.modDigi 0 (fun g => { g with waiting := [] })); (v.tile 0).inRun 0 = false) ∧
      (let v := settleTile 0 (((runTile 0 s).elapse 0).modDigi 0 (fun g => { g with waiting := [] }));
        (v.tile 0).inRun 0 = true ∧ (squallOf v 0).any (fun q => q.policy = 2) = false) ∧
      (let k := settleTile 0 ((((runTile 1 s).elapse 0)).modDigi 0 (fun g => { g with waiting := [] }));
        (k.tile 0).slice ≠ some (sliceOf k 0) ∧ (k.tile 0).buffered + 3 ≤ 512) ∧
      (let w := runTile 0 { s with squall := { s.squall with squalls := [⟨0, 100, 2, 0⟩] } };
        (squallOf (settleTile 0 (w.elapse 0)) 0).any (fun q => q.policy = 2) = true)) := by decide +kernel

theorem witness_CalibrationEdgesFillHistograms :
    (let s := on.modTdc (fun k => { k with rot := [(0, ⟨0, true, none, 0⟩)] }); let v := settleCodes 0 (s.elapse 0);
      v.power.mode = .active ∧ (v.digi 0).phase = .ready ∧ rotationFills v 0 = true) ∧
    (let k : Conv := ⟨0, 0, 3, false, some 0, false⟩;
      let u := (digi0 (fun g => { g with conv := some k, phase := .cal }) on).elapse 0;
      (u.digi 0).conv = some k ∧ k.cal = some 0 ∧ (u.digi 0).phase = .cal ∧ k.over u.now 1023 = true ∧ 0 + 150 < u.clock.ticks ∧
      1 < fillSize ∧ (let v := digi0 (fun g => { g with hist := (262143 :: List.replicate 63 0) }) u; fillSize ≤ (v.digi 0).hist.foldl (· + ·) 0 + 1)) ∧
    (let u := (on.wr (Reg.TDC_EXT_CTRL 2) 0x3C).elapse 0;
      u.power.mode = .active ∧ bit (u.rf (Reg.TDC_EXT_CTRL 2) 5 4) 0 = true ∧ etdSees u (u.rf (Reg.TDC_EXT_CTRL 2) 3 0) = true ∧
      (Sparse.get u.tdc.etdLast 2 none).any (fun b => decide (u.clock.ticks < b + 60)) = false) ∧
    (let u := (on.modTdc (fun k => { k with etdLast := [(2, some 999999999990)] })).elapse 0;
      (Sparse.get u.tdc.etdLast 2 none).any (fun b => decide (u.clock.ticks < b + 60)) = true) ∧
    (let k : CalEdge := ⟨100000000, 5, false, 262144⟩; let p : InitPass := ⟨[], true, 0, 1, [], [], [], 0⟩;
      let u := (on.modTdc (fun k => { k with pass := some p })).elapse 0;
      p.since + attemptAt (p.attempt - 1) ≤ k.tick ∧ k.tick + 150 < u.clock.ticks ∧ nearReal (u.digi (65536 + 3)).reals k.tick = false ∧
      fillSize ≤ (enterCodes (List.replicate 64 0) 0 0 [(k.n.val, k.ovr, k.count)]).2.1 ∧ passFills u (65536 + 3) = true) := by decide +kernel

theorem witness_FramesAreTriggeredAndConverted :
    (let u := ((inRun .running).modFrames (fun f => { f with lastTrig := some 0, started := true })).elapse 0;
      ∃ t0, triggerTick u .periodic = some t0 ∧ u.trg.run = .running ∧
        u.frames.lastTrig.all (fun l => decide (l ≠ t0) && reached t0 l) = true ∧
        reached t0 u.runStart = true ∧ beforeStop u t0 = true ∧ u.frames.started = true) ∧
    (let q : Sampled := ⟨0, 0, 0, [], false, [], [], [63]⟩; let u := (on.modFrames (fun f => { f with hold := ⟨some q, none⟩ })).elapse 0;
      u.frames.sampled.find? (fun q => q.left.contains 63) = some q ∧ reached u.now (q.t1 + 6000) = true) :=
  ⟨⟨_, rfl, by decide +kernel⟩, by decide +kernel⟩

theorem witness_FramesAreTriggeredAndConverted_ext :
    let u := ((on.wr Reg.FRM_CTRL 0x2D).modFrames (fun f => { f with ext := [(11, true, on.now - 12)] })).elapse 0
    extWanted u 11 true = true ∧ u.frames.ext.find? (fun q => q.1 = 11 && q.2.1 = true) = some (11, true, on.now - 12) ∧
      reached u.now (on.now - 12 + 12) = true := by decide +kernel

theorem witness_FramesAreTriggeredAndConverted_early :
    let s := ((inRun .running).wr Reg.FRM_CTRL 2).modFrames (fun f => { f with lastTrig := some (on.now - 2) })
    let u := (s.modTrg (fun g => { g with bus := [(0, on.now - 1)] })).elapse 0
    triggerTick u .bus = some (on.now - 1) ∧ u.frames.lastTrig.all (fun l => decide (l ≠ on.now - 1) && reached (on.now - 1) l) = true ∧
      FrameSource.bus ≠ .periodic ∧ u.frames.lastTrig.any (fun l => since (on.now - 1) l < 93750) = true := by decide +kernel

theorem witness_TilesAreReadOut :
    (let v := settleTile 0 ((runTile 0 on).elapse 0); let k := v.tile 0;
      ∃ n, k.slice = some n ∧ k.state ≠ .idle ∧ reached v.now (unitEnd v k n + 72) = true ∧ k.waitPll = none ∧
        holdsCluster v 0 n = false ∧ k.next.any (fun g => g.1 = n) = false ∧ k.fifo.length + 6 ≤ 4096) ∧
    (let u := ((inRun .running).modTile 0 (fun k => { k with state := .running, startAt := 0, slice := some 262143 })).elapse 0;
      let k := (settleTile 0 u).tile 0;
      k.state ≠ .idle ∧ reached (lastEpoch u.now) k.startAt = true ∧ k.stopAt.all (fun p => reached p (lastEpoch u.now)) = true ∧
      k.fifo.length < 4096 ∧ k.slice.any (fun n => decide (unitEnd (settleTile 0 u) k n = lastEpoch u.now)) = true ∧ k.waitPll = none ∧
      k.frames = [] ∧ lastEpoch u.now ≠ k.epoch ∧ u.trg.run = .running ∧ u.now - BitVec.ofNat 64 (u.now.toNat % 32) ≠ u.squall.lastSummary) ∧
    (let s := { on with clock := { on.clock with now := on.now + 8000 } }; let u := s.elapse 0; let k := (settleTile 0 u).tile 0;
      u.power.mode = .active ∧ u.rb (Reg.TIL_CTRL 0) 2 = false ∧ k.fifo = [] ∧ k.next = [] ∧ k.frames = [] ∧
      k.lastAct + 3000 ≤ u.clock.ticks ∧ lastBoundary u + 3000 ≤ u.clock.ticks) ∧
    (let v := settleTile 0 ((on.modTile 0 (fun k => { k with fifo := [⟨7, 0, 0⟩] })).elapse 0);
      (v.tile 0).fifo = [⟨7, 0, 0⟩] ∧ tileSilent v 0 = false ∧ takers v 0 ≠ [] ∧ (∀ x ∈ takers v 0, intakeOpen v x 0 = true)) ∧
    (let u := on.elapse 0; u.power.mode = .active ∧ (u.tile 0).unlocked = false ∧ (u.tile 0).faults.third u.now = false ∧ u.tileRetired 0 = false) ∧
    (let u := (on.modTile 0 (fun k => { k with faults := twice, pllBusy := some none, waitPll := some 0 })).elapse 0;
      (u.tile 0).unlocked = true ∧ (u.tile 0).faults.third u.now = true ∧ u.tileRetired 0 = false ∧ (u.tile 0).waitPll = some 0 ∧
      0 + 30000000 ≤ u.clock.ticks) := by
  refine ⟨⟨0, by decide +kernel⟩, by decide +kernel⟩

theorem witness_SquallsAreDeclaredAndEnded :
    (let u := (inRun .running).elapse 0; u.trg.run = .running ∧ u.squall.lastEval ≠ BitVec.ofNat 64 (20 * (u.now.toNat / 20)) ∧
      (squallX u).all (fun x => decide (x = BitVec.ofNat 64 (20 * (u.now.toNat / 20)))) = true ∧
      (crowded u (u.now.toNat / 20)).length < 8) ∧
    (let r := inRun .running;
      let u := { r with squall := { r.squall with active := true, squalls := [⟨0, 0, 0, 0⟩], declare := some (0, [5]) } }.elapse 0; let v := { r with squall := { r.squall with active := true, squalls := [⟨0, on.now + 9, 0, 0⟩] } }.elapse 0;
      let tick : Time := BitVec.ofNat 64 (20 * (u.now.toNat / 20));
      squallX u = some 0 ∧ u.squall.ending = none ∧ squallEnded u.now u = some 0 ∧ (squallX v).all (fun x => decide (x = tick) || !reached tick x) = true ∧ (0 : Time) ≠ tick ∧ reached tick 0 = true ∧ u.squall.declare = some (0, [5]) ∧ reached u.now (0 + 72) = true ∧
      reached u.now (0 + 12) = true) := by decide +kernel

theorem insert_falling (n : Nat) : ∀ acc : List Nat, (∀ h ∈ acc.head?, n ≤ h) →
    (List.range n).reverse.foldl (fun l p => insertNat p l) acc = List.range n ++ acc := by
  induction n with
  | zero => intro acc _; rfl
  | succ n ih =>
    intro acc h
    have e : insertNat n acc = n :: acc := by
      cases acc with
      | nil => rfl
      | cons a r =>
        have : n < a := h a rfl
        simp [insertNat, this]
    rw [List.range_succ, List.reverse_append, List.reverse_singleton, List.singleton_append, List.foldl_cons, e,
      ih (n :: acc) (by simp), List.append_assoc, List.singleton_append]

/-- Pixels that fell in falling order. -/
def falling (n : Nat) : List Nat := (List.range n).reverse

theorem crowd_fired (n : Nat) : firedIn { Tile.idle with bins := [(214748363, falling n)] } 214748364 = n := by
  have e : firedIn { Tile.idle with bins := [(214748363, falling n)] } 214748364 =
      ((falling n).foldl (fun l p => insertNat p l) []).length := by
    simp [firedIn]
  rw [e, falling, insert_falling n [] (by simp), List.append_nil, List.length_range]

theorem crowd_tile (l : List Nat) : ∀ i ∈ List.range 8, let u := (crowd l).elapse 0
    ((eightOn.elapse 0).tileRetired i = false → u.tileOut i = !(eightOn.elapse 0).rb (Reg.TIL_CTRL i) 0) ∧ u.frameTile i = (eightOn.elapse 0).frameTile i ∧
    u.tile i = { Tile.idle with bins := [(214748363, l)] } := by
  intro i h
  refine ⟨by simp only [State.tileOut, State.tileRetired, State.rb, State.rd, State.elapse, crowd]; intro h; rw [h]; rfl,
    by simp only [State.frameTile, State.rb, State.rd, State.elapse, crowd], ?_⟩
  simp only [List.mem_range] at h
  have e : ((crowd l).elapse 0).tile i = Sparse.get (crowd l).tiles i Tile.idle := by unfold State.tile State.elapse; rfl
  rw [e]
  have g : (crowd l).tiles = (List.range 8).map (fun i => (i, { Tile.idle with bins := [(214748363, l)] })) := by unfold crowd; rfl
  rw [g]
  generalize ({ Tile.idle with bins := [(214748363, l)] } : Tile) = k
  interval_cases i <;> rfl

theorem eight_on : ∀ i ∈ List.range 8, ((eightOn.elapse 0).tileRetired i = false ∧ (eightOn.elapse 0).rb (Reg.TIL_CTRL i) 0 = true) ∧
    (eightOn.elapse 0).frameTile i = false := by
  decide +kernel

theorem crowd_count (n : Nat) (hn : 2048 < n) : 8 ≤ (crowded ((crowd (falling n)).elapse 0) 214748364).length := by
  unfold crowded
  rw [show List.range 64 = List.range 8 ++ List.range' 8 56 by decide, List.filter_append, List.length_append,
    List.filter_eq_self.2 (fun i hi => ?_)]
  · simp
  · obtain ⟨a, b, c⟩ := crowd_tile (falling n) i hi
    obtain ⟨d, e⟩ := eight_on i hi
    simp only [a d.1, b, c, d.2, e, crowd_fired]
    simpa using hn

theorem witness_SquallsAreDeclaredAndEnded_crowd :
    let u := (crowd (falling 2049)).elapse 0
    8 ≤ (crowded u 214748364).length ∧ u.now.toNat / 20 = 214748364 ∧ u.squall.active = false ∧ u.squall.declare = none :=
  ⟨crowd_count 2049 (by decide), (by decide +kernel : (eightOn.elapse 0).now.toNat / 20 = 214748364),
    (by decide +kernel : (eightOn.elapse 0).squall.active = false),
    (by decide +kernel : (eightOn.elapse 0).squall.declare = none)⟩

/-! ### Witnesses of the data path's last stretch -/

/-- The words of an EVENT unit of slice number n, and of the output frame n. -/
def eventWords (n : Nat) : List Word72 := [BitVec.ofNat 72 (0xC2 * 2 ^ 64 + n), BitVec.ofNat 72 (0xC3 * 2 ^ 64)]
def frameWords (n : Nat) : List Word72 := [BitVec.ofNat 72 (0xC4 * 2 ^ 64), BitVec.ofNat 72 (0xC5 * 2 ^ 64 + n * 2 ^ 32)]

/-- Acquisition mode m, and no room in any ring. -/
def mode (m : Word) (s : State) : State := s.wr (Reg.TRG_CTRL .a) m
def noRoom (s : State) : State := (List.range 8).foldl (fun t r => t.wr (Reg.BST_RING_SIZE .a r) 0) s

/-- Words at side A's intake from a tile. -/
def taking (i : Nat) (l : List Word72) (s : State) : State := s.modIntake .a i (fun _ => l)

/-- A unit at side A. -/
def unitAt (n : Nat) (u1 : Time) : UnitIn := ⟨BitVec.ofNat 48 n, 0, u1, [], eventWords 0, [], none, false, false, [], 0, 0⟩
def withUnit (v : UnitIn) (s : State) : State := s.modDsp .a (fun d => { d with units := [v] })

theorem witness_UnitsAreTakenAndDecided :
    (let u := (taking 63 (5 :: eventWords 3 ++ [6]) on).elapse 0;
      u.serving .a = true ∧ findUnit (u.intake .a 63) = some ([5], eventWords 3, [6]) ∧
      tooEarly u .a 63 (unitSpan u (numberOf u 63 (eventWords 3))).1 = false ∧ enginesRun u .a = true ∧ prescaled u (numberOf u 63 (eventWords 3)) = false ∧
      u.acq = 0) ∧
    (let u := (taking 63 (eventWords 3) (on.modDsp .a (fun d => { d with keepFrom := [(63, some (on.now + 100000000))] }))).elapse 0;
      findUnit (u.intake .a 63) = some ([], eventWords 3, []) ∧ tooEarly u .a 63 (unitSpan u (numberOf u 63 (eventWords 3))).1 = true) ∧
    (let u := (taking 0 (frameWords 1) (on.wr (Reg.TRG_FRAME_PRESCALE .a) 2)).elapse 0;
      findUnit (u.intake .a 0) = some ([], frameWords 1, []) ∧ prescaled u (numberOf u 0 (frameWords 1)) = true ∧
      tooEarly u .a 0 (unitSpan u (numberOf u 0 (frameWords 1))).1 = false) := by
  decide +kernel

theorem witness_UnitsAreTakenAndDecided_held :
    (let u := (noRoom (mode 1 (taking 0 (eventWords 3) on))).elapse 0; let n := numberOf u 0 (eventWords 3);
      findUnit (u.intake .a 0) = some ([], eventWords 3, []) ∧ u.acq ≠ 0 ∧ tooEarly u .a 0 (unitSpan u n).1 = false ∧
      prescaled u n = false ∧ (storeWords .a (unitKind n) 0 (.unit (BitVec.ofNat 48 n)) ([] ++ eventWords 3) u |>.isNone) = true) ∧
    (let u := (mode 1 (taking 0 (eventWords 300000) on)).elapse 0; let n := numberOf u 0 (eventWords 300000);
      findUnit (u.intake .a 0) = some ([], eventWords 300000, []) ∧ u.acq ≠ 0 ∧ tooEarly u .a 0 (unitSpan u n).1 = false ∧
      prescaled u n = false ∧ (storeWords .a (unitKind n) 0 (.unit (BitVec.ofNat 48 n)) ([] ++ eventWords 300000) u).isSome = true ∧
      reached u.now ((unitSpan u n).2 + BitVec.ofNat 64 (preMax u + 1024)) = false) ∧
    (let u := (withUnit (unitAt 64 0) on).elapse 0;
      (u.side .a).dsp.units.find? (fun v => v.number = 64 && !v.decided) = some (unitAt 64 0) ∧
      reached u.now (decisionTime u (unitAt 64 0)) = true ∧ u.acq = 0 ∧ (u.side .a).dsp.ready.length < 4096) ∧
    (let u := (mode 1 (withUnit (unitAt 64 0) on)).elapse 0;
      reached u.now (decisionTime u (unitAt 64 0)) = true ∧ u.acq ≠ 0 ∧ (liveRecs u).any (fun r => r.meets 0 0) = false) := by
  decide +kernel

/-- An item of side A's, and engine e at work on it since tick 0. -/
def oneItem : Item := ⟨.sort 64, 0⟩
def atWork (e : Nat) (w : Work) (s : State) : State := s.modEng .a e (fun g => { g with item := some (⟨w, 0⟩, 0) })

theorem witness_UnitsAreTakenAndDecided_full :
    4096 ≤ (((withUnit (unitAt 64 0) on).modDsp .a (fun d => { d with ready := List.replicate 4096 (0, oneItem) })).elapse 0 |>.side
      .a).dsp.ready.length := by
  show 4096 ≤ (List.replicate 4096 ((0 : Nat), oneItem)).length
  rw [List.length_replicate]

theorem witness_TheDispatcherStartsItems :
    (let s := on.modDsp .a (fun d => { d with ready := [(3, oneItem)], delay := [(3, oneItem, 0)] }); let u := s.elapse 0;
      enginesRun u .a = true ∧ (u.side .a).dsp.cycle < u.clock.ticks / 8 ∧ (u.side .a).dsp.held = [] ∧ (u.side .a).dsp.again = [] ∧
      (u.side .a).dsp.ready = [(3, oneItem)] ∧ placeItem u .a 3 oneItem = some (0, false) ∧ homeOf u .a oneItem.work.key ≠ some 0 ∧
      firstDue u.now (u.side .a).dsp.delay = some (3, oneItem, 0) ∧ (u.side .a).dsp.ready.length < 4096 ∧ engRetired u .a 47 = false ∧
      (u.eng .a 47).faults.third u.now = false) ∧
    (let u := (on.modDsp .a (fun d => { d with ready := [(0, oneItem)], home := [(0, some 47)] })).elapse 0;
      placeItem u .a 0 oneItem = some (47, false) ∧ homeOf u .a oneItem.work.key = some 47) ∧
    (let u := (on.modEng .a 47 (fun g => { g with faults := twice })).elapse 0;
      (u.eng .a 47).faults.third u.now = true ∧ engRetired u .a 47 = false) := by decide +kernel

/-- A record that has closed as number 1, with place 7. -/
def closedRec : Rec := ⟨7, 0, 0, 0, some 10, 0, 0, 0, 0, 0, false, 0, [], some 1, ⟨true, true⟩, ⟨true, true⟩⟩

theorem witness_WorkItemsComplete_units (cl : Bool) :
    (let u := (atWork 0 (if cl then .cluster 64 else .sort 64) (withUnit (unitAt 64 0) on)).elapse 0; let v := unitAt 64 0;
      runningOf u .a 0 (if cl then 1 else 0) = some (if cl then .cluster 64 else .sort 64) ∧
      (u.side .a).dsp.units.find? (fun v => v.number = 64) = some v ∧ (sortItem .a cl 64 .none u).isDone = true ∧ v.held = none ∧ v.bad = [] ∧
      unitBehind u .a v = false ∧
      v.acq ≠ 2 ∧ assemblyBytes u .a + 9 * (unitOut cl v v.pre v.words).length ≤ 33554432 ∧
      assemblyBytes u .a + 9 * (substitute (unitTile 64) 0x11 [1] v.pre v.words v.post).length ≤ 33554432 ∧
      1 < v.pre.length + v.words.length + v.post.length) ∧
    (let u := (noRoom (mode 2 (atWork 47 (if cl then .cluster 64 else .sort 64) (withUnit { unitAt 64 0 with acq := 2 } on)))).elapse 0;
      runningOf u .a 47 (if cl then 1 else 0) = some (if cl then .cluster 64 else .sort 64) ∧ (sortItem .a cl 64 .none u).isDone = false) ∧
    (let v := { unitAt 64 0 with u0 := 100000000 };
      let u := (atWork 0 (if cl then .cluster 64 else .sort 64) (on.modDsp .a (fun d => { d with units := [{ v with number := 65, u0 := 0 }, v] }))).elapse 0;
      (u.side .a).dsp.units.find? (fun v => v.number = 64) = some v ∧ unitBehind u .a v = true) := by
  cases cl <;> decide +kernel

/-- An assembly buffer that is full. -/
def crammed (s : State) : State :=
  s.modCmp .a (fun c => { c with outputs := List.replicate 1900 ⟨0, 0, 0, List.replicate 2000 0, none, false⟩ })

theorem witness_WorkItemsComplete_waits :
    let u := ((atWork 5 (.record 7) (crammed (noRoom on))).modTrg (fun g => { g with closed := [closedRec] })).elapse 0
    runningOf u .a 5 2 = some (.record 7) ∧ u.trg.closed.find? (fun r => r.id = 7) = some closedRec ∧
      (buildRecord .a 7 u).isDone = false := by decide +kernel

theorem witness_WorkItemsComplete :
    (let u := ((atWork 5 (.record 7) on).modTrg (fun g => { g with closed := [closedRec] })).elapse 0;
      runningOf u .a 5 2 = some (.record 7) ∧ u.trg.closed.find? (fun r => r.id = 7) = some closedRec ∧
      (buildRecord .a 7 u).isDone = true) ∧
    (let u := (atWork 5 (.merge 15 []) on).elapse 0;
      runningOf u .a 5 3 = some (.merge 15 []) ∧ (mergeFrames .a 5 15 [] u).isDone = true) ∧
    (let l : List (Nat × Frame) := [(0, { anyFrame with type := 5 })]; let u := (atWork 5 (.merge 15 l) on).elapse 0;
      runningOf u .a 5 3 = some (.merge 15 l) ∧ (mergeFrames .a 5 15 l u).isDone = false) ∧
    (let b := (buildBlock { anyBlock with input := [] } none).1; let u := (atWork 5 (.verify b) on).elapse 0;
      runningOf u .a 5 4 = some (.verify b) ∧ verifyHalt b = .done ∧ hasDec u .a 5 = false ∧ hasDec (settleDecs .a u) .a 5 = true) ∧
    (let u := (settleDecs .a (atWork 5 (.verify anyBlock) on)).elapse 0; hasDec u .a 5 = true ∧ runningOf u .a 5 4 = some (.verify anyBlock) ∧ verifyHalt anyBlock ≠ .done) ∧
    (let u := (((atWork 5 (.telemetry [1]) (portUp 1 on))).wr (Reg.EVT_TELEM .a) 0x10000).elapse 0;
      runningOf u .a 5 5 = some (.telemetry [1]) ∧ (u.port .a 0).state = .up ∧ u.role .a 0 = 1 ∧ u.rb (Reg.EVT_TELEM .a) 16 = true ∧
      (u.port .a 0).out = none ∧ (u.port .a 0).waiting = []) ∧
    (let u := (((atWork 5 (.reduce 63) on).modTdc (fun k => { k with fills := [(63, [(64512, [262144])])] })).modFrames (fun f => { f with
        measured := [(63, [(65535, some ⟨65535, true, 0, 240000⟩)])] })).elapse 0;
      runningOf u .a 5 6 = some (.reduce 63) ∧ faPasses ⟨65535, true, 0, 240000⟩ = true ∧ (none : Option AdcMeas).any faPasses = false ∧
      Sparse.get u.tdc.fills 63 [] = [(64512, [262144])] ∧ Sparse.get u.frames.measured 63 [] = [(65535, some ⟨65535, true, 0, 240000⟩)]) := by decide +kernel

/-- A completed output of event unit 64, record 0, and its sequence. -/
def anyOutput : Output := ⟨0, 0, 64, eventWords 1, none, false⟩
def seqOf : SeqKey := keyOf (groupBits on) anyOutput

/-- Every compressor of side A at work. -/
def allBusy (s : State) : State := (List.range 32).foldl (fun t e => t.modComp .a e (fun k => { k with block := some anyBlock })) s

/-- A decompression job that stopped for a reason. -/
def stoppedJob (n : Nat) (s : State) : State := s.modCmp .a (fun c => { c with job := ⟨false, [1], 1, 0, 0, n, 0⟩ })

theorem witness_CompressorsTakeBlocksAndJobsAnswer_blocks :
    (let u := (allBusy (on.modCmp .a (fun c => { c with ready := [.again anyBlock] }))).elapse 0;
      u.live .a = true ∧ let v := scanReady .a (retryEntering .a (outputFault .a 5 .none u))
      (v.side .a).cmp.ready = [.again anyBlock] ∧ ∀ r ∈ (v.side .a).cmp.ready, freeComp v .a r = none) ∧
    (let u := (on.modCmp .a (fun c => { c with ready := [.again anyBlock] })).elapse 0;
      let v := scanReady .a (retryEntering .a (outputFault .a 5 .none u))
      (v.side .a).cmp.ready = [.again anyBlock] ∧ freeComp v .a (.again anyBlock) = some 1) ∧
    (let u := (on.modCmp .a (fun c => { c with ready := [.redo anyBlock] })).elapse 0;
      let v := scanReady .a (retryEntering .a (outputFault .a 5 .none u))
      (v.side .a).cmp.ready = [.redo anyBlock] ∧ freeComp v .a (.redo anyBlock) = some 1) ∧
    (let u := (on.modCmp .a (fun c => { c with outputs := [⟨1, 5, 64, frameWords 1, none, false⟩] })).elapse 0;
      let v := scanReady .a (retryEntering .a (outputFault .a 64 .none u)); let k : SeqKey := ⟨1, 5, 64⟩
      (v.side .a).cmp.ready = [.seq k] ∧ freeComp v .a (.seq k) = some 0 ∧ (readyCut .a k 64 v).2.isSome = true) ∧
    (let u := (on.modCmp .a (fun c => { c with outputs := [anyOutput] })).elapse 0;
      (u.side .a).cmp.outputs.find? (fun q => q.unit = 64) = some anyOutput ∧ anyOutput.spill = none ∧ unitKind (64 : BitVec 48).toNat < 2 ∧
      takenOf u .a anyOutput ≤ 1 ∧ 1 < anyOutput.words.length) := by
  decide +kernel

theorem witness_CompressorsTakeBlocksAndJobsAnswer_jobs :
    (∀ n, Admitted spi n none (on.elapse 0)) ∧ (∀ j : Fin 3, ∀ n, Admitted spi n none ((stoppedJob j on).elapse 0)) ∧
    1 ≤ (16384 : Word).toNat % 65536 ∧ (16384 : Word).toNat % 65536 ≤ 16384 ∧
    (let j := (((stoppedJob 1 on).elapse 0).side (namedSide ((stoppedJob 1 on).elapse 0) spi)).cmp.job;
      j.stopped ≠ 0 ∧ resumeFits j 0 = true) ∧
    (let j := (((stoppedJob 2 on).elapse 0).side (namedSide ((stoppedJob 2 on).elapse 0) spi)).cmp.job;
      j.stopped ≠ 0 ∧ resumeFits j 1 = true) ∧
    (((stoppedJob 0 on).elapse 0).side (namedSide ((stoppedJob 0 on).elapse 0) spi)).cmp.job.stopped = 0 :=
  ⟨fun n => adm (by decide) n rfl rfl, fun j n => adm ((by decide : ∀ j : Fin 3, fit spi ((stoppedJob j on).elapse 0) = true) j) n rfl rfl, by decide, by decide, by decide +kernel, by decide +kernel,
    by decide +kernel⟩

/-- An item of one word that holds a block, and side A's ring 7 with it. -/
def blockItem : RingItem := ⟨1, .block anyBlock, [0], 1, false, false, none, []⟩
def withItem (i : RingItem) (s : State) : State := s.modRing .a 7 (fun k => { k with items := [i] })

/-- A storage word at every word of granule 0. -/
def stored (v : BitVec 120) (s : State) : State :=
  putWords .a ⟨mapGranule (s.bst .a).k1 (s.bst .a).k2 0, 0, List.replicate 8 v, 0#72 - 1⟩ s

/-- What the drain's read of that item finds. -/
def found (s : State) : Option (List Nat) := 
  (fetchItem .a 2 blockItem ((settleStore .a (s.elapse 0)).modItem .a 1 (fun j => { j with begun := true }))).2.map (·.bad)

theorem witness_TheBurstStoreWorks_drains :
    (let s := (on.wr (Reg.BST_RING_CTRL .a 7) 1).modRing .a 7 (fun k => { k with halted := true }); let u := s.elapse 0;
      fit spi u = true ∧ namedSide u spi = .a ∧ u.rb (Reg.BST_RING_CTRL .a 7) 0 = true ∧ (u.ring .a 7).halted = true) ∧
    (let v := settleStore .a ((stored (encodeStore 0 5) (withItem blockItem on)).elapse 0);
      v.live .a = true ∧ (v.ring .a 7).halted = false ∧
      (v.ring .a 7).items.find? (fun i => i.block?.isSome && !i.read) = some blockItem ∧ egressRoom v .a blockItem.size = true ∧
      blockItem.block? = some anyBlock) ∧
    found (stored (encodeStore 0 5) (withItem blockItem on)) = some [] ∧
    found ((stored (encodeStore 0 5) (withItem blockItem on)).modChan .a (locChan (mapGranule (on.bst .a).k1 (on.bst .a).k2 0))
      (fun c => { c with refresh := some 0 })) = none ∧
    (found (stored (poisonStore 0 5) (withItem blockItem on)) = some [0] ∧ on.rb (Reg.BST_DRAIN_CTRL .a) 0 = false) ∧
    (found (stored (poisonStore 0 5) (withItem blockItem (on.wr (Reg.BST_DRAIN_CTRL .a) 1))) = some [0] ∧
      (on.wr (Reg.BST_DRAIN_CTRL .a) 1).rb (Reg.BST_DRAIN_CTRL .a) 0 = true) := by decide +kernel

/-- Channel 15 of side A. -/
def chan15 (f : Chan → Chan) : State := on.modChan .a 15 f

theorem witness_TheBurstStoreWorks_refreshes :
    (let u := on.elapse 0; storeRuns u .a = true ∧ chanRetired u .a 15 = false ∧ 731 * 15 ≤ u.clock.ticks ∧
      (u.chan .a 15).lastDue < u.clock.ticks - (u.clock.ticks + 11700 - 731 * 15) % 11700 ∧ (u.chan .a 15).refresh = none ∧
      ingestActive u .a 15 = false) ∧
    (let u := (chan15 (fun c => { c with owed := 8, lastIngest := some on.clock.ticks })).elapse 0;
      8 ≤ (u.chan .a 15).owed ∧ (u.chan .a 15).refresh = none ∧ ingestActive u .a 15 = true) ∧
    (let u := (chan15 (fun c => { c with owed := 7, lastIngest := some on.clock.ticks })).elapse 0;
      (u.chan .a 15).owed < 8 ∧ ingestActive u .a 15 = true) ∧
    (let u := (chan15 (fun c => { c with owed := 8 })).elapse 0;
      (u.chan .a 15).refresh = none ∧ 0 < (u.chan .a 15).owed ∧ (u.chan .a 15).owed < 9 ∧ ingestActive u .a 15 = false) ∧
    (let u := (chan15 (fun c => { c with refresh := some 0, queue := [⟨5, 0, [1, 2], 0x1FF⟩] })).elapse 0;
      (u.chan .a 15).refresh = some 0 ∧ 0 + 885 ≤ u.clock.ticks ∧ chanRetired u .a 15 = false ∧ (∀ r, r < 8 → (u.ring .a r).waiting = []) ∧ (u.chan .a 15).owed = 0 ∧
      (u.chan .a 15).queue = [⟨5, 0, [1, 2], 0x1FF⟩]) ∧
    (let u := on.elapse 0; (u.bst .a).actsTick < u.clock.ticks / 96000000 ∧ u.live .a = true ∧
      (u.bst .a).intervalTick < u.clock.ticks / 3000000) := by decide +kernel

theorem witness_TheBurstStoreWorks_patrol :
    (let u := (on.wr (Reg.BST_SCRUB_CTRL .a) 0).elapse 0; storeRuns u .a = true ∧ u.rb (Reg.BST_SCRUB_CTRL .a) 16 = false ∧
      (List.replicate 8 (0 : BitVec 120)).length = 8 ∧ patrolAt u .a = some 0 ∧
      patrolFrom u .a (2 ^ 27) 0 = some 0 ∧ refreshing u .a (mapGranule (u.bst .a).k1 (u.bst .a).k2 0) = false ∧
      patrolFrom u .a (2 ^ 27) (0 + 1) = some 1 ∧ (u.chan .a (locChan (mapGranule (u.bst .a).k1 (u.bst .a).k2 0))).queue = []) ∧
    (let u := ((on.wr (Reg.BST_SCRUB_CTRL .a) 0).modBst .a (fun b => { b with patrol := some (2 ^ 27 - 1) })).elapse 0;
      patrolAt u .a = some (2 ^ 27 - 1) ∧ patrolFrom u .a (2 ^ 27) (2 ^ 27 - 1) = some (2 ^ 27 - 1) ∧
      patrolFrom u .a (2 ^ 27) (2 ^ 27 - 1 + 1) = none) ∧
    (let u := (on.modBst .a (fun b => { b with patrolTick := some (on.clock.ticks - 1) })).elapse 0;
      (u.bst .a).patrol = none ∧ u.clock.ticks < on.clock.ticks - 1 + max 60 (u.rf (Reg.BST_SCRUB_CTRL .a) 15 0) * 3000000000) ∧
    (let u := ((on.wr (Reg.BST_SCRUB_CTRL .a) 0x10000).wr (Reg.BST_RING_SIZE .a 1) 0x3FFFFFF).elapse 0; let g := 134217727; let loc := areaLoc (u.bst .a) g
      storeRuns u .a = true ∧ u.rb (Reg.BST_SCRUB_CTRL .a) 16 = true ∧ itemAt u .a loc = false ∧ chanRetired u .a (locChan loc) = false ∧
      rowRetired u .a loc = false ∧ refreshing u .a loc = false ∧ stagingRoom u .a [loc] = true) := by
  decide +kernel

/-- Port 0 of side A in TRAINING, its lane 0 as ready as a lane can be, and the others left out. -/
def training (q : Port → Port) : State :=
  (List.range' 1 7).foldl (fun t l => t.modLane .a 0 l (fun n => { n with excluded := true }))
    ((on.modPort .a 0 (fun p => q { p with state := .training })).modLane .a 0 0 (fun n => { n with signal := true, lock := true }))

/-- The ALIGN block of lane 0 alone, of a port whose widest code is 0. -/
def alignBlock : BitVec 56 := 0x00000100000000

theorem witness_LanesAreWatchedAndTrained :
    (let u := on.elapse 0; ¬ (u.laneUsed .a 0 7 = true ∧ u.laneRetired .a 0 7 = false)) ∧
    (let u := ((portUp 1 on).modLane .a 0 7 (fun n => { n with missed := 2, signal := true, lock := true })).elapse 0;
      u.laneUsed .a 0 7 = true ∧ u.laneRetired .a 0 7 = false ∧ 2 ≤ (u.lane .a 0 7).missed ∧ (u.lane .a 0 7).faults.third u.now = false) ∧
    (let u := ((portUp 1 on).modLane .a 0 7 (fun n => { n with faults := twice })).elapse 0;
      u.laneUsed .a 0 7 = true ∧ u.laneRetired .a 0 7 = false ∧ (u.lane .a 0 7).faults.third u.now = true) ∧
    (let u := ((portUp 1 on).modLane .a 0 7 (fun n => { n with missed := 1 })).elapse 0;
      ∀ k : Fin 8, u.laneUsed .a 0 k = true → u.laneRetired .a 0 k = true ∨ (u.lane .a 0 k).missed < 2) ∧
    (let u := ((on.modPort .a 0 (fun q => { q with state := .training, firstLock := some 0 }))).elapse 0;
      (u.port .a 0).firstLock = some 0 ∧ (u.port .a 0).state = .training ∧ (u.lane .a 0 7).lock = false ∧
      (u.lane .a 0 7).excluded = false ∧ u.laneRetired .a 0 7 = false ∧ 0 + 3000000 ≤ u.clock.ticks) := by decide +kernel

/-- A port's lanes as a slot of ALIGN blocks is judged. -/
def judged (v : State) : State :=
  (List.range 8).foldl (fun t l => t.modLane .a 0 l (fun k => { k with aligned := k.aligned && k.seen, seen := false })) v

/-- The state in which alignBlock has been taken up on lane 0, as the statement has it. -/
def alignedState (u : State) : State :=
  ((u.bump (Reg.LNK_LANE_STATUS .a 0 0) 23 16 0).modLane .a 0 0 (fun n => { n with
    aligned := true
    seen := true
    missed := 0
    peerLanes := alignBlock.extractLsb' 32 8
    peerWmax := bits alignBlock.toNat 20 19 })).modPort .a 0 (fun q => { q with
      peerId := bits alignBlock.toNat 47 40
      peerRole := bits alignBlock.toNat 23 21 })

theorem witness_LanesAreWatchedAndTrained_align :
    (let u := (training id).elapse 0; (u.lane .a 0 0).lock = true ∧ (u.port .a 0).state = .training ∧ bits alignBlock.toNat 51 49 = 0 ∧
      let w := alignedState u
      workingSet (judged w) .a 0 = [0] ∧ lanesSettled (judged w) .a 0 = true ∧ slotFull w .a 0 = true ∧ (w.port .a 0).state = .training ∧
      (w.port .a 0).stable = 0 ∧ alignDue u .a 0 = true ∧ workingSet (judged u) .a 0 = [] ∧ bits alignBlock.toNat 51 49 ≠ (1 : Fin 8).val) ∧
    (let u := (training (fun p => { p with lastSet := 1, stable := 1 })).elapse 0; let w := alignedState u;
      workingSet (judged w) .a 0 = [0] ∧ lanesSettled (judged w) .a 0 = true ∧ (w.port .a 0).lastSet = laneMask [0] ∧
      (w.port .a 0).lastWmax = 4 * w.rf (Reg.LNK_PORT_CTRL .a 0) 11 10 + 0 ∧ 1 ≤ (w.port .a 0).stable ∧
      roleFits (w.port .a 0).role (w.port .a 0).peerRole = true ∧ widthCode 1 (w.rf (Reg.LNK_PORT_CTRL .a 0) 11 10) 0 = some 3) ∧
    (let u := ((portUp 1 on).modLane .a 0 0 (fun n => { n with lock := true })).elapse 0;
      (u.lane .a 0 0).lock = true ∧ (u.port .a 0).state = .up) ∧
    (let u := ((portUp 1 on).modPort .a 0 (fun q => { q with alignTick := some on.clock.ticks })).elapse 0; alignDue u .a 0 = false) := by decide +kernel

theorem witness_PortsTakeControlFrames :
    (let u := (portUp 1 on).elapse 0; (u.port .a 0).state = .up ∧ roleAccepts (u.role .a 0) 6 = true ∧
      roleAccepts (u.role .a 0) 0 = false ∧ (u.port .a 0).crcSeen = false) ∧
    (let f := goodFrame 6 7 (List.replicate 8 0); checkFrame f = .ok ∧ sofType f.sof = 6 ∧ sofLen f.sof = 1) ∧
    (let f := goodFrame 6 7 (List.replicate 16 0); checkFrame f = .ok ∧ sofType f.sof = 6 ∧ sofLen f.sof ≠ 1) ∧
    (let f := goodFrame 0 0 (List.replicate 8 0); checkFrame f = .ok ∧ checkFrame { f with closed := false } = .format ∧
      checkFrame { f with words := List.replicate 8 1 } = .crc) ∧
    ((0x00#8) ∉ [0x1E#8, 0x2D#8, 0x33#8, 0xE1#8] ∧ ¬ (0x80 ≤ (0x00#8).toNat ∧ (0x00#8).toNat ≤ 0xBF) ∧ bits (0 : BitVec 56).toNat 55 52 = 0) ∧
    (let u := (on.modPort .a 0 (fun q => { q with pauses := [.none, .none, .none, .ticks 1] })).elapse 0;
      (u.port .a 0).pauses.getD 3 .none ≠ .none ∧ ((u.port .a 0).pauses.getD 3 .none).holds u.clock.ticks = false) ∧
    (let u := (portUp 3 on).elapse 0; (u.port .a 0).state = .up ∧ laceRole (u.role .a 0) = true ∧
      (u.port .a 0).rxSentTick + 3000 ≤ u.clock.ticks ∧ (u.port .a 0).creditTick + 3000000 ≤ u.clock.ticks) := by decide +kernel

/-- A batch of one frame on port 0 of side A since tick 0. -/
def batched : State := (portUp 3 on).modLce .a (fun l => { l with batch := [(0, [(none, anyFrame)])] })

theorem witness_BlocksAndFramesCrossThePorts :
    (let u := ((portUp 1 (on.wr (Reg.LNK_STREAM_MAP .a 0) 0xFFFF)).modLnk .a (fun l => { l with egress := [anyBlock] })).elapse 0;
      (u.side .a).lnk.egress.findIdx? (fun b => (assignPort u .a b).isSome) = some 0 ∧ (u.side .a).lnk.egress[0]? = some anyBlock ∧
      assignPort u .a anyBlock = some 0) ∧
    (let u := ((on.modPort .a 15 (fun q => { q with out := some anyFrame })).modLnk .a (fun l => { l with later := [(15, anyFrame, .standby)] })).elapse 0;
      (u.port .a 15).out = some anyFrame ∧ (u.port .a 15).waiting.contains anyFrame = false ∧
      (u.side .a).lnk.later = [((15 : Fin 16).val, anyFrame, .standby)]) ∧
    (let f : Frame := { anyFrame with type := 3, stream := 4 }; let u := (on.modPort .a 15 (fun q => { q with out := some f })).elapse 0;
      (u.port .a 15).out = some f ∧ (∀ e ∈ (u.side .a).lnk.later, e.1 ≠ (15 : Fin 16).val) ∧ f.last = true ∧ f.origin = u.moduleId .a ∧ f.replica = sideNum .a) ∧
    (let f := goodFrame 5 0 (List.replicate 8 0); checkFrame f = .ok ∧ sofType f.sof ≠ 1 ∧ sofType f.sof ≤ 5) ∧
    (let u := (portUp 2 on).elapse 0; (u.port .a 0).state = .up ∧ u.role .a 0 = 2) ∧
    (let u := (portUp 3 on).elapse 0; (u.port .a 0).state = .up ∧ u.role .a 0 = 3 ∧
      barrierAnswer u .a 0 (frameOf (goodFrame 5 0 (List.replicate 8 0))) = none ∧ batchOf u .a 0 = []) ∧
    (let b : Barrier := ⟨waits 0x71, [(0, 0)], 1, 0, 255⟩;
      let f := goodFrame 2 0 (BitVec.ofNat 72 (0x71 * 2 ^ 64 + 2 ^ 56) :: List.replicate 7 0);
      let u := ((portUp 3 on).modLace (fun l => { l with barriers := [b] })).elapse 0;
      checkFrame f = .ok ∧ sofType f.sof = 2 ∧ u.role .a 0 = 3 ∧ barrierAnswer u .a 0 (frameOf f) = some b ∧ u.lace.barriers = [b] ∧
        (u.child .a 0).master = false ∧ u.depth ≠ 8) ∧
    (let u := batched.elapse 0; batchOf u .a 0 ≠ [] ∧ Sparse.get (u.side .a).lce.batchTick 0 0 + 3000 ≤ u.clock.ticks ∧
      (u.side .a).dsp.ready.length < 4096) := by decide +kernel

/-- A TIMING block of a kind, its other bits 0. -/
def timing (kind : Nat) : BitVec 56 := BitVec.ofNat 56 (kind * 2 ^ 52)

/-- The module as a child: port 1 of side A the LACE_UP port, UP, an exchange made, at depth d. -/
def asChild (d : Nat) (s : State) : State :=
  ((s.wr (Reg.LNK_PORT_CTRL .a 1) 2).modPort .a 1 (fun q => { q with state := .up, role := 2 })).modLce .a (fun l => { l with
    exchanged := true
    gotFollow := true
    depth := d })

/-- The module as the master of its array. -/
def asMaster (s : State) : State := s.modPower (fun p => { p with strapMaster := true })

theorem witness_ParentsMeasureTheirChildren :
    (let u := (portUp 3 on).elapse 0; u.live .a = true ∧ (u.exchange .a 0).started = 0 ∧ u.role .a 0 = 3 ∧ (u.port .a 0).state = .up ∧
      u.depth ≠ 8 ∧ bits (timing 5).toNat 55 52 = 5 ∧ bits (timing 6).toNat 55 52 = 6 ∧ bits (timing 2).toNat 55 52 = 2) ∧
    (let u := (portUp 4 on).elapse 0; u.role .a 0 = 4 ∧ (u.port .a 0).state ≠ .disabled ∧ (u.port .a 0).state ≠ .failed) ∧
    (let u := ((portUp 3 on).modExchange .a 0 (fun e => { e with waiting := true, started := 1 })).elapse 0;
      (u.exchange .a 0).waiting = true ∧ bits (timing 2).toNat 51 50 = (u.exchange .a 0).seq ∧ (u.port .a 0).state = .up ∧
      (u.exchange .a 0).started + 30000 < u.clock.ticks) ∧
    (let u := ((portUp 3 on).modExchange .a 0 (fun e => { e with waiting := true, started := on.clock.ticks })).elapse 0;
      (u.exchange .a 0).waiting = true ∧ bits (timing 2).toNat 51 50 = (u.exchange .a 0).seq ∧
      u.clock.ticks ≤ (u.exchange .a 0).started + 30000) ∧
    (let u := (asChild 8 (portUp 3 on)).elapse 0; u.depth = 8 ∧ u.role .a 0 = 3 ∧ (u.port .a 0).state = .up ∧
      u.rb (Reg.LCE_STATUS .a) 16 = false) ∧
    (let u := (asChild 8 (portUp 3 (on.wr (Reg.LCE_STATUS .a) 0x10000))).elapse 0; u.depth = 8 ∧ u.rb (Reg.LCE_STATUS .a) 16 = true) ∧
    (let u := ((portUp 3 on).modChild .a 0 (fun c => { c with roster := 1 })).elapse 0; rosterDup u .a = true ∧
      u.rb (Reg.LCE_STATUS .a) 17 = false) := by decide +kernel

theorem witness_ChildrenFollowTheirParent :
    (let u := (asChild 1 on).elapse 0; u.upPort .a = some 1 ∧ (u.port .a 1).state = .up ∧ bits (timing 1).toNat 55 52 = 1 ∧
      bits (timing 3).toNat 55 52 = 3 ∧ bits (timing 4).toNat 55 52 = 4 ∧ bits (timing 3).toNat 51 50 = (u.side .a).lce.upSeq ∧
      (u.side .a).lce.gotFollow = true ∧ u.power.strapMaster = false ∧ u.arb.primary = .a ∧ u.live .a = true ∧
      u.lace.newTree = false) ∧
    (let u := ((asChild 1 on).modArb (fun b => { b with primary := .b })).elapse 0; Side.a ≠ u.arb.primary) ∧
    (let u := (asChild 1 (inRun .running)).elapse 0; u.trg.run ≠ .idle ∧ u.trg.run = .running) := by decide +kernel

theorem witness_TheBusAndTheReferencesAreFollowed :
    (let u := (portUp 2 on).elapse 0; bits (timing 7).toNat 55 52 = 7 ∧ (u.port .a 0).state = .up ∧ u.role .a 0 = 2 ∧
      u.power.strapMaster = false ∧ u.lace.bus = []) ∧
    (let u := (portUp 3 on).elapse 0; u.role .a 0 = 3 ∧ (u.child .a 0).master = false ∧ u.depth ≠ 8 ∧ u.isRoot = true) ∧
    (let u := (asChild 1 (portUp 3 on)).elapse 0; u.role .a 0 = 3 ∧ u.depth ≠ 8 ∧ u.isRoot = false ∧ u.upPort .a = some 1) ∧
    (let u := (asMaster ((on.wr (Reg.LCE_CTRL .a) 3).wr (Reg.LCE_STATUS .a) 0x2000)).elapse 0; refSelected u = true ∧
      u.rb (Reg.LCE_STATUS u.arb.primary) 13 = true ∧ u.power.strapMaster = true ∧ u.rb (Reg.LCE_CTRL u.arb.primary) 0 = true ∧
      u.power.booted = true ∧ u.lace.timeSet = []) ∧
    (let u := ((asMaster (on.wr (Reg.LCE_CTRL .a) 1)).modLace (fun l => { l with timeSet := [(4, waits 0x74), (5, waits 0x74)] })).elapse 0;
      u.lace.timeSet = [(4, waits 0x74)] ++ [(5, waits 0x74)] ∧ u.lace.barriers = [] ∧ ppsError 5 0 = 5 ∧ ppsError 3000 0 = 3000) ∧
    (let e := ppsError 2999997000 0; e = -3000 ∧ 3000 ≤ e.natAbs) := by decide +kernel

/-- A command at a scheduled time, and one that came down the lace. -/
def timed : Ctx := { spi with sched := true }
def timedDown : Ctx := { timed with bcast := true, target := 0xFF, via := .port .a 0 }

/-- The master with a child on port 0 of side A. -/
def parent : State := asMaster (portUp 3 on)

theorem witness_ArrayCommandsTakeEffect :
    (let u := on.elapse 0; (∀ n, Admitted spi n none u) ∧ innerOk nopPacket = true ∧ innerRefusal nopPacket = none ∧ (u.side .a).mgt.queue.length < 64 ∧ 2 ≤ nopPacket.length ∧ nopPacket.length ≤ 31 ∧
      spi.via ≠ .inner ∧ innerOp nopPacket = 0 ∧ downPorts u u.arb.primary = []) ∧
    (let l := packetOf 0x7F spi false 0 []; innerOk l = true ∧ innerOp l = 0x7F ∧ innerRefusal l = some .badOpcode ∧ 2 ≤ l.length ∧ l.length ≤ 31) ∧
    (let u := parent.elapse 0; (∀ n, Admitted spi n none u) ∧ downPorts u u.arb.primary = [0] ∧ u.isRoot = true) :=
  ⟨⟨fun n => adm (by decide) n rfl rfl, by decide +kernel⟩, by decide +kernel, fun n => adm (by decide +kernel) n rfl rfl, by decide +kernel⟩

theorem witness_ArrayCommandsTakeEffect_timed (t0 : Time) : let u := on.elapse 0
    (∀ op, op = 0x72 ∨ op = 0x73 → Admitted timed (.scheduled op t0) none u) ∧
    (∀ op, op = 0x72 ∨ op = 0x73 → Admitted timedDown (.scheduled op t0) none ((portUp 2 on).elapse 0)) ∧
    ((u.now + 1).toNat % 8 ≠ 0 ∧ u.now.toNat % 8 = 0 ∧ (u.now - u.now).toInt < arrayReach u .a + 6000 ∧ (u.now - u.now).toInt < 6000 ∧ u.isRoot = true ∧
      (u.now + 6000).toNat % 8 = 0 ∧ ((arrayReach u .a + 6000 : Nat) : Int) ≤ (u.now + 6000 - u.now).toInt ∧ timedDown.bcast = true ∧ timed.bcast = false) :=
  ⟨fun op h => adm (by decide) _ rfl rfl, fun op h => by rcases h with h | h <;> subst h <;>
    exact ⟨⟨by decide, rfl, by decide⟩, rfl, fun _ => by decide⟩, by decide +kernel⟩

theorem witness_ArrayCommandsTakeEffect_time :
    (let u := on.elapse 0; (∀ n, Admitted spi n none u) ∧ u.power.strapMaster = false) ∧
    (let u := (asMaster on).elapse 0; (∀ n, Admitted spi n none u) ∧ (u.power.strapMaster = true ∧ u.trg.run = .idle ∧
      bit (0 : Word).toNat 0 = false ∧ bit (1 : Word).toNat 0 = true ∧ u.rb (Reg.LCE_CTRL u.arb.primary) 0 = false)) ∧
    (let u := (asMaster (on.wr (Reg.LCE_CTRL .a) 1)).elapse 0; (∀ n, Admitted spi n none u) ∧
      u.rb (Reg.LCE_CTRL u.arb.primary) 0 = true) ∧
    (let u := ((on.wr (Reg.EVT_TELEM .a) 1).modLace (fun l => { l with snapshotAt := [0] })).elapse 0; u.lace.snapshotAt = [0] ∧
      reached u.now 0 = true ∧ u.live .b = true ∧ (u.side .b).dsp.delay.length < 1024 ∧ enginesRun u .a = true ∧
      u.rf (Reg.EVT_TELEM .a) 7 0 * 30000000 ≠ 0 ∧
      (u.side .a).mgt.telemAt ≠ some (BitVec.ofNat 64 (u.now.toNat / 30000000 * 30000000))) :=
  ⟨⟨fun n => adm (by decide) n rfl rfl, by decide⟩, ⟨fun n => adm (by decide) n rfl rfl, by decide +kernel⟩,
    ⟨fun n => adm (by decide) n rfl rfl, by decide +kernel⟩, by decide +kernel⟩

/-- Housekeeping changed. -/
def hk (f : Hk → Hk) : State := on.modHk f

theorem witness_HousekeepingConvertsAndWatches :
    (let u := ((hk (fun h => { h with seq := [63, 1], began := some 0 })).wr (Reg.HK_LIM_CTRL 63) 1).elapse 0;
      u.hk.began = some 0 ∧ u.baseUp = true ∧ 0 + 120000000 ≤ u.clock.ticks ∧ nth u.hk.seq u.hk.pos = 63 ∧
      u.rb (Reg.HK_LIM_CTRL 63) 0 = true) ∧
    (let u := (hk (fun h => { h with seq := [0], began := some 0 })).elapse 0; nth u.hk.seq u.hk.pos = 0 ∧
      ¬ (u.hk.pos + 1 < u.hk.seq.length) ∧ u.rb (Reg.HK_LIM_CTRL 0) 0 = false) ∧
    (let u := (hk (fun h => { h with inj := some ([5, 63], 0, 0), cal := some 0 })).elapse 0; u.hk.inj = some ([5, 63], 0, 0) ∧
      0 + 7500000 ≤ u.clock.ticks ∧ nth [5, 63] 1 = 63 ∧ u.hk.cal.isSome = true) ∧
    (let u := (hk (fun h => { h with cal := some 0 })).elapse 0; u.hk.cal = some 0 ∧ u.hk.inj = none ∧
      (List.replicate 7 (⟨0, 0⟩ : PathFactor)).length = 7 ∧ 0 + 288000000 ≤ u.clock.ticks) ∧
    (let u := ((on.wr Reg.HK_BIAS_CTRL 1).wr Reg.HK_INJ_CTRL 0x101).elapse 0; u.rf Reg.HK_BIAS_CTRL 7 0 ≠ 0 ∧ u.hk.tripped = none ∧ 1 * 40 < 41 ∧
      u.rb Reg.HK_INJ_CTRL 0 = true ∧ u.hk.inj = none ∧ u.rf Reg.HK_INJ_CTRL 11 8 ≠ 0 ∧ u.now.toNat / 300000000 ≠ u.hk.loopTick ∧
      u.rb Reg.HK_LOOP_STATUS 2 = false ∧ u.rb Reg.HK_LOOP_CTRL 9 = false ∧ u.rf Reg.HK_LOOP_STATUS 31 16 + 500 < 70000) ∧
    (let u := (hk (fun h => { h with tripped := some 0 })).elapse 0; u.hk.tripped = some 0 ∧ 0 + 3000000 ≤ u.clock.ticks) := by decide +kernel

/-- Pin 11 with a function, switching or not. -/
def pin11 (f : Word) (sw : Option (Nat × Option Nat)) : State := (on.wr (Reg.MP_CTRL 11) f).modPin 11 (fun p => { p with switch := sw })

theorem witness_PinsSwitchWithoutEdges :
    (let u := ((pin11 1 none).modTrg (fun g => { g with run := .armed })).elapse 0; u.baseUp = true ∧ inputFunc (pinFunc u 11) = true ∧
      switching u 11 = false ∧ pinLevel u 11 true ≠ u.rb Reg.MP_IN 11 ∧ pinFunc u 11 = 1 ∧ trgTakes u = true) ∧
    (let u := (pin11 6 none).elapse 0; pinFunc u 11 = 6 ∧ switching u 11 = false ∧ pinFunc ((pin11 4 none).elapse 0) 11 = 4) ∧
    (let u := ({ on with clock := { on.clock with ticks := 5 } }.wr (Reg.MP_CTRL 11) 1).modPin 11 (fun p => { p with switch := some (0, none) });
      (u.pin 11).switch = some (0, none) ∧ u.clock.ticks < 0 + 183105 ∧ 0 + 2 ≤ u.clock.ticks) ∧
    (let u := { on with clock := { on.clock with ticks := 1 } }.modPin 11 (fun p => { p with switch := some (0, none) });
      (u.pin 11).switch = some (0, none) ∧ u.clock.ticks < 0 + 2 ∧ bits (4 : Word).toNat 3 0 = 4 ∧ bits (6 : Word).toNat 3 0 = 6 ∧ bits (3 : Word).toNat 3 0 < 4) ∧
    (let u := ((pin11 2 none).wr Reg.HK_INJ_CTRL 0x104).elapse 0; pinFunc u 11 = 2 ∧ pinLevel u 11 (!u.rb (Reg.MP_CTRL 11) 5) = true ∧
      u.rb Reg.MP_IN 11 = false ∧ u.rb Reg.HK_INJ_CTRL 2 = true ∧ u.hk.inj = none ∧ u.rf Reg.HK_INJ_CTRL 11 8 ≠ 0) ∧
    (let u := (((pin11 2 none).wr Reg.HK_INJ_CTRL 0x104).modHk (fun h => { h with inj := some ([5], 0, 0) })).elapse 0; u.hk.inj ≠ none) ∧
    (let u := (pin11 1 (some (0, none))).elapse 0; (u.pin 11).switch = some (0, none) ∧ 0 + 183105 ≤ u.clock.ticks ∧
      inputFunc (pinFunc u 11) = true) ∧
    (let u := (pin11 4 (some (0, none))).elapse 0; inputFunc (pinFunc u 11) = false) ∧
    (let u := (pin11 1 (some (0, some 0))).elapse 0; (u.pin 11).switch = some (0, some 0) ∧ 0 + 183106 ≤ u.clock.ticks) := by
  decide +kernel

/-- Lists in force changed. -/
def withLists (f : Lists → Lists) (s : State) : State := s.modBg (fun b => { b with inForce := f b.inForce })

theorem witness_RetirementsAreListed : let u := on.elapse 0
    (∀ n, Admitted spi n none u) ∧
    (retireRange 0 0 = false ∧ retireRange 10 2 = false ∧
      (∀ p ∈ [(1, 1048575), (2, 65539), (3, 65535), (4, 63), (5, 255), (6, 4194303), (7, 15), (8, 47), (9, 31), (10, 1)],
        retireRange p.1 p.2 = true ∧ bits (BitVec.ofNat 32 p.1 : Word).toNat 7 0 = p.1) ∧
      255 ∉ u.bg.inForce.lanes ∧ rowEntry .a 4194303 ∉ u.bg.inForce.rows ∧ u.arb.svc.get (sideOf 1) ≠ .retired ∧
      u.serving (peerOf (sideOf 1)) = true) ∧
    (let v := simplex.elapse 0; v.arb.svc.get (sideOf 0) ≠ .retired ∧ v.serving (peerOf (sideOf 0)) = false) ∧
    (let v := (withLists (fun l => { l with pixels := [5], lanes := [255], rows := List.range 512 |>.map (· * 16) }) on).elapse 0;
      fit spi v = true ∧ v.pixelRetired 5 = true ∧ 255 ∈ v.bg.inForce.lanes ∧ rowEntry .a 16 ∈ v.bg.inForce.rows ∧
      rowEntry .a 8192 ∉ v.bg.inForce.rows ∧ 512 ≤ (v.bg.inForce.rows.filter (fun r => r / 2 ^ 22 = 0 && r % 16 = 8192 % 16)).length ∧
      5 ∈ listed v .a 1 ∧ 6 ∉ listed v .a 1 ∧ v.trg.run = .idle) ∧
    (let v := (withLists (fun l => { l with pixels := [5] }) (inRun .running)).elapse 0; fit spi v = true ∧ 5 ∈ listed v .a 1 ∧
      v.trg.run ≠ .idle) ∧
    (let v := ((vinGood on).modBg (fun b => { b with updating := some Lists.empty, again := true })).elapse 0; v.bg.updating = some Lists.empty ∧
      vinOutside v = false ∧ v.serving .a = true ∧ v.bg.again = true ∧ vinOutside (on.elapse 0) = true ∧ (on.elapse 0).bg.updating = none) :=
  ⟨fun n => adm (by decide) n rfl rfl, by decide +kernel⟩

theorem witness_BackgroundWorkKeepsItsTotals :
    (let u := (on.wr Reg.HK_DOSE_CTRL 1).elapse 0; u.baseUp = true ∧ u.bg.doseTick + 3000000000 ≤ u.clock.ticks ∧ u.bg.tileRest = [] ∧
      u.rf Reg.HK_DOSE_CTRL 15 0 = 1 ∧ u.bg.saveTick + 1 * 180000000000 ≤ u.clock.ticks ∧ u.bg.updating = none ∧ vinOutside u = true ∧
      vinOutside ((vinGood on).elapse 0) = false) ∧
    (let u := ((on.wr Reg.TIL_SRAM_SCRUB 1).wr (Reg.MGT_SRAM_SCRUB .a) 1).elapse 0; u.rb Reg.TIL_SRAM_SCRUB 16 = false ∧
      u.bg.scrubTick + sramPeriod u Reg.TIL_SRAM_SCRUB ≤ u.clock.sram ∧ u.live .a = true ∧ u.rb (Reg.MGT_SRAM_SCRUB .a) 16 = false ∧
      (u.side .a).mgt.scrubTick + sramPeriod u (Reg.MGT_SRAM_SCRUB .a) ≤ u.clock.sramSide.get .a) ∧
    (let u := ((on.wr Reg.TIL_SRAM_SCRUB 0xFFFF).modBg (fun b => { b with scrubTick := on.clock.sram })).elapse 0;
      ¬ (u.bg.scrubTick + sramPeriod u Reg.TIL_SRAM_SCRUB ≤ u.clock.sram)) := by decide +kernel

/-- An entry of source 1 that waits. -/
def oneEntry : EvEntry := ⟨1, 2, false, 65535, 0, 0, 0, noInst, false, [], []⟩
def queued (l : List EvEntry) (s : State) : State := s.modEvt .a (fun v => { v with queue := l, next := 1 })

theorem witness_EveryRaiseIsRecorded :
    (Sparse.get (on.side .a).evt.recs 1 SrcRec.zero).count = 0 ∧ evEnabled .a 1 (on.wr (Reg.EVT_EN .a 0) 0) = false ∧ (2 : Nat) ≠ 3 ∧
    (evEnabled .a 1 (on.wr (Reg.EVT_EN .a 0) 2) = true ∧ oneEntry.takes 1 2 noInst = true ∧
      ((queued [oneEntry] on).side .a).evt.queue = [] ++ oneEntry :: [] ∧ (∀ e ∈ (on.side .a).evt.queue, e.takes 1 2 noInst = false) ∧
      (on.side .a).evt.queue.length < 512 ∧ (∀ k, (on.side .a).evt.round = some k → k.tick ≠ on.clock.ticks)) ∧
    on.rb (Reg.EVT_FF_STATUS .a) 31 = false ∧ (on.wr (Reg.EVT_FF_STATUS .a) 0x80000000).rb (Reg.EVT_FF_STATUS .a) 31 = true := by
  decide +kernel

/-- A queue with no room: 512 entries that take no raise of source 1, the first of severity low and the others CRITICAL. -/
def fullQueue (low : Nat) : State :=
  queued ({ oneEntry with src := 2, sev := low } :: List.replicate 511 { oneEntry with src := 2, sev := 3 }) on

theorem witness_EveryRaiseIsRecorded_full :
    (let q := ((fullQueue 0).side .a).evt.queue; (∀ e ∈ q, e.takes 1 2 noInst = false) ∧ 512 ≤ q.length ∧
      q = [] ++ { oneEntry with src := 2, sev := 0 } :: q.tail ∧ (∀ e ∈ q, e.sending = [] → 0 ≤ e.sev) ∧
      evEnabled .a 1 ((fullQueue 0).wr (Reg.EVT_EN .a 0) 2) = true) ∧
    (let q := ((fullQueue 3).side .a).evt.queue; (∀ e ∈ q, e.takes 1 2 noInst = false) ∧ 512 ≤ q.length ∧
      ∀ e ∈ q, e.sending = [] → 2 < e.sev) := by decide +kernel

theorem witness_EventsAreSubscribedSentAndAcknowledged :
    (let u := (queued [oneEntry] (portUp 3 on)).elapse 0; (∀ n, Admitted spi n none u) ∧ (privileged u spi.via = true ∧
      (bit (0x40001 : Word).toNat 18 = true ∧ bit (0x40001 : Word).toNat 0 = true ∧ u.role .a 0 ≠ 1) ∧ bit (1 : Word).toNat 18 = false ∧
      (∀ k, (u.side .a).evt.round = some k → k.tick ≠ u.clock.ticks) ∧ seqLater 0 ((evRound .a u).base.next - 1) = false ∧ seqLater (u.rd (Reg.EVT_ACKED .a)) 0 = false ∧
      seqLater 1 ((evRound .a u).base.next - 1) = true ∧ u.live .a = true)) ∧
    (let u := (on.wr (Reg.MGT_PRIV_PORTS .a) 0).elapse 0; Admitted port0 (.eventSubscribe 1) none u ∧
      (privileged u port0.via = false ∧ (∀ p, p < 16 → bit (1 : Word).toNat p = decide (p = 0)))) ∧
    (let u := (queued [oneEntry] ((portUp 1 on).wr (Reg.EVT_SUB .a 0) 4)).elapse 0; (u.port .a 0).state = .up ∧ u.role .a 0 = 1 ∧
      (u.side .a).evt.queue.filter (unsentOn .a 0 u) = [oneEntry] ∧ min (min (allowNow u .a 0 / allowUnit) 1) 64 ≠ 0) ∧
    (on.elapse 0 |>.port .a 15).state ≠ .up :=
  ⟨⟨fun n => adm (by decide +kernel) n rfl rfl, by decide +kernel⟩,
    ⟨⟨⟨by decide +kernel, rfl, by decide +kernel⟩, by decide +kernel, fun h => absurd h (by decide)⟩, by decide +kernel⟩, by decide +kernel, by decide +kernel⟩

theorem witness_BlocksAndFramesCrossThePorts_lace :
    (let u := ((portUp 3 on).modChild .a 0 (fun c => { c with master := true })).elapse 0;
      (u.port .a 0).state = .up ∧ u.role .a 0 = 3 ∧ (u.child .a 0).master = true) ∧
    (let u := (asChild 8 (portUp 3 on)).elapse 0; (u.port .a 0).state = .up ∧ u.role .a 0 = 3 ∧ u.depth = 8) ∧
    (let u := (portUp 3 on).elapse 0; (u.child .a 0).master = false ∧ u.depth ≠ 8) ∧
    (let w := Work.merge 0 [(0, anyFrame)]; let s := batched.modDsp .a (fun d => { d with held := [⟨.merge 0 [], 0⟩] }); let u := s.elapse 0;
      batchOf u .a 0 ≠ [] ∧ Sparse.get (u.side .a).lce.batchTick 0 0 + 3000 ≤ u.clock.ticks ∧
      behindMerge (u.side .a).dsp w = true ∧ behindMerge (batched.elapse 0 |>.side .a).dsp w = false ∧
      (takeBatch (batchOf (admitBatch .a 0 u) .a 0)).1 ≠ []) ∧
    (let u := ((portUp 3 (noRoom on)).modLce .a (fun l => { l with
        batch := [(0, [(none, { anyFrame with words := List.replicate 8 0 })])] })).elapse 0;
      batchOf u .a 0 ≠ [] ∧ (takeBatch (batchOf (admitBatch .a 0 u) .a 0)).1 = []) := by decide +kernel

theorem witness_ArrayCommandsTakeEffect_barrier :
    (let u := on.elapse 0; downPorts u u.arb.primary = [] ∧
      ((taken .a spi u).waitingCmds.all (fun w => decide (u.clock.ticks < w.since))) = true ∧
      ((taken .a spi u).side .b).mgt.queue.all (fun p => decide (u.clock.ticks < p.since)) = true) ∧
    (let u := (on.modPower (fun p => { p with changing := some { waits 0x33 with x := .b } })).elapse 0;
      fit spi u = true ∧ ((taken .a spi u).waitingCmds.all (fun w => decide (u.clock.ticks < w.since))) = false) ∧
    (let l := packetOf 0x71 spi false 0 []; innerOk l = true ∧ 0x70 ≤ innerOp l ∧ innerOp l ≤ 0x74 ∧ 2 ≤ l.length ∧ l.length ≤ 31) := by
  decide +kernel

theorem witness_ArrayCommandsTakeEffect_retry :
    1024 ≤ ((on.modDsp .a (fun d => { d with delay := List.replicate 1024 (0, oneItem, 0) })).elapse 0 |>.side .a).dsp.delay.length := by
  show 1024 ≤ (List.replicate 1024 ((0 : Nat), oneItem, (0 : Time))).length
  rw [List.length_replicate]

theorem witness_ChildrenFollowTheirParent_step :
    let u := ((asChild 1 on).modLce .a (fun l => { l with t2 := 100000 })).elapse 0; let l := (u.side .a).lce; let v := (timing 4).toNat
    let hist := (bits v 25 0 :: l.upHist).take 16; let mean := meanOf hist
    let t1 : Time := if l.exchanged then extend40 l.t1Low u.now else BitVec.ofNat 64 (bits v 49 26 * 2 ^ 40 + l.t1Low)
    let e : Int := (t1 - l.t2).toInt * 1024 + l.t1Fine - l.t2Fine + (mean / 2 : Nat) - signed 20 l.asym
    (¬ e.natAbs < 1024 ∧ u.lace.newTree = false ∧ u.trg.run = .idle) ∧
    (let u := (asChild 1 on).elapse 0; u.live .a = true ∧ bits (timing 4).toNat 51 50 = (u.side .a).lce.upSeq) := by decide +kernel

theorem witness_RepeatsAreReplayedAndSilentPeersTimeOut_ports :
    let crc : Word := (nopPacket.getD 1 0).setWidth 32; let f := goodFrame 1 0 (padGroup nopPacket)
    let tag := BitVec.ofNat 8 (hdr ((nopPacket.take 1).headD 0) 63 56)
    let e : Cached := ⟨.port .a 0, 1, crc, ⟨0, 1, 0, 0, 0, []⟩, 1000000000000⟩
    let s := portUp 1 on; let u := (s.modMgt .a (fun m => { m with cache := [e] })).elapse 0
    (takePacket f.words = some (nopPacket.take 1, paramWord crc) ∧ crc.toNat = crc32 (wordsBytes (nopPacket.take 1)) ∧
      hdr ((nopPacket.take 1).headD 0) 35 35 = 0 ∧ findCached u.clock.ticks (.port .a 0) tag crc (u.side .a).mgt.cache = some e) ∧
    (let v := (s.modMgt .a (fun m => { m with queue := [⟨.port .a 0, nopPacket.take 1, crc, 0⟩] })).elapse 0;
      findCached v.clock.ticks (.port .a 0) tag crc (v.side .a).mgt.cache = none ∧ stillHeld v .a (.port .a 0) tag crc = true) ∧
    (let v := (s.modMgt .a (fun m => { m with queue := [⟨.spi, nopPacket.take 1, crc, 0⟩] })).elapse 0;
      findCached v.clock.ticks .spi tag crc v.spi.cache = none ∧ stillHeld v .a .spi tag crc = true) := by decide +kernel

theorem witness_SidesLeaveAndReturn_lists :
    (let u := ((starting 1).modArb (fun b => { b with booting := ⟨none, some 0⟩ })).modPower (fun p => { p with booted := false }) |>.elapse 0;
      (u.arb.booting.get .b).isSome = true ∧ u.power.booted = false ∧ u.arb.svc.get .b ≠ .retired ∧
        u.power.wake.any (fun q => (sideUnits .b).contains q.1) = false) ∧
    ((on.modPower (fun p => { p with mode := .standby })).elapse 0).power.mode = .standby := by decide

theorem witness_RetiredResourcesAreNotCounted :
    (retireAdc 5 on).adcRetired 5 = true ∧ (retireDigitizer 5 on).digiRetired 5 = true ∧ ([] : List AdcMeas).head?.any faPasses = false := by
  decide +kernel

theorem witness_ArrayCommandsTakeEffect_below : barrierPorts (parent.elapse 0) ≠ [] ∧ fit spi (parent.elapse 0) = true := by decide +kernel

theorem witness_CalibrationCommandsBegin_late : (on.elapse 0).late = [] := rfl

theorem witness_BackgroundWorkKeepsItsTotals_finds : beyondCode (3 : Word72) = true ∧ beyondCode (1 : BitVec 120) = false ∧
    enginesRun (on.elapse 0) .a = true ∧ engRetired (on.elapse 0) .a 47 = false ∧ enginesRun State.reset .a = false ∧
    ((on.elapse 0).eng .a 47).faults.third (on.elapse 0).now = false ∧
    ((on.modEng .a 47 (fun e => { e with faults := twice })).elapse 0 |>.eng .a 47).faults.third on.now = true := by decide +kernel

theorem witness_RetirementsAreListed_again :
    (let u := on.elapse 0; rowEntry .a 5 ∉ u.bg.inForce.rows ∧ u.bg.again = false) ∧
    (let u := (retireChannel .a 15 on).elapse 0; chanRetired u .a 15 = true) ∧
    (let u := (retireEngine .a 47 on).elapse 0; engRetired u .a 47 = true) ∧
    (let u := (retireCompressor .a 31 on).elapse 0; compRetired u .a 31 = true) ∧
    (let u := (simplex.modArb (fun b => { b with svc := ⟨.inService, .retired⟩ })).elapse 0; u.arb.svc.get (sideOf 1) = .retired) := by
  decide +kernel

/-- What a side's scrub access can find: a write that waits on channel 15, a unit in staging memory, and one in the assembly buffer. -/
def scrubbed : State :=
  ((((on.wr (Reg.MGT_SRAM_SCRUB .a) 1).modChan .a 15 (fun c => { c with queue := [⟨5, 0, [1, 2], 0x1FF⟩] })).modDsp .a (fun d =>
    { d with units := [unitAt 64 0] })).modCmp .a (fun c => { c with outputs := [anyOutput] })).modLnk .a (fun l =>
    { l with egress := [{ anyBlock with words := [7] }] })

theorem witness_BackgroundWorkKeepsItsTotals_sides :
    (let u := scrubbed.elapse 0; u.live .a = true ∧ u.rb (Reg.MGT_SRAM_SCRUB .a) 16 = false ∧
      (u.side .a).lnk.egress[0]? = some { anyBlock with words := [7] } ∧ [(7 : Word72)][0]? = some 7 ∧
      (u.chan .a 15).queue[0]? = some ⟨5, 0, [1, 2], 0x1FF⟩ ∧ [(1 : BitVec 120), 2][(1 : Fin 8).val]? = some 2 ∧
      unitAt 64 0 ∈ (u.dsp .a).units ∧ (unitAt 64 0).number = 64 ∧ (unitAt 64 0).held = none ∧
      (u.side .a).cmp.outputs.find? (fun q => q.unit = 64) = some anyOutput ∧ anyOutput.spill = none ∧ unitKind (64 : BitVec 48).toNat < 2 ∧
      takenOf u .a anyOutput = 0 ∧ 1 < anyOutput.words.length) := by decide +kernel

theorem witness_EventsAreSubscribedSentAndAcknowledged_copies :
    let u := (queued [oneEntry] ((portUp 1 on).wr (Reg.EVT_SUB .a 0) 4)).elapse 0
    let ws := [oneEntry].flatMap entryWords ++ List.replicate 4 0
    let v := (queued [oneEntry] ((portUp 1 on).wr (Reg.EVT_SUB .a 0) 4) |>.modEvt .a (fun e => { e with formed := [(9, ws)] })).elapse 0
    (u.side .a).evt.formed.find? (fun e => e.2 = ws) = none ∧ (v.side .a).evt.formed.find? (fun e => e.2 = ws) = some (9, ws) ∧
      (v.port .a 0).state = .up ∧ v.role .a 0 = 1 := by decide +kernel

/-! ### Ill-formed commands, refused by each check of WellFormed -/

/-- A frame whose words are no whole word group. -/
def oddFrame : RxFrame := ⟨0, [0], 0, true⟩

theorem test_wf_frames : Instr.wf (.cmdFrameReceived 0 .a 0 oddFrame false) = false ∧ Instr.wf (.pause 0 .a 0 oddFrame) = false ∧
    Instr.wf (.laceFrameReceived 0 .a 0 oddFrame) = false ∧ Instr.wf (.frameNotAccepted 0 .a 0 oddFrame) = false ∧
    RxFrame.wf ⟨0, [], 0, true⟩ = false ∧ RxFrame.wf ⟨0, List.replicate 520 0, 0, true⟩ = false ∧
    Instr.wf (.pause 0 .a 0 (goodFrame 6 7 (List.replicate 8 0))) = true := by decide +kernel

theorem test_wf_lengths : Instr.wf (.readBlock 0 spi 0 0 []) = false ∧ Instr.wf (.readBlock 0 spi 0 61 []) = false ∧
    Instr.wf (.writeBlock 0 spi 0 2 [1]) = false ∧ Instr.wf (.writeBlock 0 spi 0 0 []) = false ∧
    Instr.wf (.writeBlock 0 spi 0 61 (List.replicate 61 0)) = false ∧ Instr.wf (.spiWrite 0 [] false) = false ∧
    Instr.wf (.hkCalDone 0 []) = false ∧ Instr.wf (.arrayBroadcast 0 spi [0]) = false ∧
    Instr.wf (.arrayBroadcast 0 spi (List.replicate 32 0)) = false ∧ Instr.wf (.patrolScrubAccess 0 .a [] []) = false ∧
    Instr.wf (.doseSecond 0 []) = false := by decide +kernel

theorem test_wf_repeats : Instr.wf (.faCalAttemptEnd 0 [⟨5, true, 0, 0⟩, ⟨5, true, 0, 0⟩]) = false ∧
    Instr.wf (.threshScanDone 0 [5, 5]) = false ∧ Instr.wf (.readBlock 0 spi 0 1 [0, 0]) = false ∧
    Instr.wf (.configApply 0 spi 1 0 [5, 5]) = false ∧ Instr.wf (.lastStore 0 spi 0 true false [5, 5]) = false ∧
    Instr.wf (.etdCalFill 0 0 [⟨7, 0, false, 1⟩, ⟨7, 1, false, 1⟩]) = false ∧ Instr.wf (.pixScrubPass 0 [⟨5, 0⟩, ⟨5, 1⟩] []) = false ∧
    Instr.wf (.pixScrubPass 0 [] [5, 5]) = false ∧ Instr.wf (.frameConversionEnd 0 0 [⟨5, 0, 0⟩, ⟨5, 0, 0⟩] []) = false ∧
    Instr.wf (.frameConversionEnd 0 0 [] [5, 5]) = false := by decide +kernel

theorem test_wf_codes : Instr.wf (.hkConversionDone 0 8388608 false) = false ∧ Instr.wf (.hkInjectedConversionDone 0 (-8388609) false) = false ∧
    Instr.wf (.hkConversionDone 0 8388607 false) = true := by decide

/-- The table gives no row bits. -/
theorem test_no_row_has_bits : decodeTableWord 8 0 = none ∧ State.reset.withFetchWord 8 0 = State.reset := ⟨rfl, rfl⟩

/-! ### The worked examples of the spec -/

/-- Pixel (301, 702) (01_stack_and_data_path.md). -/
theorem test_pixel_numbers : pixTile 719149 = 42 ∧ pixLocal 719149 = 7981 ∧ pixSuper 719149 = 43499 ∧ globalPix 42 7981 = 719149 ∧
    Reg.TIL_CTRL 42 = 0x003A0000 := by decide

/-- The four words of the four-pixel cluster, and its CLUSTER_HEAD (07_stream_engines.md). -/
def groupOne : List Word72 := [0x2A7CB41234566942D1, 0x68A1170786958B6061]
def groupTwo : List Word72 := [0x2A80B412345C190140]

theorem test_cluster_head : clusterHead 60 42 (BitVec.ofNat 64 (262216 * 16384)) (BitVec.ofNat 64 (262217 * 16384)) [groupOne, groupTwo] =
    0xCA00805AB9F400006B := by decide +kernel

/-- The one-unit block: its input after the delta step and the shuffle, its stored form, its first words (08_compression.md,
10_lanes_and_waimas_framing.md). -/
def sparseUnit : List Word72 := [0xC2A8C0000000040048, 0xCA00805AB9F400006B] ++ groupOne ++ groupTwo ++ [0xC3A800040000040048]

theorem test_hit_transform : transform true sparseUnit =
    [0xC2, 0xCA, 0x2A, 0x68, 0x2A, 0xC3, 0xA8, 0x00, 0x7C, 0xA1, 0x04, 0xA8, 0xC0, 0x80, 0xB4, 0x17, 0x00, 0x00,
     0x00, 0x5A, 0x12, 0x07, 0x00, 0x04, 0x00, 0xB9, 0x34, 0x86, 0x00, 0x00, 0x00, 0xF4, 0x56, 0x95, 0x06, 0x00,
     0x04, 0x00, 0x69, 0x8B, 0x19, 0x04, 0x00, 0x00, 0x42, 0x60, 0x01, 0x00, 0x48, 0x6B, 0xD1, 0x61, 0x40, 0x48] := by decide +kernel

/-- The SOF_CRC of that block's frame (10_lanes_and_waimas_framing.md). -/
theorem test_sof_crc : crc8 (bytesBE 8 0x800100000000122A) = 0xCB := by decide +kernel

/-- The window slides: the faults at 0 s, 400 s, 700 s and 950 s (17_faults_and_background_work.md). -/
theorem test_fault_window : let f := (Faults.clear.push 0).push 1200000000000
    Faults.clear.third 0 = false ∧ (Faults.clear.push 0).third 1200000000000 = false ∧ f.third 2100000000000 = false ∧
    (f.push 2100000000000).third 2850000000000 = true := by decide +kernel

/-- Word 0 of the WRITE_REG of the worked example (13_commands_privilege_measurement.md). -/
theorem test_packet_word : (packetOf 0x03 ⟨.port .a 0, 0x17, 5, false, false, 0, 0, .agree⟩ false 0x003A0000 [3]).headD 0 =
    0x0317010500003A0000 := by decide +kernel

/-- The ten words of the one-unit block, less its check (08_compression.md). -/
theorem test_sparse_block :
    let b := (packBlock ⟨⟨0, 0xFFFFFFFF, 0x122A, 0⟩, false, false, false, 1, sparseUnit, [], 0, none, none, true⟩).1
    b.length = 10 ∧ b.take 3 = [0xE0FFFFFFFF01004003, 0xE0000700000000122A, 0x013600C9FFC2CA2A68] ∧
    b.getD 8 0 = 0x6BD161404800000000 ∧ bits (b.getD 9 0).toNat 31 0 = 6 := by decide +kernel

/-- A field of the state that a command leaves; nothing where the command stops. -/
def after {α : Type} (f : State → α) : Host.Outcome State Fault Refusal → Option α
  | .next t => some (f t)
  | _ => none

/-- One hop: the ECHO 403 ticks after T1 gives the RTT, and FOLLOW and RTT go out (12_lace_arrays_and_time.md). -/
theorem test_echo_gives_rtt :
    let s := ({ portUp 3 on with clock := { on.clock with now := 0x100000000 + 403 } }).modExchange .a 0 (fun _ =>
      ⟨1, 0x100000000, 0, 1000000000000, true, []⟩)
    after (fun t => ((t.exchange .a 0).hist, (t.side .a).lce.timing)) (exec (.echoReceived 0 .a 0 0x24000000016800 0) s) =
      some ([320512], [(0, 0x34040000000000), (0, 0x4400000004E400)]) := by decide +kernel

/-- The child's offset in that example: −10 240 FU, and in IDLE it steps back by 10 ticks. -/
theorem test_rtt_gives_offset :
    let s := (asChild 1 { on with clock := { on.clock with now := 0x100000000 + 676 } }).modLce .a (fun l =>
      { l with t2 := 0x100000000 + 166, upSeq := 1, t1Low := 0x100000000, asym := 512 })
    after (fun t => (t.rd (Reg.LCE_OFFSET .a), t.now)) (exec (.rttReceived 0 .a 0x4400000004E400 (some (0, 0))) s) =
      some (BitVec.ofInt 32 (-10240), 0x100000000 + 666) := by decide +kernel

/-! ### One step -/

/-- NOP over the service SPI replies OK (R446). -/
theorem test_nop_replies : after (fun t => t.spi.replies) (exec (.nop 0 spi) on) = some [(.a, ⟨0, 1, 0, 0, 0, []⟩)] := by decide +kernel

/-- VAON without a feed takes the module from OFF to DORMANT (R519, R523). -/
theorem test_vaon_valid : after (fun t => (t.power.mode, t.pending)) (step { State.reset with pending := [.vaonValid 0] }) =
    some (.dormant, []) := by decide +kernel

/-- A current one step above HK_BIAS_CTRL.OC_THR sets HK_STATUS.OC; one at the threshold does not (R503). -/
theorem test_overcurrent : after (fun t => t.rb Reg.HK_STATUS 3) (exec (.overcurrentTrip 0 41) (on.wr Reg.HK_BIAS_CTRL 1)) = some true ∧
    after (fun t => t.rb Reg.HK_STATUS 3) (exec (.overcurrentTrip 0 40) (on.wr Reg.HK_BIAS_CTRL 1)) = some false := by
  decide +kernel

/-- READ_REG of MGT_PRIV_PORTS of side A replies with its reset value (R447, R469). -/
theorem test_read_register : after (fun t => t.spi.replies.map (fun q => (q.2.status, q.2.r1))) (exec (.readReg 0 spi 0x01000000 false) on) =
    some [(0, 1)] := by decide +kernel

end Sys2Proof.Tests
end

section
namespace Sys2Proof.Machine

/-! ### O7: the bits of the word that a register write stores -/

theorem mixBits_bit (old mask new : Word) {i : Nat} (h : i < 32) :
    (mixBits old mask new).getLsbD i = if mask.getLsbD i then new.getLsbD i else old.getLsbD i := by
  simp only [mixBits, BitVec.getLsbD_or, BitVec.getLsbD_and, BitVec.getLsbD_not, h, decide_true, Bool.true_and]
  cases mask.getLsbD i <;> simp

theorem clearedBy_bit (a : Nat) (v : Word) (s : State) {i : Nat} (h : i < 32) :
    (clearedBy a v s).getLsbD i = ((strobeBits a).getLsbD i && !(actionBits a).getLsbD i && v.getLsbD i &&
      !(((s.setNow a).map (fun q : Word × Word => q.2)).getD 0).getLsbD i) := by
  simp only [clearedBy, BitVec.getLsbD_and, BitVec.getLsbD_not, h, decide_true, Bool.true_and]
  ac_rfl

/-- Settles O7: the written word is old bits and written ones by the mask of the RW fields, less what the W1C fields clear. -/
theorem registerWriteFollowsItsFieldTypes : Obligations.RegisterWriteFollowsItsFieldTypes := by
  intro a v s i hi
  refine ⟨?_, Only.wr s a _ rfl⟩
  rw [store, State.rd_wr_self, BitVec.getLsbD_and, BitVec.getLsbD_not, mixBits_bit _ _ _ hi, clearedBy_bit _ _ _ hi]
  simp only [hi, decide_true, Bool.true_and]
  exact (by decide : ∀ b c : Bool, (b && !c) = if c then false else b) _ _

end Sys2Proof.Machine
end

section
namespace Sys2Proof.Machine

/-! ### O8: what an access to a tile's block takes in sets fields in the tick of the access -/

/-- An active module in a run, tile 0 a frame tile, and the head of a frame due in its FIFO at the present tick. -/
def pairDueNow : State :=
  ((Tests.inRun .running).wr (Reg.TIL_CTRL 0) 3).modTile 0 fun k =>
    { k with state := .running, frames := [⟨Tests.on.now, false, 1, [2], 0, 3⟩] }

/-- Before the access brings the tile up to date, the present tick has set nothing of TIL_FIFO. -/
theorem pairDueNow_setNow : pairDueNow.setNow (Reg.TIL_FIFO 0) = none := by decide +kernel

/-- The head that the tile takes in at the present tick sets MAX in that tick, and the read leaves this set standing. -/
theorem readReg_pairDueNow_keeps_max :
    ((readReg true (Reg.TIL_FIFO 0) pairDueNow).2.rd (Reg.TIL_FIFO 0)).getLsbD 16 = true := by decide +kernel

/-- Bit 16 of TIL_FIFO, the lowest bit of MAX, is one that a read clears. -/
theorem clearBits_TIL_FIFO_max : (clearBits (Reg.TIL_FIFO 0)).getLsbD 16 = true := by decide +kernel

/-- Refutes O8: the statement looks for the sets of the present tick before the tile is brought up to date, and it is in being brought up
to date that the tile takes what falls due in this tick. MAX of TIL_FIFO, set so, ends holding the new set and not 0. -/
theorem not_registerReadClearsRcFields : ¬ Obligations.RegisterReadClearsRcFields := by
  unfold Obligations.RegisterReadClearsRcFields
  intro h
  obtain ⟨-, -, hclear, -⟩ := h (Reg.TIL_FIFO 0) pairDueNow
  have hread := (hclear pairDueNow_setNow).2
  have hmax := readReg_pairDueNow_keeps_max
  rw [hread, BitVec.getLsbD_and, BitVec.getLsbD_not, clearBits_TIL_FIFO_max] at hmax
  simp at hmax

end Sys2Proof.Machine
end

section
/-!
### O4: what every step keeps

Every step is made of a few kinds of change: words written to registers by address, registers dropped by address, and changes beside the
registers. `Follows` says what all of them keep. Each function of the model that gives a state has its lemma, under the function's name
and in the order of the model's files; its proof spells the operations that the function makes, in their order.
-/

namespace Sys2Proof.Machine

/-- What the slots 0 of both sides hold (R455). -/
def State.slot0 (s : State) : Option Last × Option Last :=
  (Sparse.get s.sideA.mgt.slots 0 none, Sparse.get s.sideB.mgt.slots 0 none)

/-- A state t that can come of s by what commands and events do: the queue of commands and the slots 0 are as in s, and the
registers are in canonical form if those of s are. -/
structure Follows (s t : State) : Prop where
  pending : t.pending = s.pending
  slot0 : t.slot0 = s.slot0
  regsWf : s.regsWf = true → t.regsWf = true

/-- The state that a command's rules end in follows s, whether the reply is formed now or later. -/
def Ends (s : State) : Res → Prop
  | .done t _ _ _ => Follows s t
  | .later t => Follows s t

/-- The state that a pass of an item's work ends in follows s. -/
def Passes (s : State) : Passed → Prop
  | .done t => Follows s t
  | .waits t => Follows s t

section
variable {s t u : State}

/-! ### The changes that a step is made of -/

theorem Follows.refl (s : State) : Follows s s := ⟨rfl, rfl, id⟩

/-- Registers taken out of a table in canonical form leave it so. -/
theorem Sparse.sorted_filter {α : Type} {m : Sparse α} {lo : Nat} (h : Sparse.sorted m lo = true) (p : Nat × α → Bool) :
    Sparse.sorted (m.filter p) lo = true := by
  induction m generalizing lo with
  | nil => rfl
  | cons e r ih =>
    obtain ⟨i, w⟩ := e
    simp only [Sparse.sorted, Bool.and_eq_true, decide_eq_true_eq] at h
    by_cases hp : p (i, w) = true
    · simp [hp, Sparse.sorted, h.1, ih h.2]
    · simpa [List.filter_cons, hp] using Sparse.sorted_mono (ih h.2) (by omega)

/-- A change beside the registers, the sides and the queue. -/
theorem Follows.upd {clock fresh late capture pix tdc frames tiles squall trg spi power arb bg lace hk pins freeCount}
    (h : Follows s t) :
    Follows s ⟨clock, t.regs, fresh, late, capture, pix, tdc, frames, tiles, squall, trg, t.sideA, t.sideB, spi, power,
      arb, bg, lace, hk, pins, freeCount, t.pending⟩ :=
  ⟨h.pending, h.slot0, h.regsWf⟩

/-- Registers dropped by address go back to their reset values. -/
theorem Follows.sift {p : Nat × Word → Bool} (h : Follows s t) : Follows s { t with regs := t.regs.filter p } := by
  refine ⟨h.pending, h.slot0, fun k => ?_⟩
  have hw := h.regsWf k
  simp only [State.regsWf, Bool.and_eq_true, List.all_eq_true] at hw ⊢
  exact ⟨Sparse.sorted_filter hw.1 p, fun e he => hw.2 e (List.mem_of_mem_filter he)⟩

theorem Follows.ite {c : Prop} [Decidable c] (ht : Follows s t) (hu : Follows s u) : Follows s (if c then t else u) := by
  split
  exacts [ht, hu]

theorem Follows.foldl {α : Type} {f : State → α → State} {l : List α} (h : Follows s u)
    (hf : ∀ t a, Follows s t → Follows s (f t a)) : Follows s (l.foldl f u) := by
  induction l generalizing u with
  | nil => exact h
  | cons a l ih => exact ih (hf u a h)

/-! ### What a command's rules and a row end in -/

theorem Follows.done {st r1 ws} (h : Follows s u) : Ends s (.done u st r1 ws) := h
theorem Follows.later (h : Follows s u) : Ends s (.later u) := h
theorem Follows.refuse {st} (h : Follows s u) : Ends s (refuse u st) := h
theorem Follows.okRes (h : Follows s u) : Ends s (okRes u) := h
theorem Follows.next (h : Follows s u) : Next (Follows s) (.next u) := ⟨u, rfl, h⟩

theorem Follows.passed (h : Follows s u) : Passes s (.done u) := h
theorem Follows.waits (h : Follows s u) : Passes s (.waits u) := h

theorem Passes.ite {c : Prop} [Decidable c] {a b : Passed} (ha : Passes s a) (hb : Passes s b) :
    Passes s (if c then a else b) := by
  split
  exacts [ha, hb]

theorem Ends.ite {c : Prop} [Decidable c] {a b : Res} (ha : Ends s a) (hb : Ends s b) : Ends s (if c then a else b) := by
  split
  exacts [ha, hb]

theorem Next.ite {c : Prop} [Decidable c] {p : State → Prop} {a b : Host.Outcome State Fault Refusal} (ha : Next p a)
    (hb : Next p b) : Next p (if c then a else b) := by
  split
  exacts [ha, hb]

/-! ### Ops -/

theorem Follows.setSide {x v} (h : Follows s u)
    (hv : Sparse.get v.mgt.slots 0 none = Sparse.get (u.side x).mgt.slots 0 none) : Follows s (u.setSide x v) := by
  cases x
  · exact ⟨h.pending, (congrArg (·, _) hv).trans h.slot0, h.regsWf⟩
  · exact ⟨h.pending, (congrArg (_, ·) hv).trans h.slot0, h.regsWf⟩

theorem Follows.modSide {x f} (h : Follows s u)
    (hf : ∀ d, Sparse.get (f d).mgt.slots 0 none = Sparse.get d.mgt.slots 0 none := by exact fun _ => rfl) :
    Follows s (u.modSide x f) := h.setSide (hf _)

theorem Follows.modTrg {f} (h : Follows s u) : Follows s (u.modTrg f) := h.upd

theorem Follows.modMgt {x f} (h : Follows s u)
    (hf : ∀ g, Sparse.get (f g).slots 0 none = Sparse.get g.slots 0 none := by exact fun _ => rfl) :
    Follows s (u.modMgt x f) := h.modSide fun _ => hf _

theorem Follows.modEvt {x f} (h : Follows s u) : Follows s (u.modEvt x f) := h.modSide

theorem Follows.modLnk {x f} (h : Follows s u) : Follows s (u.modLnk x f) := h.modSide

theorem Follows.modWlt {x f} (h : Follows s u) : Follows s (u.modWlt x f) := h.modSide

theorem Follows.both {f} (h : Follows s u) (hf : ∀ x t, Follows s t → Follows s (f x t)) : Follows s (u.both f) :=
  hf _ _ (hf _ _ h)

theorem Follows.wr {a w} (h : Follows s u) : Follows s (u.wr a w) :=
  ⟨h.pending, h.slot0, fun k => State.regsWf_wr (h.regsWf k) a w⟩

theorem Follows.wf {a hi lo v} (h : Follows s u) : Follows s (u.wf a hi lo v) := h.wr

theorem Follows.noteSet {a hi lo f} (h : Follows s u) : Follows s (u.noteSet a hi lo f) := h.upd

theorem Follows.raiseBit {a i} (h : Follows s u) : Follows s (u.raiseBit a i) := h.noteSet.wf

theorem Follows.bump {a hi lo n} (h : Follows s u) : Follows s (u.bump a hi lo n) := h.noteSet.wf

theorem Follows.count {a hi lo n} (h : Follows s u) : Follows s (u.count a hi lo n) := h.wf

theorem Follows.high {a hi lo v} (h : Follows s u) : Follows s (u.high a hi lo v) := .ite h.noteSet.wf h.noteSet

theorem Follows.wr64 {a b v} (h : Follows s u) : Follows s (u.wr64 a b v) := h.wr.wr

theorem Follows.elapse {dt} (h : Follows s u) : Follows s (u.elapse dt) := h.upd

theorem Follows.took (h : Follows s u) : Follows s (u.took) := h.upd

theorem Follows.tally {x c n} (h : Follows s u) : Follows s (u.tally x c n) := h.modSide

theorem Follows.tallyAll {c n} (h : Follows s u) : Follows s (u.tallyAll c n) := h.both fun _ _ h => .ite h.tally h

theorem Follows.beginUpdate (h : Follows s u) : Follows s (beginUpdate u) := .ite h.upd h

theorem Follows.wantUpdate (h : Follows s u) : Follows s (wantUpdate u) := h.upd.beginUpdate

/-! ### Flags -/

theorem Follows.evLost {x sev old new} (h : Follows s u) : Follows s (evLost x sev old new u) :=
  .ite h h.noteSet.wf.modSide

theorem Follows.evTake {x r} (h : Follows s u) : Follows s (evTake x r u) :=
  h.modEvt.wf.wf.wf.foldl fun _ _ h => h.evLost

theorem Follows.evBefore {x f} (h : Follows s u) : Follows s (evBefore x f u) := h.evTake

theorem Follows.evMark {x f} (h : Follows s u) : Follows s (evMark x f u) := h.modEvt

theorem Follows.raiseAt {x src sev inst} (h : Follows s u) : Follows s (raiseAt x src sev inst u) :=
  .ite h.modEvt h.modEvt.evTake

theorem Follows.raiseSide {x n sev inst} (h : Follows s u) : Follows s (raiseSide x n sev inst u) := .ite h.raiseAt h

theorem Follows.raiseBase {n sev inst} (h : Follows s u) : Follows s (raiseBase n sev inst u) :=
  h.both fun _ _ h => .ite h.raiseAt h

theorem Follows.raiseTile {t k sev inst} (h : Follows s u) : Follows s (raiseTile t k sev inst u) := h.raiseBase

theorem Follows.evSettle {x} (h : Follows s u) : Follows s (evSettle x u) := h.modEvt

theorem Follows.queueError {x n} (h : Follows s u) : Follows s (queueError x n u) := h.bump.raiseSide

/-! ### Operands -/

theorem Follows.modPort {x p f} (h : Follows s u) : Follows s (u.modPort x p f) := h.modLnk

theorem Follows.modLane {x p l f} (h : Follows s u) : Follows s (u.modLane x p l f) := h.modLnk

theorem Follows.tookSeq {x type} (h : Follows s u) : Follows s (u.tookSeq x type) := h.modLnk

theorem Follows.queueFrame {x p f} (h : Follows s u) : Follows s (u.queueFrame x p f) := h.modPort

theorem Follows.deliver {x via r} (h : Follows s u) : Follows s (deliver x via r u) := by
  unfold Machine.deliver
  extract_lets
  split
  exacts [.ite h.wf.wf.wf.wf h.wf.wf, .ite h.upd h.bump, .ite h.queueFrame.tookSeq h.bump]

theorem Follows.formReply {x c r} (h : Follows s u) : Follows s (formReply x c r u) := by
  unfold Machine.formReply
  extract_lets e _ s1 s2
  have h1 : Follows s s1 := by
    unfold s1
    split
    exacts [h.upd, h.modMgt, h]
  have h2 : Follows s s2 := .ite h1.count.tally h1
  exact .ite h2 h2.deliver

theorem Follows.dequeue {x c} (h : Follows s u) : Follows s (dequeue x c u) :=
  h.modMgt fun g => by
    split
    · rfl
    · split <;> rfl

theorem Follows.forwards {x w} (h : Follows s u) : Follows s (forwards x w u) := h.modSide

theorem Follows.endForward {x} (h : Follows s u) : Follows s (endForward x u) := h.modSide

theorem Follows.heard {x} (h : Follows s u) : Follows s (heard x u) := by
  unfold Machine.heard
  exact h.high.modWlt

theorem Follows.crossed {x n} (h : Follows s u) : Follows s (crossed x n u) := .ite h.heard h

/-! ### LaceCore -/

theorem Follows.keepRoute {x r} (h : Follows s u) : Follows s (keepRoute x r u) := h.modMgt

theorem Follows.sendDown {op c p1 params} (h : Follows s u) : Follows s (sendDown op c p1 params u) :=
  .ite h (h.keepRoute.both (fun _ _ h => h.foldl (fun _ _ h => h.queueFrame)))

theorem Follows.barrierAnswered {b} (h : Follows s u) : Follows s (barrierAnswered b u) := h.formReply

theorem Follows.barrierCheck (h : Follows s u) : Follows s (barrierCheck u) :=
  h.foldl fun _ _ h => .ite h.upd.barrierAnswered h.upd

theorem Follows.flushCommands {x} (h : Follows s u) : Follows s (flushCommands x u) := h.modMgt

theorem Follows.flushWelt {x} (h : Follows s u) : Follows s (flushWelt x u) := h.modWlt.modWlt

theorem Follows.dropEventFrames {x} (h : Follows s u) : Follows s (dropEventFrames x u) :=
  h.foldl fun _ _ h => h.modPort

theorem Follows.eventMismatch {x} (h : Follows s u) : Follows s (eventMismatch x u) :=
  h.modEvt.dropEventFrames.queueError

theorem Follows.pointers {x c} (h : Follows s u) : Follows s (pointers x c u) := by
  unfold Machine.pointers
  extract_lets
  split
  exacts [h, h, h.upd.queueError, h.eventMismatch, h.flushWelt.queueError]

/-- A command whose packet passes the checks of R444 has its parameters in range. -/
theorem par_of_precheck {x c n p} (h : precheck s x c n p = none) : p = none := by
  cases p with
  | none => rfl
  | some st =>
    unfold precheck at h
    split_ifs at h
    simp_all

theorem Follows.runCommand {dt c n par body} (h : Follows s u)
    (hb : ∀ x v t, par x v = none → Follows s t → Ends s (body x t)) :
    Follows s (runCommand dt c n par body u).1 := by
  unfold Machine.runCommand
  extract_lets s1 x v d w
  have h1 : Follows s s1 := h.elapse
  have hv : Follows s v := h1.pointers
  split
  · exact h1
  · split
    · exact h1.flushCommands.queueError
    · split
      · exact hv.dequeue.formReply.barrierCheck
      · next hp =>
        split
        · exact .ite hv hv.forwards
        · have hr := hb x v w (par_of_precheck hp) hv.dequeue.endForward
          split
          · next he => rw [he] at hr; exact hr.crossed.formReply.barrierCheck
          · next he => rw [he] at hr; exact hr.crossed

theorem Follows.command {dt c n par body} (h : Follows s u) (hb : ∀ x t, Follows s t → Ends s (body x t)) :
    Follows s (command dt c n par body u) := h.runCommand fun x _ t _ => hb x t

theorem Follows.commandThen {dt c n par body after} (h : Follows s u) (hb : ∀ x t, Follows s t → Ends s (body x t))
    (ha : ∀ x t, Follows s t → Follows s (after x t)) : Follows s (commandThen dt c n par body after u) :=
  have hr := h.runCommand fun x _ t _ => hb x t
  .ite (ha _ _ hr) hr

theorem Follows.enqueue {x p} (h : Follows s u) : Follows s (enqueue x p u) :=
  .ite (.ite h.bump h.bump.modMgt.raiseSide) h.modMgt.high

/-! ### Lanes -/

theorem Follows.allowSettle {x p} (h : Follows s u) : Follows s (allowSettle x p u) := h.modPort

theorem Follows.startFrame {x p f} (h : Follows s u) : Follows s (startFrame x p f u) := h.modPort

theorem Follows.portNext {x p} (h : Follows s u) : Follows s (portNext x p u) := by
  unfold Machine.portNext
  extract_lets
  split
  · exact h
  · split
    · exact .ite h.modPort.startFrame h
    · split
      exacts [h, .ite h h.modPort.startFrame]

theorem Follows.sendFrame {x p f} (h : Follows s u) : Follows s (sendFrame x p f u) := h.queueFrame.portNext

theorem Follows.sendNotice {x kind st ws ports} (h : Follows s u) : Follows s (sendNotice x kind st ws ports u) :=
  (h.foldl (fun _ _ h => h.sendFrame)).tookSeq

theorem Follows.portState {x p st} (h : Follows s u) : Follows s (portState x p st u) := h.modPort

theorem Follows.onFrameEntries {x fr f} (h : Follows s u) : Follows s (onFrameEntries x fr f u) := .ite h.evMark h

theorem Follows.dropEvents {x p} (h : Follows s u) : Follows s (dropEvents x p u) :=
  (h.foldl (fun _ _ h => h.onFrameEntries)).modPort.evSettle

theorem Follows.failPort {x p} (h : Follows s u) : Follows s (failPort x p u) := h.portState.raiseSide.dropEvents

theorem Follows.enterTraining {x p} (h : Follows s u) : Follows s (enterTraining x p u) := by
  unfold Machine.enterTraining
  extract_lets _ _ _ s2
  have h2 : Follows s s2 := (h.allowSettle.foldl (fun _ _ h => h.modLane)).modPort
  exact .ite h2.failPort h2

theorem Follows.reportCut {x p b} (h : Follows s u) : Follows s (reportCut x p b u) :=
  (Follows.ite h.bump.tally h.bump.tally.modLnk.raiseSide).sendNotice

theorem Follows.laceLockLost {x role} (h : Follows s u) : Follows s (laceLockLost x role u) :=
  .ite (.ite (h.modSide.upd.both (fun _ _ h => h.wf.wf)).raiseSide h.modSide) h

theorem Follows.dropLink {x p} (h : Follows s u) : Follows s (dropLink x p u) := by
  unfold Machine.dropLink
  extract_lets q s1
  have h1 : Follows s s1 := by
    unfold s1
    split
    exacts [h.onFrameEntries, h]
  exact h1.allowSettle.modPort.modLnk.bump

theorem Follows.leaveUpTo {x p f g} (h : Follows s u) (hf : ∀ t, Follows s t → Follows s (f t))
    (hg : ∀ t, Follows s t → Follows s (g t)) : Follows s (leaveUpTo x p f g u) := by
  unfold Machine.leaveUpTo
  extract_lets q s1 s2
  have h1 : Follows s s1 := hf _ h.dropLink
  have h2 : Follows s s2 := by
    unfold s2
    split
    exacts [h1.reportCut, h1]
  exact .ite h (hg _ h2).laceLockLost.barrierCheck

theorem Follows.retrain {x p} (h : Follows s u) : Follows s (retrain x p u) := h.raiseSide.enterTraining

theorem Follows.leaveUp {x p} (h : Follows s u) : Follows s (leaveUp x p u) :=
  h.leaveUpTo (fun _ h => h.retrain) fun _ h => h

theorem Follows.disablePort {x p} (h : Follows s u) : Follows s (disablePort x p u) :=
  (h.leaveUpTo (fun _ h => h.portState) (fun _ h => h)).modPort.dropEvents

theorem Follows.retireLane {x p l} (h : Follows s u) : Follows s (retireLane x p l u) := by
  unfold Machine.retireLane
  extract_lets _ _ _ s2
  have h2 : Follows s s2 := h.upd.wantUpdate.raiseSide
  exact .ite h (.ite h2.leaveUp (.ite h2.failPort h2))

theorem Follows.laneFault {x p l} (h : Follows s u) : Follows s (laneFault x p l u) :=
  .ite h (.ite h.bump.tally.raiseSide.retireLane h.bump.tally.raiseSide.modLane)

theorem Follows.usedLaneFaults {x p used} (h : Follows s u) : Follows s (usedLaneFaults x p used u) :=
  .ite h (h.foldl (fun _ _ h => h.laneFault)).leaveUp

theorem Follows.usedLaneFault {x p l used} (h : Follows s u) : Follows s (usedLaneFault x p l used u) :=
  h.usedLaneFaults

theorem Follows.execLaneSignalLost {dt x p l} (h : Follows s u) : Next (Follows s) (execLaneSignalLost dt x p l u) :=
  h.elapse.modLane.usedLaneFault.next

theorem Follows.execLaneLockLost {dt x p l} (h : Follows s u) : Next (Follows s) (execLaneLockLost dt x p l u) :=
  h.elapse.modLane.usedLaneFault.next

theorem Follows.execBlockLockGained {dt x p l} (h : Follows s u) : Next (Follows s) (execBlockLockGained dt x p l u) :=
  h.elapse.modLane.modPort.next

theorem Follows.execBlockLockLost {dt x p l} (h : Follows s u) : Next (Follows s) (execBlockLockLost dt x p l u) :=
  h.elapse.modLane.usedLaneFault.next

theorem Follows.execLaneSignalReturn {dt x p l} (h : Follows s u) :
    Next (Follows s) (execLaneSignalReturn dt x p l u) := h.elapse.modLane.next

theorem Follows.sendAlign {x p} (h : Follows s u) : Follows s (sendAlign x p u) := .ite h.modPort h

theorem Follows.execAlignSlot {dt x p} (h : Follows s u) : Next (Follows s) (execAlignSlot dt x p u) :=
  .ite h.elapse.next (h.elapse.sendAlign.modPort.foldl (fun _ _ h => h.modLane)).usedLaneFaults.next

theorem Follows.portUp {x p set c} (h : Follows s u) : Follows s (portUp x p set c u) := by
  unfold Machine.portUp
  extract_lets _ _ s2
  have h2 : Follows s s2 := .ite h.allowSettle.modPort.raiseSide h.allowSettle.modPort
  exact (Follows.ite h2.wf.raiseSide h2).portNext

theorem Follows.trainSlot {x p} (h : Follows s u) : Follows s (trainSlot x p u) := by
  unfold Machine.trainSlot
  extract_lets v
  have hv : Follows s v := h.foldl fun _ _ h => h.modLane
  split
  · exact hv
  · split
    · exact hv.modPort
    · split
      exacts [.ite hv.modPort.portUp hv.modPort, hv.modPort]

theorem Follows.slotMissed {x p l} (h : Follows s u) : Follows s (slotMissed x p l u) := .ite h.trainSlot h

theorem Follows.trainFull {x p} (h : Follows s u) : Follows s (trainFull x p u) := .ite h.trainSlot h

theorem Follows.execAlignReceived {dt x p l blk bip} (h : Follows s u) :
    Next (Follows s) (execAlignReceived dt x p l blk bip u) := by
  unfold Machine.execAlignReceived
  extract_lets _ _ _ _ _ s1
  have h1 : Follows s s1 := h.elapse.slotMissed.bump
  exact .ite h.elapse.slotMissed.next (.ite h1.modLane.trainFull.next h1.modLane.modPort.trainFull.next)

theorem Follows.execTrainingLaneTimeout {dt x p l} (h : Follows s u) :
    Next (Follows s) (execTrainingLaneTimeout dt x p l u) := by
  unfold Machine.execTrainingLaneTimeout
  extract_lets
  split
  exacts [.ite h.elapse.modLane.laneFault.next h.elapse.next, h.elapse.next]

theorem Follows.freeGroups {x p n} (h : Follows s u) : Follows s (freeGroups x p n u) := .ite h.modPort h

theorem Follows.badFrame {x p c f} (h : Follows s u) : Follows s (badFrame x p c f u) := by
  unfold Machine.badFrame
  extract_lets _ s1
  have h1 : Follows s s1 := .ite h.freeGroups h.freeGroups.tally
  split
  exacts [.ite h1.bump h1.bump.modPort.raiseSide, h1.bump]

theorem Follows.receiveFrame {x p f} (h : Follows s u) : Follows s (receiveFrame x p f u).1 := by
  unfold Machine.receiveFrame
  extract_lets
  split
  · exact h
  · split
    exacts [h.count, h.badFrame]

theorem Follows.execFrameNotAccepted {dt x p f} (h : Follows s u) :
    Next (Follows s) (execFrameNotAccepted dt x p f u) := .ite h.elapse.badFrame.next h.elapse.next

theorem Follows.execInvalidControlBlock {dt x p typ blk} (h : Follows s u) :
    Next (Follows s) (execInvalidControlBlock dt x p typ blk u) := .ite h.elapse.bump.next h.elapse.next

theorem Follows.execPause {dt x p f} (h : Follows s u) : Next (Follows s) (execPause dt x p f u) :=
  .ite (.ite h.elapse.badFrame.next h.elapse.receiveFrame.bump.modPort.portNext.next)
    (.ite h.elapse.next h.elapse.receiveFrame.next)

theorem Follows.execPauseExpiry {dt x p i} (h : Follows s u) : Next (Follows s) (execPauseExpiry dt x p i u) :=
  .ite h.elapse.modPort.portNext.next h.elapse.next

theorem Follows.execCreditReceived {dt x p blk} (h : Follows s u) :
    Next (Follows s) (execCreditReceived dt x p blk u) := .ite h.elapse.modPort.portNext.next h.elapse.next

theorem Follows.execCreditSend {dt x p} (h : Follows s u) : Next (Follows s) (execCreditSend dt x p u) :=
  .ite h.elapse.modPort.next h.elapse.next

theorem Follows.execCreditStall {dt x p} (h : Follows s u) : Next (Follows s) (execCreditStall dt x p u) :=
  .ite (h.elapse.bump.leaveUpTo (fun _ h => h.retrain) (fun _ h => h.raiseSide)).next h.elapse.next

theorem Follows.portCtrlWrite {x p v} (h : Follows s u) : Follows s (portCtrlWrite x p v u) := by
  unfold Machine.portCtrlWrite
  extract_lets _ _ s1
  have h1 : Follows s s1 := .ite h.allowSettle.wr h.allowSettle.wr.dropEvents
  exact .ite h1.disablePort (.ite h1 (.ite h1 (.ite h1.leaveUp h1.enterTraining)))

/-! ### Lace -/

theorem Follows.modLce {x f} (h : Follows s u) : Follows s (u.modLce x f) := h.modSide

theorem Follows.modLace {f} (h : Follows s u) : Follows s (u.modLace f) := h.upd

theorem Follows.modChild {x p f} (h : Follows s u) : Follows s (u.modChild x p f) := h.modLce

theorem Follows.modExchange {x p f} (h : Follows s u) : Follows s (u.modExchange x p f) := h.modLce

theorem Follows.sendTiming {x l} (h : Follows s u) : Follows s (sendTiming x l u) :=
  h.modLce.foldl fun _ _ h => h.modPort

theorem Follows.stepTime {e} (h : Follows s u) : Follows s (stepTime e u) := h.upd

theorem Follows.slewBy {rate e} (h : Follows s u) : Follows s (slewBy rate e u) := h.upd

theorem Follows.setRun {r} (h : Follows s u) : Follows s (setRun r u) := h.modTrg.both fun _ _ h => h.raiseSide

theorem Follows.stopArmed (h : Follows s u) : Follows s (stopArmed u) := h.modTrg.setRun

theorem Follows.endRunAt {t} (h : Follows s u) : Follows s (endRunAt t u) := by
  unfold Machine.endRunAt
  split
  exacts [h.modTrg, h.stopArmed, h]

theorem Follows.execLaceExchangeStart {dt x p} (h : Follows s u) :
    Next (Follows s) (execLaceExchangeStart dt x p u) := by
  unfold Machine.execLaceExchangeStart
  extract_lets _ _ _ _ _ _ _ _ y
  have hy : Follows s y := h.elapse.modExchange.modLce
  exact .ite h.elapse.next (.ite hy.sendTiming.next hy.sendTiming.next)

theorem Follows.execEchoReceived {dt x p blk fu} (h : Follows s u) :
    Next (Follows s) (execEchoReceived dt x p blk fu u) :=
  .ite h.elapse.next (.ite h.elapse.modExchange.next h.elapse.modExchange.sendTiming.next)

theorem Follows.execExchangeTimeout {dt x p} (h : Follows s u) : Next (Follows s) (execExchangeTimeout dt x p u) :=
  .ite h.elapse.modExchange.next h.elapse.next

theorem Follows.execReachReceived {dt x p blk} (h : Follows s u) : Next (Follows s) (execReachReceived dt x p blk u) :=
  .ite h.elapse.next (.ite (.ite h.elapse.next h.elapse.wf.raiseSide.next) h.elapse.modChild.next)

theorem Follows.execRosterReceived {dt x p blk} (h : Follows s u) :
    Next (Follows s) (execRosterReceived dt x p blk u) := by
  unfold Machine.execRosterReceived
  extract_lets _ _ _ s1
  have h1 : Follows s s1 := h.elapse.modChild
  exact .ite h.elapse.next (.ite (.ite h1.next h1.wf.raiseSide.next) h1.wf.next)

theorem Follows.execProbeReceived {dt x blk fu} (h : Follows s u) :
    Next (Follows s) (execProbeReceived dt x blk fu u) := by
  unfold Machine.execProbeReceived
  extract_lets
  split
  exacts [h.elapse.next, .ite h.elapse.next h.elapse.took.modLce.sendTiming.next]

theorem Follows.execFollowReceived {dt x blk} (h : Follows s u) : Next (Follows s) (execFollowReceived dt x blk u) :=
  .ite h.elapse.next h.elapse.modLce.next

theorem Follows.setLocked {v} (h : Follows s u) : Follows s (setLocked v u) := h.both fun _ _ h => h.wf.wf

theorem Follows.actOnOffset {x e} (h : Follows s u) : Follows s (actOnOffset x e u) := by
  unfold Machine.actOnOffset
  extract_lets _ _ s1
  have h1 : Follows s s1 := h.modLce.setLocked.modLace
  exact .ite h1.modLace.slewBy (.ite h1.slewBy (.ite h1.stepTime.raiseSide
      (.ite h1.slewBy h1.stepTime.endRunAt.raiseSide)))

theorem Follows.execRttReceived {dt x blk far} (h : Follows s u) :
    Next (Follows s) (execRttReceived dt x blk far u) := by
  unfold Machine.execRttReceived
  extract_lets _ _ _ _ _ _ _ _ _ _ _ _ _ s4
  have h4 : Follows s s4 := h.elapse.modLce.wf.wf.wr
  exact .ite h.elapse.next (.ite (Follows.ite h4 h4.actOnOffset).next
      (h.elapse.modLce.wf.wf.both (fun _ _ h => h.wr)).next)

theorem Follows.mergeAssertion {line t} (h : Follows s u) : Follows s (mergeAssertion line t u) := .ite h h.modLace

theorem Follows.busDown {x blk} (h : Follows s u) : Follows s (busDown x blk u) := h.sendTiming

theorem Follows.busAtRoot {blk} (h : Follows s u) : Follows s (busAtRoot blk u) :=
  (h.both (fun _ _ h => h.busDown)).mergeAssertion

theorem Follows.busUp {x blk} (h : Follows s u) : Follows s (busUp x blk u) := by
  unfold Machine.busUp
  split
  exacts [h.sendTiming, h]

theorem Follows.execBusBlockReceived {dt x p blk} (h : Follows s u) :
    Next (Follows s) (execBusBlockReceived dt x p blk u) := by
  unfold Machine.execBusBlockReceived
  extract_lets v
  have hv : Follows s v := h.elapse
  exact .ite hv.next (.ite hv.busDown.mergeAssertion.next (.ite (.ite hv.busAtRoot.next hv.busUp.next) hv.next))

theorem Follows.execRefinLost {dt} (h : Follows s u) : Next (Follows s) (execRefinLost dt u) :=
  .ite (h.elapse.both (fun _ _ h => h.wf.raiseSide)).next h.elapse.next

theorem Follows.refChanged {x old} (h : Follows s u) : Follows s (refChanged x old u) :=
  .ite h (h.both (fun _ _ h => h.wf))

theorem Follows.execRefinLock {dt} (h : Follows s u) : Next (Follows s) (execRefinLock dt u) :=
  .ite (h.elapse.both (fun _ _ h => h.wf)).next h.elapse.next

theorem Follows.setTime {v} (h : Follows s u) : Follows s (setTime v u) := h.upd

theorem Follows.timeSetReply {w old} (h : Follows s u) : Follows s (timeSetReply w old u) := h.formReply

theorem Follows.ppsMeasured (h : Follows s u) : Follows s (ppsMeasured u) := by
  unfold Machine.ppsMeasured
  extract_lets _ _ _ s2
  have h2 : Follows s s2 := h.modLace.both fun _ _ h => h.wr.wf
  exact .ite h2.stepTime h2.slewBy

theorem Follows.execPpsEdge {dt} (h : Follows s u) : Next (Follows s) (execPpsEdge dt u) := by
  unfold Machine.execPpsEdge
  extract_lets _ _ s1
  have h1 : Follows s s1 := (h.elapse.modLace.foldl (fun _ _ h => h.setTime.timeSetReply)).ppsMeasured
  exact .ite h.elapse.next (Follows.ite h1 h1.barrierCheck).next

theorem Follows.execTimeSet {dt c v p3} (h : Follows s u) : Next (Follows s) (execTimeSet dt c v p3 u) :=
  (h.command (fun _ _ h => .ite h.refuse (.ite (.ite h.refuse h.modLace.later) h.setTime.done))).next

theorem Follows.takeInner {l since} (h : Follows s u) : Follows s (takeInner l since u) := by
  unfold Machine.takeInner
  extract_lets
  split
  exacts [h.both (fun _ _ h => .ite h.wf.wf h), h.enqueue]

theorem Follows.countOps {hi lo} (h : Follows s u) : Follows s (countOps hi lo u) := h.both fun _ _ h => .ite h.bump h

theorem Follows.execArrayBroadcast {dt c inner} (h : Follows s u) :
    Next (Follows s) (execArrayBroadcast dt c inner u) :=
  (h.command (fun _ _ h => h.sendDown.takeInner.countOps.okRes)).next

theorem Follows.execArrayBarrier {dt c} (h : Follows s u) : Next (Follows s) (execArrayBarrier dt c u) :=
  (h.command (fun _ _ h => h.sendDown.countOps.modLace.barrierCheck.later)).next

theorem Follows.scheduled {x c op t act} (h : Follows s u) (ha : ∀ t, Follows s t → Follows s (act t)) :
    Ends s (scheduled x c op t act u) :=
  .ite h.refuse (.ite (Follows.ite h.countOps.raiseSide h).refuse (ha _ h.sendDown).countOps.okRes)

theorem Follows.execArraySnapshot {dt c t} (h : Follows s u) : Next (Follows s) (execArraySnapshot dt c t u) :=
  (h.command (fun _ _ h => h.scheduled (fun _ h => h.modLace))).next

theorem Follows.execArrayReset {dt c t} (h : Follows s u) : Next (Follows s) (execArrayReset dt c t u) :=
  (h.command (fun _ _ h => h.scheduled (fun _ h => h.modLace))).next

/-! ### Commands -/

theorem Follows.answer {x via w0 crc st} (h : Follows s u) : Follows s (answer x via w0 crc st u) := h.formReply

theorem Follows.routeDown {x via p ws} (h : Follows s u) : Follows s (routeDown x via p ws u) := h.keepRoute.queueFrame

theorem Follows.replay {x via e} (h : Follows s u) : Follows s (replay x via e u) := h.bump.deliver

theorem Follows.passBroadcast {x ws tag crc} (h : Follows s u) : Follows s (passBroadcast x ws tag crc u) :=
  .ite h (h.modLace.foldl (fun _ _ h => h.queueFrame))

theorem Follows.takeIn {x via ws} (h : Follows s u) : Follows s (takeIn x via ws u) := by
  unfold Machine.takeIn
  split
  · exact h.bump
  · extract_lets _ _ _ _ _ _ s1
    have h1 : Follows s s1 := .ite h.passBroadcast h
    split
    · exact h.bump
    · split
      · exact h1
      · split
        · exact h1.replay
        · split
          · exact h1
          · split
            · split
              exacts [.ite h1.routeDown h1.answer, h1.answer]
            · exact .ite h1.answer (.ite h1.answer (.ite h1.answer (.ite h1.answer (.ite h1.answer h1.enqueue))))

theorem Follows.execCmdFrameReceived {dt x p f mismatch} (h : Follows s u) :
    Next (Follows s) (execCmdFrameReceived dt x p f mismatch u) := by
  unfold Machine.execCmdFrameReceived
  extract_lets v r
  have hv : Follows s v := .ite h.elapse.flushCommands.queueError h.elapse
  have hr : Follows s r.1 := hv.receiveFrame
  exact .ite hr.next (.ite hv.next (.ite hr.freeGroups.next hr.takeIn.freeGroups.next))

theorem Follows.execSpiWrite {dt bytes mismatch} (h : Follows s u) :
    Next (Follows s) (execSpiWrite dt bytes mismatch u) := by
  unfold Machine.execSpiWrite
  extract_lets _ _ _ _ y
  have hy : Follows s y := (Follows.ite h.elapse.flushCommands.queueError h.elapse).upd
  exact .ite hy.next (.ite hy.next (.ite hy.bump.next hy.takeIn.next))

theorem Follows.execSpiRead {dt clocked mismatch} (h : Follows s u) :
    Next (Follows s) (execSpiRead dt clocked mismatch u) := (Follows.ite h.elapse.upd.queueError h.elapse).upd.next

theorem Follows.execPeerTimeout {dt x} (h : Follows s u) : Next (Follows s) (execPeerTimeout dt x u) := by
  unfold Machine.execPeerTimeout
  extract_lets
  split
  exacts [h.elapse.next, .ite h.elapse.dequeue.endForward.formReply.barrierCheck.next h.elapse.next]

theorem Follows.execNop {dt c} (h : Follows s u) : Next (Follows s) (execNop dt c u) :=
  (h.command (fun _ _ h => h.okRes)).next

theorem Follows.execGetStatus {dt c} (h : Follows s u) : Next (Follows s) (execGetStatus dt c u) :=
  (h.command (fun _ _ h => h.done)).next

theorem Follows.execGetMeasurement {dt c part n} (h : Follows s u) :
    Next (Follows s) (execGetMeasurement dt c part n u) := (h.command (fun _ _ h => h.done)).next

theorem Follows.execAttest {dt c nonce} (h : Follows s u) : Next (Follows s) (execAttest dt c nonce u) :=
  (h.command (fun _ _ h => h.count.done)).next

theorem Follows.execGetIdentity {dt c offset} (h : Follows s u) : Next (Follows s) (execGetIdentity dt c offset u) :=
  (h.command (fun _ _ h => h.done)).next

/-! ### EventCommands -/

theorem Follows.subscribe {x p1} (h : Follows s u) : Follows s (subscribe x p1 u) :=
  (h.foldl (fun _ _ h => .ite h.wr h)).evSettle

theorem Follows.execEventSubscribe {dt c p1} (h : Follows s u) : Next (Follows s) (execEventSubscribe dt c p1 u) :=
  (h.command (fun _ _ h => h.subscribe.okRes)).next

theorem Follows.acknowledge {x w} (h : Follows s u) : Follows s (acknowledge x w u) := h.wr.evBefore

theorem Follows.execEventAck {dt c seq mismatch} (h : Follows s u) :
    Next (Follows s) (execEventAck dt c seq mismatch u) :=
  (h.command (fun _ _ h => (Follows.ite h.eventMismatch h).acknowledge.okRes)).next

theorem Follows.clearFirstFailure {x} (h : Follows s u) : Follows s (clearFirstFailure x u) := h.evBefore

theorem Follows.execFirstFailureClear {dt c} (h : Follows s u) : Next (Follows s) (execFirstFailureClear dt c u) :=
  (h.command (fun _ _ h => h.clearFirstFailure.okRes)).next

theorem Follows.flushEvents {x} (h : Follows s u) : Follows s (flushEvents x u) :=
  h.dropEventFrames.evBefore.foldl fun _ _ h => h.portNext

theorem Follows.sendEvents {x p ws} (h : Follows s u) : Follows s (sendEvents x p ws u) := by
  unfold Machine.sendEvents
  extract_lets
  split
  exacts [h.sendFrame, h.modEvt.tookSeq.sendFrame]

theorem Follows.execEventFrameSend {dt x p mismatch} (h : Follows s u) :
    Next (Follows s) (execEventFrameSend dt x p mismatch u) := by
  unfold Machine.execEventFrameSend
  extract_lets v
  have hv : Follows s v := .ite h.elapse.eventMismatch h.elapse
  exact .ite hv.next hv.allowSettle.modPort.modEvt.sendEvents.next

theorem Follows.clearSources {x} (h : Follows s u) : Follows s (clearSources x u) := h.modEvt

/-! ### Pixel -/

theorem Follows.modPix {f} (h : Follows s u) : Follows s (u.modPix f) := h.upd

theorem Follows.shadowWrite {p w} (h : Follows s u) : Follows s (shadowWrite p w u) := h.modPix

theorem Follows.imageError {p} (h : Follows s u) : Follows s (imageError p u) := h.modPix.bump.raiseBase

theorem Follows.shadowError {p} (h : Follows s u) : Follows s (shadowError p u) := h.modPix.bump.raiseBase

theorem Follows.beginApply {tiles w} (h : Follows s u) : Follows s (beginApply tiles w u) := by
  unfold Machine.beginApply
  exact h.modPix

theorem Follows.captureErrors {tiles bad} (h : Follows s u) : Follows s (captureErrors tiles bad u) :=
  h.foldl fun _ _ h => .ite h.shadowError h

theorem Follows.execConfigApply {dt c maskLo maskHi bad} (h : Follows s u) :
    Next (Follows s) (execConfigApply dt c maskLo maskHi bad u) :=
  (h.command (fun _ _ h => .ite h.refuse (.ite h.refuse h.captureErrors.beginApply.later))).next

theorem Follows.landWord {q} (h : Follows s u) : Follows s (landWord u q) := by
  unfold Machine.landWord
  split
  exacts [h.shadowWrite, h]

theorem Follows.heldError {h'} (h : Follows s u) : Follows s (heldError u h') := by
  unfold Machine.heldError
  split
  · split
    exacts [h.shadowError, h]
  · exact h

theorem Follows.landHeld {h'} (h : Follows s u) : Follows s (landHeld u h') :=
  (h.heldError.foldl (fun _ _ h => h.landWord)).formReply

theorem Follows.stagingDone (h : Follows s u) : Follows s (stagingDone u) := by
  unfold Machine.stagingDone
  extract_lets
  split
  exacts [.ite h (h.modPix.foldl (fun _ _ h => h.landHeld)).barrierCheck, h]

theorem Follows.execConfigStagingDone {dt} (h : Follows s u) : Next (Follows s) (execConfigStagingDone dt u) :=
  h.elapse.stagingDone.next

theorem Follows.atTime {t f} (h : Follows s u) (hf : ∀ t, Follows s t → Follows s (f t)) : Follows s (atTime t f u) :=
  (hf _ h.upd).upd

theorem Follows.scrubAnew (h : Follows s u) : Follows s (scrubAnew u) := h.upd

theorem Follows.commitApply {a} (h : Follows s u) : Follows s (commitApply a u) :=
  (h.scrubAnew.modPix.foldl (fun _ _ h => h.wr)).wr.count.wr64

theorem Follows.retirePixelWith {mid p} (h : Follows s u) (hm : ∀ t, Follows s t → Follows s (mid t)) :
    Follows s (retirePixelWith mid p u) :=
  have h1 := hm _ (Follows.ite h.upd h.upd.wantUpdate).raiseTile
  .ite (hm _ h) (.ite h1.raiseBase h1)

theorem Follows.retirePixel {p} (h : Follows s u) : Follows s (retirePixel p u) := h.retirePixelWith fun _ h => h

theorem Follows.scrubFix {p} (h : Follows s u) : Follows s (scrubFix u p) :=
  .ite (h.modPix.bump.tallyAll.retirePixelWith (fun _ h => h.raiseBase)) h.modPix.bump.tallyAll.raiseBase

theorem Follows.flipLatches {flips} (h : Follows s u) : Follows s (flipLatches flips u) := h.modPix

theorem Follows.execPixScrubPass {dt flips bad} (h : Follows s u) :
    Next (Follows s) (execPixScrubPass dt flips bad u) :=
  .ite h.elapse.next ((h.elapse.flipLatches.foldl (fun _ _ h => h.scrubFix)).foldl
    (fun _ _ h => h.imageError)).scrubAnew.next

theorem Follows.awlFire (h : Follows s u) : Follows s (awlFire u) :=
  .ite h (Follows.ite (Follows.ite h.raiseBit h).raiseBit (.ite h.raiseBit h)).modPix

theorem Follows.awlAbort (h : Follows s u) : Follows s (awlAbort u) := .ite h h.modPix

theorem Follows.shoot {k} (h : Follows s u) : Follows s (shoot k u) := h.modPix.upd

theorem Follows.execAwlPulse {dt} (h : Follows s u) : Next (Follows s) (execAwlPulse dt u) := by
  unfold Machine.execAwlPulse
  extract_lets
  split
  exacts [.ite h.elapse.shoot.modPix.next h.elapse.next, h.elapse.next]

theorem Follows.execThreshScan {dt c maskLo maskHi points pulses} (h : Follows s u) :
    Next (Follows s) (execThreshScan dt c maskLo maskHi points pulses u) :=
  (h.command (fun _ _ h => .ite h.refuse (.ite h.refuse h.modPix.done))).next

theorem Follows.writeTrim {t lp v} (h : Follows s u) : Follows s (writeTrim t lp v u) := by
  unfold Machine.writeTrim
  exact h.modPix

theorem Follows.scanTile {c t} (h : Follows s u) : Follows s (scanTile c u t) :=
  (Follows.ite ((Follows.ite h.took h).foldl (fun _ _ h => h.writeTrim)) (.ite h.took h)).wr.wr

theorem Follows.execThreshScanDone {dt bad} (h : Follows s u) : Next (Follows s) (execThreshScanDone dt bad u) := by
  unfold Machine.execThreshScanDone
  extract_lets
  split
  exacts [h.elapse.next,
    .ite h.elapse.next ((h.elapse.foldl (fun _ _ h => h.scanTile)).modPix.foldl
    (fun _ _ h => .ite h.imageError h)).raiseBase.next]

theorem Follows.execDriftMeasure {dt t dac} (h : Follows s u) : Next (Follows s) (execDriftMeasure dt t dac u) :=
  .ite h.elapse.next (.ite h.elapse.upd.modPix.wr.raiseBase.next h.elapse.upd.modPix.wr.next)

/-! ### Items -/

theorem Follows.modDsp {x f} (h : Follows s u) : Follows s (u.modDsp x f) := h.modSide

theorem Follows.modCmp {x f} (h : Follows s u) : Follows s (u.modCmp x f) := h.modSide

theorem Follows.modBst {x f} (h : Follows s u) : Follows s (u.modBst x f) := h.modSide

theorem Follows.enqueueItem {x w} (h : Follows s u) : Follows s (enqueueItem x w u) :=
  .ite h.modDsp (.ite h.modDsp.high (.ite h.bump.modDsp h.bump.modDsp.raiseSide))

theorem Follows.retryHeld {x} (h : Follows s u) : Follows s (retryHeld x u) :=
  h.modDsp.foldl fun _ _ h => h.enqueueItem

theorem Follows.leaveReductions {x} (h : Follows s u) : Follows s (leaveReductions x u) := h.modDsp

theorem Follows.wantReduce {t} (h : Follows s u) : Follows s (wantReduce t u) := .ite h h.enqueueItem

/-! ### Vernier -/

theorem Follows.modTdc {f} (h : Follows s u) : Follows s (u.modTdc f) := h.upd

theorem Follows.modDigi {d f} (h : Follows s u) : Follows s (u.modDigi d f) := h.modTdc

theorem Follows.modRot {t f} (h : Follows s u) : Follows s (u.modRot t f) := h.modTdc

theorem Follows.modTile {t f} (h : Follows s u) : Follows s (u.modTile t f) := h.upd

theorem Follows.newTable {d table} (h : Follows s u) : Follows s (newTable d table u) := h.modDigi

theorem Follows.writeTable {d word w} (h : Follows s u) : Follows s (writeTable d word w u) := h.newTable

theorem Follows.execCalTableTakesEffect {dt d} (h : Follows s u) :
    Next (Follows s) (execCalTableTakesEffect dt d u) := by
  unfold Machine.execCalTableTakesEffect
  extract_lets
  split
  exacts [.ite h.elapse.modDigi.next h.elapse.next, h.elapse.next]

theorem Follows.rotationEnds {t} (h : Follows s u) : Follows s (rotationEnds t u) := h.modRot

theorem Follows.fillOver {d failed} (h : Follows s u) : Follows s (fillOver d failed u) := by
  unfold Machine.fillOver
  extract_lets s1
  have h1 : Follows s s1 := h.modDigi
  split
  exacts [.ite h1.modTdc (.ite h1.rotationEnds h1), .ite h1.rotationEnds h1]

theorem Follows.retireDigitizer {d} (h : Follows s u) : Follows s (retireDigitizer d u) := by
  unfold Machine.retireDigitizer
  extract_lets _ _ _ s1
  have h1 : Follows s s1 := .ite h.upd.raiseBase h.upd.wantUpdate
  exact .ite h (.ite (Follows.ite h1.rotationEnds h1).modDigi.raiseTile
      (Follows.ite h1.rotationEnds h1).modDigi.raiseBase)

theorem Follows.countRetired (h : Follows s u) : Follows s (countRetired u) := h.modTdc

theorem Follows.calFailure {d} (h : Follows s u) : Follows s (calFailure d u) := by
  unfold Machine.calFailure
  extract_lets _ _ s2
  have h2 : Follows s s2 := .ite h.fillOver.tallyAll.bump.raiseTile h.fillOver.tallyAll.raiseBase
  exact .ite h.fillOver (.ite (Follows.ite h2.countRetired h2).retireDigitizer h2.modDigi)

theorem Follows.fillComplete {d} (h : Follows s u) : Follows s (fillComplete d u) :=
  .ite h.count.fillOver.modTdc.wantReduce h.count.calFailure

theorem Follows.settleCodes {d} (h : Follows s u) : Follows s (settleCodes d u) :=
  .ite h (.ite h.modDigi.fillComplete h.modDigi)

theorem Follows.execCalEdgeDelivered {dt gs n ovr} (h : Follows s u) :
    Next (Follows s) (execCalEdgeDelivered dt gs n ovr u) := by
  unfold Machine.execCalEdgeDelivered
  extract_lets _ _ _ _ _ s1
  have h1 : Follows s s1 := h.elapse.settleCodes.modDigi
  exact .ite h.elapse.settleCodes.next (.ite h1.modRot.next h1.next)

theorem Follows.execCalConversionEnd {dt gs} (h : Follows s u) : Next (Follows s) (execCalConversionEnd dt gs u) :=
  h.elapse.modDigi.settleCodes.next

theorem Follows.endConversion {d} (h : Follows s u) : Follows s (endConversion d u) := by
  unfold Machine.endConversion
  extract_lets
  split
  exacts [.ite (.ite h.modDigi.bump h.modDigi) h, h]

theorem Follows.execVernierConversionEnd {dt gs} (h : Follows s u) :
    Next (Follows s) (execVernierConversionEnd dt gs u) := by
  unfold Machine.execVernierConversionEnd
  extract_lets
  split
  exacts [.ite h.elapse.endConversion.next h.elapse.next, h.elapse.next]

theorem Follows.closeCluster {d t} (h : Follows s u) : Follows s (closeCluster d t u) := h.modDigi

theorem Follows.closeIfOver {d} (h : Follows s u) : Follows s (closeIfOver d u) := by
  unfold Machine.closeIfOver
  split
  exacts [.ite h.closeCluster h, h]

theorem Follows.execClusterWindowEnd {dt gs} (h : Follows s u) : Next (Follows s) (execClusterWindowEnd dt gs u) :=
  h.elapse.closeIfOver.next

theorem Follows.execDigitizerReady {dt gs} (h : Follows s u) : Next (Follows s) (execDigitizerReady dt gs u) :=
  .ite h.elapse.modDigi.next h.elapse.next

theorem Follows.stopFine {d fu n ovr} (h : Follows s u) : Follows s (stopFine d fu n ovr u).2 := by
  unfold Machine.stopFine
  extract_lets
  split
  exacts [h.endConversion.modDigi, h.bump]

theorem Follows.busyEdge {t} (h : Follows s u) : Follows s (busyEdge t u) := .ite h.bump.tallyAll.modTile h

theorem Follows.startCluster {d p fu n ovr inj} (h : Follows s u) : Follows s (startCluster d p fu n ovr inj u) :=
  h.endConversion.modDigi

theorem Follows.clusterEdge {d p fu n ovr inj c} (h : Follows s u) : Follows s (clusterEdge d p fu n ovr inj c u) :=
  .ite h.bump (.ite h.stopFine.modDigi.closeCluster h.stopFine.modDigi)

theorem Follows.touchTile {t} (h : Follows s u) : Follows s (touchTile t u) := h.modTile

theorem Follows.noteFired {t lp} (h : Follows s u) : Follows s (noteFired t lp u) := h.modTile

theorem Follows.scanHit {p} (h : Follows s u) : Follows s (scanHit p u) := by
  unfold Machine.scanHit
  split
  · split
    exacts [.ite h.modPix h, h]
  · exact h

theorem Follows.execPixelLeadingEdge {dt p fu n ovr charge awl} (h : Follows s u) :
    Next (Follows s) (execPixelLeadingEdge dt p fu n ovr charge awl u) := by
  unfold Machine.execPixelLeadingEdge
  extract_lets _ _ _ _ _ _ s2
  have h2 : Follows s s2 := (Follows.ite h.elapse.scanHit.noteFired h.elapse.scanHit).closeIfOver.modDigi
  split
  · exact h.elapse.next
  · split
    · exact h.elapse.scanHit.next
    · split
      · exact .ite h2.busyEdge.next h2.startCluster.touchTile.next
      · split
        exacts [h2.clusterEdge.next, .ite h2.bump.next h2.bump.next]

theorem Follows.execPixelTrailingEdge {dt p fu n ovr charge} (h : Follows s u) :
    Next (Follows s) (execPixelTrailingEdge dt p fu n ovr charge u) := by
  unfold Machine.execPixelTrailingEdge
  extract_lets _ _ _ s1
  have h1 : Follows s s1 := h.elapse.closeIfOver
  split
  · exact h1.modDigi.next
  · split
    exacts [.ite h1.next (.ite (.ite h1.stopFine.modDigi.closeCluster.next h1.stopFine.modDigi.next) h1.modDigi.next),
      h1.next]

theorem Follows.beginPass {tiles ext} (h : Follows s u) : Follows s (beginPass tiles ext u) :=
  (h.foldl (fun _ _ h => .ite h.rotationEnds.modDigi h)).modTdc.wf

theorem Follows.execTdcCal {dt c maskLo maskHi ext} (h : Follows s u) :
    Next (Follows s) (execTdcCal dt c maskLo maskHi ext u) :=
  (h.command (fun _ _ h => .ite h.refuse (.ite h.refuse h.beginPass.done))).next

theorem Follows.execTdcInitAttemptStart {dt} (h : Follows s u) : Next (Follows s) (execTdcInitAttemptStart dt u) := by
  unfold Machine.execTdcInitAttemptStart
  extract_lets
  split
  exacts [.ite h.elapse.modTdc.next h.elapse.next, h.elapse.next]

theorem Follows.execInitFillTimeout {dt d} (h : Follows s u) : Next (Follows s) (execInitFillTimeout dt d u) := by
  unfold Machine.execInitFillTimeout
  extract_lets v
  have hv : Follows s v := h.elapse.settleCodes
  split
  exacts [.ite hv.calFailure.next hv.next, hv.next]

theorem Follows.execTdcInitPassEnd {dt} (h : Follows s u) : Next (Follows s) (execTdcInitPassEnd dt u) := by
  unfold Machine.execTdcInitPassEnd
  extract_lets
  split
  exacts [.ite (h.elapse.modTdc.foldl (fun _ _ h => h.modRot)).wr.raiseBase.next h.elapse.next, h.elapse.next]

theorem Follows.execRotationGapEnd {dt t} (h : Follows s u) : Next (Follows s) (execRotationGapEnd dt t u) := by
  unfold Machine.execRotationGapEnd
  extract_lets
  split
  · exact h.elapse.next
  · split
    exacts [h.elapse.modRot.wf.next, h.elapse.next]

theorem Follows.execFillAbandoned {dt t} (h : Follows s u) : Next (Follows s) (execFillAbandoned dt t u) := by
  unfold Machine.execFillAbandoned
  extract_lets _ w
  have hw : Follows s w := .ite h.elapse.settleCodes h.elapse
  split
  exacts [.ite hw.fillOver.bump.next hw.next, hw.next]

theorem Follows.writeCalCtrl {t v} (h : Follows s u) : Follows s (writeCalCtrl t v u) := h.wr

theorem Follows.execEtdEdge {dt i rising fu n} (h : Follows s u) : Next (Follows s) (execEtdEdge dt i rising fu n u) :=
  .ite h.elapse.next (.ite h.elapse.modDigi.bump.raiseBase.next h.elapse.modDigi.bump.modDigi.modTdc.next)

theorem Follows.execEtdCalFill {dt i edges} (h : Follows s u) : Next (Follows s) (execEtdCalFill dt i edges u) :=
  .ite h.elapse.next (.ite h.elapse.modTdc.fillOver.newTable.next h.elapse.modTdc.calFailure.next)

/-! ### Tile -/

theorem Follows.settleBusy {t} (h : Follows s u) : Follows s (settleBusy t u) := by
  unfold Machine.settleBusy
  extract_lets
  split
  exacts [.ite h h.modTile, h]

theorem Follows.withBusy {t f} (h : Follows s u) : Follows s (withBusy t f u) := by
  unfold Machine.withBusy
  extract_lets _ _ s1
  have h1 : Follows s s1 := h.settleBusy.modTile
  exact .ite h1.modTile.raiseTile (.ite h1.modTile h1)

theorem Follows.levelCheck {t} (h : Follows s u) : Follows s (levelCheck t u) :=
  .ite h (.ite h.withBusy (.ite h.withBusy h))

theorem Follows.pushSlots {t l inUnit} (h : Follows s u) : Follows s (pushSlots t l inUnit u) :=
  h.modTile.high.levelCheck

theorem Follows.closeFrame {t l} (h : Follows s u) : Follows s (closeFrame t l u) := h.modTile.pushSlots

theorem Follows.feedPairs {t n f} (h : Follows s u) : Follows s (feedPairs t n f u) :=
  .ite h (.ite h.pushSlots.modTile.tallyAll.closeFrame (.ite h.pushSlots.closeFrame h.pushSlots.modTile))

theorem Follows.feedFrame {t n} (h : Follows s u) : Follows s (feedFrame t n u) := by
  unfold Machine.feedFrame
  extract_lets
  split
  exacts [h, .ite h (.ite h.feedPairs (.ite h (.ite h.modTile.tallyAll h.modTile.pushSlots.count.feedPairs)))]

theorem Follows.feedTo {t n} (h : Follows s u) : Follows s (feedTo t n u) := h.feedFrame.feedFrame

theorem Follows.settleTile {t} (h : Follows s u) : Follows s (settleTile t u) := h.feedTo.upd.feedTo.settleBusy

theorem Follows.stopTile {p t} (h : Follows s u) : Follows s (stopTile p u t) := by
  unfold Machine.stopTile
  split
  exacts [h.settleTile.modTile, h.modTile, h]

theorem Follows.idleCheck {t} (h : Follows s u) : Follows s (idleCheck t u) := .ite h.modTile h

theorem Follows.retireTile {t} (h : Follows s u) : Follows s (retireTile t u) := by
  unfold Machine.retireTile
  extract_lets _ _ _ s2
  have h2 : Follows s s2 := h.upd.wantUpdate.raiseBase
  exact .ite h (.ite h2 (.ite (Follows.ite h2.stopTile h2).modTile (Follows.ite h2.stopTile h2).idleCheck))

theorem Follows.tileFault {t} (h : Follows s u) : Follows s (tileFault t u) :=
  .ite h.raiseTile (.ite h.raiseTile.retireTile h.raiseTile.modTile)

theorem Follows.writeControl {t w} (h : Follows s u) : Follows s (writeControl t w u) :=
  .ite h.settleTile (.ite h.settleTile.modTile h.settleTile.pushSlots)

theorem Follows.moveGroup {t g found} (h : Follows s u) : Follows s (moveGroup t g found u) :=
  .ite (Follows.ite h h.bump.tallyAll).pushSlots (Follows.ite h
    h.bump.tallyAll).modTile.pushSlots.bump.tallyAll.tileFault

theorem Follows.moveAll {t l found} (h : Follows s u) : Follows s (moveAll t l found u) := by
  induction l generalizing found u with
  | nil => exact h
  | cons g r ih => exact ih h.moveGroup

theorem Follows.moveGroups {t found} (h : Follows s u) : Follows s (moveGroups t found u) := by
  unfold Machine.moveGroups
  extract_lets
  split
  exacts [.ite h h.modTile.moveAll, h]

theorem Follows.openUnit {t n found} (h : Follows s u) : Follows s (openUnit t n found u) :=
  h.modTile.pushSlots.moveGroups

theorem Follows.closeUnit {t n found} (h : Follows s u) : Follows s (closeUnit t n found u) :=
  .ite h.pushSlots.modTile h.pushSlots.modTile.openUnit

theorem Follows.execUnitClose {dt t moved} (h : Follows s u) : Next (Follows s) (execUnitClose dt t moved u) := by
  unfold Machine.execUnitClose
  extract_lets v
  have hv : Follows s v := h.elapse.settleTile
  split
  exacts [.ite hv.closeUnit.next hv.next, hv.next]

theorem Follows.writeEpoch {t} (h : Follows s u) : Follows s (writeEpoch u t) :=
  .ite h.settleTile h.settleTile.modTile.writeControl

theorem Follows.execEpochWrite {dt} (h : Follows s u) : Next (Follows s) (execEpochWrite dt u) :=
  (h.elapse.foldl (fun _ _ h => h.writeEpoch)).next

theorem Follows.startTile {b t} (h : Follows s u) : Follows s (startTile b u t) := by
  unfold Machine.startTile
  extract_lets _ _ _ _ _ _ s3
  have h3 : Follows s s3 := h.wr.wr.upd.wr.pushSlots
  exact .ite h.wr.wr (.ite h3 h3.openUnit)

theorem Follows.countCluster {t lp} (h : Follows s u) : Follows s (countCluster t lp u) := h.modTile

theorem Follows.loseCluster {t n f} (h : Follows s u) : Follows s (loseCluster t n f u) := h.modTile

theorem Follows.placeGroup {t n g} (h : Follows s u) : Follows s (placeGroup t n g u).1 := by
  unfold Machine.placeGroup
  extract_lets
  split
  · split
    exacts [h.pushSlots, h.bump.tallyAll.loseCluster]
  · split
    exacts [h.modTile, h.bump.tallyAll.loseCluster]

theorem Follows.assemble {t c} (h : Follows s u) : Follows s (assemble t c u) := by
  unfold Machine.assemble
  extract_lets _ _ _ s1
  have h1 : Follows s s1 := (Follows.ite h.took h).countCluster
  exact .ite h1.bump.tallyAll.loseCluster (.ite h1.placeGroup.upd h1.placeGroup)

theorem Follows.execClusterAssembled {dt gs} (h : Follows s u) : Next (Follows s) (execClusterAssembled dt gs u) := by
  unfold Machine.execClusterAssembled
  extract_lets
  split
  · extract_lets s1
    have h1 : Follows s s1 := h.elapse.modDigi.settleTile
    split
    exacts [.ite h1.assemble.next h1.next, h.elapse.next]
  · exact h.elapse.next

theorem Follows.execOccupancySummary {dt} (h : Follows s u) : Next (Follows s) (execOccupancySummary dt u) := by
  unfold Machine.execOccupancySummary
  extract_lets v m l s1
  have hv : Follows s v := h.elapse.foldl fun _ _ h => h.settleTile
  have h1 : Follows s s1 := hv.foldl fun _ _ h => h.modTile
  exact .ite hv.next h1.upd.modTrg.next

theorem Follows.execTileClockGate {dt t} (h : Follows s u) : Next (Follows s) (execTileClockGate dt t u) :=
  .ite h.elapse.settleTile.next h.elapse.settleTile.modTile.next

theorem Follows.execTilePllLockLost {dt t} (h : Follows s u) : Next (Follows s) (execTilePllLockLost dt t u) := by
  unfold Machine.execTilePllLockLost
  extract_lets _ _ _ _ _ s3
  have h3 : Follows s s3 := h.elapse.withBusy.upd.bump.raiseBase
  exact .ite h.elapse.next (.ite h3.next (.ite h3.retireTile.next h3.modTile.next))

theorem Follows.execTilePllRelock {dt t} (h : Follows s u) : Next (Follows s) (execTilePllRelock dt t u) :=
  .ite h.elapse.next h.elapse.modTile.upd.next

theorem Follows.addTiles {l} (h : Follows s u) : Follows s (addTiles l u) := h.wr64

theorem Follows.squallTiles {l} (h : Follows s u) : Follows s (squallTiles l u) :=
  (h.foldl (fun _ _ h => .ite h h.modTile.raiseTile)).addTiles

theorem Follows.endSquall {x} (h : Follows s u) : Follows s (endSquall x u) :=
  (h.foldl (fun _ _ h => (Follows.ite h.modTile h).writeControl)).wr64.upd

theorem Follows.quietAt {t} (h : Follows s u) : Follows s (quietAt t u) := by
  unfold Machine.quietAt
  extract_lets
  split
  exacts [h.upd, h]

theorem Follows.execSquallWindowEval {dt} (h : Follows s u) : Next (Follows s) (execSquallWindowEval dt u) := by
  unfold Machine.execSquallWindowEval
  extract_lets _ _ _ _ _ s2
  have h2 : Follows s s2 := h.elapse.quietAt.upd
  exact .ite h.elapse.next (.ite h2.next (.ite h2.upd.squallTiles.next (.ite h2.next h2.upd.next)))

theorem Follows.execSquallDeclaration {dt} (h : Follows s u) : Next (Follows s) (execSquallDeclaration dt u) := by
  unfold Machine.execSquallDeclaration
  extract_lets v w
  have hv : Follows s v := h.elapse
  have hw : Follows s w := by
    unfold w
    split
    exacts [hv.endSquall, hv]
  split
  · exact .ite hv.next ((hw.upd.count.wf.wr64.wr64.wr64.bump.tallyAll.foldl fun _ _ h =>
      h.writeControl).squallTiles.atTime fun _ h => h.raiseBase).next
  · exact hv.next

theorem Follows.execSquallEnd {dt} (h : Follows s u) : Next (Follows s) (execSquallEnd dt u) := by
  unfold Machine.execSquallEnd
  extract_lets
  split
  exacts [.ite h.elapse.endSquall.next h.elapse.next, h.elapse.next]

/-! ### Store -/

theorem Follows.modChan {x ch f} (h : Follows s u) : Follows s (u.modChan x ch f) := h.modBst

theorem Follows.modRing {x r f} (h : Follows s u) : Follows s (u.modRing x r f) := h.modBst

theorem Follows.accessLoc {x cls loc} (h : Follows s u) : Follows s (accessLoc x cls loc u) :=
  .ite h.modBst.modChan.bump h.modBst.modChan

theorem Follows.putWords {x q} (h : Follows s u) : Follows s (putWords x q u) := h.modBst

theorem Follows.writeGranule {x q} (h : Follows s u) : Follows s (writeGranule x q u) :=
  .ite (Follows.ite h.modChan h).modChan.high (Follows.ite h.modChan h).accessLoc.putWords

theorem Follows.logError {x loc w lane bad} (h : Follows s u) : Follows s (logError x loc w lane bad u) :=
  .ite h.wr.wr.wf (.ite h.raiseBit.bump.raiseSide h.raiseBit.bump)

theorem Follows.badWord {x loc w lane} (h : Follows s u) : Follows s (badWord x loc w lane u) :=
  h.bump.tally.raiseSide.logError

theorem Follows.judgeWord {x loc w a} (h : Follows s a.2.2) : Follows s (judgeWord x loc w a).2.2 := by
  unfold Machine.judgeWord
  extract_lets s0 raw d ch s1
  have h1 : Follows s s1 := .ite h.badWord (.ite h.bump.tally.logError h)
  split
  · split
    · exact h1
    · dsimp only
      exact h1.modBst
  · exact h1

theorem Follows.readGranule {x cls loc l} (h : Follows s u) : Follows s (readGranule x cls loc l u).2 := by
  unfold Machine.readGranule
  split
  · exact h.foldl fun _ _ h => h.badWord
  · extract_lets r
    have hr : Follows s r.2.2 :=
      List.foldlRecOn (motive := fun (a : List GotWord × Bool × State) => Follows s a.2.2) _ _ h.accessLoc
        fun _ h _ _ => h.judgeWord
    exact .ite hr.accessLoc hr

theorem Follows.writeItem {x cls kind gs ws} (h : Follows s u) : Follows s (writeItem x cls kind gs ws u) :=
  h.foldl fun _ _ h => h.writeGranule

theorem Follows.putItem {x r cls kind what ws q} (h : Follows s u) : Follows s (putItem x r cls kind what ws q u).1 :=
  h.writeItem.modBst.modRing.high

theorem Follows.ringFull {x r n} (h : Follows s u) : Follows s (ringFull x r n u) := .ite h h.modRing.raiseSide

theorem Follows.storeLace {x p f q} (h : Follows s u) (hq : storeLace x p f u = some q) : Follows s q.1 := by
  unfold Machine.storeLace at hq
  extract_lets at hq
  split at hq
  · cases hq
  · obtain ⟨r, -, rfl⟩ := Option.map_eq_some_iff.1 hq
    exact h.putItem

theorem Follows.storeWords {x st cls what ws q} (h : Follows s u) (hq : storeWords x st cls what ws u = some q) :
    Follows s q.1 := by
  unfold Machine.storeWords at hq
  extract_lets at hq
  split at hq
  · cases hq
    exact h.putItem
  · cases hq

theorem Follows.modItem {x id f} (h : Follows s u) : Follows s (u.modItem x id f) := h.modBst

theorem Follows.dropItem {x id} (h : Follows s u) : Follows s (dropItem x id u) := h.modBst

theorem Follows.fetchGranule {x cls i q} (h : Follows s u) : Follows s (fetchGranule x cls i u q) :=
  .ite h h.readGranule.modItem

theorem Follows.fetchItem {x cls i} (h : Follows s u) : Follows s (fetchItem x cls i u).1 :=
  h.foldl fun _ _ h => h.fetchGranule

theorem Follows.upsetItem {x i n mask} (h : Follows s u) : Follows s (upsetItem x i n mask u) := by
  unfold Machine.upsetItem
  split
  exacts [.ite h.modBst h, h]

theorem Follows.ringLoss {x source b} (h : Follows s u) : Follows s (ringLoss x source b u) := h.sendNotice

theorem Follows.overwrite {x r n fuel} (h : Follows s u) : Follows s (overwrite x r n fuel u) := by
  induction fuel generalizing u with
  | zero => exact h
  | succ fuel ih =>
    unfold Machine.overwrite
    split
    · exact h
    · split
      · exact h
      · extract_lets s1
        have h1 : Follows s s1 := h.dropItem.bump.tally.ringLoss
        exact ih (.ite h1 h1.modRing.raiseSide)

theorem Follows.spillBlock {x b} (h : Follows s u) : Follows s (spillBlock x b u).1 := by
  unfold Machine.spillBlock
  extract_lets
  split
  exacts [(Follows.ite h.overwrite h).putItem, .ite h.overwrite h]

theorem Follows.freeCompressor {x b} (h : Follows s u) : Follows s (freeCompressor x b u) := h.modCmp

theorem Follows.passBlock {x b} (h : Follows s u) : Follows s (passBlock x b u).1 := by
  unfold Machine.passBlock
  extract_lets r q
  have hq : Follows s q.1 := by
    unfold q
    split
    exacts [h.spillBlock, h]
  split
  · dsimp only
    exact h.modLnk
  · split
    exacts [hq, hq.modRing.ringFull]

theorem Follows.admitWaiting {x r n} (h : Follows s u) : Follows s (admitWaiting x r n u) := by
  induction n generalizing u with
  | zero => exact h
  | succ n ih =>
    unfold Machine.admitWaiting
    split
    · exact h
    · exact .ite (ih h.modLnk.modRing.freeCompressor) (.ite (ih h.spillBlock.modRing.freeCompressor)
        h.spillBlock.ringFull)

theorem Follows.settleStore {x} (h : Follows s u) : Follows s (settleStore x u) :=
  (h.foldl (fun _ _ h => h.dropItem)).foldl fun _ _ h => h.admitWaiting

theorem Follows.freeItem {x id} (h : Follows s u) : Follows s (freeItem x id u) := h.dropItem.settleStore

theorem Follows.skipHalted {x r} (h : Follows s u) : Follows s (skipHalted x r u) := by
  unfold Machine.skipHalted
  extract_lets
  split
  · exact h.modRing
  · split
    exacts [h.modRing, h.modRing.bump.tally.ringLoss.freeItem]

theorem Follows.haltDrain {x r i b n} (h : Follows s u) : Follows s (haltDrain x r i b n u) := by
  unfold Machine.haltDrain
  extract_lets _ _ _ _ _ s4
  have h4 : Follows s s4 := h.wr.wr.wr.wr.modItem.modRing.raiseSide
  exact .ite h4.skipHalted h4

theorem Follows.execDrainRead {dt x r bad} (h : Follows s u) : Next (Follows s) (execDrainRead dt x r bad u) := by
  unfold Machine.execDrainRead
  extract_lets v k
  have hv : Follows s v := h.elapse.settleStore
  refine .ite hv.next ?_
  split
  · exact hv.next
  · split
    · exact hv.next
    · refine .ite hv.next ?_
      extract_lets s1 d
      have h1 : Follows s s1 := by
        unfold s1
        split
        exacts [hv.upsetItem, hv]
      have hd : Follows s d.1 := h1.modItem.fetchItem
      split
      · exact hd.next
      · split
        exacts [hd.haltDrain.next, hd.modItem.modLnk.next]

theorem Follows.execResumeDrain {dt c p1} (h : Follows s u) : Next (Follows s) (execResumeDrain dt c p1 u) :=
  (h.command (fun _ _ h => .ite h.refuse (.ite h.skipHalted.okRes h.modRing.okRes))).next

theorem Follows.emptyRings {x} (h : Follows s u) : Follows s (emptyRings x u) := by
  unfold Machine.emptyRings
  exact (h.foldl (fun _ _ h => h.bump.foldl (fun _ _ h => h.freeCompressor))).modBst

theorem Follows.drawKey {x} (h : Follows s u) : Follows s (drawKey x u) := h.took.modBst.wr.wr

theorem Follows.restoreClasses {x} (h : Follows s u) : Follows s (restoreClasses x u) := h.modBst

theorem Follows.shedClass {x q c} (h : Follows s q.1) : Follows s (shedClass x q c).1 := by
  unfold Machine.shedClass
  split
  · exact h
  · exact .ite h.modBst.raiseSide h.modBst.raiseSide

theorem Follows.shedGuarantees {x} (h : Follows s u) : Follows s (shedGuarantees x u) :=
  .ite (List.foldlRecOn (motive := fun (q : State × Nat) => Follows s q.1) _ _ h fun _ h _ _ => h.shedClass) h

theorem Follows.tryRefresh {x ch} (h : Follows s u) : Follows s (tryRefresh x ch u) :=
  .ite h (.ite h.modChan.bump (.ite h.modChan h))

theorem Follows.execRefreshDue {dt x ch} (h : Follows s u) : Next (Follows s) (execRefreshDue dt x ch u) :=
  .ite h.elapse.next h.elapse.modChan.high.tryRefresh.next

theorem Follows.drainQueue {x ch} (h : Follows s u) : Follows s (drainQueue x ch u) :=
  .ite h.modChan (h.modChan.foldl (fun _ _ h => h.accessLoc.putWords))

theorem Follows.execRefreshEnd {dt x ch} (h : Follows s u) : Next (Follows s) (execRefreshEnd dt x ch u) := by
  unfold Machine.execRefreshEnd
  extract_lets
  split
  exacts [h.elapse.next, .ite h.elapse.next h.elapse.modChan.drainQueue.tryRefresh.settleStore.next]

theorem Follows.execIngestQuiet {dt x ch} (h : Follows s u) : Next (Follows s) (execIngestQuiet dt x ch u) :=
  .ite h.elapse.tryRefresh.next h.elapse.next

theorem Follows.execActivateTableClear {dt x} (h : Follows s u) : Next (Follows s) (execActivateTableClear dt x u) :=
  .ite h.elapse.next h.elapse.modBst.next

theorem Follows.imbalanceOf {x total n ch} (h : Follows s u) : Follows s (imbalanceOf x total n u ch) :=
  .ite h.modChan.wf.wf.raiseSide (.ite h.modChan.wf.wf h.modChan.wf)

theorem Follows.execImbalanceInterval {dt x} (h : Follows s u) : Next (Follows s) (execImbalanceInterval dt x u) :=
  .ite h.elapse.next (((h.elapse.foldl (fun _ _ h => h.imbalanceOf)).foldl (fun _ _ h => h.imbalanceOf)).foldl
    (fun _ _ h => h.wf)).modBst.next

theorem Follows.mgtAccess {x a} (h : Follows s u) : Follows s (mgtAccess x u a) := by
  unfold Machine.mgtAccess
  split
  exacts [.ite h h.readGranule, .ite h h.modBst.writeGranule]

theorem Follows.mgtNoted {x a m} (h : Follows s a.1) : Follows s (mgtNoted x a m).1 := h.mgtAccess

theorem Follows.patrolNext {x g} (h : Follows s u) : Follows s (patrolNext x g u) := by
  unfold Machine.patrolNext
  split
  exacts [h.modBst, h.modBst.count]

theorem Follows.patrolRead {x g raw wrote} (h : Follows s u) : Follows s (patrolRead x g raw wrote u) :=
  h.modBst.readGranule

theorem Follows.execPatrolScrubAccess {dt x raw mgt} (h : Follows s u) :
    Next (Follows s) (execPatrolScrubAccess dt x raw mgt u) := by
  unfold Machine.execPatrolScrubAccess
  extract_lets s1 m v w
  have h1 : Follows s s1 := h.elapse
  have hv : Follows s v :=
    List.foldlRecOn (motive := fun (a : State × List Nat) => Follows s a.1) _ _ h1 fun _ h _ _ => h.mgtNoted
  have hw : Follows s w := .ite hv hv.modBst
  refine .ite h1.next (.ite hv.next ?_)
  split
  · exact hv.next
  · split
    · exact hw.patrolNext.next
    · exact .ite hw.next hw.patrolRead.patrolNext.next

/-! ### Compress -/

theorem Follows.noteLevel {x} (h : Follows s u) : Follows s (noteLevel x u) := h.high

theorem Follows.enterOutput {x o} (h : Follows s u) (ht : enterOutput x o u = some t) : Follows s t := by
  unfold Machine.enterOutput at ht
  split at ht
  · cases ht
    exact h.modCmp.noteLevel
  · split at ht
    · next hq => cases ht; exact (h.storeWords hq).bump.modCmp
    · cases ht

theorem Follows.enterMember {x o} (h : Follows s u) (ht : enterMember x o u = some t) : Follows s t := by
  unfold Machine.enterMember at ht
  obtain ⟨q, hq, rfl⟩ := Option.map_eq_some_iff.1 ht
  exact (h.storeWords hq).modCmp

theorem Follows.enterAs {x member o} (h : Follows s u) (ht : enterAs x member o u = some t) : Follows s t := by
  unfold Machine.enterAs at ht
  split at ht
  exacts [h.enterMember ht, h.enterOutput ht]

theorem Follows.outputWaits {x member o} (h : Follows s u) : Follows s (outputWaits x member o u) := h.ringFull

theorem Follows.enterLater {x member o} (h : Follows s u) : Follows s (enterLater x member o u) := by
  unfold Machine.enterLater
  split
  · next ht => exact h.enterAs ht
  · exact h.outputWaits.modCmp

theorem Follows.retryEntering {x} (h : Follows s u) : Follows s (retryEntering x u) :=
  h.modCmp.foldl fun _ _ h => h.enterLater

theorem Follows.noteReady {x k} (h : Follows s u) : Follows s (noteReady x u k) := by
  unfold Machine.noteReady
  exact h.modCmp

theorem Follows.scanReady {x} (h : Follows s u) : Follows s (scanReady x u) := h.foldl fun _ _ h => h.noteReady

theorem Follows.freeSpill {x id} (h : Follows s u) : Follows s (freeSpill x id u) := by
  unfold Machine.freeSpill
  split
  exacts [.ite h h.freeItem, h]

theorem Follows.noteParts {x k l} (h : Follows s u) : Follows s (noteParts x k l u) := by
  unfold Machine.noteParts
  exact h.modCmp

theorem Follows.commitCut {x k c} (h : Follows s u) : Follows s (commitCut x k c u) :=
  (Follows.ite h.noteParts.modCmp.modCmp h.noteParts.modCmp).foldl fun _ _ h => h.freeSpill

theorem Follows.replaceOutput {x o source taken bad} (h : Follows s u) :
    Follows s (replaceOutput x o source taken bad u) := (Follows.ite h.modCmp h.modCmp.tally).freeSpill.noteLevel

theorem Follows.readBack {x o taken} (h : Follows s u) : Follows s (readBack x o taken u).1 := by
  unfold Machine.readBack
  split
  · dsimp only
    exact h.modCmp
  · extract_lets
    split
    · exact h.fetchItem
    · split
      exacts [h.fetchItem.modCmp.freeSpill.noteLevel, h.fetchItem.replaceOutput]

theorem Follows.readyCut {x k n} (h : Follows s u) : Follows s (readyCut x k n u).1 := by
  induction n generalizing u with
  | zero => exact h
  | succ n ih =>
    unfold Machine.readyCut
    extract_lets p
    split
    · exact h
    · extract_lets
      split
      · extract_lets
        split
        exacts [ih h.readBack, h.readBack]
      · exact h

theorem Follows.modComp {x e f} (h : Follows s u) : Follows s (u.modComp x e f) := h.modCmp

theorem Follows.takeBlock {x l} (h : Follows s u) : Follows s (takeBlock x l u) := by
  induction l generalizing u with
  | nil => exact h
  | cons r rest ih =>
    unfold Machine.takeBlock
    split
    · exact ih h
    · extract_lets leave
      split
      · exact h.modCmp.modComp
      · exact h.modCmp.modComp
      · next k _ =>
        have hc := h.readyCut (x := x) (k := k) (n := 64)
        split
        · next he =>
          rw [he] at hc
          exact hc.modCmp.commitCut.modComp
        · next he =>
          rw [he] at hc
          exact ih (.ite hc hc.modCmp)

theorem Follows.outputFault {x unit bad} (h : Follows s u) : Follows s (outputFault x unit bad u) := by
  unfold Machine.outputFault
  split
  · exact h
  · extract_lets
    split
    · exact h
    · exact .ite h h.replaceOutput.raiseSide
    · split
      exacts [h.upsetItem, h]

theorem Follows.execCompressorTakesBlock {dt x unit bad} (h : Follows s u) :
    Next (Follows s) (execCompressorTakesBlock dt x unit bad u) :=
  .ite h.elapse.next h.elapse.outputFault.retryEntering.scanReady.takeBlock.scanReady.next

theorem Follows.retireCompressor {x e} (h : Follows s u) : Follows s (retireCompressor x e u) :=
  .ite h h.upd.wantUpdate.raiseSide

theorem Follows.count64 {a b n} (h : Follows s u) : Follows s (count64 a b n u) := h.wr64

theorem Follows.countBlock {x b stored} (h : Follows s u) : Follows s (countBlock x b stored u) :=
  h.count64.count64.count.bump.tally.tally

theorem Follows.verifyFails {x b h'} (h : Follows s u) : Follows s (verifyFails x b h' u) := by
  unfold Machine.verifyFails
  extract_lets _ _ _ _ _ s4 s5
  have h4 : Follows s s4 := h.bump.tally.wr.wr.wr.wr.raiseSide
  have h5 : Follows s s5 := .ite h4 h4.modCmp
  exact .ite h5 (.ite h5.retireCompressor h5.modComp)

theorem Follows.verifyBlock {x b} (h : Follows s u) : Follows s (verifyBlock x b u) := by
  unfold Machine.verifyBlock
  extract_lets
  split
  exacts [h.bump, h.bump.verifyFails]

theorem Follows.settleDecs {x} (h : Follows s u) : Follows s (settleDecs x u) := by
  unfold Machine.settleDecs
  exact h.modCmp

theorem Follows.claimDec {x d} (h : Follows s u) : Follows s (claimDec x d u) := h.modCmp

theorem Follows.putJobOut {x l} (h : Follows s u) : Follows s (putJobOut x l u) := h.foldl fun _ _ h => h.wf

theorem Follows.runJob {x j} (h : Follows s u) : Ends s (runJob x j u) := h.claimDec.modCmp.putJobOut.wr.wr.wr.done

theorem Follows.execDecompressJob {dt c p1 p2 p3} (h : Follows s u) :
    Next (Follows s) (execDecompressJob dt c p1 p2 p3 u) := (h.command (fun _ _ h => h.runJob)).next

theorem Follows.execJobResume {dt c p1} (h : Follows s u) : Next (Follows s) (execJobResume dt c p1 u) :=
  (h.command (fun _ _ h => .ite h.refuse h.runJob)).next

/-! ### Frame -/

theorem Follows.modFrames {f} (h : Follows s u) : Follows s (u.modFrames f) := h.upd

theorem Follows.acceptTrigger {t} (h : Follows s u) : Follows s (acceptTrigger t u) := by
  unfold Machine.acceptTrigger
  extract_lets _ _ s2
  have h2 : Follows s s2 := (h.modTrg.foldl (fun _ _ h => h.touchTile)).modPix
  split
  exacts [h2.modFrames.count.wr64, h2.modFrames]

theorem Follows.usedEdge {src t} (h : Follows s u) : Follows s (usedEdge src t u) := by
  unfold Machine.usedEdge
  split
  exacts [h.modFrames, h]

theorem Follows.usedTrigger {src t} (h : Follows s u) : Follows s (usedTrigger src t u) := .ite h.modTrg h.usedEdge

theorem Follows.execFrameTrigger {dt src} (h : Follows s u) : Next (Follows s) (execFrameTrigger dt src u) := by
  unfold Machine.execFrameTrigger
  extract_lets
  split
  exacts [h.elapse.next,
    .ite h.elapse.usedEdge.next (.ite h.elapse.usedTrigger.bump.raiseBase.next h.elapse.usedTrigger.acceptTrigger.next)]

theorem Follows.emitFrame {t preset stamp u0 u1 sq clamps l} (h : Follows s u) :
    Follows s (emitFrame t preset stamp u0 u1 sq clamps l u) := by
  unfold Machine.emitFrame
  exact h.bump.bump.modTile.modFrames

theorem Follows.chainError {t lp} (h : Follows s u) : Follows s (chainError t lp u) := h.bump.modTile.raiseTile

theorem Follows.decimate {t preset f l} (h : Follows s u) : Follows s (decimate t preset f l u) :=
  .ite h.modTile.wr.emitFrame h.modTile.wr

theorem Follows.execFrameConversionEnd {dt t samples bad} (h : Follows s u) :
    Next (Follows s) (execFrameConversionEnd dt t samples bad u) := by
  unfold Machine.execFrameConversionEnd
  extract_lets v
  have hv : Follows s v := h.elapse.settleTile
  split
  exacts [hv.next, .ite hv.next (Follows.ite hv.modFrames.emitFrame
    (hv.modFrames.foldl (fun _ _ h => h.chainError)).decimate).settleTile.idleCheck.next]

theorem Follows.execFaCal {dt c maskLo maskHi} (h : Follows s u) : Next (Follows s) (execFaCal dt c maskLo maskHi u) :=
  (h.command (fun _ _ h => .ite h.refuse (.ite h.refuse h.modFrames.wf.wr.done))).next

theorem Follows.execFaCalPhaseStart {dt} (h : Follows s u) : Next (Follows s) (execFaCalPhaseStart dt u) := by
  unfold Machine.execFaCalPhaseStart
  extract_lets
  split
  exacts [.ite h.elapse.modFrames.next h.elapse.next, h.elapse.next]

theorem Follows.retireAdc {d} (h : Follows s u) : Follows s (retireAdc d u) :=
  .ite h (Follows.ite h.upd.raiseBase h.upd.wantUpdate).raiseTile

theorem Follows.faFailure {d} (h : Follows s u) : Follows s (faFailure u d) := by
  unfold Machine.faFailure
  extract_lets _ _ s2
  have h2 : Follows s s2 := h.bump.raiseTile.modFrames
  exact .ite h (.ite h2.retireAdc.bump h2)

theorem Follows.faPass {m} (h : Follows s u) : Follows s (faPass u m) := h.wr

theorem Follows.faEvaluate {q} (h : Follows s u) : Follows s (faEvaluate u q) := by
  unfold Machine.faEvaluate
  split
  exacts [.ite h.faPass h.faFailure, h.faFailure]

theorem Follows.faMeasured {included meas t} (h : Follows s u) : Follows s (faMeasured included meas u t) :=
  .ite h h.modFrames.wantReduce

theorem Follows.execFaCalAttemptEnd {dt meas} (h : Follows s u) : Next (Follows s) (execFaCalAttemptEnd dt meas u) := by
  unfold Machine.execFaCalAttemptEnd
  extract_lets
  split
  · exact h.elapse.next
  · extract_lets s1
    have h1 : Follows s s1 := h.elapse.foldl fun _ _ h => h.faMeasured
    exact .ite h.elapse.next (.ite h1.modFrames.next h1.modFrames.wf.raiseBase.next)

theorem Follows.writeFramePeriod {v} (h : Follows s u) : Follows s (writeFramePeriod v u) := .ite h.wr.raiseBit h.wr

theorem Follows.startFrames {b} (h : Follows s u) : Follows s (startFrames b u) := h.modFrames.wr

/-! ### Intake -/

theorem Follows.modIntake {x t f} (h : Follows s u) : Follows s (u.modIntake x t f) := h.modDsp

theorem Follows.removeUnit {x v} (h : Follows s u) : Follows s (removeUnit x v u) := by
  unfold Machine.removeUnit
  extract_lets
  split
  exacts [h.modDsp.freeItem, h.modDsp]

theorem Follows.noteLost {x u'} (h : Follows s u) : Follows s (noteLost x u' u) := h.modDsp

theorem Follows.decideUnit {x v} (h : Follows s u) : Follows s (decideUnit x v u) :=
  .ite (Follows.ite h h.bump).modDsp.enqueueItem h.bump.noteLost.removeUnit.scanReady

theorem Follows.decideIfDue {x v} (h : Follows s u) : Follows s (decideIfDue x v u) := .ite h.decideUnit h

theorem Follows.enterUnit {x v} (h : Follows s u) : Follows s (enterUnit x v u) := h.modDsp.decideIfDue

theorem Follows.noteTop {x u'} (h : Follows s u) : Follows s (noteTop x u' u) := h.modDsp

theorem Follows.trailing {x t} (h : Follows s u) : Follows s (trailing x t u) := by
  unfold Machine.trailing
  extract_lets _ s1
  have h1 : Follows s s1 := h.modIntake
  split
  · exact h
  · split
    exacts [h1, .ite h1 (.ite h1.modDsp (h1.foldl (fun _ _ h => h.enterLater)).scanReady)]

theorem Follows.arriveUnit {x t} (h : Follows s u) : Follows s (arriveUnit x t u) := by
  unfold Machine.arriveUnit
  split
  · exact h.trailing
  · refine .ite h.modIntake.noteTop.noteLost.scanReady (.ite h.bump.modIntake.noteTop.noteLost.scanReady
      (.ite h.modIntake.noteTop.enterUnit.scanReady ?_))
    split
    · next hq => exact (h.storeWords hq).modIntake.noteTop.enterUnit.scanReady
    · exact h.ringFull

theorem Follows.holdUnits {x l} (h : Follows s u) : Follows s (holdUnits x l u) := by
  induction l generalizing u with
  | nil => exact h
  | cons v r ih =>
    unfold Machine.holdUnits
    split
    · next hq => exact ih (h.storeWords hq).modDsp
    · exact h.ringFull

theorem Follows.execUnitArrival {dt x t} (h : Follows s u) : Next (Follows s) (execUnitArrival dt x t u) :=
  .ite h.elapse.holdUnits.arriveUnit.next h.elapse.next

theorem Follows.execUnitDecided {dt x unit} (h : Follows s u) : Next (Follows s) (execUnitDecided dt x unit u) := by
  unfold Machine.execUnitDecided
  extract_lets
  split
  exacts [h.elapse.decideIfDue.next, h.elapse.next]

theorem Follows.receiveWord {x t w within} (h : Follows s u) : Follows s (receiveWord x t w within u) :=
  .ite h.tally.modDsp (Follows.ite h.tally.tally (.ite h.tally.tally h.tally)).modIntake

theorem Follows.linkWord {x t w within found} (h : Follows s u) : Follows s (linkWord x t w within found u) :=
  .ite h.bump.tally.receiveWord.tileFault h.receiveWord

theorem Follows.sendWord {t w linkA linkB} (h : Follows s u) : Follows s (sendWord t w linkA linkB u) := by
  unfold Machine.sendWord
  extract_lets _ _ _ _ s2
  have h2 : Follows s s2 := .ite h.modTile.count.linkWord h.modTile.count
  exact .ite h2.linkWord h2

theorem Follows.retract {t n} (h : Follows s u) : Follows s (retract t n u) :=
  (h.both (fun _ _ h => .ite h.modIntake.modSide h)).wr

theorem Follows.badSlot {t q linkA linkB} (h : Follows s u) : Follows s (badSlot t q linkA linkB u) := by
  unfold Machine.badSlot
  extract_lets _ s1
  have h1 : Follows s s1 := h.bump.tallyAll.tileFault
  exact .ite h1.sendWord.sendWord.modTile h1.retract.modTile.sendWord.modTile

theorem Follows.afterWord {t moved} (h : Follows s u) : Follows s (afterWord t moved u) := by
  unfold Machine.afterWord
  exact h.levelCheck.moveGroups.idleCheck.both fun _ _ h => .ite h.trailing h

theorem Follows.execTileLinkWord {dt t fifo linkA linkB moved} (h : Follows s u) :
    Next (Follows s) (execTileLinkWord dt t fifo linkA linkB moved u) := by
  unfold Machine.execTileLinkWord
  extract_lets v
  have hv : Follows s v := h.elapse.settleTile
  split
  · exact hv.afterWord.next
  · refine .ite hv.next (Follows.next (.afterWord ?_))
    split
    exacts [hv.modTile.sendWord, hv.modTile.bump.tallyAll.sendWord, hv.modTile.badSlot]

theorem Follows.substituteRest {t x} (h : Follows s u) : Follows s (substituteRest t x u) :=
  .ite h ((h.modIntake.foldl (fun _ _ h => .ite h.noteTop.noteLost
    (.ite h.noteTop.bump.noteLost h.noteTop.modDsp.tally))).holdUnits.foldl
    (fun _ _ h => by split; exacts [h.decideIfDue, h]))

theorem Follows.execTilePllRelockTimeout {dt t} (h : Follows s u) :
    Next (Follows s) (execTilePllRelockTimeout dt t u) := by
  unfold Machine.execTilePllRelockTimeout
  extract_lets
  split
  exacts [h.elapse.next,
    .ite h.elapse.next ((h.elapse.both (fun _ _ h => h.substituteRest)).modTile.modFrames.levelCheck.both
    (fun _ _ h => .ite h.scanReady h)).next]

/-! ### Engines -/

theorem Follows.contribute {x v own} (h : Follows s u) : Follows s (contribute x v own u) :=
  .ite h (h.foldl (fun _ _ h => .ite h.modDsp h))

theorem Follows.passUnit {x v out f} (h : Follows s u) (h0 : Follows s t) (hf : ∀ t, Follows s t → Follows s (f t)) :
    Passes s (passUnit x v out f t u) := by
  unfold Machine.passUnit
  extract_lets
  split
  · next he => exact (hf _ (h.enterAs he)).passed
  · exact h0.outputWaits.waits

theorem Follows.readUnit {x v bad} (h : Follows s u) : Follows s (readUnit x v bad u).1 := by
  unfold Machine.readUnit
  extract_lets marks
  split
  · exact h
  · refine Follows.fetchItem ?_
    split
    exacts [h.upsetItem, h]

theorem Follows.sortItem {x cluster n bad} (h : Follows s u) : Passes s (sortItem x cluster n bad u) := by
  unfold Machine.sortItem
  split
  · exact h.passed
  · next v _ =>
    refine .ite h.waits ?_
    extract_lets r
    have hr : Follows s r.1 := h.readUnit
    split
    · exact hr.waits
    · split
      · exact (Follows.ite hr.bump.raiseSide hr).tally.passUnit hr fun _ h => h.removeUnit
      · exact hr.passUnit hr fun _ h => h.contribute.removeUnit

theorem Follows.freeAcc {x id} (h : Follows s u) : Follows s (freeAcc x id u) :=
  h.modDsp.modTrg.modCmp.foldl fun _ _ h => h.freeSpill

theorem Follows.noteTaken {x record l} (h : Follows s u) : Follows s (noteTaken x record l u) := by
  unfold Machine.noteTaken
  exact h.modCmp

theorem Follows.buildRecord {x id} (h : Follows s u) : Passes s (buildRecord x id u) := by
  unfold Machine.buildRecord
  split
  · exact h.passed
  · extract_lets
    split
    · exact h.outputWaits.waits
    · next h1 =>
      split
      · exact h.outputWaits.waits
      · next h2 => exact (((h.enterOutput h1).modCmp.noteTaken).enterOutput h2).freeAcc.passed

theorem Follows.makeBuilds {x} (h : Follows s u) : Follows s (makeBuilds x u) :=
  h.foldl fun _ _ h => .ite h (.ite h.freeAcc h.modTrg.enqueueItem)

theorem Follows.reduceTile {t} (h : Follows s u) : Follows s (reduceTile t u) :=
  (h.foldl (fun _ _ h => h.newTable)).modTdc.modFrames.foldl fun _ _ h => h.faEvaluate

theorem Follows.dropReduce {t} (h : Follows s u) : Follows s (dropReduce t u) := h.modTdc.modFrames

theorem Follows.modEng {x e f} (h : Follows s u) : Follows s (u.modEng x e f) := h.modDsp

theorem Follows.startItem {x p i e preempt} (h : Follows s u) : Follows s (startItem x p i e preempt u) := by
  unfold Machine.startItem
  extract_lets _ s2
  have h2 : Follows s s2 := .ite h.modDsp.bump h.modDsp.bump
  exact .ite (Follows.ite h2.high h2).bump.modEng (Follows.ite h2.high h2).modEng

theorem Follows.dispatchPass {x l n} (h : Follows s u) : Follows s (dispatchPass x l n u) := by
  induction l generalizing n u with
  | nil => exact h
  | cons q l ih =>
    cases n with
    | zero => exact h
    | succ n =>
      unfold Machine.dispatchPass
      split
      exacts [ih h.startItem, ih h]

theorem Follows.readAttached {x v} (h : Follows s u) : Follows s (readAttached x v u).1 := by
  unfold Machine.readAttached
  split
  · exact h
  · exact List.foldlRecOn (motive := fun (a : State × List Nat) => Follows s a.1) _ _ h fun _ h _ _ => h.readGranule

theorem Follows.discardItem {x q} (h : Follows s u) : Follows s (discardItem x u q) := by
  unfold Machine.discardItem
  extract_lets unit again
  have hu : ∀ n, Follows s (unit n) := fun n => by
    unfold unit
    split
    exacts [h, h.readAttached.bump.tally.enterLater.removeUnit.scanReady]
  have ha : Follows s again := h.modDsp
  split
  exacts [hu _, hu _, ha, ha, ha, .ite h ha, h.dropReduce]

theorem Follows.flushReady {x} (h : Follows s u) : Follows s (flushReady x u) :=
  h.modDsp.foldl fun _ _ h => h.discardItem

theorem Follows.flushDelay {x} (h : Follows s u) : Follows s (flushDelay x u) :=
  h.modDsp.foldl fun _ _ h => h.discardItem

theorem Follows.putDelay {x i due} (h : Follows s u) : Follows s (putDelay x i due u) := .ite h.modDsp h.modDsp

theorem Follows.retryDelay {x} (h : Follows s u) : Follows s (retryDelay x u) :=
  h.modDsp.foldl fun _ _ h => h.putDelay

theorem Follows.delayItem {x w due} (h : Follows s u) : Follows s (delayItem x w due u) := h.putDelay

theorem Follows.produceAgain {x w} (h : Follows s u) : Follows s (produceAgain x u w) := .ite h.delayItem h.enqueueItem

theorem Follows.createAgain {x} (h : Follows s u) : Follows s (createAgain x u) := by
  unfold Machine.createAgain
  exact (h.modDsp.foldl (fun _ _ h => h.produceAgain)).modDsp

theorem Follows.pointerError {x} (h : Follows s u) : Follows s (pointerError x u) := h.bump.bump.raiseSide

theorem Follows.execDispatchCycle {dt x mismatch} (h : Follows s u) :
    Next (Follows s) (execDispatchCycle dt x mismatch u) := by
  unfold Machine.execDispatchCycle
  extract_lets _ _ entered _ s1
  have hentered : Follows s entered := h.elapse.modDsp.retryEntering
  have h1 : Follows s s1 := (Follows.ite hentered hentered.scanReady).createAgain.retryHeld.retryDelay
  exact .ite h.elapse.next (Follows.ite h1.pointerError.flushReady h1).dispatchPass.makeBuilds.settleDecs.next

theorem Follows.execDelayItemDue {dt x mismatch} (h : Follows s u) :
    Next (Follows s) (execDelayItemDue dt x mismatch u) := by
  unfold Machine.execDelayItemDue
  extract_lets _ v
  have hv : Follows s v := .ite h.elapse.pointerError.flushDelay h.elapse
  split
  exacts [hv.next, .ite hv.next hv.modDsp.high.next]

theorem Follows.releaseSerial {x w} (h : Follows s u) : Follows s (releaseSerial x w u) := .ite h h.modDsp

theorem Follows.itemDone {x e w} (h : Follows s u) : Follows s (itemDone x e w u) :=
  h.count.modDsp.modEng.releaseSerial.settleDecs

theorem Follows.complete {x e kind work} (h : Follows s u) (hw : ∀ w t, Follows s t → Passes s (work w t)) :
    Follows s (complete x e kind work u) := by
  unfold Machine.complete
  split
  · exact h
  · next w _ =>
    have hp := hw w u h
    split
    · next he => rw [he] at hp; exact hp
    · next he => rw [he] at hp; exact hp.itemDone.scanReady.makeBuilds

theorem Follows.execSliceSort {dt x e bad} (h : Follows s u) : Next (Follows s) (execSliceSort dt x e bad u) :=
  (h.elapse.complete (fun _ _ h => by split; exacts [h.sortItem, h.passed])).next

theorem Follows.execCluster {dt x e bad} (h : Follows s u) : Next (Follows s) (execCluster dt x e bad u) :=
  (h.elapse.complete (fun _ _ h => by split; exacts [h.sortItem, h.passed])).next

theorem Follows.execRecordBuild {dt x e} (h : Follows s u) : Next (Follows s) (execRecordBuild dt x e u) :=
  (h.elapse.complete (fun _ _ h => by split; exacts [h.buildRecord, h.passed])).next

theorem Follows.execVerify {dt x e} (h : Follows s u) : Next (Follows s) (execVerify dt x e u) :=
  (h.elapse.complete (fun _ _ h => by split; exacts [.ite h.verifyBlock.passed h.waits, h.passed])).next

theorem Follows.execCalReduce {dt x e} (h : Follows s u) : Next (Follows s) (execCalReduce dt x e u) :=
  (h.elapse.complete (fun _ _ h => by split; exacts [h.reduceTile.passed, h.passed])).next

theorem Follows.putBack {x i} (h : Follows s u) : Follows s (putBack x i u) := by
  unfold Machine.putBack
  split
  exacts [h.modDsp.high, h]

theorem Follows.retireEngine {x e} (h : Follows s u) : Follows s (retireEngine x e u) :=
  .ite h h.putBack.putBack.modEng.settleDecs.upd.wantUpdate.raiseSide

theorem Follows.trapEngine {x e} (h : Follows s u) : Follows s (trapEngine x e u) := by
  unfold Machine.trapEngine
  extract_lets _ _ s2
  have h2 : Follows s s2 := h.putBack.modEng.settleDecs.bump.tally.raiseSide
  exact .ite h (.ite h2.retireEngine h2.modEng)

theorem Follows.execEngineTrap {dt x e} (h : Follows s u) : Next (Follows s) (execEngineTrap dt x e u) :=
  h.elapse.trapEngine.next

/-! ### Trigger -/

theorem Follows.onLive {f} (h : Follows s u) (hf : ∀ x t, Follows s t → Follows s (f x t)) : Follows s (onLive f u) :=
  h.both fun _ _ h => .ite (hf _ _ h) h

theorem Follows.commitTable (h : Follows s u) : Follows s (commitTable u) :=
  h.onLive fun _ _ h => h.foldl fun _ _ h => h.foldl fun _ _ h => h.wr

theorem Follows.joinAccs {keep gone} (h : Follows s u) : Follows s (joinAccs keep gone u) :=
  h.both fun _ _ h => h.modDsp

theorem Follows.mergeWindow {into a e m byHull} (h : Follows s u) : Follows s (mergeWindow into a e m byHull u) :=
  (h.foldl (fun _ _ h => h.joinAccs)).modTrg.onLive fun _ _ h => h.bump

theorem Follows.checkAccs {c} (h : Follows s u) : Follows s (checkAccs c u) :=
  .ite h (h.both (fun _ _ h => h.raiseSide)).modTrg

theorem Follows.loneMark {m} (h : Follows s u) : Follows s (loneMark m u) := by
  unfold Machine.loneMark
  extract_lets o
  exact h.both fun _ _ h => .ite h h.enterLater.scanReady

theorem Follows.openWindow {c n w t fine} (h : Follows s u) : Follows s (openWindow c n w t fine u) := by
  unfold Machine.openWindow
  extract_lets _ _ _ _ s1
  have h1 : Follows s s1 := (h.onLive (fun _ _ h => h.bump)).modTrg
  split
  · exact (h1.onLive (fun _ _ h => h.bump)).modTrg.modTrg.loneMark
  · split
    · exact h1.modTrg.mergeWindow.checkAccs
    · split
      · split
        exacts [(h1.modTrg.mergeWindow.onLive (fun _ _ h => h.bump.tally.raiseSide)).checkAccs, h1]
      · exact (h1.modTrg.modTrg.onLive (fun _ _ h => h.high)).checkAccs

theorem Follows.closeGated {c} (h : Follows s u) : Follows s (closeGated c u) := .ite h h.modTrg

theorem Follows.closeRecs {gone f} (h : Follows s u) : Follows s (closeRecs gone f u) :=
  h.modTrg.foldl fun _ _ h => (h.onLive (fun _ _ h => h.count.tally)).modTrg

theorem Follows.busAssert {c line} (h : Follows s u) : Follows s (busAssert c line u) :=
  .ite (h.atTime (fun _ h => h.busAtRoot)) (h.both (fun _ _ h => h.busUp))

theorem Follows.mpPulse {c i} (h : Follows s u) : Follows s (mpPulse c i u) := .ite h h.modTrg

theorem Follows.tableWrite {p} (h : Follows s u) : Follows s (tableWrite p u) :=
  h.onLive fun _ _ h => h.foldl fun _ _ h => h.wr

theorem Follows.action {c n t fine act} (h : Follows s u) : Follows s (action c n t fine u act) := by
  unfold Machine.action
  extract_lets
  split
  exacts [h.openWindow, h.closeGated, h.modTrg, h.modTrg, (h.onLive (fun _ _ h => h.wr)).modTrg, h.modTrg, h.busAssert,
    h.mpPulse, h.tableWrite, h]

theorem Follows.landCommit {c} (h : Follows s u) : Follows s (landCommit c u) := by
  unfold Machine.landCommit
  split
  exacts [.ite (h.modTrg.commitTable.both (fun _ _ h => h.raiseSide)) h, h]

theorem Follows.enterState {c n e t fine} (h : Follows s u) : Follows s (enterState c n e t fine u) :=
  (h.modTrg.foldl (fun _ _ h => h.action)).landCommit

theorem Follows.execSequencerEntry {dt} (h : Follows s u) : Next (Follows s) (execSequencerEntry dt u) := by
  unfold Machine.execSequencerEntry
  extract_lets
  split
  exacts [.ite h.elapse.enterState.next h.elapse.next, h.elapse.next]

theorem Follows.stepCounters {m hits} (h : Follows s u) : Follows s (stepCounters m hits u) :=
  h.foldl fun _ _ h => h.onLive fun _ _ h => h.bump

theorem Follows.stepAt {m} (h : Follows s u) : Follows s (stepAt m u) := by
  unfold Machine.stepAt
  exact h.closeRecs.stepCounters.modTrg

theorem Follows.execSequencerStep {dt} (h : Follows s u) : Next (Follows s) (execSequencerStep dt u) :=
  .ite h.elapse.stepAt.next h.elapse.next

theorem Follows.pushBus {h'} (h : Follows s u) : Follows s (pushBus h' u) := h.modTrg

theorem Follows.pushHit {h'} (h : Follows s u) : Follows s (pushHit h' u) := .ite h.modTrg h

theorem Follows.execTimerExpiry {dt i} (h : Follows s u) : Next (Follows s) (execTimerExpiry dt i u) := by
  unfold Machine.execTimerExpiry
  extract_lets
  split
  exacts [.ite h.elapse.modTrg.pushHit.next h.elapse.next, h.elapse.next]

theorem Follows.execMpPulseEnd {dt i} (h : Follows s u) : Next (Follows s) (execMpPulseEnd dt i u) :=
  h.elapse.modTrg.next

theorem Follows.execOccSummaryArrives {dt} (h : Follows s u) : Next (Follows s) (execOccSummaryArrives dt u) := by
  unfold Machine.execOccSummaryArrives
  extract_lets
  split
  exacts [h.elapse.next, .ite h.elapse.next (h.elapse.modTrg.foldl (fun _ _ h => .ite h.pushHit h)).next]

theorem Follows.execEtdStampArrives {dt i} (h : Follows s u) : Next (Follows s) (execEtdStampArrives dt i u) := by
  unfold Machine.execEtdStampArrives
  extract_lets
  split
  exacts [h.elapse.next, .ite h.elapse.next h.elapse.modTdc.wr64.wr.pushHit.next]

theorem Follows.lateFrameTrigger {line} (h : Follows s u) : Follows s (lateFrameTrigger line u) := .ite h.bump h

theorem Follows.execBusAssertionDelivered {dt} (h : Follows s u) :
    Next (Follows s) (execBusAssertionDelivered dt u) := by
  unfold Machine.execBusAssertionDelivered
  extract_lets
  split
  · exact h.elapse.next
  · extract_lets _ _ _ s2
    have h2 : Follows s s2 := h.elapse.modLace.onLive fun _ _ h => h.bump
    exact .ite (h2.both (fun _ _ h => (Follows.ite h.bump h).raiseSide)).lateFrameTrigger.pushBus.next
        h2.modTrg.pushBus.next

theorem Follows.execTriggerSw {dt c number t} (h : Follows s u) : Next (Follows s) (execTriggerSw dt c number t u) :=
  (h.command (fun _ _ h => .ite h.refuse (.ite h.refuse h.sendDown.pushHit.done))).next

theorem Follows.execTrigCommit {dt c} (h : Follows s u) : Next (Follows s) (execTrigCommit dt c u) :=
  (h.command (fun _ _ h => .ite h.refuse (.ite h.refuse h.modTrg.done))).next

/-! ### Run -/

theorem Follows.afterReply {c a f} (h : Follows s u) (hf : ∀ t, Follows s t → Follows s (f t)) :
    Follows s (afterReply c a f u) := by
  unfold Machine.afterReply
  split
  · exact h.modLnk
  · extract_lets t
    have ht : Follows s t := hf _ h
    split
    · exact .ite ht ht.upd
    · exact ht

theorem Follows.clearCounters {x} (h : Follows s u) : Follows s (clearCounters x u) :=
  (h.foldl (fun _ _ h => h.wr)).foldl fun _ _ h => h.wr

theorem Follows.dropRun {x} (h : Follows s u) : Follows s (dropRun x u) := h.modDsp.modCmp

theorem Follows.abandonDrift (h : Follows s u) : Follows s (abandonDrift u) := by
  unfold Machine.abandonDrift
  extract_lets
  split
  exacts [.ite h h.upd, h]

theorem Follows.latchCmp {x} (h : Follows s u) : Follows s (latchCmp x u) := h.modCmp

theorem Follows.armRun (h : Follows s u) : Follows s (armRun u) :=
  (((h.onLive (fun _ _ h => h.clearCounters)).commitTable.modTrg.onLive
    (fun _ _ h => h.dropRun.emptyRings.restoreClasses.latchCmp)).onLive (fun _ _ h => h.modWlt)).setRun.abandonDrift

theorem Follows.trainNarrow (h : Follows s u) : Follows s (trainNarrow u) :=
  h.onLive fun _ _ h => h.foldl fun _ _ h => .ite h.leaveUp h

theorem Follows.execRunArm {dt c} (h : Follows s u) : Next (Follows s) (execRunArm dt c u) :=
  (h.commandThen (fun _ _ h => by split; exacts [h.refuse, h.armRun.okRes])
    (fun _ _ h => h.afterReply (fun _ h => h.trainNarrow))).next

theorem Follows.lateRefusal {x c} (h : Follows s u) : Ends s (lateRefusal x c u) :=
  (Follows.ite h.countOps.raiseSide h).refuse

theorem Follows.arrayWide {op c t} (h : Follows s u) : Follows s (arrayWide op c t u) := by
  unfold Machine.arrayWide
  split
  · exact h
  · refine Follows.countOps ?_
    split
    exacts [h.sendDown, h]

theorem Follows.execRunStart {dt c t} (h : Follows s u) : Next (Follows s) (execRunStart dt c t u) :=
  (h.command (fun _ _ h => .ite h.refuse (.ite h.refuse (.ite h.lateRefusal h.arrayWide.modTrg.okRes)))).next

theorem Follows.execRunStop {dt c t} (h : Follows s u) : Next (Follows s) (execRunStop dt c t u) :=
  (h.command (fun _ _ h => by
      extract_lets
      split
      exacts [h.arrayWide.stopArmed.okRes, .ite h.refuse (.ite h.lateRefusal h.arrayWide.modTrg.okRes), h.refuse])).next

theorem Follows.execFlush {dt c t} (h : Follows s u) : Next (Follows s) (execFlush dt c t u) :=
  (h.command (fun _ _ h => .ite h.refuse (.ite h.refuse (.ite h.refuse h.sendDown.modTrg.done)))).next

theorem Follows.execFlushCut {dt} (h : Follows s u) : Next (Follows s) (execFlushCut dt u) := by
  unfold Machine.execFlushCut
  extract_lets
  split
  exacts [h.elapse.next, (h.elapse.modTrg.onLive (fun _ _ h => h.wr64.scanReady)).next]

theorem Follows.startSide {b x} (h : Follows s u) : Follows s (startSide b x u) := by
  unfold Machine.startSide
  exact (h.drawKey.foldl (fun _ _ h => h.wr)).count.wr64.modDsp.modCmp.modLnk.modWlt

theorem Follows.startRun {b} (h : Follows s u) : Follows s (startRun b u) :=
  ((h.onLive (fun _ _ h => h.startSide)).modTrg.upd.foldl (fun _ _ h => h.startTile)).startFrames.setRun.enterState

theorem Follows.execRunStartEffect {dt} (h : Follows s u) : Next (Follows s) (execRunStartEffect dt u) := by
  unfold Machine.execRunStartEffect
  extract_lets
  split
  exacts [.ite (h.elapse.atTime (fun _ h => h.startRun)).next h.elapse.next, h.elapse.next]

theorem Follows.quiet {p} (h : Follows s u) : Follows s (quiet p u) := .ite h.upd.quietAt.endSquall h.upd.quietAt

theorem Follows.stopRun {p} (h : Follows s u) : Follows s (stopRun p u) :=
  (((h.quiet.closeRecs.modTrg.onLive (fun _ _ h => h.wr64)).foldl (fun _ _ h => h.stopTile)).foldl
    (fun _ _ h => h.idleCheck)).setRun

theorem Follows.execRunStopEffect {dt} (h : Follows s u) : Next (Follows s) (execRunStopEffect dt u) := by
  unfold Machine.execRunStopEffect
  extract_lets
  split
  exacts [.ite (h.elapse.atTime (fun _ h => h.stopRun)).next h.elapse.next, h.elapse.next]

theorem Follows.execRunStoppingComplete {dt} (h : Follows s u) : Next (Follows s) (execRunStoppingComplete dt u) :=
  .ite (h.elapse.both (fun _ _ h => .ite (h.foldl (fun _ _ h => h.trailing)) h)).modTrg.setRun.next h.elapse.next

/-! ### Egress -/

theorem Follows.execBlockAssign {dt x} (h : Follows s u) : Next (Follows s) (execBlockAssign dt x u) := by
  unfold Machine.execBlockAssign
  extract_lets
  split
  · exact h.elapse.next
  · split
    exacts [h.elapse.next, h.elapse.modLnk.modPort.portNext.next]

theorem Follows.laceWaits {x f} (h : Follows s u) : Follows s (laceWaits x f u) := .ite h.ringFull h

theorem Follows.admitFrames {x p l} (h : Follows s u) : Follows s (admitFrames x p l u).2 := by
  induction l generalizing u with
  | nil => exact h
  | cons a r ih =>
    obtain ⟨id, f⟩ := a
    cases id with
    | some id => exact ih h
    | none =>
      unfold Machine.admitFrames
      split
      · exact h.laceWaits
      · next hq => exact ih (h.storeLace hq).freeGroups

theorem Follows.admitBatch {x p} (h : Follows s u) : Follows s (admitBatch x p u) := by
  unfold Machine.admitBatch
  exact h.admitFrames.modLce

theorem Follows.execLaceFrameReceived {dt x p f} (h : Follows s u) :
    Next (Follows s) (execLaceFrameReceived dt x p f u) := by
  unfold Machine.execLaceFrameReceived
  extract_lets _ r
  have hr : Follows s r.1 := h.elapse.receiveFrame
  split
  · exact hr.next
  · split
    · exact h.elapse.next
    · split
      · exact hr.freeGroups.next
      · split
        exacts [hr.freeGroups.modLace.barrierCheck.next, (Follows.ite hr.modLce hr).modLce.admitBatch.next]

theorem Follows.execLaceBatchEnd {dt x p} (h : Follows s u) : Next (Follows s) (execLaceBatchEnd dt x p u) := by
  unfold Machine.execLaceBatchEnd
  extract_lets _ _ _ s2
  have h2 : Follows s s2 := h.elapse.admitBatch.modLce
  exact .ite h.elapse.next (.ite h2.next h2.enqueueItem.next)

theorem Follows.returnReply {x p f} (h : Follows s u) : Follows s (returnReply x p f u) := by
  unfold Machine.returnReply
  split
  · exact h
  · extract_lets s1
    have h1 : Follows s s1 := .ite h h.modMgt
    split
    exacts [h1.sendFrame, h1.deliver, h1]

theorem Follows.forwardParcel {x q a} (h : Follows s u) (ht : forwardParcel x q u a = some t) : Follows s t := by
  unfold Machine.forwardParcel at ht
  extract_lets at ht
  split at ht
  · cases ht
  · split at ht
    · split at ht
      · cases ht
      · split at ht
        · cases ht
          exact h.modPort.portNext
        · cases ht
          exact h.sendFrame
    · split at ht
      · extract_lets at ht
        split at ht
        · cases ht
          exact h.modLnk
        · cases ht
      · split at ht
        · cases ht
          exact h.returnReply
        · obtain ⟨p, -, rfl⟩ := Option.map_eq_some_iff.1 ht
          exact h.sendFrame

theorem Follows.fetchFrames {x l} (h : Follows s u) : Follows s (fetchFrames x l u).1 := by
  refine List.foldlRecOn (motive := fun (a : State × Bool) => Follows s a.1) _ _ h fun a h q _ => ?_
  split
  exacts [h.fetchItem, h]

theorem Follows.freeFrames {x l} (h : Follows s u) : Follows s (freeFrames x l u) := h.foldl fun _ _ h => h.freeItem

theorem Follows.forwardAll {x p l} (h : Follows s u) : Follows s (forwardAll x p l u).1 := by
  induction l generalizing u with
  | nil => exact h
  | cons k r ih =>
    unfold Machine.forwardAll
    split
    · next ht => exact ih (h.forwardParcel ht).freeFrames
    · exact h

theorem Follows.mergeFrames {x e p l} (h : Follows s u) : Passes s (mergeFrames x e p l u) := by
  unfold Machine.mergeFrames
  extract_lets _ _ _ v
  have hv : Follows s v := h.fetchFrames.forwardAll.freeFrames.modLce
  exact .ite h.fetchFrames.waits (.ite hv.passed hv.modEng.waits)

theorem Follows.execLaceMerge {dt x e} (h : Follows s u) : Next (Follows s) (execLaceMerge dt x e u) :=
  (h.elapse.complete (fun _ _ h => by split; exacts [h.mergeFrames, h.passed])).next

/-! ### Housekeeping -/

theorem Follows.modHk {f} (h : Follows s u) : Follows s (u.modHk f) := h.upd

theorem Follows.modPin {i f} (h : Follows s u) : Follows s (u.modPin i f) := h.upd

theorem Follows.hkResume (h : Follows s u) : Follows s (hkResume u) :=
  .ite h (.ite (.ite h h.modHk) (Follows.ite h h.modHk).modHk)

theorem Follows.hkAdvance (h : Follows s u) : Follows s (hkAdvance u) := .ite h.modHk h.count.modHk

theorem Follows.injTrigger (h : Follows s u) : Follows s (injTrigger u) := .ite h.bump (.ite h h.count.modHk)

theorem Follows.enterAlarm {c} (h : Follows s u) : Follows s (enterAlarm c u) :=
  .ite h.wf.modHk.raiseBase (Follows.ite (h.wf.modHk.foldl (fun _ _ h => h.raiseTile)) h.wf.modHk).raiseBase

theorem Follows.leaveAlarm {c} (h : Follows s u) : Follows s (leaveAlarm c u) := h.wf.modHk

theorem Follows.checkLimits {c code ovr range} (h : Follows s u) : Follows s (checkLimits c code ovr range u).1 := by
  unfold Machine.checkLimits
  split_ifs
  all_goals dsimp only
  exacts [h, h.modHk, h.enterAlarm, h, h.leaveAlarm, h.modHk]

theorem Follows.dosimeter {d code} (h : Follows s u) : Follows s (dosimeter d code u) := .ite h (.ite h.upd h.upd)

theorem Follows.setLoop (h : Follows s u) : Follows s (setLoop u) := h.wf.wf

theorem Follows.updateLoop (h : Follows s u) : Follows s (updateLoop u) := h.modHk.setLoop

theorem Follows.loopSettle (h : Follows s u) : Follows s (loopSettle u) := .ite h.setLoop h

theorem Follows.railCheck {c code} (h : Follows s u) : Follows s (railCheck c code u) :=
  .ite h (.ite h.modHk (.ite h h.modHk.raiseBase))

theorem Follows.hkResult {c inj raw rawOver} (h : Follows s u) : Follows s (hkResult c inj raw rawOver u).1 := by
  unfold Machine.hkResult
  extract_lets _ _ _ s2
  have h2 : Follows s s2 := .ite h.wr.modHk.dosimeter h.wr.modHk.beginUpdate
  exact (Follows.ite h2.loopSettle h2).railCheck.checkLimits

theorem Follows.tempTrigger {q} (h : Follows s q.1) : Follows s (tempTrigger q) := .ite h.injTrigger h

theorem Follows.execHkConversionDone {dt code ovr} (h : Follows s u) :
    Next (Follows s) (execHkConversionDone dt code ovr u) := by
  unfold Machine.execHkConversionDone
  extract_lets
  split
  exacts [h.elapse.next, .ite h.elapse.next h.elapse.hkAdvance.hkResult.hkResume.tempTrigger.next]

theorem Follows.injEnd (h : Follows s u) : Follows s (injEnd u) := .ite h.modHk.modHk h.modHk.hkResume

theorem Follows.execHkInjectedConversionDone {dt code ovr} (h : Follows s u) :
    Next (Follows s) (execHkInjectedConversionDone dt code ovr u) := by
  unfold Machine.execHkInjectedConversionDone
  extract_lets
  split
  · exact h.elapse.next
  · extract_lets s1
    have h1 : Follows s s1 := h.elapse.hkResult.tempTrigger
    exact .ite h.elapse.next (.ite h1.modHk.next h1.injEnd.next)

theorem Follows.injStart (h : Follows s u) : Follows s (injStart u) := h.injTrigger

theorem Follows.execOvercurrentTrip {dt current} (h : Follows s u) :
    Next (Follows s) (execOvercurrentTrip dt current u) := by
  unfold Machine.execOvercurrentTrip
  extract_lets _ _ s1
  have h1 : Follows s s1 := h.elapse.raiseBit.raiseBase.modHk
  exact .ite h.elapse.next (Follows.ite h1.injTrigger h1).next

theorem Follows.execOvercurrentRearm {dt below} (h : Follows s u) :
    Next (Follows s) (execOvercurrentRearm dt below u) := by
  unfold Machine.execOvercurrentRearm
  extract_lets
  split
  exacts [.ite h.elapse.modHk.next h.elapse.next, h.elapse.next]

theorem Follows.execHkCal {dt c} (h : Follows s u) : Next (Follows s) (execHkCal dt c u) :=
  (h.command (fun _ _ h => .ite h.refuse h.modHk.done)).next

theorem Follows.writePath {q} (h : Follows s u) : Follows s (writePath u q) := h.wr.wr

theorem Follows.execHkCalDone {dt factors} (h : Follows s u) : Next (Follows s) (execHkCalDone dt factors u) := by
  unfold Machine.execHkCalDone
  extract_lets
  split
  exacts [h.elapse.next,
    .ite h.elapse.next (h.elapse.foldl (fun _ _ h => h.writePath)).wf.modHk.raiseBase.hkResume.next]

theorem Follows.execLoopUpdate {dt} (h : Follows s u) : Next (Follows s) (execLoopUpdate dt u) :=
  .ite h.elapse.next h.elapse.modHk.updateLoop.next

theorem Follows.execLoopOpenDetect {dt current held} (h : Follows s u) :
    Next (Follows s) (execLoopOpenDetect dt current held u) := .ite h.elapse.next h.elapse.wf.raiseBase.next

theorem Follows.execLoopOpenClear {dt current} (h : Follows s u) : Next (Follows s) (execLoopOpenClear dt current u) :=
  .ite h.elapse.next h.elapse.wf.next

theorem Follows.setPinIn {i sw level} (h : Follows s u) : Follows s (setPinIn i sw level u) := h.wf.wf

theorem Follows.keepLevel {t i} (h : Follows s u) : Follows s (keepLevel t i u) := h.modPin

theorem Follows.keepLevels (h : Follows s u) : Follows s (keepLevels u) :=
  h.foldl fun _ _ h => by split; exacts [.ite h.keepLevel h, h]

theorem Follows.switchPin {i w} (h : Follows s u) : Follows s (switchPin i w u) := h.wr.setPinIn.modPin.modTrg.keepLevel

theorem Follows.writeMp {i w} (h : Follows s u) : Follows s (writeMp i w u) := .ite h h.switchPin

theorem Follows.execKeeperRelease {dt i} (h : Follows s u) : Next (Follows s) (execKeeperRelease dt i u) := by
  unfold Machine.execKeeperRelease
  extract_lets
  split
  exacts [.ite h.elapse.next (.ite h.elapse.raiseBase.modPin.next h.elapse.raiseBase.modPin.setPinIn.next),
    h.elapse.next]

theorem Follows.execIgnoreWindowEnd {dt i} (h : Follows s u) : Next (Follows s) (execIgnoreWindowEnd dt i u) := by
  unfold Machine.execIgnoreWindowEnd
  extract_lets
  split
  exacts [.ite h.elapse.next h.elapse.modPin.setPinIn.next, h.elapse.next]

theorem Follows.frameEdge {i rising} (h : Follows s u) : Follows s (frameEdge i rising u) := .ite h.modFrames h

theorem Follows.padLevel {i level} (h : Follows s u) : Follows s (padLevel i level u) :=
  .ite h.modPin (.ite h.modPin.wf.pushHit.frameEdge (.ite h.modPin.wf.injTrigger h.modPin.wf))

theorem Follows.execMpPinEdge {dt i level} (h : Follows s u) : Next (Follows s) (execMpPinEdge dt i level u) :=
  h.elapse.padLevel.next

theorem Follows.execHkInjectPinEdge {dt i} (h : Follows s u) : Next (Follows s) (execHkInjectPinEdge dt i u) :=
  .ite h.elapse.padLevel.next h.elapse.next

/-! ### Nvm -/

theorem Follows.onServing {f} (h : Follows s u) (hf : ∀ x t, Follows s t → Follows s (f x t)) :
    Follows s (onServing f u) := h.both fun _ _ h => .ite (hf _ _ h) h

theorem Follows.extend {x m kind arg dg} (h : Follows s u) : Follows s (extend x m kind arg dg u) :=
  .ite h.modMgt.modMgt (.ite h.modMgt.bump.raiseSide h.modMgt.bump)

theorem Follows.bootMeasure {x} (h : Follows s u) : Follows s (bootMeasure x u) := h.extend.extend.extend.took.extend

theorem Follows.storeSlot {x slot l size ok boot} (h : Follows s u) (hs : slot ≠ 0) :
    Follows s (storeSlot x slot l size ok boot u) :=
  have h1 := (h.modMgt fun _ => Sparse.get_set_ne _ _ _ hs.symm _).wf.wr
  .ite h1.wf.raiseSide h1

theorem Follows.storeLast {slot ok boot} (h : Follows s u) (hs : slot ≠ 0) :
    Follows s (storeLast slot ok boot u).1 := by
  unfold Machine.storeLast
  extract_lets size l note s1
  have hn : ∀ st t, Follows s t → Follows s (note st t) := fun _ _ h => h.onServing fun _ _ h => h.wf
  split
  · exact hn _ _ h.took
  · exact hn _ _ (h.took.onServing fun _ _ h => h.storeSlot hs)

theorem Follows.cutStore {slot} (h : Follows s u) (hs : slot ≠ 0) : Follows s (cutStore slot u) :=
  (h.onServing fun _ _ h => h.modMgt fun g =>
    Sparse.get_set_ne g.slots none none hs.symm none).upd

theorem Follows.execLastStore {dt c p1 verified cut bad} (h : Follows s u) :
    Next (Follows s) (execLastStore dt c p1 verified cut bad u) := by
  unfold Machine.execLastStore
  extract_lets slot
  refine Follows.next (h.runCommand fun x v t hp h => ?_)
  have hs : slot ≠ 0 := by simpa [param] using hp
  split
  · exact h.refuse
  · extract_lets s1
    have h1 : Follows s s1 := h.foldl fun _ _ h => h.imageError
    exact .ite (h1.cutStore hs).later (h1.storeLast hs).done

theorem Follows.loadWord {a w} (h : Follows s u) : Follows s (loadWord a w u) :=
  .ite h (.ite h.writeFramePeriod (.ite (.ite h h.switchPin) (.ite h.wr.leaveAlarm (.ite h.wr.refChanged h.wr))))

theorem Follows.loadRegs {l part} (h : Follows s u) : Follows s (loadRegs l part u) :=
  (h.foldl (fun _ _ h => h.loadWord)).foldl fun _ _ h => h.loadWord

theorem Follows.setTwin {twin} (h : Follows s u) : Follows s (setTwin twin u) :=
  .ite h.upd (h.upd.both (fun _ _ h => h.modWlt))

theorem Follows.loadBase {first l} (h : Follows s u) : Follows s (loadBase first l u) :=
  h.modPix.loadRegs.setTwin.hkResume

theorem Follows.loadSide {x slot l} (h : Follows s u) : Follows s (loadSide x slot l u) := h.loadRegs.wf.evSettle

theorem Follows.loadPorts {x l} (h : Follows s u) : Follows s (loadPorts x l u) :=
  h.loadRegs.foldl fun _ _ h => .ite h h.portCtrlWrite

theorem Follows.loadLast {slot w} (h : Follows s u) : Follows s (loadLast slot w u) := by
  unfold Machine.loadLast
  refine (Follows.onServing ?_ fun _ _ h => ?_).beginApply
  · split
    exacts [h.loadBase, h]
  · split
    exacts [h.loadSide.extend, h]

theorem Follows.execLastLoad {dt c slot} (h : Follows s u) : Next (Follows s) (execLastLoad dt c slot u) :=
  (h.command (fun _ _ h => by split; exacts [h.refuse, h.loadLast.later])).next

theorem Follows.afterLoad (h : Follows s u) : Follows s (afterLoad u) :=
  h.onServing fun _ _ h => by split; exacts [h.loadPorts, h]

theorem Follows.commitReply {w} (h : Follows s u) : Follows s (commitReply w u) :=
  (Follows.ite (h.formReply.afterReply (fun _ h => h.afterLoad)) h.formReply).barrierCheck

theorem Follows.execConfigCommit {dt} (h : Follows s u) : Next (Follows s) (execConfigCommit dt u) := by
  unfold Machine.execConfigCommit
  extract_lets v
  have hv : Follows s v := h.elapse.stagingDone
  split
  · refine .ite (Follows.next (.atTime ?_ fun _ h => h.raiseBase)) h.elapse.next
    split
    exacts [hv.commitApply.commitReply, hv.commitApply]
  · exact h.elapse.next

theorem Follows.loadBoot {xs} (h : Follows s u) : Follows s (loadBoot xs u) := by
  unfold Machine.loadBoot
  refine Follows.foldl ?_ fun t x h => ?_
  · split
    exacts [h.loadBase, h]
  · extract_lets n t1
    have h1 : Follows s t1 := by
      unfold t1
      split
      exacts [h.loadSide.loadPorts.extend, h]
    exact .ite h1.wf.raiseSide h1

theorem setStaged_slots (micro i ok g) : (setStaged micro i ok g).slots = g.slots := by
  unfold setStaged
  split
  · rfl
  · rfl

theorem Follows.finalImage {micro n crc x} (h : Follows s u) : Follows s (finalImage micro n crc x u) :=
  have hm := h.modMgt fun _ => by rw [setStaged_slots]
  .ite hm.extend (h.modMgt fun _ => by rw [setStaged_slots])

theorem Follows.patchLoad {x micro off len crc} (h : Follows s u) : Ends s (patchLoad x micro off len crc u) := by
  unfold Machine.patchLoad
  extract_lets l s1
  have h1 : Follows s s1 := h.onServing fun _ _ h => h.modMgt fun _ => by rw [setStaged_slots]
  split
  · exact h1.okRes
  · exact (h1.onServing fun _ _ h => h.finalImage).done

theorem Follows.execPatchLoad {dt c p1 offset length crc} (h : Follows s u) :
    Next (Follows s) (execPatchLoad dt c p1 offset length crc u) :=
  (h.command (fun _ _ h => by split; exacts [h.refuse, h.patchLoad])).next

theorem Follows.adopt {micro xs} (h : Follows s u) : Follows s (adopt micro xs u) :=
  .ite h <| h.foldl fun _ _ h => .ite (h.modMgt fun _ => by split <;> rfl)
    (h.modMgt fun _ => by rw [setStaged_slots]).wf

theorem Follows.noteVersion {x} (h : Follows s u) : Follows s (noteVersion x u) := h.wf

/-! ### Welt -/

theorem Follows.lastDispute {x i opn verdict} (h : Follows s u) : Follows s (lastDispute x i opn verdict u) :=
  h.wr.wr.wr.wr

theorem Follows.raiseDispute {x d} (h : Follows s u) : Follows s (raiseDispute x d u) :=
  h.bump.tally.lastDispute.sendNotice.raiseSide

theorem Follows.openDispute {x mine theirs} (h : Follows s u) : Follows s (openDispute x mine theirs u) := by
  unfold Machine.openDispute
  exact h.raiseDispute.modWlt.modCmp

theorem Follows.letGo {x i} (h : Follows s u) : Follows s (letGo x i u) := h.modWlt

theorem Follows.comparePair {x mine theirs} (h : Follows s u) : Follows s (comparePair x mine theirs u) :=
  .ite h.count.letGo h.count.openDispute

theorem Follows.enterSig {x own g} (h : Follows s u) (ht : enterSig x own g u = some t) : Follows s t := by
  unfold Machine.enterSig at ht
  split at ht
  · cases ht
    exact .ite h.modWlt.comparePair h.modWlt.comparePair
  · extract_lets at ht
    split at ht
    · cases ht
    · cases ht
      exact h.modWlt.high

theorem Follows.sendSig {x g} (h : Follows s u) : Follows s (sendSig x g u) := h.modWlt.modWlt

theorem Follows.retain {x b} (h : Follows s u) : Follows s (retain x b u) := h.modWlt

theorem Follows.signBlock {x b} (h : Follows s u) (ht : signBlock x b u = some t) : Follows s t := by
  unfold Machine.signBlock at ht
  split at ht
  · obtain ⟨v, hv, rfl⟩ := Option.map_eq_some_iff.1 ht
    exact (h.retain.enterSig hv).sendSig
  · cases ht
    exact h

theorem Follows.execBlockCompressed {dt x e flip} (h : Follows s u) :
    Next (Follows s) (execBlockCompressed dt x e flip u) := by
  unfold Machine.execBlockCompressed
  extract_lets v
  have hv : Follows s v := h.elapse
  split
  · exact hv.next
  · refine .ite hv.next ?_
    extract_lets r
    split
    · exact hv.next
    · next hb =>
      extract_lets s2 s3 q
      have h2 : Follows s s2 := (hv.signBlock hb).countBlock
      have h3 : Follows s s3 := .ite h2.enqueueItem h2
      exact (Follows.ite h3.passBlock.freeCompressor h3.passBlock.modComp).scanReady.next

theorem Follows.settleDispute {x d v} (h : Follows s u) : Follows s (settleDispute x d v u) := by
  unfold Machine.settleDispute
  extract_lets re who s1 s2 s3 again s4
  have h1 : Follows s s1 := h.sendNotice.raiseSide
  have h2 : Follows s s2 := .ite h1.lastDispute h1
  have h3 : Follows s s3 := by
    unfold s3
    split
    exacts [h2.bump.raiseSide, h2.bump.raiseSide, h2.bump.raiseSide, h2]
  have h4 : Follows s s4 := h3.foldl fun _ _ h => h.countBlock.passBlock
  exact h4.letGo.modWlt

theorem Follows.settleAlone {x} (h : Follows s u) : Follows s (settleAlone x u) :=
  h.foldl fun _ _ h => by split; exacts [h.settleDispute, h]

/-! ### Sides -/

theorem Follows.modArb {f} (h : Follows s u) : Follows s (u.modArb f) := h.upd

theorem Follows.modPower {f} (h : Follows s u) : Follows s (u.modPower f) := h.upd

theorem Follows.modBg {f} (h : Follows s u) : Follows s (u.modBg f) := h.upd

theorem Follows.clearSide {x} (h : Follows s u) : Follows s (clearSide x u) := by
  cases x
  all_goals exact ⟨h.pending, h.slot0, h.sift.regsWf⟩

theorem Follows.noneServe (h : Follows s u) : Follows s (noneServe u) := h.upd

theorem Follows.requestUnits {l} (h : Follows s u) : Follows s (requestUnits l u) := h.modPower.high

theorem Follows.unpower {x} (h : Follows s u) : Follows s (unpower x u) := h.modPower

theorem Follows.givePrimary {x} (h : Follows s u) : Follows s (givePrimary x u) :=
  .ite h (h.modArb.modLace.both (fun _ _ h => h.raiseSide))

theorem Follows.passReductions (h : Follows s u) : Follows s (passReductions u) :=
  h.leaveReductions.foldl fun _ _ h => .ite h.wantReduce h

theorem Follows.keepFromTick {x ts b} (h : Follows s u) : Follows s (keepFromTick x ts b u) := h.modDsp

theorem Follows.takeTiles {x} (h : Follows s u) : Follows s (takeTiles x u) := .ite h h.keepFromTick.modArb

theorem Follows.goSimplex {x sev} (h : Follows s u) : Follows s (goSimplex x sev u) :=
  h.raiseSide.wr64.modWlt.givePrimary.settleAlone.passReductions.takeTiles

theorem Follows.trainPorts {x} (h : Follows s u) : Follows s (trainPorts x u) :=
  .ite h (h.foldl (fun _ _ h => .ite h h.enterTraining))

theorem Follows.serveAlone {x} (h : Follows s u) : Follows s (serveAlone x u) := by
  unfold Machine.serveAlone
  extract_lets _ s2
  have h2 : Follows s s2 := h.modArb.givePrimary.passReductions.trainPorts.loadBoot
  exact .ite h2.beginApply h2

theorem Follows.startBoot {x} (h : Follows s u) : Follows s (startBoot x u) :=
  .ite (.ite h.modArb.requestUnits h.modArb) h

theorem Follows.noteCause {y code} (h : Follows s u) : Follows s (noteCause y code u) := h.wf

theorem Follows.abandonResync {x} (h : Follows s u) : Follows s (abandonResync x u) :=
  h.clearSide.modArb.modWlt.noteCause.startBoot

theorem Follows.depart {y v sev} (h : Follows s u) : Follows s (depart y v sev u) := by
  unfold Machine.depart
  extract_lets _ _ s1
  have h1 : Follows s s1 := h.clearSide.modArb
  exact .ite h1.raiseSide (.ite h1 (.ite h1.goSimplex (.ite h1.noneServe.abandonResync
      (.ite h1.noneServe.serveAlone h1.noneServe))))

theorem Follows.listSide {y} (h : Follows s u) : Follows s (listSide y u) := h.modBg.wantUpdate

theorem Follows.takeOut {y sev code} (h : Follows s u) : Follows s (takeOut y sev code u) :=
  h.depart.noteCause.startBoot

theorem Follows.faultOut {y code} (h : Follows s u) : Follows s (faultOut y code u) := by
  unfold Machine.faultOut
  extract_lets _ _ s2
  have h2 : Follows s s2 := h.modArb.depart.noteCause
  exact .ite h.modArb (.ite h2.listSide h2.startBoot)

theorem Follows.loseDispute {y} (h : Follows s u) : Follows s (loseDispute y u) :=
  .ite h.bump.tally.modArb.faultOut h.bump.tally.modArb

theorem Follows.writeLists {x l} (h : Follows s u) : Follows s (writeLists x l u) :=
  .ite h.modMgt.modBg.raiseSide h.modMgt.modBg

theorem Follows.loadDoses {l} (h : Follows s u) : Follows s (loadDoses l u) := by
  unfold Machine.loadDoses
  exact ((h.foldl (fun _ _ h => h.wr)).foldl (fun _ _ h => h.wr)).wr.modBg

theorem Follows.sideListed {y} (h : Follows s u) : Follows s (sideListed y u) :=
  .ite h.clearSide.modArb (.ite h.modArb.startBoot h)

theorem Follows.replaceLists {old new} (h : Follows s u) : Follows s (replaceLists old new u) := by
  unfold Machine.replaceLists
  extract_lets all flag s1 s2 s3
  have h2 : Follows s s2 := (h.modBg.foldl fun _ _ h => h.modDigi).foldl fun _ _ h => h.modDigi
  have h3 : Follows s s3 := .ite h2.loadDoses h2
  exact h3.both fun _ _ h => h.sideListed

theorem Follows.listFallback {x} (h : Follows s u) : Follows s (listFallback x u) :=
  (Follows.ite h.modBg.modMgt h.modBg.modMgt.replaceLists).wf.raiseAt

theorem Follows.retireChannel {x ch} (h : Follows s u) : Follows s (retireChannel x ch u) :=
  .ite h h.modBg.wantUpdate.raiseAt.shedGuarantees

theorem Follows.acked {x k} (h : Follows s u) : Follows s (acked x k u) := h.modWlt

theorem Follows.tryResync {asked x} (h : Follows s u) : Follows s (tryResync asked x u) :=
  .ite (h.modArb.both (fun _ _ h => h.modWlt)) h

theorem Follows.copyRegs {x} (h : Follows s u) : Follows s (copyRegs x u) :=
  (h.foldl (fun _ _ h => h.wr)).foldl fun _ _ h => h.wr

theorem Follows.copyPaired {x} (h : Follows s u) : Follows s (copyPaired x u) := h.foldl fun _ _ h => h.wr

theorem Follows.retrainChanged {x old} (h : Follows s u) : Follows s (retrainChanged x old u) :=
  .ite h (h.foldl (fun _ _ h => .ite h (.ite h.disablePort h.leaveUp.enterTraining)))

theorem Follows.enterService {x rs} (h : Follows s u) : Follows s (enterService x rs u) := by
  unfold Machine.enterService
  extract_lets s1 s2 own s3 s4 s5 s6
  have h2 : Follows s s2 := h.modArb.modWlt.modTrg
  have h3 : Follows s s3 := by
    unfold s3
    split
    exacts [h2.keepFromTick, h2]
  have h4 : Follows s s4 := .ite (h3.foldl fun _ _ h => h.modIntake) h3
  have h6 : Follows s s6 := h4.raiseSide.copyPaired.modCmp
  exact .ite h6.givePrimary.passReductions h6

theorem Follows.execResyncTransferEnd {dt x} (h : Follows s u) : Next (Follows s) (execResyncTransferEnd dt x u) := by
  unfold Machine.execResyncTransferEnd
  extract_lets _ _ s2
  have h2 : Follows s s2 := h.elapse.copyRegs.evSettle.retrainChanged.modWlt.heard.acked.writeLists
  exact .ite h.elapse.next (.ite h2.enterService.next (h2.both (fun _ _ h => h.wr64)).modArb.next)

theorem Follows.execResyncPoint {dt x} (h : Follows s u) : Next (Follows s) (execResyncPoint dt x u) := by
  unfold Machine.execResyncPoint
  extract_lets
  split
  exacts [.ite (h.elapse.atTime (fun _ h => h.enterService)).next h.elapse.next, h.elapse.next]

theorem Follows.execTwinTakeover {dt} (h : Follows s u) : Next (Follows s) (execTwinTakeover dt u) := by
  unfold Machine.execTwinTakeover
  extract_lets
  split
  exacts [.ite h.elapse.modArb.next h.elapse.next, h.elapse.next]

theorem Follows.bootReport {x} (h : Follows s u) : Follows s (bootReport x u) := .ite h h.raiseBase

theorem Follows.peerImages {x} (h : Follows s u) : Follows s (peerImages x u) := .ite h h.modMgt

theorem Follows.execSideBootDone {dt x pass listBad bad} (h : Follows s u) :
    Next (Follows s) (execSideBootDone dt x pass listBad bad u) := by
  unfold Machine.execSideBootDone
  extract_lets _ s1 s2 _ s4
  have h1 : Follows s s1 := h.elapse.modArb.peerImages
  have h2 : Follows s s2 := (Follows.ite h1.listFallback h1).bootMeasure.noteVersion
  have h4 : Follows s s4 := (h2.wf.foldl (fun _ _ h => h.retireChannel)).modArb
  exact .ite h.elapse.next (.ite h2.next (.ite h2.modArb.listSide.next
      (.ite h4.next (.ite h4.trainPorts.bootReport.tryResync.next
      (.ite h4.bootReport.next h4.serveAlone.bootReport.next)))))

theorem Follows.execWeltHeartbeat {dt x delivered mismatch} (h : Follows s u) :
    Next (Follows s) (execWeltHeartbeat dt x delivered mismatch u) := by
  unfold Machine.execWeltHeartbeat
  extract_lets _ _ _ s2
  have h2 : Follows s s2 := (Follows.ite h.elapse.flushWelt.queueError h.elapse).modWlt
  exact .ite h.elapse.next (.ite h2.next (.ite (h2.modWlt.heard.both (fun _ _ h => h.tryResync)).next
      h2.modWlt.modWlt.next))

theorem Follows.execWeltRetransmit {dt x} (h : Follows s u) : Next (Follows s) (execWeltRetransmit dt x u) := by
  unfold Machine.execWeltRetransmit
  extract_lets
  split
  · exact h.elapse.next
  · extract_lets s1
    have h1 : Follows s s1 := h.elapse.bump.tally.modWlt
    exact (Follows.ite h1 h1.raiseSide).next

theorem Follows.execWeltSilence {dt x} (h : Follows s u) : Next (Follows s) (execWeltSilence dt x u) :=
  .ite h.elapse.next (.ite h.elapse.abandonResync.next (.ite h.elapse.abandonResync.next h.elapse.faultOut.next))

theorem Follows.tellVerdict {x} (h : Follows s u) : Follows s (tellVerdict x u) := .ite h.modWlt h

theorem Follows.execSignatureOrphan {dt x} (h : Follows s u) : Next (Follows s) (execSignatureOrphan dt x u) := by
  unfold Machine.execSignatureOrphan
  extract_lets
  split
  exacts [h.elapse.next,
    .ite h.elapse.modWlt.next h.elapse.modWlt.raiseDispute.tellVerdict.settleDispute.loseDispute.next]

theorem Follows.settleDecided {x} (h : Follows s u) : Follows s (settleDecided x u) :=
  ((h.foldl (fun _ _ h => h.tellVerdict)).foldl (fun _ _ h => h.settleDispute)).foldl fun _ _ h => h.loseDispute

theorem Follows.noteRecompute {x i r} (h : Follows s u) : Follows s (noteRecompute x i r u) :=
  .ite h.modWlt h.modWlt.modWlt.modWlt

theorem Follows.takeRecompute {x} (h : Follows s u) : Follows s (takeRecompute x u) := by
  unfold Machine.takeRecompute
  split
  exacts [h, h.modWlt.heard.acked.settleDecided]

theorem Follows.execSignatureReceived {dt x} (h : Follows s u) : Next (Follows s) (execSignatureReceived dt x u) := by
  unfold Machine.execSignatureReceived
  extract_lets v
  have hv : Follows s v := h.elapse
  split
  · exact hv.takeRecompute.next
  · extract_lets s1
    have h1 : Follows s s1 := hv.modWlt
    split
    · exact hv.next
    · next hq =>
      split at hq
      · cases hq
        exact h1.heard.acked.next
      · exact (h1.enterSig hq).heard.acked.next

theorem Follows.execRecomputeDone {dt x flip} (h : Follows s u) : Next (Follows s) (execRecomputeDone dt x flip u) := by
  unfold Machine.execRecomputeDone
  extract_lets
  split
  · exact h.elapse.next
  · extract_lets s1
    have h1 : Follows s s1 := h.elapse.modComp.noteRecompute
    exact .ite h.elapse.next (Follows.ite h1.settleAlone h1.settleDecided).next

theorem Follows.execSideReset {dt c side} (h : Follows s u) : Next (Follows s) (execSideReset dt c side u) :=
  (h.commandThen (fun _ _ h => .ite h.okRes h.refuse) (fun _ _ h => h.afterReply (fun _ h => h.takeOut))).next

theorem Follows.execModeSet {dt c mode} (h : Follows s u) : Next (Follows s) (execModeSet dt c mode u) :=
  (h.command (fun _ _ h => .ite h.refuse (.ite h.refuse h.setTwin.okRes))).next

theorem Follows.execMgtFetchFail {dt x line} (h : Follows s u) : Next (Follows s) (execMgtFetchFail dt x line u) :=
  .ite h.elapse.next (.ite h.elapse.modMgt.raiseSide.faultOut.next h.elapse.modMgt.next)

/-! ### Background -/

theorem Follows.retireRow {y n} (h : Follows s u) : Follows s (retireRow y n u) :=
  h.modBg.wantUpdate.raiseSide.shedGuarantees

theorem Follows.retireRowRes {y n} (h : Follows s u) : Ends s (retireRowRes y n u) :=
  .ite h.okRes (.ite h.refuse h.retireRow.okRes)

theorem Follows.retireOne {y kind n} (h : Follows s u) : Ends s (retireOne y kind n u) := by
  unfold Machine.retireOne
  split
  exacts [h.retirePixel.okRes, h.retireDigitizer.okRes, h.retireAdc.okRes, h.retireTile.okRes, h.retireLane.okRes,
    h.retireRowRes, h.retireChannel.okRes, h.retireEngine.okRes, h.retireCompressor.okRes,
    .ite h.okRes (.ite h.refuse h.okRes)]

theorem Follows.retireSide {y} (h : Follows s u) : Follows s (retireSide y u) := .ite h h.depart.listSide

theorem Follows.execRetire {dt c kind index} (h : Follows s u) : Next (Follows s) (execRetire dt c kind index u) :=
  (h.commandThen (fun _ _ h => h.retireOne) (fun _ _ h => .ite (h.afterReply (fun _ h => h.retireSide)) h)).next

theorem Follows.execRetireListRead {dt c kind from_} (h : Follows s u) :
    Next (Follows s) (execRetireListRead dt c kind from_ u) := (h.command (fun _ _ h => h.done)).next

theorem Follows.execRetireListRemove {dt c kind index} (h : Follows s u) :
    Next (Follows s) (execRetireListRemove dt c kind index u) :=
  (h.command (fun _ _ h => .ite h.refuse h.modBg.wantUpdate.okRes)).next

theorem Follows.execRetirementListUpdate {dt} (h : Follows s u) : Next (Follows s) (execRetirementListUpdate dt u) := by
  unfold Machine.execRetirementListUpdate
  extract_lets
  split
  exacts [.ite h.elapse.next (h.elapse.onServing (fun _ _ h => h.writeLists)).modBg.beginUpdate.next, h.elapse.next]

theorem Follows.execDoseSave {dt} (h : Follows s u) : Next (Follows s) (execDoseSave dt u) :=
  .ite h.elapse.next h.elapse.modBg.wantUpdate.next

theorem Follows.addTileDose {charges s' t} (h : Follows s u) : Follows s (addTileDose charges s' u t) := by
  unfold Machine.addTileDose
  exact h.bump.modBg

theorem Follows.checkTier {tier} (h : Follows s u) : Follows s (checkTier u tier) :=
  .ite (.ite h h.wf.raiseBase) (Follows.ite h h.wf.raiseBase).wf.raiseBase

theorem Follows.moveDose {charges} (h : Follows s u) : Follows s (moveDose charges u) :=
  (h.foldl (fun _ _ h => h.bump)).modBg.foldl fun _ _ h => h.addTileDose

theorem Follows.execDoseSecond {dt charges} (h : Follows s u) : Next (Follows s) (execDoseSecond dt charges u) :=
  .ite h.elapse.next (h.elapse.moveDose.foldl (fun _ _ h => h.checkTier)).next

theorem Follows.sramError {found} (h : Follows s u) : Follows s (sramError found u) := by
  unfold Machine.sramError
  split
  exacts [h.shadowError, h.imageError, h.chainError, h]

theorem Follows.execBaseSramScrub {dt found} (h : Follows s u) : Next (Follows s) (execBaseSramScrub dt found u) := by
  unfold Machine.execBaseSramScrub
  extract_lets _ s1
  have h1 : Follows s s1 := .ite h.elapse h.elapse.bump.sramError.raiseBase
  exact .ite h.elapse.next (.ite h1.next h1.count.modBg.next)

theorem Follows.stagingFind {x unit i} (h : Follows s u) : Follows s (stagingFind x unit i u) := h.modDsp

theorem Follows.queuedFind {x ch k w mask} (h : Follows s u) : Follows s (queuedFind x ch k w mask u) :=
  .ite h h.modChan

theorem Follows.egressFind {x k i mask} (h : Follows s u) : Follows s (egressFind x k i mask u) := .ite h h.modLnk

theorem Follows.codeFind {x e line} (h : Follows s u) : Follows s (codeFind x e line u) := by
  unfold Machine.codeFind
  split
  exacts [h.modEng, h.modMgt]

theorem Follows.sideFind {x f} (h : Follows s u) : Follows s (sideFind x f u) := by
  unfold Machine.sideFind
  split
  exacts [h.stagingFind, h.outputFault.scanReady, h.queuedFind, h.egressFind, h.codeFind, h.trapEngine, h, h, h]

theorem Follows.execSideSramScrub {dt x found} (h : Follows s u) : Next (Follows s) (execSideSramScrub dt x found u) :=
  .ite h.elapse.next h.elapse.modMgt.sideFind.next

/-! ### Power -/

theorem Follows.blank (h : Follows s u) : Follows s (blank u) :=
  ⟨h.pending, h.slot0, h.sift.regsWf⟩

theorem Follows.beginStart {cause} (h : Follows s u) : Follows s (beginStart cause u) := h.wr.upd

theorem Follows.resetModule {cause} (h : Follows s u) : Follows s (resetModule cause u) :=
  (h.blank.foldl (fun _ _ h => h.wr)).upd.bump.beginStart

theorem Follows.coldStart (h : Follows s u) : Follows s (coldStart u) := h.blank.upd.loadDoses.bump.beginStart

theorem Follows.goDark {m} (h : Follows s u) : Follows s (goDark m u) := h.blank.modPower

theorem Follows.execVaonValid {dt} (h : Follows s u) : Next (Follows s) (execVaonValid dt u) :=
  .ite h.elapse.next (Follows.ite h.elapse.upd.modPower.coldStart h.elapse.upd.modPower).next

theorem Follows.execVaonLost {dt} (h : Follows s u) : Next (Follows s) (execVaonLost dt u) :=
  .ite h.elapse.next h.elapse.sift.goDark.modPower.next

theorem Follows.execVinValid {dt x} (h : Follows s u) : Next (Follows s) (execVinValid dt x u) := by
  unfold Machine.execVinValid
  extract_lets _ s1
  have h1 : Follows s s1 := h.elapse.modPower
  exact .ite h.elapse.next (.ite h1.next (.ite h1.startBoot.next h1.coldStart.next))

theorem Follows.execVinLost {dt x} (h : Follows s u) : Next (Follows s) (execVinLost dt x u) :=
  .ite h.elapse.next (.ite h.elapse.modPower.next (.ite h.elapse.modPower.bump.goDark.next
    h.elapse.modPower.bump.raiseBase.unpower.takeOut.next))

theorem Follows.execResetN {dt} (h : Follows s u) : Next (Follows s) (execResetN dt u) :=
  .ite h.elapse.next (Follows.ite h.elapse.modPower.resetModule h.elapse.modPower).next

theorem Follows.execResetNRelease {dt} (h : Follows s u) : Next (Follows s) (execResetNRelease dt u) :=
  .ite h.elapse.next h.elapse.modPower.next

theorem Follows.execSideResetPin {dt x} (h : Follows s u) : Next (Follows s) (execSideResetPin dt x u) :=
  .ite h.elapse.next (Follows.ite h.elapse.modPower.takeOut h.elapse.modPower).next

theorem Follows.execSideResetPinRelease {dt x} (h : Follows s u) : Next (Follows s) (execSideResetPinRelease dt x u) :=
  h.elapse.modPower.startBoot.next

theorem Follows.execModuleReset {dt c} (h : Follows s u) : Next (Follows s) (execModuleReset dt c u) :=
  (h.commandThen (fun _ _ h => h.okRes) (fun _ _ h => h.afterReply (fun _ h => h.resetModule))).next

theorem Follows.execArrayResetAtT {dt} (h : Follows s u) : Next (Follows s) (execArrayResetAtT dt u) := by
  unfold Machine.execArrayResetAtT
  extract_lets
  split
  exacts [.ite h.elapse.resetModule.next h.elapse.next, h.elapse.next]

theorem Follows.stepped {n} (h : Follows s u) : Follows s (stepped n u) := h.modPower

theorem Follows.baseTierUp (h : Follows s u) : Follows s (baseTierUp u) :=
  h.stepped.modPower.adopt.adopt.hkResume.updateLoop.startBoot.startBoot

theorem Follows.firstService {straps x} (h : Follows s u) : Follows s (firstService straps x u) :=
  .ite h.wr h.wr.modArb.modWlt

theorem Follows.reportReverted {x} (h : Follows s u) : Follows s (reportReverted x u) := .ite h.raiseSide h

theorem Follows.sidesUp {straps master} (h : Follows s u) : Follows s (sidesUp straps master u) := by
  unfold Machine.sidesUp
  extract_lets s1 s2 s3
  have h2 : Follows s s2 := h.stepped.modPower.firstService.firstService
  have h3 : Follows s s3 := .ite h2 h2.givePrimary
  exact (h3.raiseBase.onServing fun _ _ h => h.bootReport).both fun _ _ h => h.reportReverted

theorem Follows.beginFaCal (h : Follows s u) : Follows s (beginFaCal u) := h.modFrames.wf.wr

theorem Follows.execStartupStep {dt straps master} (h : Follows s u) :
    Next (Follows s) (execStartupStep dt straps master u) := by
  unfold Machine.execStartupStep
  extract_lets v
  have hv : Follows s v := h.elapse
  split
  · exact hv.next
  · split
    exacts [hv.baseTierUp.next, .ite hv.next hv.sidesUp.next, hv.stepped.loadBoot.requestUnits.next,
      .ite (hv.stepped.onServing (fun _ _ h => h.trainPorts)).beginApply.next hv.next,
      .ite hv.stepped.beginPass.next hv.next, .ite hv.stepped.beginFaCal.next hv.next, .ite hv.stepped.next hv.next,
      hv.stepped.modPower.next, hv.next]

theorem Follows.frontOff (h : Follows s u) : Follows s (frontOff u) := h.noneServe.upd

theorem Follows.pathOff {x} (h : Follows s u) : Follows s (pathOff x u) := by
  unfold Machine.pathOff
  exact (h.foldl (fun _ _ h => h.disablePort.modPort)).modSide

theorem Follows.enterStandby (h : Follows s u) : Follows s (enterStandby u) := by
  unfold Machine.enterStandby
  exact (h.frontOff.both (fun _ _ h => .ite h.pathOff h)).wf.modPower

theorem Follows.execStandbyEntry {dt c} (h : Follows s u) : Next (Follows s) (execStandbyEntry dt c u) :=
  (h.commandThen (fun _ _ h => .ite (.ite h.refuse h.okRes) (.ite h.refuse (.ite h.refuse h.okRes)))
    (fun _ _ h => .ite h (h.afterReply (fun _ h => h.enterStandby)))).next

theorem Follows.execStandbyExit {dt c} (h : Follows s u) : Next (Follows s) (execStandbyExit dt c u) :=
  (h.command (fun _ _ h => .ite h.okRes h.wf.modPower.requestUnits.later)).next

theorem Follows.becomeActive {bad} (h : Follows s u) : Follows s (becomeActive bad u) := by
  unfold Machine.becomeActive
  extract_lets w s0 s1 s2
  have h1 : Follows s s1 := h.scrubAnew.modPower.modPix.foldl fun _ _ h => h.imageError
  have h2 : Follows s s2 := by
    unfold s2
    clear_value w
    split
    exacts [h1.formReply.barrierCheck, h1]
  exact h2.both fun _ _ h => .ite h.trainPorts h

theorem Follows.unitReady {q} (h : Follows s u) : Follows s (unitReady u q) := by
  unfold Machine.unitReady
  exact h.high.modPower

theorem Follows.endStep {n} (h : Follows s u) : Follows s (endStep n u) := by
  unfold Machine.endStep
  extract_lets _ _ _ _ s2
  have h2 : Follows s s2 := (h.foldl (fun _ _ h => h.unitReady)).modPower
  exact .ite h2.raiseBase h2

theorem Follows.execWakeStep {dt inLimits bad} (h : Follows s u) : Next (Follows s) (execWakeStep dt inLimits bad u) :=
  .ite h.elapse.next (.ite h.elapse.endStep.next (Follows.ite h.elapse.endStep.becomeActive h.elapse.endStep).next)

theorem Follows.execBasePllLockLost {dt} (h : Follows s u) : Next (Follows s) (execBasePllLockLost dt u) :=
  .ite h.elapse.next (h.elapse.bump.modPower.both (fun _ _ h => h.wf)).raiseBase.endRunAt.next

theorem Follows.execBasePllRelock {dt} (h : Follows s u) : Next (Follows s) (execBasePllRelock dt u) :=
  (Follows.ite h.elapse.modPower h.elapse).next

/-! ### Telemetry -/

theorem Follows.execTelemetryCapture {dt x} (h : Follows s u) : Next (Follows s) (execTelemetryCapture dt x u) :=
  .ite h.elapse.next h.elapse.modMgt.delayItem.next

theorem Follows.execSnapshotAtT {dt} (h : Follows s u) : Next (Follows s) (execSnapshotAtT dt u) := by
  unfold Machine.execSnapshotAtT
  extract_lets
  split
  exacts [(h.elapse.modLace.onLive (fun _ _ h => h.wr64.delayItem)).next, h.elapse.next]

theorem Follows.sendTelemetry {x ws} (h : Follows s u) : Follows s (sendTelemetry x ws u) :=
  h.tookSeq.foldl fun _ _ h => h.sendFrame

theorem Follows.execTelemetry {dt x e} (h : Follows s u) : Next (Follows s) (execTelemetry dt x e u) :=
  (h.elapse.complete (fun _ _ h => by split; exacts [h.sendTelemetry.passed, h.passed])).next

/-! ### Registers -/

theorem Follows.settleBlock {a} (h : Follows s u) : Follows s (settleBlock a u) := by
  unfold Machine.settleBlock
  split
  exacts [h.settleTile, h]

theorem Follows.touchBlock {a} (h : Follows s u) : Follows s (touchBlock a u) := by
  unfold Machine.touchBlock
  split
  exacts [h.settleBlock.touchTile, h]

theorem Follows.captureFrom {a n} (h : Follows s u) : Follows s (captureFrom a n u) := h.upd

theorem Follows.readSets {a e} (h : Follows s u) : Follows s (readSets a e u) := h.upd

theorem Follows.readReg {priv a} (h : Follows s u) : Follows s (readReg priv a u).2 := by
  unfold Machine.readReg
  extract_lets _ _ _ _ _ s1
  have h1 : Follows s s1 := h.settleBlock.touchBlock.upd.captureFrom
  split
  exacts [h1.wr.readSets, h1]

theorem Follows.findError {bad q} (h : Follows s u) : Follows s (findError bad q u) := by
  unfold Machine.findError
  split
  · split
    exacts [h.shadowError, h.imageError, h]
  · exact h

theorem Follows.readPlace {priv bad q} (h : Follows s u) : Follows s (readPlace priv bad q u).2 := by
  unfold Machine.readPlace
  extract_lets v
  have hv : Follows s v := h.findError
  split
  exacts [hv.readReg, hv, hv, hv]

theorem Follows.store {a v} (h : Follows s u) : Follows s (store a v u) := h.wr

theorem Follows.flushStore {x} (h : Follows s u) : Follows s (flushStore x u) := h.foldl fun _ _ h => h.modChan

theorem Follows.flushLace {x} (h : Follows s u) : Follows s (flushLace x u) :=
  h.foldl fun _ _ h => h.modLce.freeGroups

theorem Follows.flushEgress {x} (h : Follows s u) : Follows s (flushEgress x u) := h.modLnk.settleStore

theorem Follows.flushStaging {x} (h : Follows s u) : Follows s (flushStaging x u) := by
  unfold Machine.flushStaging
  exact h.modDsp.modCmp.modWlt

theorem Follows.flushQueues {x v} (h : Follows s u) : Follows s (flushQueues x v u) := by
  unfold Machine.flushQueues
  extract_lets on
  have ho {i f t} (ht : Follows s t) (hf : Follows s t → Follows s (f x t)) : Follows s (on i f t) := .ite (hf ht) ht
  exact ho (ho (ho (ho (ho (ho (ho h .flushStore) .flushLace) .flushEgress) .flushStaging) .flushWelt) .flushCommands)
    .flushEvents

theorem Follows.clearLog {x ch} (h : Follows s u) : Follows s (clearLog x ch u) := h.wr.foldl fun _ _ h => h.wr.wr

theorem Follows.sideEffect {x o v} (h : Follows s u) : Follows s (sideEffect x o v u) :=
  .ite (.ite h.clearSources h) (.ite h.flushQueues (.ite h.evSettle
    (.ite (.ite (Follows.ite h.flushReady h).flushDelay (.ite h.flushReady h))
    (.ite (.ite h.clearLog h) (.ite (.ite h.tryResync h) h)))))

theorem Follows.baseEffect {a v} (h : Follows s u) : Follows s (baseEffect a v u) :=
  .ite (.ite (Follows.ite h.awlFire h).awlAbort (.ite h.awlFire h))
    (.ite h.writeFramePeriod (.ite (.ite h.injStart h) (.ite h.hkResume
    (.ite (.ite h h.leaveAlarm) (.ite h.keepLevels h)))))

theorem Follows.writeReg {a v} (h : Follows s u) : Follows s (writeReg a v u) := by
  unfold Machine.writeReg
  extract_lets w
  have hw : Follows s w := h.touchBlock
  split
  exacts [.ite hw.portCtrlWrite (.ite hw.store.refChanged (.ite hw.store.modLce hw.store.sideEffect)),
    .ite hw.writeCalCtrl hw.store, .ite hw.writeMp (.ite hw hw.store.baseEffect)]

theorem Follows.writePlace {q v} (h : Follows s u) : Follows s (writePlace q v u) := by
  unfold Machine.writePlace
  split
  exacts [h.writeReg, h.shadowWrite, h, h.writeTable]

theorem Follows.noteLate {x mask q} (h : Follows s u) : Follows s (noteLate x mask q u) := by
  unfold Machine.noteLate
  split
  exacts [h.upd, h]

theorem Follows.writeAll {x mask q v} (h : Follows s u) : Follows s (writeAll x mask q v u) :=
  h.foldl fun _ _ h => h.writePlace.noteLate

theorem Follows.landDeferred {c q v} (h : Follows s u) : Follows s (landDeferred c q v u) := by
  unfold Machine.landDeferred
  split
  exacts [.ite (.ite h (h.afterReply (fun _ h => h.enterStandby))) (h.afterReply (fun _ h => h.writeReg)), h]

theorem Follows.execReadReg {dt c addr bad} (h : Follows s u) : Next (Follows s) (execReadReg dt c addr bad u) :=
  (h.command (fun _ _ h => by split; exacts [h.readPlace.done, h.refuse])).next

theorem Follows.beginWake {x op c} (h : Follows s u) : Follows s (beginWake x op c u) := h.wf.modPower.requestUnits

theorem Follows.doWrite {x op c mask k v r1} (h : Follows s u) : Ends s (doWrite x op c mask k v r1 u) := by
  unfold Machine.doWrite
  split
  exacts [h.refuse, .ite h.beginWake.later (Follows.ite h h.writeAll).done]

theorem Follows.execWriteReg {dt c addr value} (h : Follows s u) : Next (Follows s) (execWriteReg dt c addr value u) :=
  (h.commandThen (fun _ _ h => by split; exacts [.ite h.modPix.later h.writeAll.done, h.doWrite, h.refuse])
    (fun _ _ h => by split; exacts [.ite h.landDeferred h, h])).next

theorem Follows.execModifyReg {dt c addr mask value bad} (h : Follows s u) :
    Next (Follows s) (execModifyReg dt c addr mask value bad u) := (h.commandThen (fun _ _ h => by
      split
      · exact .ite h.modPix.later h.readPlace.writeAll.done
      · extract_lets
        split
        exacts [h.refuse, h.readPlace.doWrite]
      · exact h.refuse) (fun _ _ h => by split; exacts [.ite h.landDeferred h, h])).next

theorem Follows.readRun {priv bad a n} (h : Follows s u) : Follows s (readRun priv bad a n u).2.2 := by
  induction n generalizing a u with
  | zero => exact h
  | succ n ih =>
    unfold Machine.readRun
    split
    exacts [h, ih h.readPlace]

theorem Follows.execReadBlock {dt c addr count bad} (h : Follows s u) :
    Next (Follows s) (execReadBlock dt c addr count bad u) := (h.command (fun _ _ h => h.readRun.done)).next

theorem Follows.writeRun {x c a l} (h : Follows s u) : Follows s (writeRun x c a l u).2.2 := by
  induction l generalizing a u with
  | nil => exact h
  | cons v r ih =>
    unfold Machine.writeRun
    split
    · exact h
    · split
      exacts [h, ih (.ite h h.writeAll)]

theorem Follows.landBlock {c a l} (h : Follows s u) : Follows s (landBlock c a l u) := by
  induction l generalizing a u with
  | nil => exact h
  | cons v r ih =>
    refine ih ?_
    split
    exacts [.ite h.landDeferred h, h]

theorem Follows.execWriteBlock {dt c addr count data} (h : Follows s u) :
    Next (Follows s) (execWriteBlock dt c addr count data u) :=
  (h.commandThen (fun _ _ h => .ite h.modPix.later h.writeRun.done) (fun _ _ h => h.landBlock)).next

theorem Follows.strobe {dt c a mask} (h : Follows s u) : Next (Follows s) (strobe dt c a mask u) := h.execWriteReg

theorem Follows.execAwlFire {dt c} (h : Follows s u) : Next (Follows s) (execAwlFire dt c u) := h.strobe

theorem Follows.execAwlAbort {dt c} (h : Follows s u) : Next (Follows s) (execAwlAbort dt c u) := h.strobe

theorem Follows.execReadyFlush {dt c x} (h : Follows s u) : Next (Follows s) (execReadyFlush dt c x u) := h.strobe

theorem Follows.execDelayFlush {dt c x} (h : Follows s u) : Next (Follows s) (execDelayFlush dt c x u) := h.strobe

theorem Follows.execRetrain {dt c x p} (h : Follows s u) : Next (Follows s) (execRetrain dt c x p u) := h.strobe

theorem Follows.execPortCtrlWrite {dt c x p value} (h : Follows s u) :
    Next (Follows s) (execPortCtrlWrite dt c x p value u) := h.execWriteReg

theorem Follows.execWltResync {dt c x} (h : Follows s u) : Next (Follows s) (execWltResync dt c x u) := h.strobe

theorem Follows.execSrcClear {dt c x} (h : Follows s u) : Next (Follows s) (execSrcClear dt c x u) := h.strobe

theorem Follows.execQflushStore {dt c x} (h : Follows s u) : Next (Follows s) (execQflushStore dt c x u) := h.strobe

theorem Follows.execQflushLace {dt c x} (h : Follows s u) : Next (Follows s) (execQflushLace dt c x u) := h.strobe

theorem Follows.execQflushEgress {dt c x} (h : Follows s u) : Next (Follows s) (execQflushEgress dt c x u) := h.strobe

theorem Follows.execQflushStaging {dt c x} (h : Follows s u) : Next (Follows s) (execQflushStaging dt c x u) := h.strobe

theorem Follows.execQflushWelt {dt c x} (h : Follows s u) : Next (Follows s) (execQflushWelt dt c x u) := h.strobe

theorem Follows.execQflushCmd {dt c x} (h : Follows s u) : Next (Follows s) (execQflushCmd dt c x u) := h.strobe

theorem Follows.execQflushEvents {dt c x} (h : Follows s u) : Next (Follows s) (execQflushEvents dt c x u) := h.strobe

theorem Follows.execLogClear {dt c x ch} (h : Follows s u) : Next (Follows s) (execLogClear dt c x ch u) := h.strobe

theorem Follows.execInjStart {dt c} (h : Follows s u) : Next (Follows s) (execInjStart dt c u) := h.strobe

theorem Follows.execTdcCalPauseWrite {dt c t value} (h : Follows s u) :
    Next (Follows s) (execTdcCalPauseWrite dt c t value u) := (h.command (fun _ _ h => h.writeAll.okRes)).next

theorem Follows.execTdcTableWrite {dt c addr value} (h : Follows s u) :
    Next (Follows s) (execTdcTableWrite dt c addr value u) :=
  (h.command (fun _ _ h => by split; exacts [h.writeAll.okRes, h.refuse, h.refuse])).next

theorem Follows.execMpSwitch {dt c i value} (h : Follows s u) : Next (Follows s) (execMpSwitch dt c i value u) :=
  (h.command (fun _ _ h => by split; exacts [h.refuse, h.writeAll.okRes])).next

/-! ### Replies -/

theorem Follows.runAfter {a} (h : Follows s u) : Follows s (runAfter a u) := by
  unfold Machine.runAfter
  split
  exacts [h.trainNarrow, h.afterLoad, h.takeOut, h.resetModule, .ite h h.enterStandby, h.writeReg, h.retireSide]

theorem Follows.settleReplies {x p} (h : Follows s u) : Follows s (settleReplies x p u) :=
  .ite h (h.modLnk.foldl (fun _ _ h => h.runAfter))

theorem Follows.frameSent {x p f} (h : Follows s u) : Follows s (frameSent x p f u) := by
  unfold Machine.frameSent
  extract_lets _ s2
  have h2 : Follows s s2 := h.modPort.count.onFrameEntries
  exact .ite (Follows.ite h2.evSettle h2).modPort.settleStore (.ite h2.evSettle h2)

theorem Follows.execDataFrameSent {dt x p} (h : Follows s u) : Next (Follows s) (execDataFrameSent dt x p u) := by
  unfold Machine.execDataFrameSent
  extract_lets
  split
  exacts [h.elapse.settleReplies.portNext.next, h.elapse.frameSent.settleReplies.portNext.next]

/-! ### Dispatch -/

theorem Follows.exec {i} (h : Follows s u) : Next (Follows s) (exec i u) := by
  unfold Machine.exec
  split
  exacts [h.execNop, h.execGetStatus, h.execReadReg, h.execWriteReg, h.execReadBlock, h.execWriteBlock, h.execModifyReg,
    h.execCmdFrameReceived, h.execSpiWrite, h.execSpiRead, h.execPeerTimeout, h.execRunArm, h.execRunStart,
    h.execRunStartEffect, h.execRunStop, h.execRunStopEffect, h.execRunStoppingComplete, h.execFlush, h.execFlushCut,
    h.execTriggerSw, h.execTrigCommit, h.execConfigApply, h.execConfigStagingDone, h.execConfigCommit, h.execLastLoad,
    h.execLastStore, h.execModeSet, h.execFaCal, h.execFaCalPhaseStart, h.execFaCalAttemptEnd, h.execTdcCal,
    h.execTdcInitAttemptStart, h.execTdcInitPassEnd, h.execInitFillTimeout, h.execHkCal, h.execHkCalDone,
    h.execThreshScan, h.execThreshScanDone, h.execRetire, h.execRetireListRead, h.execRetireListRemove,
    h.execResumeDrain, h.execDecompressJob, h.execJobResume, h.execGetMeasurement, h.execAttest, h.execGetIdentity,
    h.execPatchLoad, h.execEventSubscribe, h.execEventAck, h.execFirstFailureClear, h.execArrayBroadcast,
    h.execArrayBarrier, h.execArraySnapshot, h.execSnapshotAtT, h.execArrayReset, h.execArrayResetAtT, h.execTimeSet,
    h.execSideReset, h.execModuleReset, h.execAwlFire, h.execAwlAbort, h.execAwlPulse, h.execReadyFlush,
    h.execDelayFlush, h.execRetrain, h.execPortCtrlWrite, h.execWltResync, h.execSrcClear, h.execQflushStore,
    h.execQflushLace, h.execQflushEgress, h.execQflushStaging, h.execQflushWelt, h.execQflushCmd, h.execQflushEvents,
    h.execLogClear, h.execInjStart, h.execStandbyEntry, h.execStandbyExit, h.execMpSwitch, h.execKeeperRelease,
    h.execIgnoreWindowEnd, h.execTdcCalPauseWrite, h.execTdcTableWrite, h.execPixScrubPass, h.execDriftMeasure,
    h.execPixelLeadingEdge, h.execPixelTrailingEdge, h.execVernierConversionEnd, h.execClusterWindowEnd,
    h.execDigitizerReady, h.execClusterAssembled, h.execCalEdgeDelivered, h.execCalConversionEnd, h.execFillAbandoned,
    h.execRotationGapEnd, h.execCalTableTakesEffect, h.execEtdEdge, h.execEtdStampArrives, h.execEtdCalFill,
    h.execFrameTrigger, h.execFrameConversionEnd, h.execTileLinkWord, h.execTilePllRelockTimeout, h.execUnitClose,
    h.execEpochWrite, h.execOccupancySummary, h.execOccSummaryArrives, h.execTileClockGate, h.execSquallWindowEval,
    h.execSquallDeclaration, h.execSquallEnd, h.execTilePllLockLost, h.execTilePllRelock, h.execSequencerStep,
    h.execSequencerEntry, h.execTimerExpiry, h.execMpPulseEnd, h.execUnitDecided, h.execUnitArrival,
    h.execDispatchCycle, h.execDelayItemDue, h.execSliceSort, h.execCluster, h.execRecordBuild, h.execLaceMerge,
    h.execVerify, h.execTelemetry, h.execCalReduce, h.execEngineTrap, h.execCompressorTakesBlock, h.execBlockCompressed,
    h.execActivateTableClear, h.execDrainRead, h.execRefreshDue, h.execRefreshEnd, h.execIngestQuiet,
    h.execImbalanceInterval, h.execPatrolScrubAccess, h.execBlockAssign, h.execDataFrameSent, h.execEventFrameSend,
    h.execLaneSignalLost, h.execLaneLockLost, h.execBlockLockGained, h.execBlockLockLost, h.execAlignSlot,
    h.execAlignReceived, h.execTrainingLaneTimeout, h.execPause, h.execPauseExpiry, h.execLaceFrameReceived,
    h.execCreditReceived, h.execCreditSend, h.execCreditStall, h.execWeltHeartbeat, h.execWeltRetransmit,
    h.execWeltSilence, h.execSignatureReceived, h.execSignatureOrphan, h.execRecomputeDone, h.execSideBootDone,
    h.execResyncTransferEnd, h.execResyncPoint, h.execTwinTakeover, h.execLaceExchangeStart, h.execProbeReceived,
    h.execEchoReceived, h.execFollowReceived, h.execRttReceived, h.execExchangeTimeout, h.execReachReceived,
    h.execRosterReceived, h.execBusBlockReceived, h.execBusAssertionDelivered, h.execRefinLost, h.execRefinLock,
    h.execPpsEdge, h.execTelemetryCapture, h.execMpPinEdge, h.execHkInjectPinEdge, h.execHkConversionDone,
    h.execHkInjectedConversionDone, h.execOvercurrentTrip, h.execOvercurrentRearm, h.execLoopUpdate,
    h.execLoopOpenDetect, h.execDoseSecond, h.execDoseSave, h.execRetirementListUpdate, h.execBaseSramScrub,
    h.execSideSramScrub, h.execMgtFetchFail, h.execVinValid, h.execVinLost, h.execVaonValid, h.execVaonLost,
    h.execResetN, h.execSideResetPin, h.execStartupStep, h.execWakeStep, h.execBasePllLockLost, h.execBasePllRelock,
    h.execResetNRelease, h.execSideResetPinRelease, h.execLaneSignalReturn, h.execLoopOpenClear, h.execLaceBatchEnd,
    h.execFrameNotAccepted, h.execInvalidControlBlock]

/-! ### The step -/

theorem Follows.step (s : State) : Next (Follows { s with pending := s.pending.tail }) (step s) := by
  unfold Machine.step
  split
  · next hp => exact ⟨s, rfl, by simp [hp], rfl, id⟩
  · next hp => simpa [hp] using (Follows.refl _).exec

end

/-- Settles O4: the state after a step follows the state before it without the command taken, and the registers of these two are the
same. -/
theorem registersKeepTheirForm : Obligations.RegistersKeepTheirForm := by
  intro s t hs ht
  obtain ⟨u, hu, hf⟩ := Follows.step s
  obtain rfl : u = t := by simpa [hu] using ht
  exact hf.regsWf hs

end Sys2Proof.Machine
end

section
/-!
### The pixel matrix: pixel numbers and the words of the configuration copies
-/

namespace Sys2Proof.Machine

/-! Pixel numbers (R23) -/

theorem pixTile_lt {p : Nat} (h : p < 1048576) : pixTile p < 64 := by simp only [pixTile, pixX, pixY]; omega

theorem pixLocal_lt (p : Nat) : pixLocal p < 16384 := by simp only [pixLocal, pixX, pixY]; omega

/-- A pixel is the one of its local number in its tile (R23). -/
theorem globalPix_pix (p : Nat) : globalPix (pixTile p) (pixLocal p) = p := by
  simp only [globalPix, pixTile, pixLocal, pixX, pixY]; omega

theorem globalPix_lt {t lp : Nat} (ht : t < 64) (hl : lp < 16384) : globalPix t lp < 1048576 := by
  simp only [globalPix]; omega

@[simp] theorem pixTile_globalPix {t lp : Nat} (hl : lp < 16384) : pixTile (globalPix t lp) = t := by
  simp only [globalPix, pixTile, pixX, pixY]; omega

@[simp] theorem pixLocal_globalPix {t lp : Nat} (hl : lp < 16384) : pixLocal (globalPix t lp) = lp := by
  simp only [globalPix, pixLocal, pixX, pixY]; omega

/-- Two pixels of the matrix are the same when tile and local number are. -/
theorem pix_eq_iff {p q : Nat} :
    q = p ↔ pixTile q = pixTile p ∧ pixLocal q = pixLocal p := by
  refine ⟨fun h => h ▸ ⟨rfl, rfl⟩, fun ⟨ht, hl⟩ => ?_⟩
  rw [← globalPix_pix p, ← globalPix_pix q, ht, hl]

/-! Words of a copy -/

theorem Sparse.get_set {α : Type} [DecidableEq α] (m : Sparse α) (k j : Nat) (v d : α) :
    Sparse.get (Sparse.set m k v d) j d = if j = k then v else Sparse.get m j d := by
  split
  · next h => rw [h, Sparse.get_set_self]
  · next h => exact Sparse.get_set_ne m v d h d

theorem Sparse.get_upd {α : Type} [DecidableEq α] (m : Sparse α) (k j : Nat) (d : α) (f : α → α) :
    Sparse.get (Sparse.upd m k d f) j d = if j = k then f (Sparse.get m k d) else Sparse.get m j d :=
  Sparse.get_set m k j _ d

theorem TileImage.word_put (i : TileImage) (lp lq : Nat) (w : BitVec 10) :
    (i.put lp w).word lq = if lq = lp then w else i.word lq := Sparse.get_set i.words lp lq w i.base

/-- A word put into a copy changes that word only. -/
theorem imageWord_putWord (m : Sparse TileImage) (p q : Nat) (w : BitVec 10) :
    imageWord (putWord m p w) q = if q = p then w else imageWord m q := by
  simp only [imageWord, putWord, Sparse.get_upd, pix_eq_iff (p := p)]
  by_cases ht : pixTile q = pixTile p
  · rw [if_pos ht, TileImage.word_put, ht]; simp
  · simp [ht]

theorem imageWord_putWord_self (m : Sparse TileImage) (p : Nat) (w : BitVec 10) : imageWord (putWord m p w) p = w := by
  simp [imageWord, putWord, Sparse.get_upd, TileImage.word_put]

/-- The pixel whose shadow word stands at an address is one of the matrix. -/
theorem shadowPixel_eq_some {a p : Nat} :
    shadowPixel a = some p ↔ p < 1048576 ∧ a = shadowBase + 4 * p := by
  unfold shadowPixel
  have : shadowBase = 0x10000000 := rfl
  split
  · next h => simp only [Option.some.injEq]; omega
  · next h => simp only [reduceCtorEq, false_iff]; omega

/-! The matrix changed -/

theorem Only.modPix {ps : List Part} {w : Nat → Prop} (s : State) (f : Pix → Pix) (h : .pix ∈ ps) :
    Only ps w s (s.modPix f) := Only.setPix s _ h

end Sys2Proof.Machine
end

section
/-!
### Raises: what they change, and the record of their source
-/

namespace Sys2Proof.Machine

theorem evt_raising (x : Side) : Part.evt x ∈ raising := by cases x <;> decide

theorem tally_raising (x : Side) : Part.tally x ∈ raising := by cases x <;> decide

theorem raiseRegs_ff (x : Side) : raiseRegs (Reg.EVT_FF_STATUS x) := ⟨x, .inl rfl⟩

theorem raiseRegs_lost (x : Side) (sev : Nat) : raiseRegs (if sev < 2 then Reg.EVT_LOST x else Reg.EVT_LOST_4 x) := by
  split
  · exact ⟨x, .inr (.inl rfl)⟩
  · exact ⟨x, .inr (.inr rfl)⟩

theorem evLost_only (x : Side) (sev old new : Nat) (s : State) : Only [.tally x] raiseRegs s (evLost x sev old new s) := by
  unfold evLost
  extract_lets a lo f c
  split
  · exact Only.refl _ _ s
  · have ha : raiseRegs a := raiseRegs_lost x sev
    exact ((Only.noteSet s a _ _ _ ha).trans (Only.wf _ a _ _ _ ha)).trans (Only.modSide _ x _ (by simp))

/-- A side's events with the raises of a round taken (R478). -/
def roundTaken (x : Side) (r : EvRound) (s : State) (v : EvState) : EvState :=
  let c := r.raises.foldl EvCore.raise r.base
  { v with
    queue := c.queue.filter (fun e => !evLeaves x s e)
    next := c.next
    ff := c.ff
    round := some { r with lost := c.lost } }

/-- Beside the side's events, the raises of a round change registers and the counts of lost entries. -/
theorem evTake_only_after (x : Side) (r : EvRound) (s : State) :
    Only [.tally x] raiseRegs (s.modEvt x (roundTaken x r s)) (evTake x r s) := by
  have hf := raiseRegs_ff x
  refine Only.foldl (fun t k => evLost_only x k _ _ t) ?_
  exact ((Only.wf _ _ _ _ _ hf).trans (Only.wf _ _ _ _ _ hf)).trans (Only.wf _ _ _ _ _ hf)

theorem evTake_only (x : Side) (r : EvRound) (s : State) : Only raising raiseRegs s (evTake x r s) :=
  (Only.modEvt s x _ (evt_raising x)).trans ((evTake_only_after x r s).mono (by simp [tally_raising x]) fun _ => id)

theorem evTake_recs (x y : Side) (r : EvRound) (s : State) :
    ((evTake x r s).side y).evt.recs = (s.side y).evt.recs := by
  rw [show ((evTake x r s).side y).evt = _ from (evTake_only_after x r s).1 (.evt y) (by simp)]
  by_cases hy : y = x
  · subst hy; simp [roundTaken]
  · rw [State.modEvt_ne s _ hy]

theorem raiseAt_only (x : Side) (src sev inst : Nat) (s : State) : Only raising raiseRegs s (raiseAt x src sev inst s) := by
  unfold raiseAt
  extract_lets t s1 r
  have h1 : Only raising raiseRegs s s1 := Only.modEvt s x _ (evt_raising x)
  split
  · exact h1
  · exact h1.trans (evTake_only x _ s1)

theorem raiseSide_only (x : Side) (n sev inst : Nat) (s : State) : Only raising raiseRegs s (raiseSide x n sev inst s) := by
  unfold raiseSide; split
  · exact raiseAt_only x _ sev inst s
  · exact Only.refl _ _ s

theorem raiseBase_only (n sev inst : Nat) (s : State) : Only raising raiseRegs s (raiseBase n sev inst s) := by
  refine Only.both (fun x t => ?_) (Only.refl _ _ s)
  split
  · exact raiseAt_only x n sev inst t
  · exact Only.refl _ _ t

/-! Records by source (R475) -/

/-- Side x's record of a source. -/
def State.srcRec (s : State) (x : Side) (n : Nat) : SrcRec := Sparse.get (s.side x).evt.recs n SrcRec.zero

theorem srcRec_of_recs {s t : State} {x : Side} (h : (t.side x).evt.recs = (s.side x).evt.recs) (n : Nat) :
    t.srcRec x n = s.srcRec x n := by simp only [State.srcRec, h]

/-- A raise that reaches side x enters its own source's record there, and no other record. -/
theorem raiseAt_srcRec (x y : Side) (src sev inst n : Nat) (s : State) :
    (raiseAt x src sev inst s).srcRec y n = if y = x ∧ n = src then (s.srcRec y n).raise s.now else s.srcRec y n := by
  have h1 : (s.modEvt x (fun v => { v with recs := Sparse.upd v.recs src SrcRec.zero (·.raise s.now) })).srcRec y n =
      if y = x ∧ n = src then (s.srcRec y n).raise s.now else s.srcRec y n := by
    unfold State.srcRec
    by_cases hy : y = x
    · subst hy
      simp only [State.modEvt_self, Sparse.get_upd, true_and]
      split
      · next h => rw [h]
      · rfl
    · simp [State.modEvt_ne s _ hy, hy]
  unfold raiseAt
  extract_lets t s1 r
  split
  · exact h1
  · exact (srcRec_of_recs (evTake_recs x y _ s1) n).trans h1

/-- Whether a side serves depends on power and arbiter only. -/
theorem Only.live {ps : List Part} {w : Nat → Prop} {s t : State} (h : Only ps w s t) (hp : .power ∉ ps) (ha : .arb ∉ ps)
    (x : Side) : t.live x = s.live x := by
  simp only [State.live, show t.power = s.power from h.1 .power hp, show t.arb = s.arb from h.1 .arb ha]

theorem Only.now {ps : List Part} {w : Nat → Prop} {s t : State} (h : Only ps w s t) (hc : .clock ∉ ps) : t.now = s.now :=
  congrArg Clock.now (h.1 .clock hc)

/-- The record of a source on a side after an event of the base tier: one raise more, where the side serves and the event is that
source's (R474, R475). -/
theorem raiseBase_srcRec (m sev inst : Nat) (y : Side) (n : Nat) (s : State) :
    (raiseBase m sev inst s).srcRec y n = if s.live y = true ∧ n = m then (s.srcRec y n).raise s.now else s.srcRec y n := by
  have hstep : ∀ (x : Side) (t : State),
      (if t.live x then raiseAt x m sev inst t else t).srcRec y n =
        if t.live x = true ∧ y = x ∧ n = m then (t.srcRec y n).raise t.now else t.srcRec y n := by
    intro x t
    split
    · next h => simp [raiseAt_srcRec, h]
    · next h => simp [h]
  have honly : Only raising raiseRegs s (if s.live .a then raiseAt .a m sev inst s else s) := by
    split
    · exact raiseAt_only .a m sev inst s
    · exact Only.refl _ _ s
  show (if State.live _ .b then raiseAt .b m sev inst _ else _ : State).srcRec y n = _
  rw [hstep .b, hstep .a, honly.live (by decide) (by decide), honly.now (by decide)]
  cases y <;> simp

theorem raiseBase_raisedBase (n sev inst : Nat) (s : State) : RaisedBase n s (raiseBase n sev inst s) := by
  intro x hx
  have h := raiseBase_srcRec n sev inst x n s
  rw [if_pos ⟨hx, rfl⟩] at h
  exact h

theorem raisedBase_iff {n : Nat} {s t : State} :
    RaisedBase n s t ↔ ∀ x, s.live x = true → t.srcRec x n = (s.srcRec x n).raise s.now := Iff.rfl

end Sys2Proof.Machine
end

section
/-!
### Uncorrectable words of the copies (R64, R65)
-/

namespace Sys2Proof.Machine

/-- What a raise and the count of uncorrectable words change of the registers. -/
def errorRegs (a : Nat) : Prop := raiseRegs a ∨ a = Reg.PIX_SCRUB_STATUS

/-- An uncorrectable word counted in PIX_SCRUB_STATUS, with event 522 (R64, R65). -/
def countBadWord (s : State) : State := raiseBase 522 sevFault noInst (s.bump Reg.PIX_SCRUB_STATUS 23 16 1)

theorem shadowError_eq (p : Nat) (s : State) :
    shadowError p s = countBadWord (s.modPix (fun x => { x with shadow := putWord x.shadow p 0 })) := rfl

theorem imageError_eq (p : Nat) (s : State) :
    imageError p s = countBadWord (s.modPix (fun x => { x with
      applied := putWord x.applied p 0
      latches := putWord x.latches p (imageWord x.latches p &&& 0x3FE) })) := rfl

theorem countBadWord_only (s : State) : Only raising errorRegs s (countBadWord s) :=
  (Only.bump s _ _ _ _ (.inr rfl)).trans ((raiseBase_only _ _ _ _).mono (fun _ h => h) fun _ => .inl)

theorem countBadWord_pix (s : State) : (countBadWord s).pix = s.pix := (countBadWord_only s).1 .pix (by decide)

theorem shadowError_only (p : Nat) (s : State) : Only (.pix :: raising) errorRegs s (shadowError p s) :=
  (Only.modPix s _ (by decide)).trans ((countBadWord_only _).mono (by simp) fun _ => id)

theorem imageError_only (p : Nat) (s : State) : Only (.pix :: raising) errorRegs s (imageError p s) :=
  (Only.modPix s _ (by decide)).trans ((countBadWord_only _).mono (by simp) fun _ => id)

theorem shadowError_pix (p : Nat) (s : State) :
    (shadowError p s).pix = { s.pix with shadow := putWord s.pix.shadow p 0 } := countBadWord_pix _

theorem imageError_pix (p : Nat) (s : State) :
    (imageError p s).pix = { s.pix with
      applied := putWord s.pix.applied p 0
      latches := putWord s.pix.latches p (imageWord s.pix.latches p &&& 0x3FE) } := countBadWord_pix _

end Sys2Proof.Machine
end

section
/-!
### O12: writes of the pixel shadow
-/

namespace Sys2Proof.Machine

/-- The addresses of the pixel shadow lie in no side's range (R584, R591). -/
theorem sideOfAddr_shadow {a p : Nat} (h : shadowPixel a = some p) : sideOfAddr a = none := by
  obtain ⟨hp, rfl⟩ := shadowPixel_eq_some.1 h
  have : shadowBase = 0x10000000 := rfl
  unfold sideOfAddr
  rw [if_neg (by omega), if_neg (by omega)]

theorem placeOf_eq_shadow {a p : Nat} : placeOf a = some (.shadow p) ↔ shadowPixel a = some p := by
  unfold placeOf
  cases shadowPixel a <;> cases appliedPixel a <;> cases tableWord a <;> simp

theorem forAddr_shadow {c : Ctx} {a p : Nat} (h : shadowPixel a = some p) : forAddr c a = c := by
  simp [forAddr, sideOfAddr_shadow h]

/-- An access to an address of no side, and of no pair of registers, does not cross Welt. -/
theorem crosses_of_no_side {s : State} {c : Ctx} {a : Nat} (w : Bool) (h : sideOfAddr a = none) : crosses s c a w = false := by
  simp [crosses, paired, h]

/-- A command that is not forwarded leaves nothing at the peer. -/
theorem crossed_of_not_forward {x : Side} {n : Need} {s : State} (h : n.forward = false) : crossed x n s = s := by
  simp [crossed, mustForward, h]

theorem deferred_shadow (c : Ctx) (p : Nat) (v : Word) : deferred c (.shadow p) v = false := rfl

theorem rangeCheck_shadow (s : State) (p : Nat) (v : Word) : rangeCheck s (some (.shadow p)) v = none := rfl

theorem taken_staging (x : Side) (c : Ctx) (s : State) : (taken x c s).staging = s.staging := by
  have h : (taken x c s).pix = s.pix := (taken_only x c s).1 .pix (by decide)
  simp [State.staging, h]

theorem taken_clock (x : Side) (c : Ctx) (s : State) : (taken x c s).clock = s.clock :=
  (taken_only x c s).1 .clock (by decide)

theorem taken_lace (x : Side) (c : Ctx) (s : State) : (taken x c s).lace = s.lace :=
  (taken_only x c s).1 .lace (by decide)

/-- A shadow write puts bits [9:0] into the word of its pixel, and leaves everything else alone (R45). -/
theorem shadowWrite_lands (p q : Nat) (w : Word) (s : State) :
    imageWord (shadowWrite p w s).pix.shadow q = if q = p then w.setWidth 10 else imageWord s.pix.shadow q :=
  imageWord_putWord _ p q _

theorem shadowWrite_only (p : Nat) (w : Word) (s : State) : Only [.pix] noReg s (shadowWrite p w s) :=
  Only.modPix s _ (by decide)

/-- A command whose reply is still to come, which does not cross Welt, and after which nothing follows, ends in the state that its
body gives. -/
theorem commandThen_waits {dt : Nat} {c : Ctx} {n : Need} {par : Side → State → Option Status} {body : Side → State → Res}
    {after : Side → State → State} {s s2 : State}
    (h : Admitted c n (par (receiver (s.elapse dt) c) (s.elapse dt)) (s.elapse dt))
    (hb : body (receiver (s.elapse dt) c) (taken (receiver (s.elapse dt) c) c (s.elapse dt)) = .later s2)
    (hf : n.forward = false) (ha : ∀ x t, after x t = t) : commandThen dt c n par body after s = s2 := by
  simp [commandThen, runCommand_later h hb, crossed_of_not_forward hf, ha]

/-- A command that its body completes, and whose part that follows the reply changes nothing. -/
theorem commandThen_completes {dt : Nat} {c : Ctx} {n : Need} {par : Side → State → Option Status} {body : Side → State → Res}
    {after : Side → State → State} {s s2 : State} {st : Status} {r1 : Word} {ws : List Word72}
    (h : Admitted c n (par (receiver (s.elapse dt) c) (s.elapse dt)) (s.elapse dt))
    (hb : body (receiver (s.elapse dt) c) (taken (receiver (s.elapse dt) c) c (s.elapse dt)) = .done s2 st r1 ws)
    (hn : s2.lace.barriers = []) (ha : ∀ x t, after x t = t) :
    Completes (receiver (s.elapse dt) c) c n.op st r1 ws s2 (.next (commandThen dt c n par body after s)) := by
  have he : commandThen dt c n par body after s = command dt c n par body s := by
    simp [commandThen, command, ha]
  obtain ⟨t, ht, ho, hr⟩ := command_next (P := fun t => Only answering answerRegs s2 t) h hb hn fun _ k => k
  exact ⟨t, by rw [he, ht], hr, ho⟩


theorem findError_shadow_only (bad : Bool) (p : Nat) (s : State) :
    Only (.pix :: raising) errorRegs s (findError bad (.shadow p) s) := by
  unfold findError; split
  · exact shadowError_only p s
  · exact Only.refl _ _ s

theorem noteLate_only (x : Side) (mask : Word) (q : Place) (s : State) : Only [] noReg s (noteLate x mask q s) := by
  unfold noteLate; split
  · exact ⟨fun p _ => by cases p <;> rfl, fun _ _ => ⟨rfl, rfl⟩⟩
  · exact Only.refl _ _ s

theorem writeAll_shadow_only (x : Side) (mask : Word) (p : Nat) (v : Word) (s : State) :
    Only [.pix] noReg s (writeAll x mask (.shadow p) v s) :=
  (shadowWrite_only p (landing x (.shadow p) v s) s).trans ((noteLate_only x mask _ _).mono (by simp) fun _ => id)

section
variable {dt : Nat} {c : Ctx} {addr : Word} {s : State} {p : Nat}

theorem writeReg_held {value : Word}
    (hp : shadowPixel (resolve s c addr.toNat) = some p) (hs : (s.elapse dt).staging = true)
    (h : Admitted c (.writeReg s c (resolve s c addr.toNat) value false (!standbyWrites (resolve s c addr.toNat))
      (crosses s c (resolve s c addr.toNat) true)) none (s.elapse dt)) :
    exec (.writeReg dt c addr value) s =
      .next ((taken (receiver (s.elapse dt) c) c (s.elapse dt)).modPix (fun f => { f with
        held := f.held ++ [⟨⟨receiver (s.elapse dt) c, 0x03, c, (s.elapse dt).clock.ticks⟩,
          [(resolve s c addr.toNat, 0xFFFFFFFF, value)], 0, false, false, false⟩] })) := by
  have hq := placeOf_eq_shadow.2 hp
  show execWriteReg dt c addr value s = _
  unfold execWriteReg
  extract_lets a q
  have hq' : q = some (.shadow p) := hq
  rw [hq', forAddr_shadow hp]
  exact congrArg _ (commandThen_waits h (by simp only [taken_staging, hs, if_true, taken_clock]; rfl)
    (crosses_of_no_side true (sideOfAddr_shadow hp)) fun _ _ => rfl)

theorem modifyReg_held {mask value : Word} {bad : Bool}
    (hp : shadowPixel (resolve s c addr.toNat) = some p) (hs : (s.elapse dt).staging = true)
    (h : Admitted c (.modifyReg s c (resolve s c addr.toNat) mask value (!standbyWrites (resolve s c addr.toNat))
      (crosses s c (resolve s c addr.toNat) true)) none (s.elapse dt)) :
    exec (.modifyReg dt c addr mask value bad) s =
      .next ((taken (receiver (s.elapse dt) c) c (s.elapse dt)).modPix (fun f => { f with
        held := f.held ++ [⟨⟨receiver (s.elapse dt) c, 0x06, c, (s.elapse dt).clock.ticks⟩,
          [(resolve s c addr.toNat, mask, value)], 0, true, false, bad⟩] })) := by
  show execModifyReg dt c addr mask value bad s = _
  unfold execModifyReg
  extract_lets a q newOf
  have hq : q = some (.shadow p) := placeOf_eq_shadow.2 hp
  rw [hq, forAddr_shadow hp]
  exact congrArg _ (commandThen_waits h (by simp only [taken_staging, hs, if_true, taken_clock]; rfl)
    (crosses_of_no_side true (sideOfAddr_shadow hp)) fun _ _ => rfl)

theorem modifyReg_lands {mask value : Word} {bad : Bool}
    (hp : shadowPixel (resolve s c addr.toNat) = some p) (hs : (s.elapse dt).staging = false)
    (h : Admitted c (.modifyReg s c (resolve s c addr.toNat) mask value (!standbyWrites (resolve s c addr.toNat))
      (crosses s c (resolve s c addr.toNat) true)) none (s.elapse dt)) :
    let x := receiver (s.elapse dt) c
    let v := findError bad (.shadow p) (taken x c (s.elapse dt))
    Completes x c 0x06 .ok (shadowRead v p) [] (writeAll x mask (.shadow p) (mixBits (shadowRead v p) mask value) v)
      (exec (.modifyReg dt c addr mask value bad) s) := by
  intro x v
  show Completes _ _ _ _ _ _ _ (execModifyReg dt c addr mask value bad s)
  unfold execModifyReg
  extract_lets a q newOf
  have hq : q = some (.shadow p) := placeOf_eq_shadow.2 hp
  rw [hq, forAddr_shadow hp]
  refine commandThen_completes h (by simp only [taken_staging, hs]; rfl) ?_ fun _ _ => rfl
  obtain ⟨⟨-, -, hb, -⟩, -⟩ := h
  rw [show (writeAll _ _ _ _ _).lace = _ from (writeAll_shadow_only x mask p _ v).1 .lace (by decide),
    show v.lace = _ from (findError_shadow_only bad p _).1 .lace (by decide), taken_lace, hb]

end

/-! A block of writes -/

/-- The word of the shadow that stands i places after that of pixel p. -/
theorem shadowPixel_add {a p : Nat} (h : shadowPixel a = some p) (i : Nat) :
    shadowPixel (a + 4 * i) = if p + i < 1048576 then some (p + i) else none := by
  obtain ⟨-, rfl⟩ := shadowPixel_eq_some.1 h
  split
  · next hi => exact shadowPixel_eq_some.2 ⟨hi, by omega⟩
  · next hi =>
    cases hs : shadowPixel (shadowBase + 4 * p + 4 * i) with
    | none => rfl
    | some q => have := shadowPixel_eq_some.1 hs; omega

/-- Of the words of a block those before the window's end are held (R448). -/
theorem heldWords_eq (ws : List Word) : ∀ {a p : Nat}, shadowPixel a = some p → heldWords a ws =
    (List.range (min ws.length (1048576 - p))).map (fun i => (a + 4 * i, 0xFFFFFFFF, ws.getD i 0)) := by
  induction ws with
  | nil => intro a p _; simp [heldWords]
  | cons v r ih =>
    intro a p h
    have hp := (shadowPixel_eq_some.1 h).1
    have hstep := shadowPixel_add h 1
    have hm : min (v :: r).length (1048576 - p) = min r.length (1048576 - (p + 1)) + 1 := by simp only [List.length_cons]; omega
    have hr : heldWords (a + 4) r =
        (List.range (min r.length (1048576 - (p + 1)))).map (fun i => (a + 4 + 4 * i, 0xFFFFFFFF, r.getD i 0)) := by
      by_cases hp1 : p + 1 < 1048576
      · exact ih (by simpa [hp1] using hstep)
      · have hz : min r.length (1048576 - (p + 1)) = 0 := by omega
        rw [hz]
        cases r with
        | nil => rfl
        | cons => simp [heldWords, show shadowPixel (a + 4) = none by simpa [hp1] using hstep]
    rw [hm, List.range_succ_eq_map]
    simp only [heldWords, h, hr, List.map_cons, List.map_map]
    refine congrArg₂ List.cons (by simp) (List.map_congr_left fun i _ => ?_)
    simp [Nat.mul_add, Nat.add_assoc, Nat.add_comm 4]

/-- No word of a block that begins in the shadow is one whose write follows the reply. -/
theorem landBlock_shadow (c : Ctx) (ws : List Word) : ∀ {a : Nat} (s : State), shadowBase ≤ a → landBlock c a ws s = s := by
  induction ws with
  | nil => intro a s _; rfl
  | cons v r ih =>
    intro a s ha
    have hb : shadowBase = 0x10000000 := rfl
    have hreg : regAt a = none := by
      unfold regAt
      rw [if_neg (by omega), if_neg (by omega), if_neg (by omega), if_neg (by omega), if_neg (by omega)]
    have hd : ∀ k, placeOf a = some k → deferred c k v = false := by
      intro k hk
      unfold placeOf at hk
      split at hk
      · cases hk; rfl
      · cases hk; rfl
      · cases hk; rfl
      · simp [hreg] at hk
    simp only [landBlock]
    split
    · next k hk => rw [hd k hk]; exact ih s (by omega)
    · exact ih s (by omega)

theorem writeBlock_held {dt : Nat} {c : Ctx} {addr : Word} {s : State} {p : Nat} {n : BitVec 8} {ws : List Word}
    (hp : shadowPixel (resolve s c addr.toNat) = some p) (hs : (s.elapse dt).staging = true)
    (hl : ws.length = n.toNat) (h1 : 1 ≤ n.toNat) (h60 : n.toNat ≤ 60)
    (h : Admitted c (.writeBlock s c (resolve s c addr.toNat) n ws
      ((List.range ws.length).any (fun i => crosses s c (resolve s c addr.toNat + 4 * i) true))) none (s.elapse dt)) :
    exec (.writeBlock dt c addr n ws) s =
      .next ((taken (receiver (s.elapse dt) c) c (s.elapse dt)).modPix (fun f => { f with
        held := f.held ++ [⟨⟨receiver (s.elapse dt) c, 0x05, c, (s.elapse dt).clock.ticks⟩,
          (List.range (min n.toNat (1048576 - p))).map (fun i => (resolve s c addr.toNat + 4 * i, 0xFFFFFFFF, ws.getD i 0)),
          BitVec.ofNat 32 (min n.toNat (1048576 - p)), false, decide (min n.toNat (1048576 - p) < n.toNat), false⟩] })) := by
  show execWriteBlock dt c addr n ws s = _
  unfold execWriteBlock
  have ht : ws.take n.toNat = ws := by rw [← hl]; exact List.take_length
  have hq := placeOf_eq_shadow.2 hp
  have hbase := (shadowPixel_eq_some.1 hp).2
  simp only [ht, forAddr_shadow hp]
  refine congrArg _ (commandThen_waits ?_ ?_ ?_ fun x t => landBlock_shadow c _ t (by omega))
  · simpa [hl, hq, h1, h60, param] using h
  · simp only [taken_staging, hs, hp, taken_clock, heldWords_eq ws hp, hl, List.length_map, List.length_range]
    rfl
  · refine List.any_eq_false.2 fun i _ => ?_
    have hside : sideOfAddr (resolve s c addr.toNat + 4 * i) = none := by
      have hb : shadowBase = 0x10000000 := rfl
      unfold sideOfAddr
      rw [if_neg (by omega), if_neg (by omega)]
    simp [crosses_of_no_side true hside]

/-- Settles O12: a shadow address lies in no side's range, so that the command neither crosses Welt nor has a part that follows its reply;
what its body makes of the shadow is all that it does. -/
theorem shadowWritesLandOrWait : Obligations.ShadowWritesLandOrWait := by
  refine ⟨fun p q w s _ _ => ⟨shadowWrite_lands p q w s, shadowWrite_only p w s⟩, ?_, ?_, ?_⟩
  · intro dt c addr value s p u x a d k hq hs h
    have hp := placeOf_eq_shadow.1 hq
    simp only [d, forAddr_shadow hp, k] at h ⊢
    exact writeReg_held hp hs h
  · intro dt c addr mask value bad s p u x a d k hq h
    have hp := placeOf_eq_shadow.1 hq
    simp only [d, forAddr_shadow hp, k] at h ⊢
    exact ⟨fun hs => modifyReg_held hp hs h, fun hs => modifyReg_lands hp hs h⟩
  · intro dt c addr n ws s p u x a d k m hq hs hl h1 h60 h
    have hp := placeOf_eq_shadow.1 hq
    simp only [d, forAddr_shadow hp, k] at h ⊢
    exact writeBlock_held hp hs hl h1 h60 h

end Sys2Proof.Machine
end

section
/-!
### Counters, tiles and digitizers
-/

namespace Sys2Proof.Machine

/-- A saturating counter after it has been raised (R12). -/
theorem State.rf_bump_self (s : State) (a n : Nat) {hi lo : Nat} (hh : hi < 32) (hl : lo ≤ hi) :
    (s.bump a hi lo n).rf a hi lo = min (s.rf a hi lo + n) (2 ^ (hi + 1 - lo) - 1) := by
  have hp : 0 < 2 ^ (hi + 1 - lo) := Nat.two_pow_pos _
  unfold State.bump
  rw [State.rf_wf_self _ _ hh hl]
  exact Nat.mod_eq_of_lt (by omega)

/-- A register of a tile's block lies in the tiles' blocks (R584). -/
theorem addrBlock_tile {t o : Nat} (ht : t < 64) (ho : o < 0x10000) : addrBlock (tileBase t + o) = 8 := by
  unfold addrBlock tileBase
  rw [if_neg (by omega), if_pos (by omega)]

theorem inBlocks_tile {t o : Nat} {l : List Nat} (ht : t < 64) (ho : o < 0x10000) (hl : 8 ∈ l) :
    inBlocks l (tileBase t + o) := by
  unfold inBlocks; rw [addrBlock_tile ht ho]; exact hl

theorem Only.rd {ps : List Part} {w : Nat → Prop} {s t : State} (h : Only ps w s t) {a : Nat} (ha : ¬ w a) : t.rd a = s.rd a :=
  (h.2 a ha).1

theorem Only.rf {ps : List Part} {w : Nat → Prop} {s t : State} (h : Only ps w s t) {a : Nat} (ha : ¬ w a) (hi lo : Nat) :
    t.rf a hi lo = s.rf a hi lo := by simp only [State.rf, h.rd ha]

theorem tally_bothOf (x : Side) : Part.tally x ∈ bothOf .tally := by cases x <;> decide

theorem Only.tallyAll {w : Nat → Prop} (s : State) (c : Tally) (n : Nat) : Only (bothOf .tally) w s (s.tallyAll c n) := by
  refine Only.both (fun x t => ?_) (Only.refl _ _ s)
  split
  · exact Only.tally t x c n (tally_bothOf x)
  · exact Only.refl _ _ t

/-! Tiles -/

theorem Only.modTile {ps : List Part} {w : Nat → Prop} (s : State) (i : Nat) (f : Tile → Tile) (h : .tiles ∈ ps) :
    Only ps w s (s.modTile i f) := Only.setTiles s _ h

theorem State.tile_modTile (s : State) (i : Nat) (f : Tile → Tile) (j : Nat) :
    (s.modTile i f).tile j = if j = i then f (s.tile i) else s.tile j := Sparse.get_upd _ _ _ _ _

theorem Only.tile {ps : List Part} {w : Nat → Prop} {s t : State} (h : Only ps w s t) (k : .tiles ∉ ps) (i : Nat) :
    t.tile i = s.tile i := by simp only [State.tile, show t.tiles = s.tiles from h.1 .tiles k]

/-! Digitizers -/

theorem Only.modDigi {ps : List Part} {w : Nat → Prop} (s : State) (d : Nat) (f : Digi → Digi) (h : .tdc ∈ ps) :
    Only ps w s (s.modDigi d f) := Only.setTdc s _ h

theorem State.digi_modDigi (s : State) (d : Nat) (f : Digi → Digi) (e : Nat) :
    (s.modDigi d f).digi e = if e = d then f (s.digi d) else s.digi e := Sparse.get_upd _ _ _ _ _

@[simp] theorem State.digi_modDigi_self (s : State) (d : Nat) (f : Digi → Digi) : (s.modDigi d f).digi d = f (s.digi d) := by
  rw [State.digi_modDigi, if_pos rfl]

theorem State.digi_modDigi_ne (s : State) {d e : Nat} (f : Digi → Digi) (h : e ≠ d) : (s.modDigi d f).digi e = s.digi e := by
  rw [State.digi_modDigi, if_neg h]

theorem Only.digi {ps : List Part} {w : Nat → Prop} {s t : State} (h : Only ps w s t) (k : .tdc ∉ ps) (d : Nat) :
    t.digi d = s.digi d := by simp only [State.digi, show t.tdc = s.tdc from h.1 .tdc k]

/-- The tile of a pixel's digitizer is the pixel's. -/
theorem digiTile_pixSuper (p : Nat) : digiTile (pixSuper p) = pixTile p := by
  have : localSuper (pixLocal p) < 1024 := by simp only [localSuper, pixLocal]; omega
  unfold digiTile pixSuper; omega

end Sys2Proof.Machine
end

section
/-!
### The digitizer's own steps (R90–R101)
-/

namespace Sys2Proof.Machine

/-- A digitizer whose open cluster, if it has one, closes at a tick (R96, R100). -/
def Digi.closedAt (g : Digi) (t : Time) : Digi :=
  match g.cluster with
  | some c => { g with
      phase := .dead
      cluster := none
      waiting := g.waiting ++ [{ c with closed := some t }]
      readyAt := (if reached t c.last then t else c.last) + 60 }
  | none => g

/-- A digitizer whose open cluster is closed if its window is over (R96). -/
def Digi.closedIfOver (g : Digi) (now : Time) : Digi :=
  match g.cluster with
  | some c => if reached now c.windowEnd then g.closedAt c.windowEnd else g
  | none => g

theorem closeCluster_eq (d : Nat) (t : Time) (s : State) : closeCluster d t s = s.modDigi d (·.closedAt t) := by
  refine congrArg (s.modDigi d) (funext fun g => ?_)
  unfold Digi.closedAt
  rfl

theorem closeCluster_only (d : Nat) (t : Time) (s : State) : Only [.tdc] noReg s (closeCluster d t s) := by
  rw [closeCluster_eq]; exact Only.modDigi s d _ (by decide)

theorem closeIfOver_only (d : Nat) (s : State) : Only [.tdc] noReg s (closeIfOver d s) := by
  unfold closeIfOver; split
  · split
    · exact closeCluster_only d _ s
    · exact Only.refl _ _ s
  · exact Only.refl _ _ s

theorem closeIfOver_digi (d e : Nat) (s : State) :
    (closeIfOver d s).digi e = if e = d then (s.digi d).closedIfOver s.now else s.digi e := by
  have hself : (if e = d then s.digi d else s.digi e) = s.digi e := by
    split
    · next he => rw [he]
    · rfl
  unfold closeIfOver Digi.closedIfOver
  cases hc : (s.digi d).cluster with
  | none => exact hself.symm
  | some c =>
    by_cases hr : reached s.now c.windowEnd = true
    · simp only [hr, ↓reduceIte, closeCluster_eq, State.digi_modDigi]
    · simp only [hr, Bool.false_eq_true, ↓reduceIte, hself]

/-- A cluster whose last stop is now closes now, and the dead time runs from now (R95, R100). -/
theorem closedAt_now {g : Digi} {c : Cluster} {t : Time} (h : g.cluster = some c) (hl : c.last = t) :
    g.closedAt t = { g with
      phase := .dead
      cluster := none
      waiting := g.waiting ++ [{ c with closed := some t }]
      readyAt := t + 60 } := by
  subst hl
  unfold Digi.closedAt
  rw [h]
  simp

/-- A register that a conversion or a stop counts in (R90, R97). -/
def stopRegs (i a : Nat) : Prop := a = Reg.TDC_OVERRANGE i ∨ a = Reg.TDC_COARSE_STOPS i

/-- What the end of a conversion leaves: the digitizer differs in its conversion at most, and an overrange may be counted. -/
theorem endConversion_spec (d : Nat) (s : State) :
    Only [.tdc] (stopRegs (digiTile d)) s (endConversion d s) ∧ (∀ e, e ≠ d → (endConversion d s).digi e = s.digi e) ∧
      ∃ k, (endConversion d s).digi d = { s.digi d with conv := k } := by
  have hrefl : Only [.tdc] (stopRegs (digiTile d)) s s ∧ (∀ e, e ≠ d → s.digi e = s.digi e) ∧
      ∃ k, s.digi d = { s.digi d with conv := k } := ⟨Only.refl _ _ s, fun _ _ => rfl, _, rfl⟩
  have hmod : Only [.tdc] (stopRegs (digiTile d)) s (s.modDigi d fun g => { g with conv := none }) :=
    Only.modDigi s d _ (by decide)
  unfold endConversion
  split
  · split
    · extract_lets s1
      split
      · have hb : Only [] (stopRegs (digiTile d)) s1 (s1.bump (Reg.TDC_OVERRANGE (digiTile d)) 31 0 1) :=
          Only.bump s1 _ _ _ _ (.inl rfl)
        refine ⟨hmod.trans (hb.mono (by simp) fun _ => id), fun e he => ?_, none, ?_⟩
        · rw [hb.digi (by simp), State.digi_modDigi_ne s _ he]
        · rw [hb.digi (by simp), State.digi_modDigi_self]
      · exact ⟨hmod, fun e he => State.digi_modDigi_ne s _ he, none, State.digi_modDigi_self s d _⟩
    · exact hrefl
  · exact hrefl

/-- The fine time of a stop (R92, R97, R130): its own where the pair is free, else the middle of the tick. -/
def Digi.stopTime (g : Digi) (now : Time) (fu n : Nat) (ovr : Bool) : Nat :=
  if g.conv.all (fun k => k.over now fu) then g.fine (codeOf n ovr) else if g.coarse then 0 else 512

theorem stopFine_eq (d fu n : Nat) (ovr : Bool) (s : State) : stopFine d fu n ovr s =
    if (s.digi d).conv.all (fun k => k.over s.now fu) then
      ((s.digi d).fine (codeOf n ovr), (endConversion d s).modDigi d (fun g => { g with conv := some (convOf s.now fu n ovr none) }))
    else (if (s.digi d).coarse then 0 else 512, s.bump (Reg.TDC_COARSE_STOPS (digiTile d)) 31 0 1) := by
  unfold stopFine; cases h : (s.digi d).conv <;> simp [h]

theorem stopFine_spec (d fu n : Nat) (ovr : Bool) (s : State) :
    (stopFine d fu n ovr s).1 = (s.digi d).stopTime s.now fu n ovr ∧
      Only [.tdc] (stopRegs (digiTile d)) s (stopFine d fu n ovr s).2 ∧
      (∀ e, e ≠ d → (stopFine d fu n ovr s).2.digi e = s.digi e) ∧
      ∃ k, (stopFine d fu n ovr s).2.digi d = { s.digi d with conv := k } := by
  obtain ⟨ho, hne, k, hk⟩ := endConversion_spec d s
  have hb : Only [] (stopRegs (digiTile d)) s (s.bump (Reg.TDC_COARSE_STOPS (digiTile d)) 31 0 1) :=
    Only.bump s _ _ _ _ (.inr rfl)
  rw [stopFine_eq, Digi.stopTime]
  split
  · refine ⟨rfl, ho.trans (Only.modDigi _ d _ (by simp)), fun e he => ?_, some (convOf s.now fu n ovr none), ?_⟩
    · exact (State.digi_modDigi_ne _ _ he).trans (hne e he)
    · rw [State.digi_modDigi_self, hk]
  · exact ⟨rfl, hb.mono (by simp) fun _ => id, fun e _ => hb.digi (by simp) e, _, (hb.digi (by simp) d).trans rfl⟩

end Sys2Proof.Machine
end

section
/-!
### The edges of a pixel (R37, R71, R75, R92–R104, R185)
-/

namespace Sys2Proof.Machine

/-- The parts that a pixel's leading edge may change. -/
abbrev edgeParts : List Part := [.pix, .tdc, .tiles] ++ bothOf .tally

/-- An edge taken by digitizer d: it changes that digitizer alone, of which the real edges and the codes stay. -/
structure EdgeTakes (d : Nat) (v t : State) : Prop where
  only : Only edgeParts (inBlocks [8]) v t
  reals : (t.digi d).reals = (v.digi d).reals
  codes : (t.digi d).codes = (v.digi d).codes
  others : ∀ e, e ≠ d → t.digi e = v.digi e

theorem EdgeTakes.refl (d : Nat) (v : State) : EdgeTakes d v v := ⟨Only.refl _ _ v, rfl, rfl, fun _ _ => rfl⟩

theorem EdgeTakes.trans {d : Nat} {s u t : State} (h : EdgeTakes d s u) (k : EdgeTakes d u t) : EdgeTakes d s t :=
  ⟨h.only.trans k.only, k.reals.trans h.reals, k.codes.trans h.codes, fun e he => (k.others e he).trans (h.others e he)⟩

theorem EdgeTakes.modDigi {d : Nat} {f : Digi → Digi} (v : State) (hr : ∀ g, (f g).reals = g.reals) (hc : ∀ g, (f g).codes = g.codes) :
    EdgeTakes d v (v.modDigi d f) :=
  ⟨Only.modDigi v d f (by simp), by rw [State.digi_modDigi_self, hr], by rw [State.digi_modDigi_self, hc],
    fun _ he => State.digi_modDigi_ne v f he⟩

/-- What changes no digitizer. -/
theorem EdgeTakes.of_only {d : Nat} {v t : State} {ps : List Part} (h : Only ps (inBlocks [8]) v t) (hps : ∀ p ∈ ps, p ∈ edgeParts)
    (hd : .tdc ∉ ps) : EdgeTakes d v t :=
  ⟨h.mono hps fun _ => id, by rw [h.digi hd], by rw [h.digi hd], fun e _ => h.digi hd e⟩

theorem stopRegs_inBlocks {i a : Nat} (hi : i < 64) (h : stopRegs i a) : inBlocks [8] a := by
  obtain rfl | rfl := h <;> exact inBlocks_tile hi (by omega) (by simp)

/-- What keeps a digitizer but for its conversion. -/
theorem EdgeTakes.of_conv {d : Nat} {v t : State} (hi : digiTile d < 64) (h : Only [.tdc] (stopRegs (digiTile d)) v t)
    (ho : ∀ e, e ≠ d → t.digi e = v.digi e) {k : Option Conv} (hk : t.digi d = { v.digi d with conv := k }) : EdgeTakes d v t :=
  ⟨h.mono (by simp) fun _ => stopRegs_inBlocks hi, by rw [hk], by rw [hk], ho⟩

/-- A pixel's tile counts one edge more in a register of its block. -/
theorem bump_edgeTakes (d : Nat) {i o : Nat} (v : State) (hi : i < 64) (ho : o < 0x10000) :
    EdgeTakes d v (v.bump (tileBase i + o) 31 0 1) :=
  EdgeTakes.of_only (Only.bump (ps := []) v _ _ _ _ (inBlocks_tile hi ho (by simp))) (by simp) (by simp)

/-! A start (R93, R103, R104) -/

theorem startCluster_spec {d : Nat} (p fu n : Nat) (ovr : Bool) (inj : Nat) (v : State) (hi : digiTile d < 64) :
    EdgeTakes d v (startCluster d p fu n ovr inj v) ∧ ((startCluster d p fu n ovr inj v).digi d).phase = .cluster ∧
      ((startCluster d p fu n ovr inj v).digi d).conv = some (convOf v.now fu n ovr none) ∧
      ((startCluster d p fu n ovr inj v).digi d).cluster = some ⟨pixLocal p, v.now, (v.digi d).fine (codeOf n ovr), [], none, 0, v.now,
        [pulseNow v p inj], max 4 (v.rf (Reg.TDC_CTRL (digiTile d)) 7 0), none⟩ := by
  obtain ⟨ho, hne, k, hk⟩ := endConversion_spec d v
  have he : EdgeTakes d v (endConversion d v) := EdgeTakes.of_conv hi ho hne hk
  unfold startCluster
  refine ⟨he.trans (EdgeTakes.modDigi _ (fun _ => rfl) fun _ => rfl), ?_⟩
  rw [State.digi_modDigi_self, hk]
  exact ⟨rfl, rfl, rfl⟩

theorem touchTile_edgeTakes (d i : Nat) (v : State) : EdgeTakes d v (touchTile i v) :=
  EdgeTakes.of_only (Only.modTile (ps := [.tiles]) v i _ (by simp)) (by simp) (by simp)

/-! An edge refused under BUSY (R185) -/

theorem busyEdge_spec {i : Nat} (d : Nat) (v : State) (hi : i < 64) :
    EdgeTakes d v (busyEdge i v) ∧ (busyEdge i v).digi d = v.digi d ∧
      ((v.tile i).inRun v.now = true → (busyEdge i v).rf (Reg.TIL_BUSY_LOSS i) 31 0 =
          min (v.rf (Reg.TIL_BUSY_LOSS i) 31 0 + 1) 4294967295 ∧
        ((busyEdge i v).tile i).refused = (v.tile i).refused + 1) := by
  have hr : inBlocks [8] (Reg.TIL_BUSY_LOSS i) := inBlocks_tile hi (by omega) (by simp)
  unfold busyEdge
  extract_lets k
  split
  · have hb : Only [] (inBlocks [8]) v (v.bump (Reg.TIL_BUSY_LOSS i) 31 0 1) := Only.bump v _ _ _ _ hr
    have hc : Only (bothOf .tally) noReg (v.bump (Reg.TIL_BUSY_LOSS i) 31 0 1)
        ((v.bump (Reg.TIL_BUSY_LOSS i) 31 0 1).tallyAll .busyEdge 1) := Only.tallyAll _ _ _
    have hbc : Only (bothOf .tally) (inBlocks [8]) v ((v.bump (Reg.TIL_BUSY_LOSS i) 31 0 1).tallyAll .busyEdge 1) :=
      (hb.mono (by simp) fun _ => id).trans (hc.mono (fun _ => id) fun _ => False.elim)
    have he : EdgeTakes d v _ := EdgeTakes.of_only hbc (fun p hp => by simp [hp]) (by decide)
    refine ⟨he.trans (EdgeTakes.of_only (Only.modTile (ps := [.tiles]) _ i _ (by simp)) (by simp) (by simp)),
      hbc.digi (by decide) d, fun _ => ⟨?_, ?_⟩⟩
    · exact (hc.rf (by simp [noReg]) 31 0).trans (State.rf_bump_self v _ _ (by omega) (by omega))
    · rw [State.tile_modTile, if_pos rfl, hbc.tile (by decide)]
  · next h => exact ⟨EdgeTakes.refl d v, rfl, fun hin => absurd hin h⟩

/-! A stop (R94–R97) -/

/-- A cluster with a stop of a pixel added, and the pixel's pulse (R94, R95). -/
def Cluster.stopped (c : Cluster) (lp : Nat) (now : Time) (fine : Nat) (q : Pulse) : Cluster :=
  { c with
    stops := c.stops ++ [⟨localQ lp, now, fine⟩]
    taken := c.taken + 1
    last := now
    pulses := c.pulses ++ [q] }

/-- A digitizer that holds a cluster as it stands at its last stop: open, or closed when that was the fourth (R95, R96, R100). -/
def HoldsStopped (g : Digi) (now : Time) (c : Cluster) (h : Digi) : Prop :=
  (c.taken ≠ 4 → h.cluster = some c) ∧
  (c.taken = 4 → h.cluster = none ∧ h.phase = .dead ∧ h.readyAt = now + 60 ∧
    h.waiting = g.waiting ++ [{ c with closed := some now }])

/-- A digitizer that takes a stop: its cluster as it then stands, closed when the stop was the fourth. -/
def takeStop (d : Nat) (c : Cluster) (now : Time) (s : State) : State :=
  let s1 := s.modDigi d (fun g => { g with cluster := some c })
  if c.taken = 4 then closeCluster d now s1 else s1

theorem takeStop_only (d : Nat) (c : Cluster) (now : Time) (s : State) : Only [.tdc] noReg s (takeStop d c now s) := by
  have h1 : Only [.tdc] noReg s (s.modDigi d fun g => { g with cluster := some c }) := Only.modDigi s d _ (by simp)
  unfold takeStop
  split
  · exact h1.trans (closeCluster_only d now _)
  · exact h1

theorem takeStop_others {d e : Nat} (c : Cluster) (now : Time) (s : State) (he : e ≠ d) : (takeStop d c now s).digi e = s.digi e := by
  unfold takeStop
  split
  · rw [closeCluster_eq, State.digi_modDigi_ne _ _ he, State.digi_modDigi_ne _ _ he]
  · rw [State.digi_modDigi_ne _ _ he]

theorem takeStop_digi {d : Nat} {c : Cluster} {now : Time} (s : State) (hl : c.last = now) :
    ((takeStop d c now s).digi d).reals = (s.digi d).reals ∧ ((takeStop d c now s).digi d).codes = (s.digi d).codes ∧
      HoldsStopped (s.digi d) now c ((takeStop d c now s).digi d) := by
  unfold takeStop HoldsStopped
  split
  · next h4 =>
    rw [closeCluster_eq, State.digi_modDigi_self, State.digi_modDigi_self, closedAt_now (c := c) rfl hl]
    exact ⟨rfl, rfl, fun h => absurd h4 h, fun _ => ⟨rfl, rfl, rfl, rfl⟩⟩
  · next h4 =>
    rw [State.digi_modDigi_self]
    exact ⟨rfl, rfl, fun _ => rfl, fun h => absurd h h4⟩

/-- A stop timed and taken. -/
theorem takeStop_stopFine {d fu n : Nat} {ovr : Bool} {c : Cluster} {now : Time} (v : State) (hi : digiTile d < 64) (hl : c.last = now) :
    EdgeTakes d v (takeStop d c now (stopFine d fu n ovr v).2) ∧
      HoldsStopped (v.digi d) now c ((takeStop d c now (stopFine d fu n ovr v).2).digi d) := by
  obtain ⟨-, ho, hne, k, hk⟩ := stopFine_spec d fu n ovr v
  obtain ⟨hr, hc, hs⟩ := takeStop_digi (d := d) (stopFine d fu n ovr v).2 hl
  refine ⟨(EdgeTakes.of_conv hi ho hne hk).trans ⟨?_, hr, hc, fun e he => takeStop_others c now _ he⟩, ?_⟩
  · exact (takeStop_only d c now _).mono (by simp) fun _ => False.elim
  · rw [hk] at hs; exact hs

theorem clusterEdge_repeated {d p : Nat} (fu n : Nat) (ovr : Bool) (inj : Nat) {c : Cluster} (v : State)
    (h : c.pulses.any (fun q => q.lp = pixLocal p) = true) :
    clusterEdge d p fu n ovr inj c v = v.bump (Reg.TDC_DEAD (digiTile d)) 31 0 1 := by
  unfold clusterEdge; simp [h]

theorem clusterEdge_stop {d p : Nat} (fu n : Nat) (ovr : Bool) (inj : Nat) {c : Cluster} (v : State)
    (h : c.pulses.any (fun q => q.lp = pixLocal p) = false) :
    clusterEdge d p fu n ovr inj c v = takeStop d
      (c.stopped (pixLocal p) v.now ((v.digi d).stopTime v.now fu n ovr) (pulseNow v p inj)) v.now (stopFine d fu n ovr v).2 := by
  unfold clusterEdge
  simp only [h, ← (stopFine_spec d fu n ovr v).1]
  rfl

end Sys2Proof.Machine
end

section
/-!
### A pixel's leading edge taken by its digitizer (R37, R75, R110, R197)
-/

namespace Sys2Proof.Machine

theorem scanHit_only (p : Nat) (s : State) : Only [.pix] noReg s (scanHit p s) := by
  unfold scanHit
  split
  · split
    · split
      · exact Only.modPix s _ (by simp)
      · exact Only.refl _ _ s
    · exact Only.refl _ _ s
  · exact Only.refl _ _ s

theorem scanHit_latches (p : Nat) (s : State) : (scanHit p s).pix.latches = s.pix.latches := by
  unfold scanHit
  split
  · split
    · split
      · simp only [State.modPix_pix]
      · rfl
    · rfl
  · rfl

/-- The state after an edge that fires has been noted in its tile and met its digitizer: a window that is over has closed its cluster, and
the edge is the digitizer's real edge (R96, R110, R197). -/
def edgeTaken (p : Nat) (u : State) : State :=
  (closeIfOver (pixSuper p) (if u.pixelOn p then noteFired (pixTile p) (pixLocal p) (scanHit p u) else scanHit p u)).modDigi
    (pixSuper p) (·.real u.clock.ticks)

theorem noteFired_tile (t lp : Nat) (s : State) : ∃ b, (noteFired t lp s).tile t = { s.tile t with bins := b } :=
  ⟨_, (State.tile_modTile s t _ t).trans (if_pos rfl)⟩

/-- What an edge notes of its firing in its tile: the bins. -/
theorem firedNoted_spec (p : Nat) (u : State) :
    let v := if u.pixelOn p then noteFired (pixTile p) (pixLocal p) (scanHit p u) else scanHit p u
    Only [.pix, .tiles] noReg u v ∧ v.pix.latches = u.pix.latches ∧
      ∃ b, v.tile (pixTile p) = { u.tile (pixTile p) with bins := b } := by
  have h := scanHit_only p u
  have ht := h.tile (by simp) (pixTile p)
  intro v
  simp only [v]
  split
  · have hn : Only [.tiles] noReg (scanHit p u) (noteFired (pixTile p) (pixLocal p) (scanHit p u)) := Only.modTile _ _ _ (by simp)
    obtain ⟨b, hb⟩ := noteFired_tile (pixTile p) (pixLocal p) (scanHit p u)
    refine ⟨(h.mono (by simp) fun _ => id).trans (hn.mono (by simp) fun _ => id), ?_, b, ?_⟩
    · rw [show (noteFired _ _ _).pix = _ from hn.1 .pix (by simp), scanHit_latches]
    · rw [hb, ht]
  · exact ⟨h.mono (by simp) fun _ => id, scanHit_latches p u, _, ht⟩

theorem edgeTaken_only (p : Nat) (u : State) : Only [.pix, .tdc, .tiles] noReg u (edgeTaken p u) := by
  obtain ⟨h, -, -⟩ := firedNoted_spec p u
  refine (h.mono (by simp) fun _ => id).trans ?_
  exact ((closeIfOver_only (pixSuper p) _).trans (Only.modDigi _ _ _ (by simp))).mono (by simp) fun _ => id

theorem edgeTaken_latches (p : Nat) (u : State) : (edgeTaken p u).pix.latches = u.pix.latches := by
  obtain ⟨-, h, -⟩ := firedNoted_spec p u
  have hc := closeIfOver_only (pixSuper p) (if u.pixelOn p then noteFired (pixTile p) (pixLocal p) (scanHit p u) else scanHit p u)
  exact (congrArg Pix.latches (hc.1 .pix (by simp))).trans h

theorem edgeTaken_tile (p : Nat) (u : State) : ∃ b, (edgeTaken p u).tile (pixTile p) = { u.tile (pixTile p) with bins := b } := by
  obtain ⟨-, -, b, hb⟩ := firedNoted_spec p u
  have hc := closeIfOver_only (pixSuper p) (if u.pixelOn p then noteFired (pixTile p) (pixLocal p) (scanHit p u) else scanHit p u)
  exact ⟨b, (hc.tile (by simp) _).trans hb⟩

theorem edgeTaken_digi (p : Nat) (u : State) :
    (edgeTaken p u).digi (pixSuper p) = ((closeIfOver (pixSuper p) u).digi (pixSuper p)).real u.clock.ticks := by
  obtain ⟨h, -, -⟩ := firedNoted_spec p u
  rw [edgeTaken, State.digi_modDigi_self, closeIfOver_digi, closeIfOver_digi, if_pos rfl, if_pos rfl, h.digi (by simp),
    h.now (by simp)]

theorem edgeTaken_others {p e : Nat} (u : State) (he : e ≠ pixSuper p) : (edgeTaken p u).digi e = u.digi e := by
  obtain ⟨h, -, -⟩ := firedNoted_spec p u
  rw [edgeTaken, State.digi_modDigi_ne _ _ he, closeIfOver_digi, if_neg he, h.digi (by simp)]

/-- The pulse of the edge has the configuration and polarity of the moment (R54). -/
theorem edgeTaken_pulse (p inj : Nat) (u : State) :
    pulseNow (edgeTaken p u) p inj = ⟨pixLocal p, u.now, u.pixelConfig p, u.holes, inj, none, 0⟩ := by
  have h := edgeTaken_only p u
  have hb : (edgeTaken p u).bg = u.bg := h.1 .bg (by simp)
  have hh : (edgeTaken p u).holes = u.holes := by simp only [State.holes, State.rb, h.rd (a := Reg.PIX_MODE_APPLIED) (by simp [noReg])]
  unfold pulseNow
  rw [h.now (by simp), hh]
  simp only [State.pixelConfig, State.pixelRetired, edgeTaken_latches, hb]
  rfl

theorem real_codes (g : Digi) (tick : Nat) : ∀ k ∈ (g.real tick).codes, nearReal [tick] k.1 = false := by
  intro k hk
  simpa using (List.mem_filter.1 hk).2

/-- A calibration conversion abandoned ends when it would have. -/
theorem real_stopTime (g : Digi) (tick : Nat) (now : Time) (fu n : Nat) (ovr : Bool) :
    (g.real tick).stopTime now fu n ovr = g.stopTime now fu n ovr := by
  have hc : (g.real tick).conv.all (fun k => k.over now fu) = g.conv.all (fun k => k.over now fu) := by
    cases h : g.conv with
    | none => simp [Digi.real, h]
    | some k => simp only [Digi.real, h, Option.map_some, Option.all_some]; split <;> rfl
  unfold Digi.stopTime
  rw [hc]
  rfl

/-- What a digitizer makes of a leading edge that it has taken. -/
def edgeDecided (p fu n : Nat) (ovr : Bool) (inj : Nat) (busy : Bool) (v : State) : State :=
  let g := v.digi (pixSuper p)
  if g.phase = .ready || g.phase = .cal then
    if busy then busyEdge (pixTile p) v else touchTile (pixTile p) (startCluster (pixSuper p) p fu n ovr inj v)
  else
    match g.cluster with
    | some c => clusterEdge (pixSuper p) p fu n ovr inj c v
    | none =>
      if fifthStop g (pixLocal p) v.now then v.bump (Reg.TDC_STOP_OVF (pixTile p)) 31 0 1
      else v.bump (Reg.TDC_DEAD (pixTile p)) 31 0 1

theorem exec_leadingEdge {p : Fin 1048576} {fu : Fin 1024} {n : Fin 64} {ovr : Bool} {charge : Int} {awl : Bool} {dt : Nat} {s : State}
    (hm : (s.elapse dt).power.mode = .active)
    (hf : edgeFires (s.elapse dt) p (collected (s.elapse dt) charge + if awl then awlPart (s.elapse dt) p else 0) = true)
    (ht : (s.elapse dt).frameTile (pixTile p) = false) :
    exec (.pixelLeadingEdge dt p fu n ovr charge awl) s = .next (edgeDecided p fu n ovr (if awl then awlPart (s.elapse dt) p else 0)
      (((s.elapse dt).tile (pixTile p)).busy (s.elapse dt).clock.ticks) (edgeTaken p (s.elapse dt))) := by
  show execPixelLeadingEdge dt p fu n ovr charge awl s = _
  have hn : (edgeTaken p (s.elapse dt)).now = (s.elapse dt).now := (edgeTaken_only p _).now (by simp)
  unfold execPixelLeadingEdge edgeDecided
  simp only [hm, hf, ht, hn, ne_eq, not_true_eq_false, decide_false, Bool.not_true, Bool.or_self, Bool.false_eq_true, ↓reduceIte]
  generalize hv : edgeTaken p (s.elapse dt) = v
  unfold edgeTaken at hv
  rw [hv]
  split
  · split <;> rfl
  · cases (v.digi (pixSuper p)).cluster with
    | some c => rfl
    | none => dsimp only; split <;> rfl

section
variable {p fu n inj : Nat} {ovr busy : Bool} {v : State}

theorem edgeDecided_ready (h : (v.digi (pixSuper p)).phase = .ready ∨ (v.digi (pixSuper p)).phase = .cal) :
    edgeDecided p fu n ovr inj busy v = if busy then busyEdge (pixTile p) v
      else touchTile (pixTile p) (startCluster (pixSuper p) p fu n ovr inj v) := by
  unfold edgeDecided
  obtain h | h := h <;> simp [h]

theorem edgeDecided_cluster (h : (v.digi (pixSuper p)).phase = .cluster ∨ (v.digi (pixSuper p)).phase = .dead) {c : Cluster}
    (hc : (v.digi (pixSuper p)).cluster = some c) :
    edgeDecided p fu n ovr inj busy v = clusterEdge (pixSuper p) p fu n ovr inj c v := by
  unfold edgeDecided
  obtain h | h := h <;> simp [h, hc]

theorem edgeDecided_dead (h : (v.digi (pixSuper p)).phase = .cluster ∨ (v.digi (pixSuper p)).phase = .dead)
    (hc : (v.digi (pixSuper p)).cluster = none) :
    edgeDecided p fu n ovr inj busy v = if fifthStop (v.digi (pixSuper p)) (pixLocal p) v.now then
        v.bump (Reg.TDC_STOP_OVF (pixTile p)) 31 0 1
      else v.bump (Reg.TDC_DEAD (pixTile p)) 31 0 1 := by
  unfold edgeDecided
  obtain h | h := h <;> simp [h, hc]

theorem clusterEdge_takes (c : Cluster) (v : State) (hp : p < 1048576) :
    EdgeTakes (pixSuper p) v (clusterEdge (pixSuper p) p fu n ovr inj c v) := by
  have hd : digiTile (pixSuper p) < 64 := by rw [digiTile_pixSuper]; exact pixTile_lt hp
  cases h : c.pulses.any (fun q => q.lp = pixLocal p) with
  | true => rw [clusterEdge_repeated fu n ovr inj v h]; exact bump_edgeTakes _ v hd (by omega)
  | false => rw [clusterEdge_stop fu n ovr inj v h]; exact (takeStop_stopFine v hd rfl).1

theorem edgeDecided_takes (hp : p < 1048576) : EdgeTakes (pixSuper p) v (edgeDecided p fu n ovr inj busy v) := by
  have ht : pixTile p < 64 := pixTile_lt hp
  have hd : digiTile (pixSuper p) < 64 := by rw [digiTile_pixSuper]; exact ht
  have hready (h : (v.digi (pixSuper p)).phase = .ready ∨ (v.digi (pixSuper p)).phase = .cal) :
      EdgeTakes (pixSuper p) v (edgeDecided p fu n ovr inj busy v) := by
    rw [edgeDecided_ready h]
    split
    · exact (busyEdge_spec _ v ht).1
    · exact (startCluster_spec p fu n ovr inj v hd).1.trans (touchTile_edgeTakes _ _ _)
  have hother (h : (v.digi (pixSuper p)).phase = .cluster ∨ (v.digi (pixSuper p)).phase = .dead) :
      EdgeTakes (pixSuper p) v (edgeDecided p fu n ovr inj busy v) := by
    cases hc : (v.digi (pixSuper p)).cluster with
    | some c => rw [edgeDecided_cluster h hc]; exact clusterEdge_takes c v hp
    | none =>
      rw [edgeDecided_dead h hc]
      split
      · exact bump_edgeTakes _ v ht (by omega)
      · exact bump_edgeTakes _ v ht (by omega)
  cases h : (v.digi (pixSuper p)).phase with
  | ready => exact hready (.inl h)
  | cal => exact hready (.inr h)
  | cluster => exact hother (.inl h)
  | dead => exact hother (.inr h)

end

end Sys2Proof.Machine
end

section
/-!
### What a pixel's leading edge leaves (R37, R92–R104, R185)
-/

namespace Sys2Proof.Machine

theorem State.digi_bump (s : State) (a hi lo n d : Nat) : (s.bump a hi lo n).digi d = s.digi d := rfl

section
variable {p fu n inj : Nat} {ovr : Bool} {u : State} {g : Digi}

/-- An edge at a ready digitizer of a tile that is not busy starts a cluster (R93, R103, R104). -/
theorem edgeDecided_starts (hp : p < 1048576) (hg : (edgeTaken p u).digi (pixSuper p) = g.real u.clock.ticks)
    (hr : g.phase = .ready ∨ g.phase = .cal) :
    let t := edgeDecided p fu n ovr inj false (edgeTaken p u)
    (t.digi (pixSuper p)).phase = .cluster ∧ (t.digi (pixSuper p)).conv = some (convOf u.now fu n ovr none) ∧
      (t.tile (pixTile p)).lastAct = u.clock.ticks ∧
      (t.digi (pixSuper p)).cluster = some ⟨pixLocal p, u.now, g.fine (codeOf n ovr), [], none, 0, u.now,
        [⟨pixLocal p, u.now, u.pixelConfig p, u.holes, inj, none, 0⟩], max 4 (u.rf (Reg.TDC_CTRL (pixTile p)) 7 0), none⟩ := by
  have hv := edgeTaken_only p u
  have hd : digiTile (pixSuper p) < 64 := by rw [digiTile_pixSuper]; exact pixTile_lt hp
  obtain ⟨hs, hph, hcv, hcl⟩ := startCluster_spec p fu n ovr inj (edgeTaken p u) hd
  have ht : (startCluster (pixSuper p) p fu n ovr inj (edgeTaken p u)).clock = u.clock :=
    (hs.only.1 .clock (by decide)).trans (hv.1 .clock (by decide))
  intro t
  have htouch : t.digi (pixSuper p) = (startCluster (pixSuper p) p fu n ovr inj (edgeTaken p u)).digi (pixSuper p) := by
    simp only [t]
    rw [edgeDecided_ready (by rw [hg]; exact hr)]
    rfl
  rw [htouch, hph, hcv, hcl, hv.now (by decide), edgeTaken_pulse, hv.rf (by simp [noReg]), digiTile_pixSuper, hg]
  refine ⟨rfl, rfl, ?_, rfl⟩
  simp only [t]
  rw [edgeDecided_ready (by rw [hg]; exact hr)]
  simp only [Bool.false_eq_true, ↓reduceIte, touchTile, State.tile_modTile, ht]

/-- An edge at a ready digitizer of a busy tile is refused, and counted in its run (R185). -/
theorem edgeDecided_refused (hp : p < 1048576) (hg : (edgeTaken p u).digi (pixSuper p) = g.real u.clock.ticks)
    (hr : g.phase = .ready ∨ g.phase = .cal) :
    let t := edgeDecided p fu n ovr inj true (edgeTaken p u)
    (t.digi (pixSuper p)).cluster = g.cluster ∧ (t.digi (pixSuper p)).phase = g.phase ∧
      ((u.tile (pixTile p)).inRun u.now = true →
        t.rf (Reg.TIL_BUSY_LOSS (pixTile p)) 31 0 = min (u.rf (Reg.TIL_BUSY_LOSS (pixTile p)) 31 0 + 1) 4294967295 ∧
        (t.tile (pixTile p)).refused = (u.tile (pixTile p)).refused + 1) := by
  have hv := edgeTaken_only p u
  obtain ⟨-, hbd, hbc⟩ := busyEdge_spec (pixSuper p) (edgeTaken p u) (pixTile_lt hp)
  obtain ⟨b, hb⟩ := edgeTaken_tile p u
  intro t
  have ht : t = busyEdge (pixTile p) (edgeTaken p u) := edgeDecided_ready (by rw [hg]; exact hr)
  rw [hb, hv.now (by decide), hv.rf (by simp [noReg])] at hbc
  rw [ht, hbd, hg]
  exact ⟨rfl, rfl, hbc⟩

/-- An edge of a pixel that the open cluster holds already falls into the dead time of that pixel (R94, R102). -/
theorem edgeDecided_repeated (busy : Bool) (hg : (edgeTaken p u).digi (pixSuper p) = g.real u.clock.ticks)
    (hr : g.phase = .cluster ∨ g.phase = .dead) {c : Cluster} (hc : g.cluster = some c)
    (h : c.pulses.any (fun q => q.lp = pixLocal p) = true) :
    let t := edgeDecided p fu n ovr inj busy (edgeTaken p u)
    (t.digi (pixSuper p)).cluster = some c ∧
      t.rf (Reg.TDC_DEAD (pixTile p)) 31 0 = min (u.rf (Reg.TDC_DEAD (pixTile p)) 31 0 + 1) 4294967295 := by
  have hv := edgeTaken_only p u
  intro t
  have ht : t = (edgeTaken p u).bump (Reg.TDC_DEAD (pixTile p)) 31 0 1 := by
    simp only [t]
    rw [edgeDecided_cluster (by rw [hg]; exact hr) (by rw [hg]; exact hc), clusterEdge_repeated fu n ovr inj _ h, digiTile_pixSuper]
  rw [ht, State.digi_bump, hg, State.rf_bump_self _ _ _ (by omega) (by omega), hv.rf (by simp [noReg])]
  exact ⟨hc, rfl⟩

/-- An edge of a new pixel inside the open cluster is a stop, and the fourth closes the cluster (R94–R97). -/
theorem edgeDecided_stops (hp : p < 1048576) (busy : Bool) (hg : (edgeTaken p u).digi (pixSuper p) = g.real u.clock.ticks)
    (hr : g.phase = .cluster ∨ g.phase = .dead) {c : Cluster} (hc : g.cluster = some c)
    (h : c.pulses.any (fun q => q.lp = pixLocal p) = false) :
    HoldsStopped g u.now (c.stopped (pixLocal p) u.now (g.stopTime u.now fu n ovr)
        ⟨pixLocal p, u.now, u.pixelConfig p, u.holes, inj, none, 0⟩)
      ((edgeDecided p fu n ovr inj busy (edgeTaken p u)).digi (pixSuper p)) := by
  have hv := edgeTaken_only p u
  have hd : digiTile (pixSuper p) < 64 := by rw [digiTile_pixSuper]; exact pixTile_lt hp
  have hn := hv.now (by decide)
  rw [edgeDecided_cluster (by rw [hg]; exact hr) (by rw [hg]; exact hc), clusterEdge_stop fu n ovr inj _ h, hn, hg, edgeTaken_pulse,
    real_stopTime]
  have hs := (takeStop_stopFine (fu := fu) (n := n) (ovr := ovr) (c := c.stopped (pixLocal p) u.now (g.stopTime u.now fu n ovr)
    ⟨pixLocal p, u.now, u.pixelConfig p, u.holes, inj, none, 0⟩) (edgeTaken p u) hd rfl).2
  rw [hg] at hs
  exact hs

/-- An edge at a digitizer without a cluster in its dead time is counted: as a fifth stop, or as one in the dead time (R95, R101). -/
theorem edgeDecided_lost (busy : Bool) (hg : (edgeTaken p u).digi (pixSuper p) = g.real u.clock.ticks)
    (hr : g.phase = .cluster ∨ g.phase = .dead) (hc : g.cluster = none) :
    let t := edgeDecided p fu n ovr inj busy (edgeTaken p u)
    (t.digi (pixSuper p)).cluster = none ∧
      (fifthStop g (pixLocal p) u.now = true →
        t.rf (Reg.TDC_STOP_OVF (pixTile p)) 31 0 = min (u.rf (Reg.TDC_STOP_OVF (pixTile p)) 31 0 + 1) 4294967295) ∧
      (fifthStop g (pixLocal p) u.now = false →
        t.rf (Reg.TDC_DEAD (pixTile p)) 31 0 = min (u.rf (Reg.TDC_DEAD (pixTile p)) 31 0 + 1) 4294967295) := by
  have hv := edgeTaken_only p u
  have hcount (a : Nat) : ((edgeTaken p u).bump a 31 0 1).rf a 31 0 = min (u.rf a 31 0 + 1) 4294967295 :=
    (State.rf_bump_self _ _ _ (by omega) (by omega)).trans (by rw [hv.rf (by simp [noReg])]; rfl)
  intro t
  have ht : t = if fifthStop g (pixLocal p) u.now then (edgeTaken p u).bump (Reg.TDC_STOP_OVF (pixTile p)) 31 0 1
      else (edgeTaken p u).bump (Reg.TDC_DEAD (pixTile p)) 31 0 1 := by
    simp only [t]
    rw [edgeDecided_dead (by rw [hg]; exact hr) (by rw [hg]; exact hc), hg, hv.now (by decide)]
    rfl
  rw [ht]
  split
  · next h => rw [State.digi_bump, hg]; exact ⟨hc, fun _ => hcount _, fun h' => by simp [h] at h'⟩
  · next h => rw [State.digi_bump, hg]; exact ⟨hc, fun h' => absurd h' h, fun _ => hcount _⟩

end

end Sys2Proof.Machine
end

section
/-!
### A pixel's trailing edge (R95–R99)
-/

namespace Sys2Proof.Machine

/-- What a trailing edge makes of the digitizer it meets (R96, R98, R99). -/
def fallDecided (p fu n : Nat) (ovr : Bool) (charge : Int) (v : State) : State :=
  let d := pixSuper p
  let lp := pixLocal p
  if (v.digi d).waiting.any (·.open_ lp) then
    v.modDigi d (fun g => { g with waiting := fallFirst lp v.now charge g.waiting })
  else
    match (v.digi d).cluster with
    | some c =>
      if !c.open_ lp then v
      else if c.lp = lp then
        takeStop d { fallIn lp v.now charge c with
          trail := some (fuFrom v.now ((v.digi d).stopTime v.now fu n ovr) c.c c.fine)
          taken := c.taken + 1
          last := v.now } v.now (stopFine d fu n ovr v).2
      else v.modDigi d (fun g => { g with cluster := some (fallIn lp v.now charge c) })
    | none => v

theorem exec_trailingEdge (dt : Nat) (p : Fin 1048576) (fu : Fin 1024) (n : Fin 64) (ovr : Bool) (charge : Int) (s : State) :
    exec (.pixelTrailingEdge dt p fu n ovr charge) s =
      .next (fallDecided p fu n ovr charge (closeIfOver (pixSuper p) (s.elapse dt))) := by
  show execPixelTrailingEdge dt p fu n ovr charge s = _
  have hn : (closeIfOver (pixSuper p) (s.elapse dt)).now = (s.elapse dt).now := (closeIfOver_only _ _).now (by decide)
  unfold execPixelTrailingEdge fallDecided
  simp only [← hn]
  generalize closeIfOver (pixSuper p) (s.elapse dt) = v
  split
  · rfl
  · cases (v.digi (pixSuper p)).cluster with
    | none => rfl
    | some c =>
      dsimp only
      split
      · rfl
      · split
        · rw [← (stopFine_spec (pixSuper p) fu n ovr v).1]
          unfold takeStop
          simp only
          split <;> rfl
        · rfl

theorem fallDecided_takes {p : Nat} (fu n : Nat) (ovr : Bool) (charge : Int) (v : State) (hp : p < 1048576) :
    Only [.tdc] (inBlocks [8]) v (fallDecided p fu n ovr charge v) ∧
      ∀ e, e ≠ pixSuper p → (fallDecided p fu n ovr charge v).digi e = v.digi e := by
  have hd : digiTile (pixSuper p) < 64 := by rw [digiTile_pixSuper]; exact pixTile_lt hp
  unfold fallDecided
  extract_lets d lp
  split
  · exact ⟨Only.modDigi v d _ (by simp), fun e he => State.digi_modDigi_ne v _ he⟩
  · split
    · split
      · exact ⟨Only.refl _ _ v, fun _ _ => rfl⟩
      · split
        · obtain ⟨-, ho, hne, -⟩ := stopFine_spec d fu n ovr v
          refine ⟨(ho.mono (fun _ => id) fun _ => stopRegs_inBlocks hd).trans
            ((takeStop_only d _ _ _).mono (fun _ => id) fun _ => False.elim), fun e he => ?_⟩
          exact (takeStop_others _ _ _ he).trans (hne e he)
        · exact ⟨Only.modDigi v d _ (by simp), fun e he => State.digi_modDigi_ne v _ he⟩
    · exact ⟨Only.refl _ _ v, fun _ _ => rfl⟩

section
variable {p fu n : Nat} {ovr : Bool} {charge : Int} {v : State}

/-- A pulse of a cluster that waits ends there (R96, R99). -/
theorem fallDecided_waiting (h : (v.digi (pixSuper p)).waiting.any (·.open_ (pixLocal p)) = true) :
    let t := fallDecided p fu n ovr charge v
    (t.digi (pixSuper p)).waiting = fallFirst (pixLocal p) v.now charge (v.digi (pixSuper p)).waiting ∧
      (t.digi (pixSuper p)).cluster = (v.digi (pixSuper p)).cluster := by
  unfold fallDecided
  simp only [h, ↓reduceIte, State.digi_modDigi_self, and_self]

/-- A pulse of the open cluster, not of its start pixel, ends in it (R99). -/
theorem fallDecided_other {c : Cluster} (h : (v.digi (pixSuper p)).waiting.any (·.open_ (pixLocal p)) = false)
    (hc : (v.digi (pixSuper p)).cluster = some c) (ho : c.open_ (pixLocal p) = true) (hl : c.lp ≠ pixLocal p) :
    ((fallDecided p fu n ovr charge v).digi (pixSuper p)).cluster = some (fallIn (pixLocal p) v.now charge c) := by
  unfold fallDecided
  simp [h, hc, ho, hl]

/-- The end of the start pixel's pulse is a stop, and the fourth closes the cluster (R95, R98). -/
theorem fallDecided_start {c : Cluster} (hp : p < 1048576) (h : (v.digi (pixSuper p)).waiting.any (·.open_ (pixLocal p)) = false)
    (hc : (v.digi (pixSuper p)).cluster = some c) (ho : c.open_ (pixLocal p) = true) (hl : c.lp = pixLocal p) :
    HoldsStopped (v.digi (pixSuper p)) v.now { fallIn (pixLocal p) v.now charge c with
        trail := some (fuFrom v.now ((v.digi (pixSuper p)).stopTime v.now fu n ovr) c.c c.fine)
        taken := c.taken + 1
        last := v.now } ((fallDecided p fu n ovr charge v).digi (pixSuper p)) := by
  have hd : digiTile (pixSuper p) < 64 := by rw [digiTile_pixSuper]; exact pixTile_lt hp
  have hs := (takeStop_stopFine (fu := fu) (n := n) (ovr := ovr) (c := { fallIn (pixLocal p) v.now charge c with
    trail := some (fuFrom v.now ((v.digi (pixSuper p)).stopTime v.now fu n ovr) c.c c.fine)
    taken := c.taken + 1
    last := v.now }) v hd rfl).2
  unfold fallDecided
  simpa only [h, hc, ho, hl, Bool.false_eq_true, ↓reduceIte, Bool.not_true] using hs

end

section
variable {p : Fin 1048576} {fu : Fin 1024} {n : Fin 64} {ovr awl : Bool} {charge : Int} {dt : Nat} {s : State}

/-- A cluster as it stands at a stop that makes one more than it has taken. -/
theorem HoldsStopped.cases {g h : Digi} {now : Time} {c : Cluster} {k : Nat} (hs : HoldsStopped g now c h) (hk : c.taken = k + 1) :
    (k ≠ 3 → h.cluster = some c) ∧ (k = 3 → h.cluster = none ∧ h.phase = .dead ∧ h.readyAt = now + 60 ∧
      h.waiting = g.waiting ++ [{ c with closed := some now }]) :=
  ⟨fun h3 => hs.1 (by omega), fun h3 => hs.2 (by omega)⟩

/-- A pulse below the threshold leaves no trace (R43). -/
theorem exec_leadingEdge_below
    (hf : edgeFires (s.elapse dt) p (collected (s.elapse dt) charge + if awl then awlPart (s.elapse dt) p else 0) = false) :
    exec (.pixelLeadingEdge dt p fu n ovr charge awl) s = .next (s.elapse dt) := by
  show execPixelLeadingEdge dt p fu n ovr charge awl s = _
  unfold execPixelLeadingEdge
  simp only [hf, Bool.not_false, Bool.or_true, ↓reduceIte]

/-- In a FRAME tile one that fires is at most a hit of a scan (R75). -/
theorem exec_leadingEdge_frame (hm : (s.elapse dt).power.mode = .active)
    (hf : edgeFires (s.elapse dt) p (collected (s.elapse dt) charge + if awl then awlPart (s.elapse dt) p else 0) = true)
    (ht : (s.elapse dt).frameTile (pixTile p) = true) :
    exec (.pixelLeadingEdge dt p fu n ovr charge awl) s = .next (scanHit p (s.elapse dt)) := by
  show execPixelLeadingEdge dt p fu n ovr charge awl s = _
  unfold execPixelLeadingEdge
  simp only [hm, hf, ht, ne_eq, not_true_eq_false, decide_false, Bool.not_true, Bool.or_self, Bool.false_eq_true, ↓reduceIte]

/-- Without a scan of its tile a pixel has its own threshold and the injector's charge (R42, R71). -/
theorem no_scan (u : State) {q : Nat} (h : scanOf u (pixTile q) = none) :
    awlPart u q = injected u q ∧ ∀ k, edgeFires u q k = u.firesAt q k := by
  unfold awlPart edgeFires
  simp only [h, implies_true, and_self]

end

/-- Settles O37: the edge meets its digitizer, with a window that is over closed first (`edgeTaken`), and one lemma for each case says
what the digitizer then makes of it (`edgeDecided`, `fallDecided`). -/
theorem pixelEdgesMakeClusters : Obligations.PixelEdgesMakeClusters := by
  intro dt p fu n ovr charge awl s u d lp i g inj fine
  have hp : p.val < 1048576 := p.isLt
  have hfine : fine = g.stopTime u.now fu n ovr := rfl
  have hg : (edgeTaken p u).digi (pixSuper p) = g.real u.clock.ticks := edgeTaken_digi p u
  refine ⟨no_scan u, exec_leadingEdge_below, exec_leadingEdge_frame, fun hm hf ht => ?_, ?_⟩
  · have hk : EdgeTakes d (edgeTaken p u) _ :=
      edgeDecided_takes (fu := fu) (n := n) (ovr := ovr) (inj := inj) (busy := (u.tile i).busy u.clock.ticks) hp
    refine ⟨_, exec_leadingEdge hm hf ht, ⟨?_, ?_, ?_, ?_, ?_, ?_, ?_⟩, ?_⟩
    · rw [hk.reals, hg]; rfl
    · rw [hk.codes, hg]; exact real_codes g _
    · exact fun e he => (hk.others e he).trans (edgeTaken_others u he)
    · intro hr hb
      rw [hb]
      exact edgeDecided_starts hp hg hr
    · intro hr hb
      rw [hb]
      exact edgeDecided_refused hp hg hr
    · intro c hr hc
      exact ⟨edgeDecided_repeated _ hg hr hc, fun h => (edgeDecided_stops hp _ hg hr hc h).cases rfl⟩
    · exact edgeDecided_lost _ hg
    · exact ((edgeTaken_only p u).mono (by simp) fun _ => False.elim).trans hk.only
  · obtain ⟨ho, hne⟩ := fallDecided_takes fu n ovr charge (closeIfOver d u) hp
    have hn : (closeIfOver d u).now = u.now := (closeIfOver_only d u).now (by decide)
    refine ⟨_, exec_trailingEdge dt p fu n ovr charge s, ⟨fun e he => ?_, fun h => ?_, fun c h hc hop => ?_⟩, ?_⟩
    · rw [hne e he, closeIfOver_digi, if_neg he]
    · rw [← hn]
      exact fallDecided_waiting h
    · rw [hfine, ← hn]
      exact ⟨fallDecided_other h hc hop, fun hl => (fallDecided_start hp h hc hop hl).cases rfl⟩
    · exact ((closeIfOver_only d u).mono (fun _ => id) fun _ => False.elim).trans ho

end Sys2Proof.Machine
end

section
/-!
### Frames of the matrix's rows
-/

namespace Sys2Proof.Machine

/-- The registers that a raise writes lie in the sides' event blocks (R589). -/
theorem raiseRegs_block {a : Nat} (h : raiseRegs a) : addrBlock a = 17 := by
  obtain ⟨x, h | h | h⟩ := h <;> subst h <;> cases x <;> decide

theorem raiseRegs_inBlocks {a : Nat} {l : List Nat} (hl : 17 ∈ l) (h : raiseRegs a) : inBlocks l a := by
  unfold inBlocks; rwa [raiseRegs_block h]

theorem not_raiseRegs {a : Nat} (h : addrBlock a ≠ 17) : ¬ raiseRegs a := fun k => h (raiseRegs_block k)

theorem not_raiseRegs_tile {i o : Nat} (hi : i < 64) (ho : o < 0x10000) : ¬ raiseRegs (tileBase i + o) :=
  not_raiseRegs (by rw [addrBlock_tile hi ho]; decide)

/-- The registers that uncorrectable words and raises change lie in these blocks. -/
theorem errorRegs_inBlocks {a : Nat} {l : List Nat} (h4 : 4 ∈ l) (h17 : 17 ∈ l) (h : errorRegs a) : inBlocks l a := by
  obtain h | rfl := h
  · exact raiseRegs_inBlocks h17 h
  · exact h4

/-- What raised an event before a change that touches no record and no array time raised it after the change. -/
theorem RaisedBase.from {n : Nat} {u v t : State} (h : RaisedBase n v t) (hl : ∀ x, v.live x = u.live x)
    (hr : ∀ x, v.srcRec x n = u.srcRec x n) (hn : v.now = u.now) : RaisedBase n u t := by
  intro x hx
  have := h x ((hl x).trans hx)
  unfold Raised at this ⊢
  rw [this, hn]
  exact congrArg (·.raise u.now) (hr x)

/-- An event raised stays so through what raises it no more. -/
theorem RaisedBase.to {n : Nat} {u v t : State} (h : RaisedBase n u v) (hr : ∀ x, t.srcRec x n = v.srcRec x n) : RaisedBase n u t :=
  fun x hx => (hr x).trans (h x hx)

theorem Only.srcRec {ps : List Part} {w : Nat → Prop} {s t : State} (h : Only ps w s t) (x : Side) (hp : .evt x ∉ ps) (n : Nat) :
    t.srcRec x n = s.srcRec x n := srcRec_of_recs (by rw [show (t.side x).evt = _ from h.1 (.evt x) hp]) n

/-- A raise of another source leaves a record as it was. -/
theorem raiseBase_srcRec_ne {m n : Nat} (h : n ≠ m) (sev inst : Nat) (y : Side) (s : State) :
    (raiseBase m sev inst s).srcRec y n = s.srcRec y n := by
  rw [raiseBase_srcRec, if_neg fun k => h k.2]

/-- The matrix changed alike in two states that agree on it. -/
theorem Only.modPix_both {ps : List Part} {w : Nat → Prop} {s t : State} (h : Only ps w s t) (f : Pix → Pix) :
    Only ps w (s.modPix f) (t.modPix f) := by
  refine ⟨fun p hq => ?_, h.2⟩
  have hs := h.1 p hq
  cases p with
  | pix => exact congrArg f hs
  | evt x | mgt x | lnk x | wlt x | lce x | dsp x | cmp x | bst x | tally x => cases x <;> exact hs
  | _ => exact hs

end Sys2Proof.Machine
end

section
/-!
### An injector pulse (R66, R67, R71)
-/

namespace Sys2Proof.Machine

/-- An entry of a table whose entries are all changed by a function of their index that keeps the default. -/
theorem Sparse.get_map {α : Type} (f : Nat → α → α) (d : α) (k : Nat) (hd : f k d = d) (m : Sparse α) :
    Sparse.get (m.map fun e => (e.1, f e.1 e.2)) k d = f k (Sparse.get m k d) := by
  induction m with
  | nil => exact hd.symm
  | cons e r ih =>
    simp only [List.map_cons, Sparse.get]
    split
    · next h => rw [h]
    · exact ih

/-- A digitizer with an Awl pulse in the open pulses of its clusters (R71). -/
def Digi.injected (s : State) (k : Shot) (d : Nat) (g : Digi) : Digi :=
  { g with
    cluster := g.cluster.map (injectInto s k d)
    waiting := g.waiting.map (injectInto s k d) }

theorem shoot_digi (k : Shot) (s : State) (d : Nat) : (shoot k s).digi d = (s.digi d).injected s k d :=
  Sparse.get_map (fun d (g : Digi) => g.injected s k d) Digi.idle d rfl s.tdc.digis

theorem shoot_shots (k : Shot) (s : State) : (shoot k s).pix.shots.getLast? = some k := List.getLast?_concat

theorem shoot_only (k : Shot) (s : State) : Only [.pix, .tdc] noReg s (shoot k s) :=
  (Only.modPix s _ (by simp)).trans (Only.setTdc _ _ (by simp))

theorem exec_awlPulse {dt : Nat} {s : State} {m : Train} (hm : (s.elapse dt).pix.train = some m)
    (hr : reached (s.elapse dt).now m.next = true) :
    let u := s.elapse dt
    let k : Shot := ⟨m.next, u.rf Reg.PIX_AWL_CTRL 7 0 * (if u.rb Reg.PIX_AWL_CTRL 8 then 4096 else 64), u.pix.latches⟩
    Happens [.pix, .tdc] noReg u (fun t => t.pix.shots.getLast? = some k ∧
      t.pix.train = (if m.left ≤ 1 then none else some { m with left := m.left - 1, next := m.next + BitVec.ofNat 64 m.period }) ∧
      ∀ d, t.digi d = (u.digi d).injected u k d) (exec (.awlPulse dt) s) := by
  intro u k
  have he : exec (.awlPulse dt) s = .next ((shoot k u).modPix (fun x => { x with
      train := if m.left ≤ 1 then none else some { m with left := m.left - 1, next := m.next + BitVec.ofNat 64 m.period } })) := by
    show execAwlPulse dt s = _
    unfold execAwlPulse
    simp only [hm, hr, ↓reduceIte]
    rfl
  exact ⟨_, he, ⟨shoot_shots k u, rfl, shoot_digi k u⟩, (shoot_only k u).trans (Only.modPix _ _ (by simp))⟩

end Sys2Proof.Machine
end

section
/-!
### The beginning of a threshold scan (R73, R74)
-/

namespace Sys2Proof.Machine

theorem taken_calBusy (x : Side) (c : Ctx) (s : State) : calBusy (taken x c s) = calBusy s := by
  have h := taken_only x c s
  have hr (a : Nat) (ha : addrBlock a < 16) : ¬ answerRegs a := by
    rintro ⟨y, k | k | k | k⟩ <;> subst k <;> cases y <;> revert ha <;> decide
  simp only [calBusy, State.rb, h.rd (hr Reg.FRM_STATUS (by decide)), h.rd (hr Reg.TDC_INIT_STATUS (by decide))]

/-- The matrix with a scan begun (R73). -/
def scanBegun (lo hi points pulses : Word) (ticks : Nat) (f : Pix) : Pix :=
  { f with
    scan := some ⟨maskOrAll lo hi, bits points.toNat 9 0, bits points.toNat 19 10, bits points.toNat 23 20, bits pulses.toNat 15 0,
      bits pulses.toNat 23 16 * (if bit pulses.toNat 24 then 4096 else 64), bit pulses.toNat 25, ticks, []⟩ }

theorem exec_threshScan {dt : Nat} {c : Ctx} {s : State} {lo hi points pulses : Word} (hpar : scanRange points pulses = true)
    (h : Admitted c (.threshScan lo hi points pulses) none (s.elapse dt)) (hr : (s.elapse dt).trg.run = .idle)
    (ha : (s.elapse dt).pix.apply = none) (hs : (s.elapse dt).pix.scan = none) (hc : calBusy (s.elapse dt) = false) :
    let u := s.elapse dt
    Completes (receiver u c) c 0x33 .accepted 0 [] (u.modPix (scanBegun lo hi points pulses u.clock.ticks))
      (exec (.threshScan dt c lo hi points pulses) s) := by
  intro u
  change u.trg.run = _ at hr
  change u.pix.apply = _ at ha
  change u.pix.scan = _ at hs
  change calBusy u = _ at hc
  have htk := taken_only (receiver u c) c u
  have htrg : (taken (receiver u c) c u).trg = u.trg := htk.1 .trg (by decide)
  have hpix : (taken (receiver u c) c u).pix = u.pix := htk.1 .pix (by decide)
  have hclk : (taken (receiver u c) c u).clock = u.clock := taken_clock _ c u
  obtain ⟨⟨-, -, hb, -⟩, -⟩ := id h
  show Completes _ _ _ _ _ _ _ (execThreshScan dt c lo hi points pulses s)
  unfold execThreshScan
  obtain ⟨t, ht, ho, hrep⟩ := command_next (P := Only answering answerRegs (u.modPix (scanBegun lo hi points pulses u.clock.ticks)))
    (s2 := (taken (receiver u c) c u).modPix (scanBegun lo hi points pulses u.clock.ticks))
    (par := fun _ _ => param (scanRange points pulses)) (st := .accepted) (r1 := 0) (ws := [])
    (body := fun _ s =>
      if s.trg.run ≠ .idle then refuse s .wrongState
      else if s.pix.apply.isSome || s.pix.scan.isSome || calBusy s then refuse s .busy
      else .done (s.modPix (scanBegun lo hi points pulses s.clock.ticks)) .accepted 0 [])
    (by rw [hpar]; exact h)
    (by
      rw [htrg, hpix, taken_calBusy, hclk, if_neg (not_not_intro hr), if_neg (by rw [ha, hs, hc]; decide)])
    (by rw [State.modPix_lace, taken_lace]; exact hb)
    (fun t k => (htk.modPix_both _).trans k)
  exact ⟨t, ht, hrep, ho⟩

end Sys2Proof.Machine
end

section
/-!
### A drift measurement (R80–R82)
-/

namespace Sys2Proof.Machine

/-- The state after a drift measurement of a tile, before its event: the difference noted, and the reference kept or made (R82). -/
def driftNoted (i dac : Nat) (u : State) : State :=
  let r := Sparse.get u.pix.driftRef i none
  (({ u with clock := { u.clock with drift := none } } : State).modPix (fun x => { x with
    driftTile := (i + 1) % 64
    driftRef := Sparse.set x.driftRef i (some (r.getD dac)) none })).wr (Reg.PIX_DRIFT i)
      (BitVec.ofNat 32 (unsigned 11 ((dac : Int) - (r.getD dac : Nat))))

theorem driftNoted_only {i : Nat} (dac : Nat) (u : State) (hi : i < 64) : Only [.clock, .pix] (inBlocks [8, 17]) u (driftNoted i dac u) :=
  ((Only.setClock u _ (by simp)).trans (Only.modPix _ _ (by simp))).trans (Only.wr _ _ _ (inBlocks_tile hi (by omega) (by simp)))

/-- The difference that a drift measurement finds (R82). -/
def driftOf (i dac : Nat) (u : State) : Int := (dac : Int) - ((Sparse.get u.pix.driftRef i none).getD dac : Nat)

/-- The state after a drift measurement, with its event where the difference exceeds LIMIT (R82). -/
def driftReported (i dac : Nat) (u : State) : State :=
  if u.rf Reg.PIX_DRIFT_CTRL 15 8 < (driftOf i dac u).natAbs then raiseBase 523 sevNotice noInst (driftNoted i dac u)
  else driftNoted i dac u

theorem exec_driftMeasure {dt : Nat} {s : State} {i : Fin 64} {dac : BitVec 10} (h : driftDone (s.elapse dt) i = true) :
    exec (.driftMeasure dt i dac) s = .next (driftReported i dac.toNat (s.elapse dt)) := by
  show execDriftMeasure dt i dac s = _
  have hd : (match Sparse.get (s.elapse dt).pix.driftRef i.val none with
      | some r => (dac.toNat : Int) - r
      | none => 0) = driftOf i dac.toNat (s.elapse dt) := by
    unfold driftOf
    cases Sparse.get (s.elapse dt).pix.driftRef i.val none with
    | none => simp
    | some r => rfl
  unfold execDriftMeasure driftReported
  extract_lets u ref d clk s0 s1 s2
  rw [if_neg (by simp [u, h])]
  have hs : s2 = driftNoted i dac.toNat u :=
    congrArg (fun e => s1.wr (Reg.PIX_DRIFT i) (BitVec.ofNat 32 (unsigned 11 e))) (hd : d = _)
  rw [show d = _ from hd, hs]
  exact (apply_ite Host.Outcome.next _ _ _).symm

theorem driftReported_spec {i : Nat} (dac : Nat) (u : State) (hi : i < 64) :
    let t := driftReported i dac u
    (t.rd (Reg.PIX_DRIFT i) = BitVec.ofNat 32 (unsigned 11 (driftOf i dac u)) ∧ t.pix.driftTile = (i + 1) % 64 ∧ t.clock.drift = none ∧
      Sparse.get t.pix.driftRef i none = some ((Sparse.get u.pix.driftRef i none).getD dac) ∧
      (u.rf Reg.PIX_DRIFT_CTRL 15 8 < (driftOf i dac u).natAbs → RaisedBase 523 u t)) ∧
    Only ([.clock, .pix] ++ bothOf .evt ++ bothOf .tally) (inBlocks [8, 17]) u t := by
  have hn := driftNoted_only dac u hi
  have hrd : (driftNoted i dac u).rd (Reg.PIX_DRIFT i) = BitVec.ofNat 32 (unsigned 11 (driftOf i dac u)) := State.rd_wr_self _ _ _
  have href : Sparse.get (driftNoted i dac u).pix.driftRef i none = some ((Sparse.get u.pix.driftRef i none).getD dac) := by
    show Sparse.get (Sparse.set u.pix.driftRef i (some ((Sparse.get u.pix.driftRef i none).getD dac)) none) i none = _
    exact Sparse.get_set_self _ _ _ _
  intro t
  by_cases hlim : u.rf Reg.PIX_DRIFT_CTRL 15 8 < (driftOf i dac u).natAbs
  · have ht : t = raiseBase 523 sevNotice noInst (driftNoted i dac u) := if_pos hlim
    have hb : Only raising raiseRegs (driftNoted i dac u) t := ht ▸ raiseBase_only _ _ _ _
    have hpix : t.pix = (driftNoted i dac u).pix := hb.1 .pix (by decide)
    have hclk : t.clock = (driftNoted i dac u).clock := hb.1 .clock (by decide)
    refine ⟨⟨?_, ?_, ?_, ?_, fun _ => ?_⟩, (hn.mono (by simp) fun _ => id).trans (hb.mono (by decide) fun _ => raiseRegs_inBlocks (by simp))⟩
    · exact (hb.rd (not_raiseRegs_tile hi (by omega))).trans hrd
    · rw [hpix]; rfl
    · rw [hclk]; rfl
    · rw [hpix, href]
    · rw [ht]
      exact (raiseBase_raisedBase _ _ _ _).from (hn.live (by simp) (by simp)) (fun x => hn.srcRec x (by simp) _) rfl
  · have ht : t = driftNoted i dac u := if_neg hlim
    rw [ht]
    exact ⟨⟨hrd, rfl, rfl, href, fun k => absurd k hlim⟩, hn.mono (by simp) fun _ => id⟩

end Sys2Proof.Machine
end

section
/-!
### A tile's scan evaluated (R77, R78)
-/

namespace Sys2Proof.Machine

/-- A field of a word written whole. -/
theorem State.rf_wr_self (s : State) (a : Nat) (w : Word) (hi lo : Nat) : (s.wr a w).rf a hi lo = bits w.toNat hi lo := by
  simp only [State.rf, State.rd_wr_self]

/-- The two halves of a word, where the lower fits. -/
theorem bits_halves {hi lo : Nat} (h : lo < 65536) :
    (∀ n, n ≤ 15 → bits (BitVec.ofNat 32 (hi * 2 ^ 16 + lo)).toNat n 0 = lo % 2 ^ (n + 1)) ∧
      ∀ n, n ≤ 15 → bits (BitVec.ofNat 32 (hi * 2 ^ 16 + lo)).toNat (16 + n) 16 = hi % 2 ^ (n + 1) := by
  have hn (n : Nat) (k : n ≤ 15) : 2 ^ (n + 1) ∣ 2 ^ 16 := Nat.pow_dvd_pow 2 (by omega)
  refine ⟨fun n k => ?_, fun n k => ?_⟩
  · obtain ⟨m, hm⟩ := hn n k
    simp only [bits, BitVec.toNat_ofNat, Nat.shiftRight_zero, Nat.sub_zero]
    rw [Nat.mod_mod_of_dvd _ (Nat.pow_dvd_pow 2 (by omega)), hm, Nat.mul_left_comm, Nat.mul_add_mod]
  · simp only [bits, BitVec.toNat_ofNat, Nat.shiftRight_eq_div_pow, show 16 + n + 1 - 16 = n + 1 by omega]
    have h1 : (hi * 2 ^ 16 + lo) % 2 ^ 32 / 2 ^ 16 = hi % 2 ^ 16 := by omega
    rw [h1, Nat.mod_mod_of_dvd _ (hn n k)]

/-! Trims -/

theorem writeTrim_only (t lp : Nat) (v : Int) (s : State) : Only [.pix] noReg s (writeTrim t lp v s) := by
  unfold writeTrim; exact Only.modPix s _ (by simp)

/-- A trim written stands in bits [6:2] of its pixel's word. -/
theorem writeTrim_trim {t lp lq : Nat} (v : Int) (s : State) (hp : lp < 16384) (hq : lq < 16384) :
    bits (imageWord (writeTrim t lp v s).pix.shadow (globalPix t lq)).toNat 6 2 =
      if lq = lp then (clampI 0 31 v).toNat else bits (imageWord s.pix.shadow (globalPix t lq)).toNat 6 2 := by
  have hw : setBits (imageWord s.pix.shadow (globalPix t lp)).toNat 6 2 (clampI 0 31 v).toNat < 2 ^ 10 :=
    setBits_lt (imageWord s.pix.shadow (globalPix t lp)).isLt (by omega) (by omega)
  have hc : (clampI 0 31 v).toNat < 2 ^ (6 + 1 - 2) := by
    unfold clampI; split
    · decide
    · split <;> omega
  have heq : globalPix t lq = globalPix t lp ↔ lq = lp := by
    refine ⟨fun h => ?_, fun h => h ▸ rfl⟩
    have := congrArg pixLocal h
    rwa [pixLocal_globalPix hq, pixLocal_globalPix hp] at this
  unfold writeTrim
  simp only [State.modPix_pix, imageWord_putWord, heq]
  split
  · rw [BitVec.toNat_ofNat, Nat.mod_eq_of_lt hw, bits_setBits_self, Nat.mod_eq_of_lt hc]
  · rfl

/-- A trim written in another tile leaves a word alone. -/
theorem writeTrim_other {t i lp lq : Nat} (v : Int) (s : State) (hp : lp < 16384) (hq : lq < 16384) (h : i ≠ t) :
    imageWord (writeTrim t lp v s).pix.shadow (globalPix i lq) = imageWord s.pix.shadow (globalPix i lq) := by
  have hne : globalPix i lq ≠ globalPix t lp := fun k => by
    have := congrArg pixTile k
    rw [pixTile_globalPix hq, pixTile_globalPix hp] at this
    exact h this
  unfold writeTrim
  simp only [State.modPix_pix, imageWord_putWord, if_neg hne]

/-- The state after some trims of a tile are written. -/
def writeTrims (t : Nat) (l : List (Nat × Int)) (s : State) : State := l.foldl (fun u q => writeTrim t q.1 q.2 u) s

theorem writeTrims_only (t : Nat) (l : List (Nat × Int)) (s : State) : Only [.pix] noReg s (writeTrims t l s) :=
  Only.foldl (fun u q => writeTrim_only t q.1 q.2 u) (Only.refl _ _ s)

theorem writeTrims_other {t i lq : Nat} (hq : lq < 16384) (h : i ≠ t) : ∀ (l : List (Nat × Int)) (s : State), (∀ q ∈ l, q.1 < 16384) →
    imageWord (writeTrims t l s).pix.shadow (globalPix i lq) = imageWord s.pix.shadow (globalPix i lq)
  | [], _, _ => rfl
  | q :: r, s, hl => by
    rw [writeTrims, List.foldl_cons]
    exact (writeTrims_other hq h r _ fun e he => hl e (List.mem_cons_of_mem _ he)).trans
      (writeTrim_other q.2 s (hl q List.mem_cons_self) hq h)

/-- Of trims that agree for each pixel, the one of a pixel in the list is in its word. -/
theorem writeTrims_trim {t lq : Nat} {v : Int} (hq : lq < 16384) : ∀ (l : List (Nat × Int)) (s : State), (∀ q ∈ l, q.1 < 16384) →
    (∀ q ∈ l, q.1 = lq → q.2 = v) →
    ((lq, v) ∈ l ∨ bits (imageWord s.pix.shadow (globalPix t lq)).toNat 6 2 = (clampI 0 31 v).toNat) →
    bits (imageWord (writeTrims t l s).pix.shadow (globalPix t lq)).toNat 6 2 = (clampI 0 31 v).toNat
  | [], _, _, _, h => h.resolve_left (by simp)
  | q :: r, s, hl, hv, h => by
    rw [writeTrims, List.foldl_cons]
    refine writeTrims_trim hq r _ (fun e he => hl e (List.mem_cons_of_mem _ he)) (fun e he => hv e (List.mem_cons_of_mem _ he)) ?_
    rw [writeTrim_trim q.2 s (hl q List.mem_cons_self) hq]
    by_cases hlq : lq = q.1
    · right
      rw [if_pos hlq, hv q List.mem_cons_self hlq.symm]
    · rw [if_neg hlq]
      refine h.imp_left fun hm => (List.mem_cons.1 hm).resolve_left fun he => hlq ?_
      rw [← he]

end Sys2Proof.Machine
end

section
/-!
### The end of a threshold scan (R74, R76–R79)
-/

namespace Sys2Proof.Machine

/-- The d50 of a local pixel of a tile under a scan. -/
def scanD50 (k : Scan) (i lp : Nat) : Option Nat := d50Of k (Sparse.get k.hits (globalPix i lp) [])

/-- The d50 values of a tile. -/
def scanVals (k : Scan) (u : State) (i : Nat) : List Nat := (scanned u i).filterMap (scanD50 k i)

/-- The mean of a tile's d50 values (R77). -/
def scanMean (l : List Nat) : Nat := (roundDiv ((l.foldl (· + ·) 0 : Nat) : Int) l.length).toNat

/-- The pixels of a tile whose trim would not fit (R77). -/
def untrimmable (l : List Nat) : Nat :=
  (l.filter (fun v => decide (trimOf v (scanMean l) < 0) || decide (31 < trimOf v (scanMean l)))).length

/-- A tile's evaluated scan stands in its registers, and with EQUALISE in the shadow (R77, R78). -/
def ScanStands (k : Scan) (u : State) (i : Nat) (t : State) : Prop :=
  let d := scanVals k u i
  t.rf (Reg.PIX_SCAN_RESULT i) 14 0 = ((scanned u i).length - d.length) % 2 ^ 15 ∧
  (d ≠ [] → t.rf (Reg.PIX_SCAN_MEAN i) 9 0 = scanMean d % 1024 ∧
    (rms8 d < 1024 → t.rf (Reg.PIX_SCAN_MEAN i) 25 16 = rms8 d) ∧
    t.rf (Reg.PIX_SCAN_RESULT i) 30 16 = (if k.equalise then untrimmable d else 0) % 2 ^ 15 ∧
    (k.equalise = true → ∀ lp ∈ scanned u i, ∀ v, scanD50 k i lp = some v →
      bits (imageWord t.pix.shadow (globalPix i lp)).toNat 6 2 = (clampI 0 31 (trimOf v (scanMean d))).toNat))

/-- The d50 values with their pixels. -/
def scanPairs (k : Scan) (u : State) (i : Nat) : List (Nat × Nat) := (scanned u i).filterMap (fun lp => (scanD50 k i lp).map (fun v => (lp, v)))

theorem scanPairs_vals (k : Scan) (u : State) (i : Nat) : (scanPairs k u i).map (·.2) = scanVals k u i := by
  unfold scanPairs scanVals
  rw [List.map_filterMap]
  congr 1
  funext lp
  cases scanD50 k i lp <;> rfl

theorem mem_scanPairs {k : Scan} {u : State} {i lp v : Nat} : (lp, v) ∈ scanPairs k u i ↔ lp ∈ scanned u i ∧ scanD50 k i lp = some v := by
  unfold scanPairs
  simp only [List.mem_filterMap, Option.map_eq_some_iff, Prod.mk.injEq]
  constructor
  · rintro ⟨a, ha, b, hb, rfl, rfl⟩; exact ⟨ha, hb⟩
  · rintro ⟨ha, hb⟩; exact ⟨lp, ha, v, hb, rfl, rfl⟩

theorem scanned_lt {u : State} {i lp : Nat} (h : lp ∈ scanned u i) : lp < 16384 := List.mem_range.1 (List.mem_filter.1 h).1

/-- A mean of values below a bound is below it. -/
theorem scanMean_lt {l : List Nat} {b : Nat} (hl : l ≠ []) (h : ∀ v ∈ l, v < b) : scanMean l < b := by
  have hsum : ∀ (l : List Nat) (a : Nat), (∀ v ∈ l, v < b) → l.foldl (· + ·) a + l.length ≤ a + l.length * b := by
    intro l
    induction l with
    | nil => intro a _; simp
    | cons v r ih =>
      intro a hv
      have h1 := ih (a + v) fun e he => hv e (List.mem_cons_of_mem _ he)
      have h2 := hv v List.mem_cons_self
      rw [List.foldl_cons, List.length_cons, Nat.add_mul]
      omega
  have hs := hsum l 0 h
  have hpos : 0 < l.length := List.length_pos_iff.2 hl
  have hb : 0 < b := by
    obtain ⟨v, hv⟩ := List.exists_mem_of_ne_nil l hl
    exact lt_of_le_of_lt (Nat.zero_le v) (h v hv)
  unfold scanMean roundDiv
  rw [if_pos (Int.natCast_nonneg _)]
  generalize l.foldl (· + ·) 0 = sum at hs ⊢
  rw [show (2 * (sum : Int) + (l.length : Nat)) / (2 * (l.length : Nat)) = (((2 * sum + l.length) / (2 * l.length) : Nat) : Int) by push_cast; rfl,
    Int.toNat_natCast]
  rw [Nat.div_lt_iff_lt_mul (by omega)]
  nlinarith

/-- The registers of a tile's scan. -/
def scanRegs (i a : Nat) : Prop := a = Reg.PIX_SCAN_MEAN i ∨ a = Reg.PIX_SCAN_RESULT i

theorem scanRegs_inBlocks {i a : Nat} {l : List Nat} (hi : i < 64) (hl : 8 ∈ l) (h : scanRegs i a) : inBlocks l a := by
  obtain rfl | rfl := h <;> exact inBlocks_tile hi (by omega) hl

/-- The mean that a tile's evaluation uses (R77). -/
def scanMeanIn (k : Scan) (s : State) (i : Nat) : Nat :=
  if scanVals k s i = [] then s.free.toNat % 1024 else scanMean (scanVals k s i)

/-- The rms that a tile's evaluation reports (R78). -/
def scanRmsIn (k : Scan) (s : State) (i : Nat) : Nat :=
  if scanVals k s i = [] || 1024 ≤ rms8 (scanVals k s i) then s.free.toNat / 1024 % 1024 else rms8 (scanVals k s i)

/-- The trims of a tile's pixels (R77). -/
def scanTrims (k : Scan) (s : State) (i : Nat) : List (Nat × Int) := (scanPairs k s i).map (fun q => (q.1, trimOf q.2 (scanMeanIn k s i)))

/-- The state with a free value taken where the evaluation needs one (log entry 4). -/
def scanFree (k : Scan) (s : State) (i : Nat) : State :=
  if scanVals k s i = [] || 1024 ≤ rms8 (scanVals k s i) then s.took else s

/-- The state with the trims written where they are wanted. -/
def scanTrimmed (k : Scan) (s : State) (i : Nat) : State :=
  if k.equalise then writeTrims i (scanTrims k s i) (scanFree k s i) else scanFree k s i

theorem scanTile_eq (k : Scan) (s : State) (i : Nat) : scanTile k s i =
    ((scanTrimmed k s i).wr (Reg.PIX_SCAN_MEAN i) (BitVec.ofNat 32 (scanRmsIn k s i * 2 ^ 16 + scanMeanIn k s i))).wr
      (Reg.PIX_SCAN_RESULT i) (BitVec.ofNat 32 ((if k.equalise then
        ((scanTrims k s i).filter (fun q => decide (q.2 < 0) || decide (31 < q.2))).length else 0) * 2 ^ 16 +
          ((scanned s i).length - (scanPairs k s i).length))) := by
  unfold scanTile scanTrimmed scanFree scanRmsIn scanTrims scanMeanIn
  simp only [← scanPairs_vals, scanPairs, scanD50, scanMean, writeTrims]

theorem scanFree_only (k : Scan) (s : State) (i : Nat) : Only [.freeCount] noReg s (scanFree k s i) := by
  unfold scanFree; split
  · exact Only.setFreeCount s _ (by simp)
  · exact Only.refl _ _ s

theorem scanFree_pix (k : Scan) (s : State) (i : Nat) : (scanFree k s i).pix = s.pix := (scanFree_only k s i).1 .pix (by simp)

theorem scanTrimmed_only (k : Scan) (s : State) (i : Nat) : Only [.pix, .freeCount] noReg s (scanTrimmed k s i) := by
  have h0 : Only [.pix, .freeCount] noReg s (scanFree k s i) := (scanFree_only k s i).mono (by simp) fun _ => id
  unfold scanTrimmed; split
  · exact h0.trans ((writeTrims_only i _ _).mono (by simp) fun _ => id)
  · exact h0

theorem writeTrims_pix (t : Nat) : ∀ (l : List (Nat × Int)) (s : State),
    (writeTrims t l s).pix = { s.pix with shadow := (writeTrims t l s).pix.shadow }
  | [], _ => rfl
  | q :: r, s => by
    rw [writeTrims, List.foldl_cons]
    exact (writeTrims_pix t r _).trans rfl

/-- A tile's evaluation changes of the matrix the shadow alone, and that only with EQUALISE. -/
theorem scanTrimmed_pix (k : Scan) (s : State) (i : Nat) :
    (scanTrimmed k s i).pix = { s.pix with shadow := (scanTrimmed k s i).pix.shadow } ∧
      (k.equalise = false → (scanTrimmed k s i).pix = s.pix) := by
  unfold scanTrimmed; split
  · next he =>
    have := writeTrims_pix i (scanTrims k s i) (scanFree k s i)
    exact ⟨by rwa [scanFree_pix] at this, fun h => by simp [h] at he⟩
  · exact ⟨by rw [scanFree_pix], fun _ => scanFree_pix k s i⟩

theorem scanTile_only (k : Scan) (s : State) (i : Nat) : Only [.pix, .freeCount] (scanRegs i) s (scanTile k s i) := by
  rw [scanTile_eq]
  exact (((scanTrimmed_only k s i).mono (fun _ => id) fun _ => False.elim).trans (Only.wr _ _ _ (.inl rfl))).trans (Only.wr _ _ _ (.inr rfl))

theorem scanTile_pix (k : Scan) (s : State) (i : Nat) : (scanTile k s i).pix = (scanTrimmed k s i).pix := by
  rw [scanTile_eq, State.wr_pix, State.wr_pix]

/-- What a scan evaluates, which its evaluation leaves alone. -/
def SameScanned (u s : State) : Prop := s.bg = u.bg ∧ s.pix.applied = u.pix.applied

theorem SameScanned.scanned {u s : State} (h : SameScanned u s) (i : Nat) : scanned s i = scanned u i := by
  simp only [Sys2Proof.Machine.scanned, State.pixelRetired, h.1, h.2]

theorem SameScanned.scanTile {u s : State} (h : SameScanned u s) (k : Scan) (i : Nat) : SameScanned u (scanTile k s i) :=
  ⟨((scanTile_only k s i).1 .bg (by simp)).trans h.1, by rw [scanTile_pix, (scanTrimmed_pix k s i).1]; exact h.2⟩

theorem scanPairs_lt {k : Scan} {s : State} {i : Nat} {q : Nat × Int} (h : q ∈ scanTrims k s i) : q.1 < 16384 := by
  obtain ⟨e, he, rfl⟩ := List.mem_map.1 h
  exact scanned_lt (mem_scanPairs.1 (show (e.1, e.2) ∈ _ from he)).1

/-- An evaluation of another tile leaves a tile's results. -/
theorem ScanStands.scanTile_ne {k : Scan} {u s : State} {i j : Nat} (h : ScanStands k u j s) (hne : j ≠ i) :
    ScanStands k u j (scanTile k s i) := by
  have ho := scanTile_only k s i
  have hreg (o p : Nat) (ho : o < 0x10000) (hp : p < 0x10000) : tileBase j + o ≠ tileBase i + p := by unfold tileBase; omega
  have hr : ∀ o, o < 0x10000 → ¬ scanRegs i (tileBase j + o) := fun o h =>
    not_or.2 ⟨hreg o 0xC00C h (by omega), hreg o 0xC008 h (by omega)⟩
  have hw (lq : Nat) (hq : lq < 16384) : imageWord (scanTile k s i).pix.shadow (globalPix j lq) = imageWord s.pix.shadow (globalPix j lq) := by
    rw [scanTile_pix]
    cases he : k.equalise with
    | false => rw [(scanTrimmed_pix k s i).2 he]
    | true =>
      rw [scanTrimmed, if_pos he]
      exact (writeTrims_other hq hne _ _ fun q hm => scanPairs_lt hm).trans (by rw [scanFree_pix])
  obtain ⟨h1, h2⟩ := h
  refine ⟨(ho.rf (hr 0xC008 (by omega)) 14 0).trans h1, fun hd => ?_⟩
  obtain ⟨hm, hrms, hb, ht⟩ := h2 hd
  refine ⟨(ho.rf (hr 0xC00C (by omega)) 9 0).trans hm, fun hlt => (ho.rf (hr 0xC00C (by omega)) 25 16).trans (hrms hlt),
    (ho.rf (hr 0xC008 (by omega)) 30 16).trans hb, fun he lp hlp v hv => ?_⟩
  rw [hw lp (scanned_lt hlp)]
  exact ht he lp hlp v hv

/-- The evaluation of a tile gives its results (R77, R78). -/
theorem scanTile_stands {k : Scan} {u s : State} (i : Nat) (h : SameScanned u s) (hk : ∀ v ∈ k.points, v < 1024) :
    ScanStands k u i (scanTile k s i) := by
  have hsc := h.scanned i
  have hvals : scanVals k s i = scanVals k u i := by simp only [scanVals, hsc]
  have hlen : (scanPairs k s i).length = (scanVals k u i).length := by rw [← hvals, ← scanPairs_vals, List.length_map]
  have hpx : (scanned s i).length ≤ 16384 := by
    exact (List.length_filter_le _ _).trans (by rw [List.length_range])
  have hne : Reg.PIX_SCAN_MEAN i ≠ Reg.PIX_SCAN_RESULT i := by unfold Reg.PIX_SCAN_MEAN Reg.PIX_SCAN_RESULT; omega
  have hlow : (scanned s i).length - (scanPairs k s i).length < 65536 := by omega
  rw [scanTile_eq]
  refine ⟨?_, fun hd => ?_⟩
  · rw [State.rf_wr_self, (bits_halves hlow).1 14 (by omega), hlen, hsc]
  · rw [← hvals] at hd
    have hmean : scanMeanIn k s i = scanMean (scanVals k u i) := by rw [← hvals]; exact if_neg hd
    have hlt : scanMeanIn k s i < 1024 := by
      rw [hmean]
      refine scanMean_lt (by rwa [hvals] at hd) fun v hv => ?_
      obtain ⟨lp, -, hlp⟩ := List.mem_filterMap.1 hv
      obtain ⟨q, hq, rfl⟩ := Option.map_eq_some_iff.1 hlp
      exact hk _ (List.fst_mem_of_mem_zipIdx (List.mem_of_find?_eq_some hq))
    refine ⟨?_, fun hrms => ?_, ?_, fun he lp hlp v hv => ?_⟩
    · rw [State.rf_wr_ne _ _ _ _ hne, State.rf_wr_self, (bits_halves (by omega)).1 9 (by omega), hmean]
      rfl
    · have hr : scanRmsIn k s i = rms8 (scanVals k u i) := by
        unfold scanRmsIn
        rw [if_neg (by rw [hvals] at hd ⊢; simp [hd, hrms]), hvals]
      rw [State.rf_wr_ne _ _ _ _ hne, State.rf_wr_self, (bits_halves (by omega)).2 9 (by omega), hr]
      exact Nat.mod_eq_of_lt hrms
    · have hb : ((scanTrims k s i).filter (fun q => decide (q.2 < 0) || decide (31 < q.2))).length = untrimmable (scanVals k u i) := by
        unfold scanTrims untrimmable
        rw [← hvals, ← scanPairs_vals, List.filter_map, List.filter_map, List.length_map, List.length_map, hmean, ← hvals, ← scanPairs_vals]
        rfl
      rw [State.rf_wr_self, (bits_halves hlow).2 14 (by omega), hb]
    · have hmem : (lp, trimOf v (scanMean (scanVals k u i))) ∈ scanTrims k s i := by
        refine List.mem_map.2 ⟨(lp, v), mem_scanPairs.2 ⟨by rwa [hsc], hv⟩, by rw [hmean]⟩
      rw [State.wr_pix, State.wr_pix]
      rw [scanTrimmed, if_pos he]
      refine writeTrims_trim (scanned_lt hlp) _ _ (fun q hq => scanPairs_lt hq) (fun q hq hlq => ?_) (.inl hmem)
      obtain ⟨e, hm, rfl⟩ := List.mem_map.1 hq
      have hv' := (mem_scanPairs.1 (show (e.1, e.2) ∈ _ from hm)).2
      rw [show e.1 = lp from hlq, hv] at hv'
      rw [hmean, Option.some.inj hv']

end Sys2Proof.Machine
end

section
/-!
### The end of a threshold scan (R74, R76–R79)
-/

namespace Sys2Proof.Machine

/-! Words found bad -/

theorem countBadWord_srcRec (s : State) (x : Side) {n : Nat} (h : n ≠ 522) : (countBadWord s).srcRec x n = s.srcRec x n :=
  (raiseBase_srcRec_ne h _ _ x _).trans ((Only.bump (ps := []) (w := errorRegs) s _ _ _ _ (.inr rfl)).srcRec x (by simp) n)

theorem imageError_srcRec (p : Nat) (s : State) (x : Side) {n : Nat} (h : n ≠ 522) : (imageError p s).srcRec x n = s.srcRec x n :=
  (countBadWord_srcRec _ x h).trans ((Only.modPix (ps := [.pix]) (w := errorRegs) s _ (by simp)).srcRec x (by simp) n)

/-- Image words of some tiles found bad (R64). -/
def badWords (tiles : List Nat) (bad : List (Fin 1048576)) (s : State) : State :=
  bad.foldl (fun u p => if tiles.contains (pixTile p.val) then imageError p.val u else u) s

theorem badWords_only (tiles : List Nat) (bad : List (Fin 1048576)) (s : State) :
    Only (.pix :: raising) errorRegs s (badWords tiles bad s) := by
  refine Only.foldl (fun u p => ?_) (Only.refl _ _ s)
  split
  · exact imageError_only p.val u
  · exact Only.refl _ _ u

/-- What bad image words leave alone: the shadow, a scan, and the records of other events. -/
def KeepsScan (s t : State) : Prop :=
  t.pix.shadow = s.pix.shadow ∧ t.pix.scan = s.pix.scan ∧ ∀ x n, n ≠ 522 → t.srcRec x n = s.srcRec x n

theorem badWords_keeps (tiles : List Nat) (bad : List (Fin 1048576)) (s : State) : KeepsScan s (badWords tiles bad s) := by
  refine List.foldlRecOn (motive := KeepsScan s) bad _ ⟨rfl, rfl, fun _ _ _ => rfl⟩ fun u h p _ => ?_
  split
  · obtain ⟨h1, h2, h3⟩ := h
    exact ⟨by rw [imageError_pix]; exact h1, by rw [imageError_pix]; exact h2,
      fun x n hn => (imageError_srcRec p.val u x hn).trans (h3 x n hn)⟩
  · exact h

/-! The tiles of the scan -/

/-- The tiles of a scan evaluated. -/
def scanTiles (k : Scan) (l : List Nat) (s : State) : State := l.foldl (scanTile k) s

theorem scanTiles_only (k : Scan) {l : List Nat} (s : State) (hl : ∀ i ∈ l, i < 64) :
    Only [.pix, .freeCount] (inBlocks [8]) s (scanTiles k l s) :=
  List.foldlRecOn (motive := Only [.pix, .freeCount] (inBlocks [8]) s) l _ (Only.refl _ _ s) fun u h i hi =>
    h.trans ((scanTile_only k u i).mono (fun _ => id) fun _ => scanRegs_inBlocks (hl i hi) (by simp))

/-- The evaluation changes of the matrix the shadow alone, and that only with EQUALISE. -/
theorem scanTiles_pix (k : Scan) (l : List Nat) (s : State) :
    (scanTiles k l s).pix = { s.pix with shadow := (scanTiles k l s).pix.shadow } ∧
      (k.equalise = false → (scanTiles k l s).pix = s.pix) := by
  refine List.foldlRecOn (motive := fun t : State => t.pix = { s.pix with shadow := t.pix.shadow } ∧ (k.equalise = false → t.pix = s.pix))
    l _ ⟨rfl, fun _ => rfl⟩ fun u ⟨h1, h2⟩ i _ => ?_
  obtain ⟨k1, k2⟩ := scanTrimmed_pix k u i
  rw [scanTile_pix]
  exact ⟨by rw [k1, h1], fun he => (k2 he).trans (h2 he)⟩

theorem scanTiles_stands {k : Scan} {u : State} (hk : ∀ v ∈ k.points, v < 1024) (i : Nat) :
    ∀ (l : List Nat) (s : State), SameScanned u s → (i ∈ l ∨ ScanStands k u i s) → ScanStands k u i (scanTiles k l s)
  | [], _, _, h => h.resolve_left (by simp)
  | j :: r, s, hs, h => by
    refine scanTiles_stands hk i r (scanTile k s j) (hs.scanTile k j) ?_
    by_cases hj : i = j
    · exact .inr (hj ▸ scanTile_stands i hs hk)
    · exact h.imp (fun hm => (List.mem_cons.1 hm).resolve_left hj) fun h => h.scanTile_ne hj

/-- Tiles copied stand as in their source. -/
theorem get_copyTiles (tiles : List Nat) (src : Sparse TileImage) (i : Nat) : ∀ dst : Sparse TileImage,
    Sparse.get (copyTiles tiles src dst) i TileImage.reset =
      if i ∈ tiles then Sparse.get src i TileImage.reset else Sparse.get dst i TileImage.reset := by
  induction tiles with
  | nil => intro dst; simp [copyTiles]
  | cons j r ih =>
    intro dst
    rw [copyTiles, List.foldl_cons]
    refine (ih _).trans ?_
    rw [Sparse.get_set]
    by_cases hr : i ∈ r
    · simp [hr]
    · by_cases hj : i = j <;> simp [hr, hj]

/-- The state at the end of a scan before its event: its tiles evaluated, their latches as the applied image has them, words found bad. -/
def scanEnded (k : Scan) (bad : List (Fin 1048576)) (u : State) : State :=
  badWords k.tiles bad ((scanTiles k k.tiles u).modPix (fun x => { x with
    scan := none
    latches := copyTiles k.tiles x.applied x.latches }))

theorem exec_threshScanDone {dt : Nat} {bad : List (Fin 1048576)} {s : State} {k : Scan} (hs : (s.elapse dt).pix.scan = some k)
    (hd : k.since + 16 * k.points.length * k.pulses * 3000 ≤ (s.elapse dt).clock.ticks) :
    exec (.threshScanDone dt bad) s = .next (raiseBase 525 sevInfo noInst (scanEnded k bad (s.elapse dt))) := by
  show execThreshScanDone dt bad s = _
  unfold execThreshScanDone
  simp only [hs]
  rw [if_neg (by omega)]
  rfl

theorem not_errorRegs_tile {i o : Nat} (hi : i < 64) (ho : o < 0x10000) : ¬ errorRegs (tileBase i + o) := by
  rintro (h | h)
  · exact not_raiseRegs_tile hi ho h
  · have : Reg.PIX_SCRUB_STATUS = 0x40044 := rfl
    unfold tileBase at h; omega

/-- A tile's results stand while its registers and the shadow do. -/
theorem ScanStands.of_same {k : Scan} {u s t : State} {i : Nat} (h : ScanStands k u i s)
    (hr : ∀ o, o < 0x10000 → t.rd (tileBase i + o) = s.rd (tileBase i + o)) (hs : t.pix.shadow = s.pix.shadow) : ScanStands k u i t := by
  have hf (o : Nat) (ho : o < 0x10000) (a b : Nat) : t.rf (tileBase i + o) a b = s.rf (tileBase i + o) a b := by
    simp only [State.rf, hr o ho]
  obtain ⟨h1, h2⟩ := h
  refine ⟨(hf 0xC008 (by omega) 14 0).trans h1, fun hd => ?_⟩
  obtain ⟨hm, hrms, hb, ht⟩ := h2 hd
  exact ⟨(hf 0xC00C (by omega) 9 0).trans hm, fun hl => (hf 0xC00C (by omega) 25 16).trans (hrms hl),
    (hf 0xC008 (by omega) 30 16).trans hb, by rw [hs]; exact ht⟩

theorem threshScanDone_happens {dt : Nat} {bad : List (Fin 1048576)} {s : State} {k : Scan} (hs : (s.elapse dt).pix.scan = some k)
    (ht : ∀ i ∈ k.tiles, i < 64) (hp : ∀ v ∈ k.points, v < 1024)
    (hd : k.since + 16 * k.points.length * k.pulses * 3000 ≤ (s.elapse dt).clock.ticks) :
    let u := s.elapse dt
    Happens ([.pix, .freeCount] ++ bothOf .evt ++ bothOf .tally) (inBlocks [4, 8, 17]) u
      (fun t => t.pix.scan = none ∧ RaisedBase 525 u t ∧ (k.equalise = false → t.pix.shadow = u.pix.shadow) ∧ ∀ i ∈ k.tiles,
        (bad = [] → Sparse.get t.pix.latches i TileImage.reset = Sparse.get u.pix.applied i TileImage.reset) ∧ ScanStands k u i t)
      (exec (.threshScanDone dt bad) s) := by
  intro u
  have h1 := scanTiles_only k u ht
  have hpix := scanTiles_pix k k.tiles u
  have h2 : Only [.pix] noReg (scanTiles k k.tiles u) _ := Only.modPix _ (fun x => { x with
    scan := none
    latches := copyTiles k.tiles x.applied x.latches }) (by simp)
  have h3 := badWords_only k.tiles bad ((scanTiles k k.tiles u).modPix (fun x => { x with
    scan := none
    latches := copyTiles k.tiles x.applied x.latches }))
  obtain ⟨k1, k2, k3⟩ := badWords_keeps k.tiles bad ((scanTiles k k.tiles u).modPix (fun x => { x with
    scan := none
    latches := copyTiles k.tiles x.applied x.latches }))
  have h4 : Only raising raiseRegs (scanEnded k bad u) (raiseBase 525 sevInfo noInst (scanEnded k bad u)) := raiseBase_only _ _ _ _
  have hend : (raiseBase 525 sevInfo noInst (scanEnded k bad u)).pix = (scanEnded k bad u).pix := h4.1 .pix (by decide)
  have hframe : Only ([.pix, .freeCount] ++ bothOf .evt ++ bothOf .tally) (inBlocks [4, 8, 17]) u (scanEnded k bad u) :=
    ((h1.mono (by simp) fun _ => by unfold inBlocks; simp +contextual).trans (h2.mono (by simp) fun _ => False.elim)).trans
      (h3.mono (by decide) fun _ => errorRegs_inBlocks (by simp) (by simp))
  refine ⟨_, exec_threshScanDone hs hd, ⟨?_, ?_, fun he => ?_, fun i hi => ⟨fun hb => ?_, ?_⟩⟩,
    hframe.trans (h4.mono (by decide) fun _ => raiseRegs_inBlocks (by simp))⟩
  · rw [hend]; exact k2
  · refine (raiseBase_raisedBase _ _ _ _).from (hframe.live (by decide) (by decide)) (fun x => ?_) (hframe.now (by decide))
    exact (k3 x 525 (by decide)).trans ((h2.srcRec x (by simp) _).trans (h1.srcRec x (by simp) _))
  · rw [hend]
    exact k1.trans (congrArg Pix.shadow (hpix.2 he) : (scanTiles k k.tiles u).pix.shadow = _)
  · rw [hend, hb]
    show Sparse.get (copyTiles k.tiles (scanTiles k k.tiles u).pix.applied _) i TileImage.reset = _
    rw [get_copyTiles, if_pos hi, hpix.1]
  · refine (scanTiles_stands hp i k.tiles u ⟨rfl, rfl⟩ (.inl hi)).of_same (fun o ho => ?_) (by rw [hend]; exact k1)
    exact (h4.rd (not_raiseRegs_tile (ht i hi) ho)).trans ((h3.rd (not_errorRegs_tile (ht i hi) ho)).trans (h2.rd (by simp [noReg])))

end Sys2Proof.Machine
end

section
/-!
### A latch rewritten by the scrubber (R60–R62)
-/

namespace Sys2Proof.Machine

theorem wantUpdate_only (s : State) : Only [.bg] noReg s (wantUpdate s) := by
  unfold wantUpdate beginUpdate
  refine (Only.setBg s { s.bg with again := true } (by simp) : Only [.bg] noReg s _).trans ?_
  split
  · exact Only.setBg _ _ (by simp)
  · exact Only.refl _ _ _

/-- The note of a rewritten latch (R61). -/
def noteFix (s : State) : State := raiseBase 521 sevNotice noInst s

/-- A retirement that the scrubber notes: the background lists the pixel, and the events of its tile, of the note and of a full list follow
in the order of their sources (R84, R86, R478). -/
theorem retirePixelWith_note (p : Nat) (s : State) : retirePixelWith noteFix p s = noteFix s ∨ ∃ v, Only [.bg] noReg s v ∧
    (retirePixelWith noteFix p s = noteFix (raiseTile (pixTile p) 3 sevNotice (pixLocal p) v) ∨
      retirePixelWith noteFix p s = raiseBase 524 sevFault noInst (noteFix (raiseTile (pixTile p) 3 sevNotice (pixLocal p) v))) := by
  unfold retirePixelWith
  split
  · exact .inl rfl
  · by_cases h : 65536 ≤ (s.entries (·.pixels)).length
    · simp only [h, ↓reduceIte]
      exact .inr ⟨_, Only.setBg s { s.bg with unlisted := insertNat p s.bg.unlisted } (by simp), .inr rfl⟩
    · simp only [h, ↓reduceIte]
      exact .inr ⟨_, (Only.setBg s _ (by simp)).trans (wantUpdate_only _), .inl rfl⟩

/-- What a retirement noted by the scrubber does: it changes the background and raises; it raises event 521 once, and no event of
another number above the tiles' but 524. -/
theorem retirePixelWith_spec {p : Nat} (s : State) (hp : p < 1048576) :
    Only (.bg :: raising) raiseRegs s (retirePixelWith noteFix p s) ∧ RaisedBase 521 s (retirePixelWith noteFix p s) ∧
      ∀ x, (retirePixelWith noteFix p s).srcRec x 522 = s.srcRec x 522 := by
  have ht : pixTile p < 64 := pixTile_lt hp
  have hnote (v : State) : Only (.bg :: raising) raiseRegs v (noteFix v) := (raiseBase_only _ _ _ _).mono (by simp) fun _ => id
  obtain h | ⟨v, h1, h⟩ := retirePixelWith_note p s
  · rw [h]
    exact ⟨hnote s, raiseBase_raisedBase _ _ _ _, fun x => raiseBase_srcRec_ne (by decide) _ _ x s⟩
  · have h2 : Only raising raiseRegs v (raiseTile (pixTile p) 3 sevNotice (pixLocal p) v) := raiseBase_only _ _ _ _
    generalize hv : raiseTile (pixTile p) 3 sevNotice (pixLocal p) v = w at h h2
    have h12 : Only (.bg :: raising) raiseRegs s w := (h1.mono (by simp) fun _ => False.elim).trans (h2.mono (by simp) fun _ => id)
    have hrec (x : Side) {n : Nat} (hn : 512 ≤ n) : w.srcRec x n = s.srcRec x n := by
      rw [← hv]
      exact (raiseBase_srcRec_ne (by omega) _ _ x _).trans (h1.srcRec x (by simp) n)
    have h521 : RaisedBase 521 s (noteFix w) := RaisedBase.from (raiseBase_raisedBase 521 sevNotice noInst w)
      (h12.live (by decide) (by decide)) (fun x => hrec x (by omega)) (h12.now (by decide))
    have h522 (x : Side) : (noteFix w).srcRec x 522 = s.srcRec x 522 := (raiseBase_srcRec_ne (by decide) _ _ x _).trans (hrec x (by omega))
    obtain h | h := h
    · rw [h]; exact ⟨h12.trans (hnote _), h521, h522⟩
    · rw [h]
      exact ⟨(h12.trans (hnote _)).trans ((raiseBase_only _ _ _ _).mono (by simp) fun _ => id),
        h521.to fun x => raiseBase_srcRec_ne (by decide) _ _ x _, fun x => (raiseBase_srcRec_ne (by decide) _ _ x _).trans (h522 x)⟩

/-- A latch rewritten and counted, before it is noted. -/
def latchFixed (s : State) (p : Nat) : State :=
  (((s.modPix (fun x => { x with
    latches := putWord x.latches p (imageWord x.applied p)
    fixes := Sparse.set x.fixes p ((Sparse.get s.pix.fixes p Faults.clear).push s.now) Faults.clear })).bump
      Reg.PIX_SCRUB_STATUS 15 0 1).tallyAll .latchFix 1)

theorem scrubFix_eq (s : State) (p : Nat) : scrubFix s p =
    if (Sparse.get s.pix.fixes p Faults.clear).third s.now then retirePixelWith noteFix p (latchFixed s p) else noteFix (latchFixed s p) := rfl

theorem latchFixed_only (s : State) (p : Nat) : Only (.pix :: raising) errorRegs s (latchFixed s p) := by
  have h1 : Only (.pix :: raising) errorRegs s (s.modPix (fun x => { x with
    latches := putWord x.latches p (imageWord x.applied p)
    fixes := Sparse.set x.fixes p ((Sparse.get s.pix.fixes p Faults.clear).push s.now) Faults.clear })) := Only.modPix s _ (by simp)
  exact (h1.trans (Only.bump _ _ _ _ _ (.inr rfl))).trans ((Only.tallyAll _ _ _).mono (by decide) fun _ => id)

theorem latchFixed_pix (s : State) (p : Nat) : (latchFixed s p).pix = { s.pix with
    latches := putWord s.pix.latches p (imageWord s.pix.applied p)
    fixes := Sparse.set s.pix.fixes p ((Sparse.get s.pix.fixes p Faults.clear).push s.now) Faults.clear } :=
  (Only.tallyAll (w := noReg) _ _ _).1 .pix (by decide)

theorem latchFixed_srcRec (s : State) (p n : Nat) (x : Side) : (latchFixed s p).srcRec x n = s.srcRec x n := by
  have h1 : Only [.pix] noReg s (s.modPix (fun x => { x with
    latches := putWord x.latches p (imageWord x.applied p)
    fixes := Sparse.set x.fixes p ((Sparse.get s.pix.fixes p Faults.clear).push s.now) Faults.clear })) := Only.modPix s _ (by simp)
  refine ((Only.tallyAll (w := noReg) _ _ _).srcRec x (by cases x <;> decide) n).trans ?_
  exact ((Only.bump (ps := []) (w := errorRegs) _ _ _ _ _ (.inr rfl)).srcRec x (by simp) n).trans (h1.srcRec x (by simp) n)

theorem latchFixed_count (s : State) (p : Nat) :
    (latchFixed s p).rf Reg.PIX_SCRUB_STATUS 15 0 = min (s.rf Reg.PIX_SCRUB_STATUS 15 0 + 1) 65535 :=
  ((Only.tallyAll (w := noReg) _ _ _).rf (by simp [noReg]) 15 0).trans (State.rf_bump_self _ _ _ (by omega) (by omega))

/-- What a rewrite of a latch does. -/
theorem scrubFix_spec {p : Nat} (s : State) (hp : p < 1048576) :
    Only (.pix :: .bg :: raising) errorRegs s (scrubFix s p) ∧ (scrubFix s p).pix = (latchFixed s p).pix ∧
      RaisedBase 521 s (scrubFix s p) ∧ (∀ x, (scrubFix s p).srcRec x 522 = s.srcRec x 522) ∧
      (scrubFix s p).rf Reg.PIX_SCRUB_STATUS 15 0 = min (s.rf Reg.PIX_SCRUB_STATUS 15 0 + 1) 65535 := by
  have h1 := latchFixed_only s p
  have hraise : Only (.bg :: raising) raiseRegs (latchFixed s p) (scrubFix s p) ∧ RaisedBase 521 (latchFixed s p) (scrubFix s p) ∧
      ∀ x, (scrubFix s p).srcRec x 522 = (latchFixed s p).srcRec x 522 := by
    rw [scrubFix_eq]
    split
    · exact retirePixelWith_spec _ hp
    · exact ⟨(raiseBase_only _ _ _ _).mono (by simp) fun _ => id, raiseBase_raisedBase _ _ _ _,
        fun x => raiseBase_srcRec_ne (by decide) _ _ x _⟩
  obtain ⟨h2, hr, h522⟩ := hraise
  refine ⟨(h1.mono (by simp) fun _ => id).trans (h2.mono (by simp) fun _ => .inl), h2.1 .pix (by decide),
    hr.from (h1.live (by decide) (by decide)) (latchFixed_srcRec s p _) (h1.now (by decide)),
    fun x => (h522 x).trans (latchFixed_srcRec s p _ x), (h2.rf (not_raiseRegs (by decide)) 15 0).trans (latchFixed_count s p)⟩

end Sys2Proof.Machine
end

section
/-!
### A pass of the configuration scrubber (R60–R64)
-/

namespace Sys2Proof.Machine

/-- A pixel whose latch agrees with its image word. -/
def LatchAgrees (s : State) (p : Nat) : Prop := imageWord s.pix.latches p = imageWord s.pix.applied p

theorem mem_differing {s : State} {i p : Nat} : p ∈ differing s i → pixTile p = i ∧ ¬ LatchAgrees s p := by
  unfold differing
  extract_lets a l
  split
  · simp
  · simp only [List.mem_map, List.mem_filter, List.mem_range, decide_eq_true_eq]
    rintro ⟨lp, ⟨hlp, hne⟩, rfl⟩
    refine ⟨pixTile_globalPix hlp, fun h => hne ?_⟩
    simp only [LatchAgrees, imageWord, pixTile_globalPix hlp, pixLocal_globalPix hlp] at h
    exact h.symm

/-- A pass compares every latch of every tile with the applied image (R60). -/
theorem mem_differing_of_not_agrees {s : State} {p : Nat} (h : ¬ LatchAgrees s p) : p ∈ differing s (pixTile p) := by
  unfold differing
  extract_lets a l
  split
  · next he => exact absurd (by simp only [LatchAgrees, imageWord]; exact congrArg (TileImage.word · (pixLocal p)) he.symm) h
  · refine List.mem_map.2 ⟨pixLocal p, List.mem_filter.2 ⟨List.mem_range.2 (pixLocal_lt p), ?_⟩, globalPix_pix p⟩
    simp only [decide_eq_true_eq]
    exact fun k => h k.symm

/-- The pixels that a pass finds to differ. -/
def allDiffering (s : State) : List Nat := (List.range 64).flatMap (differing s)

theorem mem_allDiffering {s : State} {p : Nat} : p ∈ allDiffering s ↔ p < 1048576 ∧ ¬ LatchAgrees s p := by
  unfold allDiffering
  simp only [List.mem_flatMap, List.mem_range]
  constructor
  · rintro ⟨i, hi, hp⟩
    obtain ⟨hpt, hne⟩ := mem_differing hp
    refine ⟨?_, hne⟩
    rw [← globalPix_pix p]
    exact globalPix_lt (hpt ▸ hi) (pixLocal_lt p)
  · rintro ⟨hp, hne⟩
    exact ⟨pixTile p, pixTile_lt hp, mem_differing_of_not_agrees hne⟩

theorem differing_nodup (s : State) (i : Nat) : (differing s i).Nodup := by
  unfold differing
  extract_lets a l
  split
  · exact List.nodup_nil
  · refine List.Nodup.map_on (fun x hx y hy h => ?_) (List.nodup_range.filter _)
    have hlt {z : Nat} (hz : z ∈ (List.range 16384).filter fun lp => decide (a.word lp ≠ l.word lp)) : z < 16384 :=
      List.mem_range.1 (List.mem_filter.1 hz).1
    have := congrArg pixLocal h
    rwa [pixLocal_globalPix (hlt hx), pixLocal_globalPix (hlt hy)] at this

theorem allDiffering_nodup (s : State) : (allDiffering s).Nodup := by
  refine List.nodup_flatMap.2 ⟨fun i _ => differing_nodup s i, ?_⟩
  refine List.nodup_range.imp fun {i j} hij p hi hj => hij ?_
  exact (mem_differing hi).1.symm.trans (mem_differing hj).1

/-- One latch that differs is the one a pass finds. -/
theorem allDiffering_eq_singleton {s : State} {p : Nat} (hp : p < 1048576) (h : ¬ LatchAgrees s p)
    (ho : ∀ q, q < 1048576 → q ≠ p → LatchAgrees s q) : allDiffering s = [p] := by
  refine List.perm_singleton.1 ((List.perm_ext_iff_of_nodup (allDiffering_nodup s) (List.nodup_singleton p)).2 fun q => ?_)
  rw [mem_allDiffering, List.mem_singleton]
  constructor
  · rintro ⟨hq, hne⟩
    exact by_contra fun hqp => hne (ho q hq hqp)
  · rintro rfl
    exact ⟨hp, h⟩

/-! Latches rewritten -/

/-- The latches of some pixels rewritten. -/
def scrubFixes (l : List Nat) (s : State) : State := l.foldl scrubFix s

theorem scrubFix_word {p : Nat} (q : Nat) (s : State) (hp : p < 1048576) :
    (scrubFix s p).pix.applied = s.pix.applied ∧
      imageWord (scrubFix s p).pix.latches q = if q = p then imageWord s.pix.applied p else imageWord s.pix.latches q := by
  obtain ⟨-, hpix, -⟩ := scrubFix_spec s hp
  rw [hpix, latchFixed_pix]
  exact ⟨rfl, imageWord_putWord _ _ _ _⟩

/-- What rewriting latches keeps: its frame, the applied image, the count's side of event 522, and every latch that agreed. -/
structure Scrubbed (s t : State) : Prop where
  only : Only (.pix :: .bg :: raising) errorRegs s t
  applied : t.pix.applied = s.pix.applied
  recs : ∀ x, t.srcRec x 522 = s.srcRec x 522
  agrees : ∀ q, LatchAgrees s q → LatchAgrees t q

theorem Scrubbed.refl (s : State) : Scrubbed s s := ⟨Only.refl _ _ s, rfl, fun _ => rfl, fun _ => id⟩

theorem Scrubbed.trans {s t u : State} (h : Scrubbed s t) (k : Scrubbed t u) : Scrubbed s u :=
  ⟨h.only.trans k.only, k.applied.trans h.applied, fun x => (k.recs x).trans (h.recs x), fun q hq => k.agrees q (h.agrees q hq)⟩

theorem scrubFix_scrubbed {p : Nat} (s : State) (hp : p < 1048576) : Scrubbed s (scrubFix s p) ∧ LatchAgrees (scrubFix s p) p := by
  obtain ⟨ho, -, -, hr, -⟩ := scrubFix_spec s hp
  have hw (q : Nat) := scrubFix_word q s hp
  refine ⟨⟨ho, (hw p).1, hr, fun q hq => ?_⟩, ?_⟩
  · rw [LatchAgrees, (hw q).1, (hw q).2]
    split
    · next h => rw [h]
    · exact hq
  · rw [LatchAgrees, (hw p).1, (hw p).2, if_pos rfl]

theorem scrubFixes_scrubbed : ∀ {l : List Nat} (s : State), (∀ p ∈ l, p < 1048576) →
    Scrubbed s (scrubFixes l s) ∧ ∀ p ∈ l, LatchAgrees (scrubFixes l s) p
  | [], s, _ => ⟨Scrubbed.refl s, by simp⟩
  | p :: r, s, hl => by
    obtain ⟨h1, hp⟩ := scrubFix_scrubbed s (hl p List.mem_cons_self)
    obtain ⟨h2, hr⟩ := scrubFixes_scrubbed (scrubFix s p) fun q hq => hl q (List.mem_cons_of_mem _ hq)
    refine ⟨h1.trans h2, fun q hq => ?_⟩
    obtain rfl | hq := List.mem_cons.1 hq
    · exact h2.agrees q hp
    · exact hr q hq

/-! The pass -/

/-- The latches with upsets in some of them. -/
theorem flipLatches_only (flips : List Flip) (s : State) : Only [.pix] noReg s (flipLatches flips s) := Only.modPix s _ (by simp)

theorem flipLatches_nil (s : State) : flipLatches [] s = s := rfl

/-- The pixels that a pass rewrites: those that differ, but for the ones whose image word is bad. -/
def toFix (bad : List (Fin 1048576)) (s : State) : List Nat := (allDiffering s).filter (fun p => !bad.any (fun b => b.val = p))

/-- A full pass (R60–R64). -/
def scrubPass (flips : List Flip) (bad : List (Fin 1048576)) (u : State) : State :=
  scrubAnew (bad.foldl (fun t p => imageError p.val t) (scrubFixes (toFix bad (flipLatches flips u)) (flipLatches flips u)))

theorem exec_pixScrubPass {dt : Nat} {flips : List Flip} {bad : List (Fin 1048576)} {s : State}
    (hm : (s.elapse dt).power.mode = .active) (hc : (s.elapse dt).rb Reg.PIX_SCRUB_CTRL 0 = false)
    (ha : (s.elapse dt).pix.apply = none) (hp : scrubPeriod (s.elapse dt) ≤ (s.elapse dt).clock.scrub) :
    exec (.pixScrubPass dt flips bad) s = .next (scrubPass flips bad (s.elapse dt)) := by
  show execPixScrubPass dt flips bad s = _
  have hr : scrubRuns (s.elapse dt) = true := by unfold scrubRuns; rw [hm, hc, ha]; decide
  unfold execPixScrubPass
  extract_lets u s1 fix s2
  rw [if_neg (by rw [show scrubRuns u = true from hr]; simpa using hp)]
  rfl

theorem imageErrors_only (bad : List (Fin 1048576)) (s : State) :
    Only (.pix :: raising) errorRegs s (bad.foldl (fun t p => imageError p.val t) s) :=
  Only.foldl (fun u p => imageError_only p.val u) (Only.refl _ _ s)

theorem toFix_lt {bad : List (Fin 1048576)} {s : State} {p : Nat} (h : p ∈ toFix bad s) : p < 1048576 :=
  (mem_allDiffering.1 (List.mem_filter.1 h).1).1

theorem scrubPass_only (flips : List Flip) (bad : List (Fin 1048576)) (u : State) :
    Only ([.clock, .pix, .bg] ++ bothOf .evt ++ bothOf .tally) (inBlocks [4, 17]) u (scrubPass flips bad u) := by
  have h1 := flipLatches_only flips u
  obtain ⟨⟨h2, -, -, -⟩, -⟩ := scrubFixes_scrubbed (l := toFix bad (flipLatches flips u)) (flipLatches flips u) fun _ => toFix_lt
  have h3 := imageErrors_only bad (scrubFixes (toFix bad (flipLatches flips u)) (flipLatches flips u))
  have he : ∀ a, errorRegs a → inBlocks [4, 17] a := fun _ => errorRegs_inBlocks (by simp) (by simp)
  exact (((h1.mono (by simp) fun _ => False.elim).trans (h2.mono (by decide) he)).trans (h3.mono (by decide) he)).trans
    (Only.setClock _ _ (by simp))

theorem scrubPass_clock (flips : List Flip) (bad : List (Fin 1048576)) (u : State) :
    (scrubPass flips bad u).clock = { u.clock with scrub := 0 } := by
  have h1 := flipLatches_only flips u
  obtain ⟨⟨h2, -, -, -⟩, -⟩ := scrubFixes_scrubbed (l := toFix bad (flipLatches flips u)) (flipLatches flips u) fun _ => toFix_lt
  have h3 := imageErrors_only bad (scrubFixes (toFix bad (flipLatches flips u)) (flipLatches flips u))
  have hc := (h3.1 .clock (by decide)).trans ((h2.1 .clock (by decide)).trans (h1.1 .clock (by simp)))
  exact congrArg (fun c : Clock => { c with scrub := 0 }) hc

/-- After a pass that finds no image word bad every latch is its image word (R60, R61). -/
theorem scrubPass_agrees (flips : List Flip) (u : State) {p : Nat} (hp : p < 1048576) :
    imageWord (scrubPass flips [] u).pix.latches p = imageWord u.pix.applied p := by
  obtain ⟨h, hfix⟩ := scrubFixes_scrubbed (l := toFix [] (flipLatches flips u)) (flipLatches flips u) fun _ => toFix_lt
  have ha : (scrubFixes (toFix [] (flipLatches flips u)) (flipLatches flips u)).pix.applied = u.pix.applied := h.applied
  have hall : LatchAgrees (scrubFixes (toFix [] (flipLatches flips u)) (flipLatches flips u)) p := by
    by_cases hag : LatchAgrees (flipLatches flips u) p
    · exact h.agrees p hag
    · exact hfix p (List.mem_filter.2 ⟨mem_allDiffering.2 ⟨hp, hag⟩, by simp⟩)
  exact hall.trans (by rw [ha])

/-- One upset is rewritten, counted and noted (R61). -/
theorem scrubPass_flip {f : Flip} {u : State} (hag : ∀ p, p < 1048576 → LatchAgrees u p) (hf : f.val ≠ imageWord u.pix.applied f.p) :
    RaisedBase 521 u (scrubPass [f] [] u) ∧
      (scrubPass [f] [] u).rf Reg.PIX_SCRUB_STATUS 15 0 = min (u.rf Reg.PIX_SCRUB_STATUS 15 0 + 1) 65535 := by
  have hw (q : Nat) : imageWord (flipLatches [f] u).pix.latches q = if q = f.p.val then f.val else imageWord u.pix.latches q :=
    imageWord_putWord _ _ _ _
  have hd : allDiffering (flipLatches [f] u) = [f.p.val] := by
    refine allDiffering_eq_singleton f.p.isLt (fun h => hf ?_) fun q hq hne => ?_
    · rw [LatchAgrees, hw, if_pos rfl] at h
      exact h
    · rw [LatchAgrees, hw, if_neg hne]
      exact hag q hq
  have ht : scrubPass [f] [] u = scrubAnew (scrubFix (flipLatches [f] u) f.p.val) := by
    simp only [scrubPass, toFix, hd]
    rfl
  obtain ⟨-, -, hr, -, hc⟩ := scrubFix_spec (flipLatches [f] u) f.p.isLt
  have h1 := flipLatches_only [f] u
  have h2 : Only [.clock] noReg _ (scrubAnew (scrubFix (flipLatches [f] u) f.p.val)) := Only.setClock _ _ (by simp)
  rw [ht]
  refine ⟨(hr.from (h1.live (by simp) (by simp)) (fun x => h1.srcRec x (by simp) _) (h1.now (by simp))).to
    fun x => h2.srcRec x (by simp) _, ?_⟩
  rw [h2.rf (by simp [noReg]), hc, h1.rf (by simp [noReg])]

/-- A bad image word is 0, its latch disabled, and noted (R64). -/
theorem scrubPass_bad (p : Fin 1048576) (u : State) :
    imageWord (scrubPass [] [p] u).pix.applied p = 0 ∧ (imageWord (scrubPass [] [p] u).pix.latches p).getLsbD 0 = false ∧
      RaisedBase 522 u (scrubPass [] [p] u) := by
  obtain ⟨h, -⟩ := scrubFixes_scrubbed (l := toFix [p] u) u fun _ => toFix_lt
  have hpix : (scrubPass [] [p] u).pix = (imageError p.val (scrubFixes (toFix [p] u) u)).pix := rfl
  have hm : Only [.pix] errorRegs (scrubFixes (toFix [p] u) u) _ := Only.modPix (scrubFixes (toFix [p] u) u) (fun x => { x with
      applied := putWord x.applied p 0
      latches := putWord x.latches p (imageWord x.latches p &&& 0x3FE) }) (by simp)
  have hb : Only [.pix] errorRegs (scrubFixes (toFix [p] u) u) _ := hm.trans (Only.bump _ Reg.PIX_SCRUB_STATUS 23 16 1 (.inr rfl))
  rw [hpix, imageError_pix]
  refine ⟨imageWord_putWord_self _ _ _, ?_, ?_⟩
  · rw [imageWord_putWord_self]
    simp
  · have hr : RaisedBase 522 u (imageError p.val (scrubFixes (toFix [p] u) u)) :=
      ((raiseBase_raisedBase 522 sevFault noInst _).from (hb.live (by simp) (by simp)) (fun x => hb.srcRec x (by simp) _)
        (hb.now (by simp))).from (h.only.live (by decide) (by decide)) h.recs (h.only.now (by decide))
    exact hr.to fun x => (Only.setClock (ps := [.clock]) (w := noReg) _ _ (by simp)).srcRec x (by simp) _

/-- Settles O25: each row by what its parts do, the two ends of a scan and the pass of the scrubber by what one tile and one latch do. -/
theorem matrixOperationsTakeEffect : Obligations.MatrixOperationsTakeEffect := by
  intro dt c s u x
  refine ⟨fun m => exec_awlPulse, fun lo hi points pulses => exec_threshScan, fun k bad hs ht hp hd => threshScanDone_happens hs ht hp hd,
    fun flips bad hm hc ha hp => ?_, fun i dac h => ⟨_, exec_driftMeasure h, driftReported_spec dac.toNat u i.isLt⟩⟩
  refine ⟨_, exec_pixScrubPass hm hc ha hp, ⟨scrubPass_clock flips bad u, ?_, ?_, ?_⟩, scrubPass_only flips bad u⟩
  · rintro rfl p hp
    exact scrubPass_agrees flips u hp
  · rintro f rfl rfl hag hf
    exact scrubPass_flip hag hf
  · rintro p rfl rfl
    exact scrubPass_bad p u

end Sys2Proof.Machine
end

section
/-!
### A configuration captured (R51–R53, R65)
-/

namespace Sys2Proof.Machine

/-- The registers that answering a command writes lie on a side. -/
theorem answerRegs_side {a : Nat} (h : answerRegs a) : 0x01000000 ≤ a := by
  obtain ⟨x, h | h | h | h⟩ := h <;> subst h <;> cases x <;> decide

theorem raiseRegs_side {a : Nat} (h : raiseRegs a) : 0x01000000 ≤ a := by
  obtain ⟨x, h | h | h⟩ := h <;> subst h <;> cases x <;> decide

theorem mem_maskOrAll {lo hi : Word} {i : Nat} (h : i ∈ maskOrAll lo hi) : i < 64 := by
  unfold maskOrAll at h
  split at h
  · exact List.mem_range.1 h
  · exact List.mem_range.1 (List.mem_filter.1 h).1

theorem captureErrors_only (tiles : List Nat) (bad : List (Fin 1048576)) (s : State) :
    Only (.pix :: raising) errorRegs s (captureErrors tiles bad s) := by
  refine Only.foldl (fun u p => ?_) (Only.refl _ _ s)
  split
  · exact shadowError_only p.val u
  · exact Only.refl _ _ u

/-- What uncorrectable shadow words leave of the matrix. -/
theorem captureErrors_pix (tiles : List Nat) (bad : List (Fin 1048576)) (s : State) :
    (captureErrors tiles bad s).pix = { s.pix with shadow := (captureErrors tiles bad s).pix.shadow } := by
  refine List.foldlRecOn (motive := fun t : State => t.pix = { s.pix with shadow := t.pix.shadow }) bad _ rfl fun u h p _ => ?_
  split
  · rw [shadowError_pix, h]
  · exact h

/-- A shadow word of a captured tile that reads uncorrectable is 0 (R65). -/
theorem captureErrors_zero {tiles : List Nat} {q : Nat} (ht : pixTile q ∈ tiles) :
    ∀ (bad : List (Fin 1048576)) (s : State), ((∃ p ∈ bad, p.val = q) ∨ imageWord s.pix.shadow q = 0) →
      imageWord (captureErrors tiles bad s).pix.shadow q = 0
  | [], _, h => h.resolve_left (by simp)
  | p :: r, s, h => by
    rw [captureErrors, List.foldl_cons]
    refine captureErrors_zero ht r _ ?_
    by_cases hp : p.val = q
    · right
      rw [if_pos (by rw [hp]; simpa using ht), shadowError_pix, hp]
      exact imageWord_putWord_self _ _ _
    · refine h.imp (fun ⟨e, he, heq⟩ => ⟨e, (List.mem_cons.1 he).resolve_left fun k => hp (k ▸ heq), heq⟩) fun h0 => ?_
      split
      · rw [shadowError_pix]
        exact (imageWord_putWord _ _ _ _).trans (by rw [if_neg (Ne.symm hp)]; exact h0)
      · exact h0

/-- What a capture reads beside the shadow: registers of base control and the tiles, the clock, and the run. -/
theorem polarityChange_of_rd {s t : State} (h : ∀ a, a < 0x01000000 → t.rd a = s.rd a) : polarityChange t = polarityChange s := by
  unfold polarityChange State.rb
  rw [h Reg.PIX_MODE (by decide), h Reg.PIX_MODE_APPLIED (by decide)]

theorem not_errorRegs_of {a : Nat} (h : a < 0x01000000) (hs : a ≠ Reg.PIX_SCRUB_STATUS) : ¬ errorRegs a := by
  rintro (k | k)
  · have := raiseRegs_side k
    omega
  · exact hs k

theorem beginApply_only (tiles : List Nat) (w : Option Waiting) (s : State) : Only [.pix] noReg s (beginApply tiles w s) := by
  unfold beginApply; exact Only.modPix s _ (by simp)

theorem exec_configApply {dt : Nat} {c : Ctx} {s : State} {lo hi : Word} {bad : List (Fin 1048576)}
    (h : Admitted c (.configApply lo hi) none (s.elapse dt)) (ha : (s.elapse dt).pix.apply = none) (hs : (s.elapse dt).pix.scan = none)
    (hp : polarityChange (s.elapse dt) = false ∨ (s.elapse dt).trg.run = .idle) :
    let u := s.elapse dt
    exec (.configApply dt c lo hi bad) s = .next (beginApply (maskOrAll lo hi) (some ⟨receiver u c, 0x20, c, u.clock.ticks⟩)
      (captureErrors (maskOrAll lo hi) bad (taken (receiver u c) c u))) := by
  intro u
  have htk := taken_only (receiver u c) c u
  have htrg : (taken (receiver u c) c u).trg = u.trg := htk.1 .trg (by decide)
  have hpix : (taken (receiver u c) c u).pix = u.pix := htk.1 .pix (by decide)
  have hpol : polarityChange (taken (receiver u c) c u) = polarityChange u :=
    polarityChange_of_rd fun a ha => htk.rd fun k => by have := answerRegs_side k; omega
  have hclk : (taken (receiver u c) c u).clock = u.clock := taken_clock _ c u
  have hbody : (if (taken (receiver u c) c u).pix.apply.isSome || (taken (receiver u c) c u).pix.scan.isSome then
        refuse (taken (receiver u c) c u) .busy
      else if polarityChange (taken (receiver u c) c u) && (taken (receiver u c) c u).trg.run ≠ .idle then
        refuse (taken (receiver u c) c u) .wrongState
      else Res.later (beginApply (maskOrAll lo hi) (some ⟨receiver u c, 0x20, c, (taken (receiver u c) c u).clock.ticks⟩)
        (captureErrors (maskOrAll lo hi) bad (taken (receiver u c) c u)))) =
      .later (beginApply (maskOrAll lo hi) (some ⟨receiver u c, 0x20, c, u.clock.ticks⟩)
        (captureErrors (maskOrAll lo hi) bad (taken (receiver u c) c u))) := by
    rw [hpix, htrg, hpol, hclk, show u.pix.apply = none from ha, show u.pix.scan = none from hs, if_neg (by decide), if_neg]
    obtain h | h := hp
    · rw [show polarityChange u = false from h]; simp
    · rw [show u.trg.run = .idle from h]; simp
  show execConfigApply dt c lo hi bad s = _
  unfold execConfigApply command
  rw [runCommand_later h hbody, crossed_of_not_forward rfl]

/-- CONFIG_APPLY stands with what it captured, and changes nothing more (R51–R53). -/
theorem configApply_captures {dt : Nat} {c : Ctx} {s : State} {lo hi : Word} {bad : List (Fin 1048576)}
    (h : Admitted c (.configApply lo hi) none (s.elapse dt)) (ha : (s.elapse dt).pix.apply = none) (hs : (s.elapse dt).pix.scan = none)
    (hp : polarityChange (s.elapse dt) = false ∨ (s.elapse dt).trg.run = .idle) :
    let u := s.elapse dt
    let tiles := maskOrAll lo hi
    let v := captureErrors tiles bad (taken (receiver u c) c u)
    ∃ t, exec (.configApply dt c lo hi bad) s = .next t ∧ Only [.pix] noReg v t ∧ t.pix.latches = v.pix.latches ∧
      t.pix.applied = v.pix.applied ∧ t.pix.shadow = v.pix.shadow ∧
      t.pix.apply = some ⟨tiles, v.pix.shadow, tiles.map (fun i => (i, u.rd (Reg.PIX_THR i))), u.rd Reg.PIX_MODE, u.clock.ticks,
        boundaryAfter u 300000, false, some ⟨receiver u c, 0x20, c, u.clock.ticks⟩⟩ ∧
      (∀ p ∈ bad, pixTile p ∈ tiles → imageWord v.pix.shadow p = 0) := by
  intro u tiles v
  have htk := taken_only (receiver u c) c u
  have hce := captureErrors_only tiles bad (taken (receiver u c) c u)
  have hrd (a : Nat) (h1 : a < 0x01000000) (h2 : a ≠ Reg.PIX_SCRUB_STATUS) : v.rd a = u.rd a :=
    (hce.rd (not_errorRegs_of h1 h2)).trans (htk.rd fun k => by have := answerRegs_side k; omega)
  have hclk : v.clock = u.clock := (hce.1 .clock (by decide)).trans (taken_clock _ c u)
  have hthr : tiles.map (fun i => (i, v.rd (Reg.PIX_THR i))) = tiles.map (fun i => (i, u.rd (Reg.PIX_THR i))) := by
    refine List.map_congr_left fun i hi => congrArg (Prod.mk i) (hrd _ ?_ ?_)
    · have := mem_maskOrAll hi
      unfold Reg.PIX_THR tileBase; omega
    · unfold Reg.PIX_THR tileBase Reg.PIX_SCRUB_STATUS; omega
  have hB : boundaryAfter v 300000 = boundaryAfter u 300000 := by
    simp only [boundaryAfter, State.sliceTicks, State.rf, hrd Reg.TIL_SLICE (by decide) (by decide), State.now, hclk]
  refine ⟨_, exec_configApply h ha hs hp, beginApply_only _ _ v, rfl, rfl, rfl, ?_, fun p hb ht => ?_⟩
  · show some (Apply.mk tiles v.pix.shadow _ (v.rd Reg.PIX_MODE) v.clock.ticks (boundaryAfter v 300000) false _) = _
    rw [hthr, hrd Reg.PIX_MODE (by decide) (by decide), hclk, hB]
  · exact captureErrors_zero ht bad _ (.inl ⟨p, hb, rfl⟩)

end Sys2Proof.Machine
end

section
/-!
### Staging done (R52)
-/

namespace Sys2Proof.Machine

/-- The matrix as staging ends, with the writes that it held about to land. -/
def stagedPix (a : Apply) (f : Pix) : Pix :=
  { f with
    apply := some { a with staged := true }
    held := [] }

theorem stagingDone_eq {u : State} {a : Apply} (h : u.pix.apply = some a) (hs : a.staged = false) :
    stagingDone u = barrierCheck (u.pix.held.foldl landHeld (u.modPix (stagedPix a))) := by
  unfold stagingDone
  simp only [h, hs, Bool.false_eq_true, ↓reduceIte]
  rfl

theorem formReply_pix (x : Side) (c : Ctx) (r : Reply) (s : State) : (formReply x c r s).pix = s.pix :=
  (formReply_only x c r s).1 .pix (by decide)

theorem imageWord_shadowWrite (p : Nat) (w : Word) (s : State) : imageWord (shadowWrite p w s).pix.shadow p = w.setWidth 10 := by
  rw [shadowWrite_lands, if_pos rfl]

/-- A held MODIFY_REG lands, and its reply has the old word. -/
theorem landHeld_modify {w : Waiting} {p q : Nat} {mask v : Word} (s : State) (hq : shadowPixel q = some p) :
    let t := landHeld s ⟨w, [(q, mask, v)], 0, true, false, false⟩
    imageWord t.pix.shadow p = (mixBits (shadowRead s p) mask v).setWidth 10 ∧ Replied w.x w.ctx w.op .ok (shadowRead s p) [] t := by
  intro t
  have ht : t = formReply w.x w.ctx (replyTo (shadowWrite p (mixBits (shadowRead s p) mask v) s) w.x w.ctx w.op .ok (shadowRead s p) [])
      (shadowWrite p (mixBits (shadowRead s p) mask v) s) := by
    simp only [t, landHeld, heldError, landWord, List.head?_cons, List.foldl_cons, List.foldl_nil, hq, Bool.and_false, Bool.false_eq_true,
      ↓reduceIte, mixBits]
  rw [ht, formReply_pix, imageWord_shadowWrite]
  exact ⟨rfl, formReply_replied _ _ _ _ _ _ _ _⟩

/-- A held WRITE_REG lands and replies. -/
theorem landHeld_write {w : Waiting} {p q : Nat} {v : Word} (s : State) (hq : shadowPixel q = some p) :
    let t := landHeld s ⟨w, [(q, 0xFFFFFFFF, v)], 0, false, false, false⟩
    imageWord t.pix.shadow p = v.setWidth 10 ∧ Replied w.x w.ctx w.op .ok 0 [] t := by
  intro t
  have hall (old : Word) : (old &&& ~~~0xFFFFFFFF) ||| (v &&& 0xFFFFFFFF) = v := by
    rw [show (0xFFFFFFFF : Word) = BitVec.allOnes 32 from rfl, BitVec.not_allOnes, BitVec.and_zero, BitVec.zero_or,
      BitVec.and_allOnes]
  have ht : t = formReply w.x w.ctx (replyTo (shadowWrite p v s) w.x w.ctx w.op .ok 0 []) (shadowWrite p v s) := by
    simp only [t, landHeld, heldError, landWord, List.foldl_cons, List.foldl_nil, hq, Bool.false_and, Bool.false_eq_true, ↓reduceIte, hall]
  rw [ht, formReply_pix, imageWord_shadowWrite]
  exact ⟨rfl, formReply_replied _ _ _ _ _ _ _ _⟩

/-- The held writes land in their order as staging ends (R52). -/
theorem configStagingDone_lands {dt : Nat} {s : State} {a : Apply} (h : (s.elapse dt).pix.apply = some a) (hs : a.staged = false) :
    let u := s.elapse dt
    let t := u.pix.held.foldl landHeld (u.modPix (stagedPix a))
    exec (.configStagingDone dt) s = .next (barrierCheck t) ∧
      (∀ w p q mask v, u.pix.held = [⟨w, [(q, mask, v)], 0, true, false, false⟩] → shadowPixel q = some p →
        imageWord t.pix.shadow p = (mixBits (shadowRead u p) mask v).setWidth 10 ∧ Replied w.x w.ctx w.op .ok (shadowRead u p) [] t) ∧
      (∀ w p q v, u.pix.held = [⟨w, [(q, 0xFFFFFFFF, v)], 0, false, false, false⟩] → shadowPixel q = some p →
        imageWord t.pix.shadow p = v.setWidth 10 ∧ Replied w.x w.ctx w.op .ok 0 [] t) := by
  intro u t
  refine ⟨congrArg _ (stagingDone_eq h hs), fun w p q mask v hh hq => ?_, fun w p q v hh hq => ?_⟩
  · simp only [t, hh, List.foldl_cons, List.foldl_nil]
    exact landHeld_modify (u.modPix (stagedPix a)) hq
  · simp only [t, hh, List.foldl_cons, List.foldl_nil]
    exact landHeld_write (u.modPix (stagedPix a)) hq

end Sys2Proof.Machine
end

section
/-!
### Work on a side: what port settings, barriers and notices leave alone
-/

namespace Sys2Proof.Machine

/-- The parts of the sides' links, events and lace, and of the transports. -/
def sideParts : List Part := .spi :: .lace :: bothOf .lnk ++ bothOf .evt ++ bothOf .tally ++ bothOf .lce ++ bothOf .mgt ++ bothOf .wlt

/-- The registers of the sides (R584). -/
def onSides (a : Nat) : Prop := 0x01000000 ≤ a

theorem onSides_add (x : Side) (o : Nat) : onSides (sideBase x + o) := by
  unfold onSides; cases x <;> simp only [sideBase] <;> omega

theorem onSides_port (x : Side) (o n : Nat) : onSides (sideBase x + o + n) := by
  rw [Nat.add_assoc]; exact onSides_add x _

/-- Work on the sides alone, in which no event of the base tier is raised: it leaves base control and the tiles, and the record of event
520, as they are. -/
structure SideWork (s t : State) : Prop where
  only : Only sideParts onSides s t
  recs : ∀ y, t.srcRec y 520 = s.srcRec y 520

namespace SideWork

variable {s t u : State} {x : Side}

theorem refl (s : State) : SideWork s s := ⟨Only.refl _ _ s, fun _ => rfl⟩

theorem trans (h : SideWork s t) (k : SideWork t u) : SideWork s u := ⟨h.only.trans k.only, fun y => (k.recs y).trans (h.recs y)⟩

theorem foldl {α : Type} {f : State → α → State} (h : ∀ t a, SideWork t (f t a)) (l : List α) (s : State) : SideWork s (l.foldl f s) :=
  List.foldlRecOn (motive := SideWork s) l _ (refl s) fun t ht a _ => ht.trans (h t a)

theorem both {f : Side → State → State} (h : ∀ x t, SideWork t (f x t)) (s : State) : SideWork s (s.both f) := (h .a s).trans (h .b _)

theorem ite {c : Prop} [Decidable c] {a b : State} (ha : SideWork s a) (hb : SideWork s b) : SideWork s (if c then a else b) := by
  split
  · exact ha
  · exact hb

/-- What touches no events. -/
theorem of_only {ps : List Part} {w : Nat → Prop} (h : Only ps w s t) (hps : ps ⊆ sideParts) (hw : ∀ a, w a → onSides a)
    (he : ∀ y, .evt y ∉ ps) : SideWork s t := ⟨h.mono hps hw, fun y => h.srcRec y (he y) 520⟩

theorem modLnk (x : Side) (f : Lnk → Lnk) (s : State) : SideWork s (s.modLnk x f) :=
  of_only (Only.modLnk (ps := [.lnk x]) (w := noReg) s x f (by simp)) (by cases x <;> decide) (fun _ => False.elim) (by simp)

theorem modPort (x : Side) (p : Nat) (f : Port → Port) (s : State) : SideWork s (s.modPort x p f) := modLnk x _ s

theorem modLane (x : Side) (p l : Nat) (f : Lane → Lane) (s : State) : SideWork s (s.modLane x p l f) := modLnk x _ s

theorem tookSeq (x : Side) (n : Nat) (s : State) : SideWork s (s.tookSeq x n) := modLnk x _ s

theorem wr {a : Nat} (h : onSides a) (v : Word) (s : State) : SideWork s (s.wr a v) :=
  of_only (Only.wr (ps := []) s a v h) (by simp) (fun _ => id) (by simp)

theorem wf {a : Nat} (h : onSides a) (hi lo v : Nat) (s : State) : SideWork s (s.wf a hi lo v) :=
  of_only (Only.wf (ps := []) s a hi lo v h) (by simp) (fun _ => id) (by simp)

theorem bump {a : Nat} (h : onSides a) (hi lo n : Nat) (s : State) : SideWork s (s.bump a hi lo n) :=
  of_only (Only.bump (ps := []) s a hi lo n h) (by simp) (fun _ => id) (by simp)

theorem tally (x : Side) (c : Tally) (n : Nat) (s : State) : SideWork s (s.tally x c n) :=
  of_only (Only.tally (ps := [.tally x]) (w := noReg) s x c n (by simp)) (by cases x <;> decide) (fun _ => False.elim) (by simp)

theorem setLace (v : LaceBase) (s : State) : SideWork s { s with lace := v } :=
  of_only (Only.setLace (ps := [.lace]) (w := noReg) s v (by simp)) (by decide) (fun _ => False.elim) (by simp)

theorem setSpi (v : Spi) (s : State) : SideWork s { s with spi := v } :=
  of_only (Only.setSpi (ps := [.spi]) (w := noReg) s v (by simp)) (by decide) (fun _ => False.elim) (by simp)

/-- Events of a side changed, the records kept. -/
theorem modEvt (x : Side) {f : EvState → EvState} (h : ∀ v, (f v).recs = v.recs) (s : State) : SideWork s (s.modEvt x f) := by
  refine ⟨Only.modEvt s x f (by cases x <;> decide), fun y => srcRec_of_recs ?_ 520⟩
  by_cases hy : y = x
  · subst hy; rw [State.modEvt_self, h]
  · rw [State.modEvt_ne s f hy]

theorem evSettle (x : Side) (s : State) : SideWork s (evSettle x s) := by
  unfold Sys2Proof.Machine.evSettle; exact modEvt x (by exact fun _ => rfl) s

theorem evMark (x : Side) (f : EvEntry → EvEntry) (s : State) : SideWork s (evMark x f s) := by
  unfold Sys2Proof.Machine.evMark; exact modEvt x (by exact fun _ => rfl) s

/-- An event of a side is not of the base tier (R470). -/
theorem raiseSide (x : Side) {n : Nat} (h : 520 < n) (sev inst : Nat) (s : State) : SideWork s (raiseSide x n sev inst s) := by
  refine ⟨(raiseSide_only x n sev inst s).mono (by decide) fun _ => raiseRegs_side, fun y => ?_⟩
  unfold Sys2Proof.Machine.raiseSide
  split
  · rw [raiseAt_srcRec, if_neg]
    rintro ⟨-, hk⟩
    simp only [srcOn] at hk
    omega
  · rfl

theorem formReply (x : Side) (c : Ctx) (r : Reply) (s : State) : SideWork s (formReply x c r s) :=
  of_only (formReply_only x c r s) (by decide) (fun _ => answerRegs_side) fun y => by cases y <;> decide

/-! Frames (R364, R370) -/

theorem portNext (x : Side) (p : Nat) (s : State) : SideWork s (portNext x p s) := by
  unfold Sys2Proof.Machine.portNext
  extract_lets q
  split
  · exact refl s
  · split
    · split
      · exact (modPort x p _ s).trans (modPort x p _ _)
      · exact refl s
    · split
      · exact refl s
      · exact ite (refl s) ((modPort x p _ s).trans (modPort x p _ _))

theorem sendNotice (x : Side) (kind st : Nat) (ws : List Word72) (ports : List Nat) (s : State) :
    SideWork s (sendNotice x kind st ws ports s) :=
  (foldl (fun t p => (modPort x p _ t).trans (portNext x p _)) ports s).trans (tookSeq x 5 _)

theorem onFrameEntries (x : Side) (fr : Frame) (f : EvEntry → EvEntry) (s : State) : SideWork s (onFrameEntries x fr f s) :=
  ite (evMark x _ s) (refl s)

theorem dropEvents (x : Side) (p : Nat) (s : State) : SideWork s (dropEvents x p s) :=
  ((foldl (fun t f => onFrameEntries x f _ t) _ s).trans (modPort x p _ _)).trans (evSettle x _)

/-! Ports (R360, R366, R418) -/

theorem failPort (x : Side) (p : Nat) (s : State) : SideWork s (failPort x p s) :=
  ((modPort x p _ s).trans (raiseSide x (by decide) _ _ _)).trans (dropEvents x p _)

theorem enterTraining (x : Side) (p : Nat) (s : State) : SideWork s (enterTraining x p s) := by
  unfold Sys2Proof.Machine.enterTraining
  extract_lets s1 anyLock idle s2
  have h1 : SideWork s s1 := (modPort x p _ s).trans (foldl (fun t l => modLane x p l _ t) _ _)
  have h2 : SideWork s s2 := h1.trans (modPort x p _ _)
  exact ite (h2.trans (failPort x p _)) h2

theorem reportCut (x : Side) (p : Nat) (b : Block) (s : State) : SideWork s (reportCut x p b s) := by
  have h1 : SideWork s ((s.bump (Reg.LNK_PORT_ERR x p) 7 0 1).tally x .cut 1) :=
    (bump (onSides_port x _ _) _ _ _ s).trans (tally x _ _ _)
  unfold Sys2Proof.Machine.reportCut
  extract_lets s1 s2 others
  have h2 : SideWork s s2 := ite h1 (h1.trans ((modLnk x _ _).trans (raiseSide x (by decide) _ _ _)))
  exact h2.trans (sendNotice x _ _ _ _ _)

theorem modLce (x : Side) (f : Lce → Lce) (s : State) : SideWork s (s.modSide x fun d => { d with lce := f d.lce }) :=
  of_only (Only.modSide (ps := [.lce x]) (w := noReg) s x _ (by simp)) (by cases x <;> decide) (fun _ => False.elim) (by simp)

theorem laceLockLost (x : Side) (role : Nat) (s : State) : SideWork s (laceLockLost x role s) := by
  unfold Sys2Proof.Machine.laceLockLost
  split
  · extract_lets s1
    have h1 : SideWork s s1 := modLce x (fun l => { l with exchanged := false, good := 0 }) s
    refine ite (h1.trans (((setLace _ s1).trans (both (fun y t => ?_) _)).trans (raiseSide x (by decide) _ _ _))) h1
    exact (wf (onSides_add y _) _ _ _ t).trans (wf (onSides_add y _) _ _ _ _)
  · exact refl s

theorem dropLink (x : Side) (p : Nat) (s : State) : SideWork s (dropLink x p s) := by
  unfold Sys2Proof.Machine.dropLink
  extract_lets q s1 rest s2 s3
  have h1 : SideWork s s1 := by
    simp only [s1]
    cases q.out with
    | some f => exact onFrameEntries x f _ s
    | none => exact refl s
  have h2 : SideWork s s2 := h1.trans ((modPort x p _ _).trans (modPort x p _ _))
  exact (h2.trans (modLnk x _ _)).trans (bump (onSides_port x _ _) _ _ _ _)

/-! Barriers (R428) -/

theorem barrierAnswered (b : Barrier) (s : State) : SideWork s (barrierAnswered b s) := formReply _ _ _ s

theorem barrierCheck (s : State) : SideWork s (barrierCheck s) := by
  refine foldl (fun t b => ?_) _ s
  exact ite ((setLace _ t).trans (barrierAnswered _ _)) (setLace _ t)

theorem leaveUpTo {x : Side} {p : Nat} {f g : State → State} (hf : ∀ t, SideWork t (f t)) (hg : ∀ t, SideWork t (g t)) (s : State) :
    SideWork s (leaveUpTo x p f g s) := by
  unfold Sys2Proof.Machine.leaveUpTo
  extract_lets q s1 s2
  split
  · exact refl s
  · have h1 : SideWork s s1 := (dropLink x p s).trans (hf _)
    have h2 : SideWork s s2 := by
      simp only [s2]
      cases cutBlock q with
      | some b => exact h1.trans (reportCut x p b s1)
      | none => exact h1
    exact (h2.trans (hg _)).trans ((laceLockLost x _ _).trans (barrierCheck _))

theorem leaveUp (x : Side) (p : Nat) (s : State) : SideWork s (leaveUp x p s) :=
  leaveUpTo (fun t => (raiseSide x (by decide) _ _ t).trans (enterTraining x p _)) refl s

theorem disablePort (x : Side) (p : Nat) (s : State) : SideWork s (disablePort x p s) :=
  ((leaveUpTo (fun t => modPort x p _ t) refl s).trans (modPort x p _ _)).trans (dropEvents x p _)

theorem portCtrlWrite (x : Side) (p : Nat) (v : Word) (s : State) : SideWork s (portCtrlWrite x p v s) := by
  unfold Sys2Proof.Machine.portCtrlWrite
  extract_lets new s0 s1
  have h0 : SideWork s s0 := (modPort x p _ s).trans (wr (onSides_port x _ _) _ _)
  have h1 : SideWork s s1 := ite h0 (h0.trans (dropEvents x p _))
  exact ite (h1.trans (disablePort x p _)) (ite h1 (ite h1 (ite (h1.trans (leaveUp x p _)) (h1.trans (enterTraining x p _)))))

/-! The port settings of a load (R457) -/

theorem loadWord_side {a : Nat} (x : Side) (h : a = sideBase x) (w : Word) (s : State) : SideWork s (loadWord a w s) := by
  have hb : sideBase x = 0x01000000 ∨ sideBase x = 0x02000000 := by cases x <;> simp [sideBase]
  have hawl : awlLocked s a = false := by
    subst h
    unfold awlLocked
    rw [show [Reg.PIX_AWL_CTRL, Reg.PIX_AWL_PERIOD, Reg.PIX_AWL_TIME, Reg.PIX_AWL_TIME_4, Reg.PIX_AWL_FIRE].contains (sideBase x) = false by
      cases x <;> decide, Bool.and_false]
  have hlce : a ≠ Reg.LCE_CTRL s.arb.primary := by
    subst h
    cases x <;> cases s.arb.primary <;> decide
  have hfrm : a ≠ Reg.FRM_PERIOD := by
    subst h
    cases x <;> decide
  unfold loadWord
  rw [if_neg (by simp [hawl]), if_neg hfrm, if_neg (by omega), if_neg (by omega)]
  extract_lets s1
  rw [if_neg hlce]
  exact wr (by unfold onSides; omega) _ s

theorem loadRegs_side (x : Side) (l : Last) {part : Nat → Bool} (h : ∀ a, part a = true → a = sideBase x) (s : State) :
    SideWork s (loadRegs l part s) := by
  unfold loadRegs
  extract_lets back s1
  have hfold (m : Sparse Word) (f : Nat × Word → Word) (hm : ∀ e ∈ m, part e.1 = true) (t : State) :
      SideWork t (m.foldl (fun t e => loadWord e.1 (f e) t) t) :=
    List.foldlRecOn (motive := SideWork t) m _ (refl t) fun u hu e he => hu.trans (loadWord_side x (h e.1 (hm e he)) _ u)
  refine (hfold back (fun e => resetWord e.1) (fun e he => ?_) s).trans (hfold _ (fun e => e.2) (fun e he => ?_) s1)
  · have := (List.mem_filter.1 he).2
    simp only [Bool.and_eq_true] at this
    exact this.1.2
  · exact (List.mem_filter.1 he).2

theorem loadPorts (x : Side) (l : Last) (s : State) : SideWork s (loadPorts x l s) := by
  unfold Sys2Proof.Machine.loadPorts
  refine (loadRegs_side x l (fun a ha => ?_) s).trans (foldl (fun t p => ite (refl t) (portCtrlWrite x p _ t)) _ _)
  simp only [Bool.and_eq_true, onSide, decide_eq_true_eq] at ha
  obtain ⟨⟨⟨hlo, hhi⟩, -⟩, hmod⟩ := ha
  have hb : sideBase x = 0x01000000 ∨ sideBase x = 0x02000000 := by cases x <;> simp [sideBase]
  omega

theorem afterLoad (s : State) : SideWork s (afterLoad s) := by
  unfold Sys2Proof.Machine.afterLoad onServing
  refine both (fun x t => ite ?_ (refl t)) s
  cases slotOf t x (t.rf (Reg.MGT_BOOT x) 6 4) with
  | some l => exact loadPorts x l t
  | none => exact refl t

theorem afterReply {c : Ctx} {a : After} {f : State → State} (hf : ∀ t, SideWork t (f t)) (s : State) :
    SideWork s (afterReply c a f s) := by
  unfold Sys2Proof.Machine.afterReply
  split
  · exact modLnk _ _ s
  · extract_lets t
    split
    · exact ite (hf s) ((hf s).trans (setSpi _ _))
    · exact hf s

/-- What completes a CONFIG_APPLY or a LAST_LOAD after its commit (R55, R428, R457). -/
theorem commitReply (w : Waiting) (s : State) : SideWork s (commitReply w s) :=
  (ite ((formReply _ _ _ s).trans (afterReply afterLoad _)) (formReply _ _ _ s)).trans (barrierCheck _)

end SideWork

end Sys2Proof.Machine
end

section
/-!
### The commit at B (R53–R55, R63)
-/

namespace Sys2Proof.Machine

/-- The registers that a commit of some tiles writes. -/
def commitRegs (tiles : List Nat) (r : Nat) : Prop :=
  r = Reg.PIX_MODE_APPLIED ∨ r = Reg.PIX_APPLY_STATUS ∨ r = Reg.PIX_APPLY_TIME ∨ r = Reg.PIX_APPLY_TIME_4 ∨
    ∃ i ∈ tiles, r = Reg.PIX_THR_APPLIED i

/-- The applied thresholds of some tiles written. -/
def thrApplied (thr : Nat → Word) (tiles : List Nat) (s : State) : State := tiles.foldl (fun u i => u.wr (Reg.PIX_THR_APPLIED i) (thr i)) s

theorem thrApplied_only (thr : Nat → Word) (tiles : List Nat) (s : State) : Only [] (commitRegs tiles) s (thrApplied thr tiles s) :=
  List.foldlRecOn (motive := Only [] (commitRegs tiles) s) tiles _ (Only.refl _ _ s) fun _ h i hi =>
    h.trans (Only.wr _ _ _ (.inr (.inr (.inr (.inr ⟨i, hi, rfl⟩)))))

theorem thrApplied_rd {thr : Nat → Word} {i : Nat} : ∀ (tiles : List Nat) (s : State),
    (i ∈ tiles ∨ s.rd (Reg.PIX_THR_APPLIED i) = thr i) → (thrApplied thr tiles s).rd (Reg.PIX_THR_APPLIED i) = thr i
  | [], _, h => h.resolve_left (by simp)
  | j :: r, s, h => by
    rw [thrApplied, List.foldl_cons]
    refine thrApplied_rd r _ ?_
    by_cases hj : i = j
    · rw [hj]; exact .inr (State.rd_wr_self _ _ _)
    · refine h.imp (fun hm => (List.mem_cons.1 hm).resolve_left hj) fun h0 => ?_
      rw [State.rd_wr_ne _ _ (by unfold Reg.PIX_THR_APPLIED tileBase; omega), h0]

/-- The applied thresholds are registers of the tiles, and none of base control's. -/
theorem commitRegs_tile {tiles : List Nat} {a : Nat} (h : a < 0x00100000) (hm : a ≠ Reg.PIX_MODE_APPLIED) (hs : a ≠ Reg.PIX_APPLY_STATUS)
    (ht : a ≠ Reg.PIX_APPLY_TIME) (ht4 : a ≠ Reg.PIX_APPLY_TIME_4) : ¬ commitRegs tiles a := by
  rintro (k | k | k | k | ⟨i, -, k⟩)
  · exact hm k
  · exact hs k
  · exact ht k
  · exact ht4 k
  · unfold Reg.PIX_THR_APPLIED tileBase at k; omega

/-- The matrix after a commit (R53, R82). -/
def committedPix (a : Apply) (f : Pix) : Pix :=
  { f with
    applied := copyTiles a.tiles a.image f.applied
    latches := copyTiles a.tiles a.image f.latches
    apply := none
    driftRef := a.tiles.foldl (fun m t => Sparse.set m t none none) f.driftRef }

/-- The matrix and the applied thresholds committed. -/
def commitTiles (a : Apply) (s : State) : State := thrApplied (fun i => Sparse.get a.thr i 0) a.tiles ((scrubAnew s).modPix (committedPix a))

theorem commitApply_eq (a : Apply) (s : State) : commitApply a s =
    (((commitTiles a s).wr Reg.PIX_MODE_APPLIED a.mode).count Reg.PIX_APPLY_STATUS 31 16 1).wr64 Reg.PIX_APPLY_TIME Reg.PIX_APPLY_TIME_4
      a.commitAt := rfl

theorem commitTiles_only (a : Apply) (s : State) : Only [.clock, .pix] (commitRegs a.tiles) s (commitTiles a s) :=
  ((Only.setClock s _ (by simp)).trans (Only.modPix _ _ (by simp))).trans ((thrApplied_only _ a.tiles _).mono (by simp) fun _ => id)

theorem commitTail_only (a : Apply) (s : State) : Only [] (commitRegs a.tiles) (commitTiles a s) (commitApply a s) := by
  rw [commitApply_eq]
  exact ((Only.wr _ _ _ (.inl rfl)).trans (Only.count _ _ _ _ _ (.inr (.inl rfl)))).trans
    (Only.wr64 _ _ _ _ (.inr (.inr (.inl rfl))) (.inr (.inr (.inr (.inl rfl)))))

theorem commitApply_only (a : Apply) (s : State) : Only [.clock, .pix] (commitRegs a.tiles) s (commitApply a s) :=
  (commitTiles_only a s).trans ((commitTail_only a s).mono (by simp) fun _ => id)

theorem commitApply_clock (a : Apply) (s : State) : (commitApply a s).clock = { s.clock with scrub := 0 } :=
  ((commitTail_only a s).1 .clock (by simp)).trans ((thrApplied_only _ a.tiles _).1 .clock (by simp))

theorem commitApply_pix (a : Apply) (s : State) : (commitApply a s).pix = committedPix a s.pix :=
  ((commitTail_only a s).1 .pix (by simp)).trans ((thrApplied_only _ a.tiles _).1 .pix (by simp))

theorem commitApply_thr (a : Apply) (s : State) {i : Nat} (hi : i ∈ a.tiles) :
    (commitApply a s).rd (Reg.PIX_THR_APPLIED i) = Sparse.get a.thr i 0 := by
  have hne (o : Nat) (h : o < 0x00100000) : Reg.PIX_THR_APPLIED i ≠ o := by unfold Reg.PIX_THR_APPLIED tileBase; omega
  rw [commitApply_eq]
  unfold State.wr64 State.count State.wf
  rw [State.rd_wr_ne _ _ (hne Reg.PIX_APPLY_TIME_4 (by decide)), State.rd_wr_ne _ _ (hne Reg.PIX_APPLY_TIME (by decide)),
    State.rd_wr_ne _ _ (hne Reg.PIX_APPLY_STATUS (by decide)), State.rd_wr_ne _ _ (hne Reg.PIX_MODE_APPLIED (by decide))]
  exact thrApplied_rd a.tiles _ (.inl hi)

theorem commitApply_mode (a : Apply) (s : State) : (commitApply a s).rd Reg.PIX_MODE_APPLIED = a.mode := by
  rw [commitApply_eq]
  unfold State.wr64 State.count State.wf
  rw [State.rd_wr_ne _ _ (by decide), State.rd_wr_ne _ _ (by decide), State.rd_wr_ne _ _ (by decide), State.rd_wr_self]

theorem commitApply_count (a : Apply) (s : State) :
    (commitApply a s).rf Reg.PIX_APPLY_STATUS 31 16 = (s.rf Reg.PIX_APPLY_STATUS 31 16 + 1) % 65536 := by
  have h : (commitTiles a s).rf Reg.PIX_APPLY_STATUS 31 16 = s.rf Reg.PIX_APPLY_STATUS 31 16 := by
    have hthr (tiles : List Nat) (u : State) : (thrApplied (fun i => Sparse.get a.thr i 0) tiles u).rd Reg.PIX_APPLY_STATUS =
        u.rd Reg.PIX_APPLY_STATUS :=
      List.foldlRecOn (motive := fun v : State => v.rd Reg.PIX_APPLY_STATUS = u.rd Reg.PIX_APPLY_STATUS) tiles _ rfl fun v hv i _ => by
        rw [State.rd_wr_ne _ _ (by unfold Reg.PIX_THR_APPLIED Reg.PIX_APPLY_STATUS tileBase; omega), hv]
    unfold State.rf commitTiles
    rw [hthr]
    rfl
  rw [commitApply_eq]
  unfold State.wr64 State.count
  rw [State.rf_wr_ne _ _ _ _ (by decide), State.rf_wr_ne _ _ _ _ (by decide), State.rf_wf_self _ _ (by omega) (by omega),
    State.rf_wr_ne _ _ _ _ (by decide), h]
  rfl

/-- Two words of a time put together again (R11). -/
theorem State.rd64_wr64 (s : State) {a b : Nat} (h : a ≠ b) (v : Time) : (s.wr64 a b v).rd64 a b = v := by
  unfold State.rd64 State.wr64
  rw [State.rd_wr_self, State.rd_wr_ne _ _ h, State.rd_wr_self]
  refine BitVec.eq_of_getLsbD_eq fun i hi => ?_
  rw [BitVec.getLsbD_append]
  split
  · next hlt => simp [hlt]
  · next hge =>
    have : i - 32 < 32 := by omega
    simp only [BitVec.getLsbD_setWidth, this, decide_true, Bool.true_and, BitVec.getLsbD_ushiftRight]
    congr 1
    omega

theorem commitApply_time (a : Apply) (s : State) : (commitApply a s).rd64 Reg.PIX_APPLY_TIME Reg.PIX_APPLY_TIME_4 = a.commitAt := by
  rw [commitApply_eq]; exact State.rd64_wr64 _ (by decide) _

/-- A word of a copy into which tiles were copied. -/
theorem imageWord_copyTiles (tiles : List Nat) (src dst : Sparse TileImage) (p : Nat) :
    imageWord (copyTiles tiles src dst) p = imageWord (if pixTile p ∈ tiles then src else dst) p := by
  unfold imageWord
  rw [get_copyTiles]
  split <;> rfl

end Sys2Proof.Machine
end

section
/-!
### What follows the commit (R55, R428)
-/

namespace Sys2Proof.Machine

theorem barrierAnswered_only (b : Barrier) (s : State) : Only answering answerRegs s (barrierAnswered b s) := formReply_only _ _ _ s

theorem barrierCheck_only (s : State) : Only (.lace :: answering) answerRegs s (barrierCheck s) := by
  refine Only.foldl (fun t b => ?_) (Only.refl _ _ s)
  extract_lets k rest
  have h1 (l : LaceBase) : Only (.lace :: answering) answerRegs t { t with lace := l } := Only.setLace t l (by simp)
  split
  · exact (h1 _).trans ((barrierAnswered_only _ _).mono (by simp) fun _ => id)
  · exact h1 _

/-- The reply of a CONFIG_APPLY, and the barriers that waited for it. -/
theorem commitReply_only {w : Waiting} (h : w.op ≠ 0x21) (s : State) : Only (.lace :: answering) answerRegs s (commitReply w s) := by
  unfold commitReply
  extract_lets s1
  rw [if_neg h]
  exact ((formReply_only _ _ _ s).mono (by simp) fun _ => id).trans (barrierCheck_only s1)

theorem commitReply_replied {w : Waiting} (h : w.op ≠ 0x21) {s : State} (hb : s.lace.barriers = []) :
    Replied w.x w.ctx w.op .ok 0 [] (commitReply w s) := by
  unfold commitReply
  extract_lets s1
  rw [if_neg h, barrierCheck_formReply _ _ _ _ hb]
  exact formReply_replied _ _ _ _ _ _ _ _

/-- A reply formed stays the youngest while caches and LCE_BCAST stand. -/
theorem Replied.of_only {ps : List Part} {w : Nat → Prop} {s t : State} {x : Side} {c : Ctx} {op : Nat} {st : Status} {r1 : Word}
    {ws : List Word72} (h : Replied x c op st r1 ws s) (k : Only ps w s t) (hs : .spi ∉ ps) (hm : ∀ y, .mgt y ∉ ps)
    (hr : ¬ w (Reg.LCE_BCAST x)) : Replied x c op st r1 ws t := by
  unfold Replied at h ⊢
  cases hv : c.via with
  | spi => simp only [hv] at h ⊢; rw [show t.spi = s.spi from k.1 .spi hs]; exact h
  | port y p => simp only [hv] at h ⊢; rw [show (t.side y).mgt = (s.side y).mgt from k.1 (.mgt y) (hm y)]; exact h
  | inner => simp only [hv] at h ⊢; rw [k.rf hr, k.rf hr]; exact h

/-! An event raised as at another time -/

theorem atTime_raiseBase_clock (B : Time) (n sev inst : Nat) (s : State) : (atTime B (raiseBase n sev inst) s).clock = s.clock := by
  have h : (raiseBase n sev inst { s with clock := { s.clock with now := B } }).clock = { s.clock with now := B } :=
    (raiseBase_only n sev inst _).1 .clock (by decide)
  unfold atTime
  simp only [h]

theorem atTime_raiseBase_only (B : Time) (n sev inst : Nat) (s : State) : Only raising raiseRegs s (atTime B (raiseBase n sev inst) s) := by
  have h : Only (.clock :: raising) raiseRegs s (atTime B (raiseBase n sev inst) s) :=
    ((Only.setClock s { s.clock with now := B } (by simp)).trans
      ((raiseBase_only n sev inst _).mono (by simp) fun _ => id)).trans (Only.setClock _ _ (by simp))
  refine ⟨fun p hp => ?_, h.2⟩
  by_cases hc : p = .clock
  · subst hc; exact atTime_raiseBase_clock B n sev inst s
  · exact h.1 p (by simp [hc, hp])

theorem atTime_raiseBase_srcRec (B : Time) (n sev inst : Nat) (s : State) {y : Side} (hl : s.live y = true) :
    (atTime B (raiseBase n sev inst) s).srcRec y n = (s.srcRec y n).raise B := by
  have h := raiseBase_srcRec n sev inst y n { s with clock := { s.clock with now := B } }
  rw [if_pos ⟨hl, rfl⟩] at h
  exact h

/-! The commit -/

/-- The commit with the reply that it completes. -/
def committed (a : Apply) (k : State) : State :=
  match a.wait with
  | some w => commitReply w (commitApply a k)
  | none => commitApply a k

theorem exec_configCommit {dt : Nat} {s : State} {a : Apply} (h : (stagingDone (s.elapse dt)).pix.apply = some a)
    (hr : reached (stagingDone (s.elapse dt)).now a.commitAt = true) :
    exec (.configCommit dt) s = .next (atTime a.commitAt (raiseBase 520 sevInfo noInst) (committed a (stagingDone (s.elapse dt)))) := by
  show execConfigCommit dt s = _
  unfold execConfigCommit committed
  cases hw : a.wait <;> simp only [h, hr, ↓reduceIte, hw]

theorem committed_sideWork (a : Apply) (k : State) : SideWork (commitApply a k) (committed a k) := by
  unfold committed
  cases a.wait with
  | some w => exact SideWork.commitReply w _
  | none => exact SideWork.refl _

theorem committed_only {a : Apply} (h : ∀ w, a.wait = some w → w.op ≠ 0x21) (k : State) :
    Only (.lace :: answering) answerRegs (commitApply a k) (committed a k) := by
  unfold committed
  cases hw : a.wait with
  | some w => exact commitReply_only (h w hw) _
  | none => exact Only.refl _ _ _

/-- At B what was captured is applied, replied to, and noted with B as its time (R53, R55, R63). -/
theorem configCommit_applies {dt : Nat} {s : State} {a : Apply} (h : (stagingDone (s.elapse dt)).pix.apply = some a)
    (hr : reached (stagingDone (s.elapse dt)).now a.commitAt = true) (ht : ∀ i ∈ a.tiles, i < 64) :
    let k := stagingDone (s.elapse dt)
    ∃ t, exec (.configCommit dt) s = .next t ∧ t.pix.apply = none ∧
      (∀ p, p < 1048576 → imageWord t.pix.applied p = imageWord (if pixTile p ∈ a.tiles then a.image else k.pix.applied) p ∧
        imageWord t.pix.latches p = imageWord (if pixTile p ∈ a.tiles then a.image else k.pix.latches) p) ∧
      (∀ i ∈ a.tiles, t.rd (Reg.PIX_THR_APPLIED i) = Sparse.get a.thr i 0) ∧ t.rd Reg.PIX_MODE_APPLIED = a.mode ∧
      t.rf Reg.PIX_APPLY_STATUS 31 16 = (k.rf Reg.PIX_APPLY_STATUS 31 16 + 1) % 65536 ∧
      t.rd64 Reg.PIX_APPLY_TIME Reg.PIX_APPLY_TIME_4 = a.commitAt ∧
      t.clock = { k.clock with scrub := 0 } ∧
      (∀ y, k.live y = true → t.srcRec y 520 = (k.srcRec y 520).raise a.commitAt) ∧
      (∀ w, a.wait = some w → w.op ≠ 0x21 → k.lace.barriers = [] → Replied w.x w.ctx w.op .ok 0 [] t) ∧
      ((∀ w, a.wait = some w → w.op ≠ 0x21) → Only (.clock :: .pix :: .lace :: answering ++ raising)
        (fun r => answerRegs r ∨ raiseRegs r ∨ commitRegs a.tiles r) k t) := by
  intro k
  have h1 := commitApply_only a k
  obtain ⟨h2, hrec⟩ := committed_sideWork a k
  have h3 := atTime_raiseBase_only a.commitAt 520 sevInfo noInst (committed a k)
  generalize htv : atTime a.commitAt (raiseBase 520 sevInfo noInst) (committed a k) = t at h3
  have hpix : t.pix = committedPix a k.pix := (h3.1 .pix (by decide)).trans ((h2.1 .pix (by decide)).trans (commitApply_pix a k))
  have hrd (r : Nat) (hlt : r < 0x01000000) : t.rd r = (commitApply a k).rd r :=
    (h3.rd fun j => by have := raiseRegs_side j; omega).trans (h2.rd fun j => by unfold onSides at j; omega)
  refine ⟨t, htv ▸ exec_configCommit h hr, by rw [hpix]; rfl, fun p _ => ?_, fun i hi => ?_, ?_, ?_, ?_, ?_, fun y hy => ?_,
    fun w hw hop hb => ?_, fun hop => ?_⟩
  · rw [hpix]
    exact ⟨imageWord_copyTiles _ _ _ _, imageWord_copyTiles _ _ _ _⟩
  · have := ht i hi
    rw [hrd _ (by unfold Reg.PIX_THR_APPLIED tileBase; omega), commitApply_thr a k hi]
  · rw [hrd _ (by decide), commitApply_mode]
  · rw [State.rf, hrd _ (by decide)]
    exact commitApply_count a k
  · rw [State.rd64, hrd _ (by decide), hrd _ (by decide)]
    exact commitApply_time a k
  · exact (h3.1 .clock (by decide)).trans ((h2.1 .clock (by decide)).trans (commitApply_clock a k))
  · have hl : (committed a k).live y = true := by
      rw [h2.live (by decide) (by decide), h1.live (by simp) (by simp), hy]
    rw [← htv, atTime_raiseBase_srcRec _ _ _ _ _ hl, hrec y, h1.srcRec y (by simp)]
  · have hrep : Replied w.x w.ctx w.op .ok 0 [] (committed a k) := by
      unfold committed
      rw [hw]
      exact commitReply_replied hop ((congrArg LaceBase.barriers (h1.1 .lace (by simp))).trans hb)
    exact hrep.of_only h3 (by decide) (fun y => by cases y <;> decide) fun j => by
      obtain ⟨y, j | j | j⟩ := j <;> revert j <;> cases w.x <;> cases y <;> decide
  · exact ((h1.mono (by simp) fun _ j => .inr (.inr j)).trans ((committed_only hop k).mono (by decide) fun _ => .inl)).trans
      (h3.mono (by decide) fun _ j => .inr (.inl j))

/-- Settles O24: what the capture leaves, the held writes landing in their order, and the commit with what follows it, of which only the
sides' part can touch more than the reply. -/
theorem configurationIsAppliedAtItsBoundary : Obligations.ConfigurationIsAppliedAtItsBoundary :=
  ⟨fun _ _ _ _ _ _ h ha hs hp => configApply_captures h ha hs hp, fun _ _ _ h hs => configStagingDone_lands h hs,
    fun _ _ _ h hr ht => configCommit_applies h hr ht⟩

end Sys2Proof.Machine
end

section
/-!
### States that a register's action cannot tell apart

A strobe stores its word, which holds what the register held, and takes the command's packet from its queue, before it acts. The state on
which the register's action runs may so hold its registers in another table, and has other commands in its queues; every other part of it
is as it was. `Alike` says so; each action keeps it.
-/

namespace Sys2Proof.Machine

/-- A side without its management controller and the messages that the peer has not acknowledged. -/
def SideState.core (d : SideState) : SideState := { d with mgt := Mgt.factory, wlt := { d.wlt with unacked := [] } }

/-- A state without its tables of registers, and with the core of each side. -/
def State.core (s : State) : State :=
  { s with regs := [], fresh := [], late := [], sideA := s.sideA.core, sideB := s.sideB.core }

/-- Two states with the same core, of whose registers the same is known. -/
structure Alike (s t : State) : Prop where
  core : t.core = s.core
  rd : ∀ a, t.rd a = s.rd a
  setNow : ∀ a, t.setNow a = s.setNow a

/-! ### What both states show -/

section
variable {s t : State}

theorem Alike.refl (s : State) : Alike s s := ⟨rfl, fun _ => rfl, fun _ => rfl⟩

/-- A reader that looks at the core alone reads the same of both. -/
theorem Alike.read {α : Type} (h : Alike s t) (g : State → α) (hg : ∀ s, g s.core = g s) : g t = g s := by
  rw [← hg t, h.core, hg]

theorem Alike.side_core (h : Alike s t) (x : Side) : (t.side x).core = (s.side x).core :=
  h.read (fun s => (s.side x).core) fun s => by cases x <;> rfl

/-- A reader of one side that looks at its core alone reads the same of both. -/
theorem Alike.readSide {α : Type} (h : Alike s t) (x : Side) (g : SideState → α) (hg : ∀ d, g d.core = g d) :
    g (t.side x) = g (s.side x) := by
  rw [← hg (t.side x), h.side_core, hg]

/-- The blocks of the module, of which an action reads. -/
theorem Alike.base (h : Alike s t) :
    t.clock = s.clock ∧ t.power = s.power ∧ t.arb = s.arb ∧ t.trg = s.trg ∧ t.bg = s.bg ∧ t.tiles = s.tiles ∧ t.pix = s.pix ∧ t.hk = s.hk :=
  ⟨h.read State.clock fun _ => rfl, h.read State.power fun _ => rfl, h.read State.arb fun _ => rfl, h.read State.trg fun _ => rfl,
    h.read State.bg fun _ => rfl, h.read State.tiles fun _ => rfl, h.read State.pix fun _ => rfl, h.read State.hk fun _ => rfl⟩

/-- The blocks of a side. -/
theorem Alike.sides (h : Alike s t) (x : Side) :
    (t.side x).evt = (s.side x).evt ∧ (t.side x).lnk = (s.side x).lnk ∧ (t.side x).lce = (s.side x).lce ∧ (t.side x).dsp = (s.side x).dsp ∧
      (t.side x).cmp = (s.side x).cmp ∧ (t.side x).bst = (s.side x).bst ∧ (t.side x).tally = (s.side x).tally ∧
      (t.side x).wlt.retained = (s.side x).wlt.retained ∧ (t.side x).wlt.rxOk = (s.side x).wlt.rxOk :=
  ⟨h.readSide x SideState.evt fun _ => rfl, h.readSide x SideState.lnk fun _ => rfl, h.readSide x SideState.lce fun _ => rfl,
    h.readSide x SideState.dsp fun _ => rfl, h.readSide x SideState.cmp fun _ => rfl, h.readSide x SideState.bst fun _ => rfl,
    h.readSide x SideState.tally fun _ => rfl, h.readSide x (·.wlt.retained) fun _ => rfl, h.readSide x (·.wlt.rxOk) fun _ => rfl⟩

/-- The fields of registers. -/
theorem Alike.regs (h : Alike s t) :
    (∀ a, t.rd a = s.rd a) ∧ (∀ a, t.setNow a = s.setNow a) ∧ (∀ a hi lo, t.rf a hi lo = s.rf a hi lo) ∧ (∀ a i, t.rb a i = s.rb a i) ∧
      ∀ a b, t.rd64 a b = s.rd64 a b := by
  refine ⟨h.rd, h.setNow, ?_, ?_, ?_⟩ <;> intros <;> simp only [State.rf, State.rb, State.rd64, h.rd]

/-- Alike states differ in nothing but what answering a command changes. -/
theorem Alike.only (h : Alike s t) : Only answering answerRegs s t := by
  refine ⟨fun p hp => ?_, fun a _ => ⟨h.rd a, h.setNow a⟩⟩
  obtain ⟨hclock, hpower, harb, htrg, hbg, htiles, hpix, hhk⟩ := h.base
  cases p with
  | clock => exact hclock
  | pix => exact hpix
  | tiles => exact htiles
  | trg => exact htrg
  | power => exact hpower
  | arb => exact harb
  | bg => exact hbg
  | hk => exact hhk
  | capture => exact h.read State.capture fun _ => rfl
  | tdc => exact h.read State.tdc fun _ => rfl
  | frames => exact h.read State.frames fun _ => rfl
  | squall => exact h.read State.squall fun _ => rfl
  | lace => exact h.read State.lace fun _ => rfl
  | pins => exact h.read State.pins fun _ => rfl
  | freeCount => exact h.read State.freeCount fun _ => rfl
  | pending => exact h.read State.pending fun _ => rfl
  | evt x => exact (h.sides x).1
  | lce x => exact (h.sides x).2.2.1
  | dsp x => exact (h.sides x).2.2.2.1
  | cmp x => exact (h.sides x).2.2.2.2.1
  | bst x => exact (h.sides x).2.2.2.2.2.1
  | spi => exact absurd (by simp [answering]) hp
  | mgt x | lnk x | wlt x | tally x => cases x <;> exact absurd (by simp [answering]) hp

/-! ### What keeps two states alike -/

/-- A change of the core alone, by what the core alone shows. -/
theorem Alike.map (h : Alike s t) (g : State → State) (hc : ∀ s, (g s).core = (g s.core).core) (hr : ∀ s a, (g s).rd a = s.rd a)
    (hn : ∀ s a, (g s).setNow a = s.setNow a) : Alike (g s) (g t) where
  core := by rw [hc, h.core, ← hc]
  rd a := by rw [hr, hr, h.rd]
  setNow a := by rw [hn, hn, h.setNow]

/-- A change of one side, by what its core alone shows. -/
theorem Alike.modSide (h : Alike s t) (x : Side) (f : SideState → SideState) (hf : ∀ d, (f d).core = (f d.core).core) :
    Alike (s.modSide x f) (t.modSide x f) :=
  h.map (·.modSide x f)
    (fun s => by
      cases x with
      | a => exact congrArg (fun d => { s.core with sideA := d }) (hf s.sideA)
      | b => exact congrArg (fun d => { s.core with sideB := d }) (hf s.sideB))
    (fun s a => State.modSide_rd s x f a) (fun s a => by cases x <;> rfl)

theorem Alike.modEvt (h : Alike s t) (x : Side) (f : EvState → EvState) : Alike (s.modEvt x f) (t.modEvt x f) := h.modSide x _ fun _ => rfl

theorem Alike.modLnk (h : Alike s t) (x : Side) (f : Lnk → Lnk) : Alike (s.modLnk x f) (t.modLnk x f) := h.modSide x _ fun _ => rfl

theorem Alike.modLce (h : Alike s t) (x : Side) (f : Lce → Lce) : Alike (s.modLce x f) (t.modLce x f) := h.modSide x _ fun _ => rfl

theorem Alike.modDsp (h : Alike s t) (x : Side) (f : Dsp → Dsp) : Alike (s.modDsp x f) (t.modDsp x f) := h.modSide x _ fun _ => rfl

theorem Alike.modCmp (h : Alike s t) (x : Side) (f : Cmp → Cmp) : Alike (s.modCmp x f) (t.modCmp x f) := h.modSide x _ fun _ => rfl

theorem Alike.modBst (h : Alike s t) (x : Side) (f : Bst → Bst) : Alike (s.modBst x f) (t.modBst x f) := h.modSide x _ fun _ => rfl

/-- A change of a side's end of the Welt link that does not look at the messages that wait for an acknowledgement. -/
theorem Alike.modWlt (h : Alike s t) (x : Side) (f : Wlt → Wlt)
    (hf : ∀ w, { f w with unacked := [] } = { f { w with unacked := [] } with unacked := [] }) : Alike (s.modWlt x f) (t.modWlt x f) :=
  h.modSide x _ fun d => congrArg (fun w => { d.core with wlt := w }) (hf d.wlt)

theorem Alike.modMgt (h : Alike s t) (x : Side) (f : Mgt → Mgt) : Alike (s.modMgt x f) (t.modMgt x f) := h.modSide x _ fun _ => rfl

theorem Alike.tally (h : Alike s t) (x : Side) (c : Tally) (n : Nat) : Alike (s.tally x c n) (t.tally x c n) := h.modSide x _ fun _ => rfl

theorem Alike.modPort (h : Alike s t) (x : Side) (p : Nat) (f : Port → Port) : Alike (s.modPort x p f) (t.modPort x p f) := h.modLnk x _

theorem Alike.modChan (h : Alike s t) (x : Side) (ch : Nat) (f : Chan → Chan) : Alike (s.modChan x ch f) (t.modChan x ch f) := h.modBst x _

theorem Alike.modRing (h : Alike s t) (x : Side) (r : Nat) (f : Ring → Ring) : Alike (s.modRing x r f) (t.modRing x r f) := h.modBst x _

theorem Alike.modPix (h : Alike s t) (f : Pix → Pix) : Alike (s.modPix f) (t.modPix f) :=
  h.map (·.modPix f) (fun _ => rfl) (fun _ _ => rfl) fun _ _ => rfl

theorem Alike.modHk (h : Alike s t) (f : Hk → Hk) : Alike (s.modHk f) (t.modHk f) :=
  h.map (·.modHk f) (fun _ => rfl) (fun _ _ => rfl) fun _ _ => rfl

theorem Alike.modArb (h : Alike s t) (f : Arb → Arb) : Alike (s.modArb f) (t.modArb f) :=
  h.map (·.modArb f) (fun _ => rfl) (fun _ _ => rfl) fun _ _ => rfl

theorem Alike.modTdc (h : Alike s t) (f : Tdc → Tdc) : Alike (s.modTdc f) (t.modTdc f) :=
  h.map (·.modTdc f) (fun _ => rfl) (fun _ _ => rfl) fun _ _ => rfl

theorem Alike.modFrames (h : Alike s t) (f : Frames → Frames) : Alike (s.modFrames f) (t.modFrames f) :=
  h.map (·.modFrames f) (fun _ => rfl) (fun _ _ => rfl) fun _ _ => rfl

theorem Alike.wr (h : Alike s t) (a : Nat) (w : Word) : Alike (s.wr a w) (t.wr a w) where
  core := h.core
  rd b := by
    by_cases hb : b = a
    · subst hb; rw [State.rd_wr_self, State.rd_wr_self]
    · rw [State.rd_wr_ne _ _ hb, State.rd_wr_ne _ _ hb, h.rd]
  setNow := h.setNow

theorem Alike.wf (h : Alike s t) (a hi lo v : Nat) : Alike (s.wf a hi lo v) (t.wf a hi lo v) := by
  simp only [State.wf, h.rd]
  exact h.wr a _

theorem Alike.noteSet (h : Alike s t) (a hi lo : Nat) (f : Nat → Nat) : Alike (s.noteSet a hi lo f) (t.noteSet a hi lo f) where
  core := h.core
  rd := h.rd
  setNow b := by
    simp only [State.noteSet, h.setNow, h.rd]
    by_cases hb : b = a
    · subst hb; exact (Sparse.get_ins_self t.fresh b _ none).trans (Sparse.get_ins_self s.fresh b _ none).symm
    · exact (Sparse.get_ins_ne t.fresh _ none hb).trans ((h.setNow b).trans (Sparse.get_ins_ne s.fresh _ none hb).symm)

theorem Alike.raiseBit (h : Alike s t) (a i : Nat) : Alike (s.raiseBit a i) (t.raiseBit a i) := (h.noteSet a i i _).wf a i i 1

theorem Alike.bump (h : Alike s t) (a hi lo n : Nat) : Alike (s.bump a hi lo n) (t.bump a hi lo n) := by
  simp only [State.bump, h.regs]
  exact (h.noteSet a hi lo _).wf a hi lo _

theorem Alike.count (h : Alike s t) (a hi lo n : Nat) : Alike (s.count a hi lo n) (t.count a hi lo n) := by
  simp only [State.count, h.regs]
  exact h.wf a hi lo _

theorem Alike.ite {c : Prop} [Decidable c] {s' t' : State} (h : Alike s t) (h' : Alike s' t') :
    Alike (if c then s else s') (if c then t else t') := by
  split
  · exact h
  · exact h'

theorem Alike.high (h : Alike s t) (a hi lo v : Nat) : Alike (s.high a hi lo v) (t.high a hi lo v) := by
  simp only [State.high, h.regs]
  exact ((h.noteSet a hi lo _).wf a hi lo v).ite (h.noteSet a hi lo _)

theorem Alike.foldl {α : Type} {f g : State → α → State} (hf : ∀ s t a, Alike s t → Alike (f s a) (g t a)) (l : List α) (h : Alike s t) :
    Alike (l.foldl f s) (l.foldl g t) :=
  List.foldl_rel h fun a _ s t hst => hf s t a hst

end

end Sys2Proof.Machine
end

section
/-!
### Events and frames of alike states
-/

namespace Sys2Proof.Machine

section
variable {s t : State}

/-- What the events of a side read. -/
theorem Alike.events (h : Alike s t) :
    t.now = s.now ∧ (∀ x, t.live x = s.live x) ∧ (∀ x, t.logsEvents x = s.logsEvents x) ∧ (∀ x src, evEnabled x src t = evEnabled x src s) ∧
      (∀ x, evRound x t = evRound x s) ∧ ∀ x e, evLeaves x t e = evLeaves x s e := by
  have hdone : ∀ x e, portDone x t e = portDone x s e := fun x e => funext fun p => by simp only [portDone, h.regs, h.sides]
  have hadmits : ∀ x e, portAdmits x t e = portAdmits x s e := fun x e => funext fun p => by simp only [portAdmits, h.regs]
  refine ⟨?_, fun x => ?_, fun x => ?_, fun x src => ?_, fun x => ?_, fun x e => ?_⟩
  · simp only [State.now, h.base]
  · simp only [State.live, h.base]
  · simp only [State.logsEvents, State.live, h.base]
  · simp only [evEnabled, h.regs]
  · simp only [evRound, evCore, h.base, h.sides, h.regs]
  · simp only [evLeaves, hdone, hadmits]

theorem Alike.evLost (h : Alike s t) (x : Side) (sev old new : Nat) : Alike (evLost x sev old new s) (evLost x sev old new t) := by
  simp only [Machine.evLost, h.regs]
  exact h.ite (((h.noteSet _ _ _ _).wf _ _ _ _).modSide x _ fun _ => rfl)

theorem Alike.evTake (h : Alike s t) (x : Side) (r : EvRound) : Alike (evTake x r s) (evTake x r t) := by
  simp only [Machine.evTake, h.events]
  refine Alike.foldl (fun _ _ k h => ?_) _ ((((h.modEvt x _).wf _ _ _ _).wf _ _ _ _).wf _ _ _ _)
  exact h.evLost x k _ _

theorem Alike.raiseAt (h : Alike s t) (x : Side) (src sev inst : Nat) : Alike (raiseAt x src sev inst s) (raiseAt x src sev inst t) := by
  have h1 := h.modEvt x (fun v => { v with recs := Sparse.upd v.recs src SrcRec.zero (·.raise s.now) })
  simp only [Machine.raiseAt, h.events, h1.events]
  exact h1.ite (h1.evTake x _)

theorem Alike.raiseSide (h : Alike s t) (x : Side) (n sev inst : Nat) : Alike (raiseSide x n sev inst s) (raiseSide x n sev inst t) := by
  simp only [Machine.raiseSide, h.events]
  exact (h.raiseAt x _ sev inst).ite h

theorem Alike.evBefore (h : Alike s t) (x : Side) (f : EvCore → EvCore) : Alike (evBefore x f s) (evBefore x f t) := by
  simp only [Machine.evBefore, h.events]
  exact h.evTake x _

/-- What the ports of a side read. -/
theorem Alike.ports (h : Alike s t) :
    (∀ x p, t.port x p = s.port x p) ∧ (∀ x p, t.role x p = s.role x p) ∧ (∀ x ty, t.frameSeq x ty = s.frameSeq x ty) ∧
      (∀ x ty st n ws, plainFrame t x ty st n ws = plainFrame s x ty st n ws) ∧ (∀ x k, noticeSeq t x k = noticeSeq s x k) ∧
      (∀ x b k, dataFrame t x b k = dataFrame s x b k) ∧ (∀ x p st, paused t x p st = paused s x p st) ∧
      (∀ x p f, inLine t x p f = inLine s x p f) ∧ (∀ x p f, hasCredit t x p f = hasCredit s x p f) ∧
      ∀ x st, carryPorts t x st = carryPorts s x st := by
  have hport : ∀ x p, t.port x p = s.port x p := fun x p => by simp only [State.port, h.sides]
  have hseq : ∀ x ty, t.frameSeq x ty = s.frameSeq x ty := fun x ty => by simp only [State.frameSeq, h.sides]
  have hid : ∀ x, t.moduleId x = s.moduleId x := fun x => by simp only [State.moduleId, h.sides, h.regs]
  have hpaused : ∀ x p st, paused t x p st = paused s x p st := fun x p st => by simp only [paused, hport, h.base]
  refine ⟨hport, fun x p => ?_, hseq, fun x ty st n ws => ?_, fun x k => ?_, fun x b k => ?_, hpaused, fun x p f => ?_, fun x p f => ?_,
    fun x st => ?_⟩
  · simp only [State.role, h.regs]
  · simp only [plainFrame, hid]
  · simp only [noticeSeq, hseq]
  · simp only [dataFrame, hid]
  · simp only [inLine, hport, hpaused]
  · simp only [hasCredit, hport, State.role, h.regs]
  · have hup : t.upPort x = s.upPort x := by simp only [State.upPort, h.regs]
    have hserve : servingPorts t x st = servingPorts s x st :=
      List.filter_congr fun p _ => by rw [hport, State.role, State.role, h.regs.2.2.1, h.regs.2.2.2.1]
    simp only [carryPorts, hup, hserve, hport, h.regs, h.base]

theorem Alike.startFrame (h : Alike s t) (x : Side) (p : Nat) (f : Frame) : Alike (startFrame x p f s) (startFrame x p f t) := h.modPort x p _

theorem Alike.portNext (h : Alike s t) (x : Side) (p : Nat) : Alike (portNext x p s) (portNext x p t) := by
  have hline : inLine t x p = inLine s x p := funext fun f => by simp only [h.ports]
  simp only [Machine.portNext, h.ports, hline]
  refine h.ite ?_
  cases takeFrame (inLine s x p) (s.port x p).waiting with
  | some q => exact ((h.modPort x p _).startFrame x p _).ite h
  | none =>
    cases (s.port x p).blocks with
    | nil => exact h
    | cons b _ => exact h.ite ((h.modPort x p _).startFrame x p _)

theorem Alike.sendFrame (h : Alike s t) (x : Side) (p : Nat) (f : Frame) : Alike (sendFrame x p f s) (sendFrame x p f t) :=
  (h.modPort x p _).portNext x p

theorem Alike.sendNotice (h : Alike s t) (x : Side) (kind st : Nat) (ws : List Word72) (ports : List Nat) :
    Alike (sendNotice x kind st ws ports s) (sendNotice x kind st ws ports t) := by
  simp only [Machine.sendNotice, h.ports]
  exact (Alike.foldl (fun _ _ p h => h.sendFrame x p _) ports h).modLnk x _

end

end Sys2Proof.Machine
end

section
/-!
### The store of alike states
-/

namespace Sys2Proof.Machine

section
variable {s t : State}

/-- What the store of a side reads. -/
theorem Alike.store (h : Alike s t) :
    (∀ x, t.bst x = s.bst x) ∧ (∀ x ch, t.chan x ch = s.chan x ch) ∧ (∀ x r, t.ring x r = s.ring x r) ∧
      (∀ x ch, chanRetired t x ch = chanRetired s x ch) ∧ (∀ x st, ringOf t x st = ringOf s x st) ∧
      (∀ x l w, rawWord t x l w = rawWord s x l w) ∧ (∀ x l w, wordQueued t x l w = wordQueued s x l w) ∧
      (∀ x id, findItem t x id = findItem s x id) ∧ ∀ x n, egressRoom t x n = egressRoom s x n := by
  have hbst : ∀ x, t.bst x = s.bst x := fun x => (h.sides x).2.2.2.2.2.1
  have hchan : ∀ x ch, t.chan x ch = s.chan x ch := fun x ch => by simp only [State.chan, hbst]
  refine ⟨hbst, hchan, fun x r => ?_, fun x ch => ?_, fun x st => ?_, fun x l w => ?_, fun x l w => ?_, fun x id => ?_, fun x n => ?_⟩
  · simp only [State.ring, hbst]
  · simp only [chanRetired, h.base]
  · simp only [ringOf, h.regs]
  · simp only [rawWord, hchan, hbst]
  · simp only [wordQueued, hchan]
  · simp only [findItem, hbst]
  · have hwords : egressWords t x = egressWords s x := by simp only [egressWords, h.sides]
    rw [egressRoom, hwords, egressRoom]

/-- Where an item of a ring finds its place. -/
theorem Alike.rings (h : Alike s t) :
    (∀ x r n, ringFits t x r n = ringFits s x r n) ∧ ∀ x r n, ringPlace t x r n = ringPlace s x r n := by
  have hin : ∀ x, chansIn t x = chansIn s x := fun x => by simp only [chansIn, h.store]
  have hcap : ∀ x r, ringCap t x r = ringCap s x r := fun x r => by
    simp only [ringCap, usable, chanLoss, hin, retiredRows, rowRetired, h.store, h.regs, h.base]
  have hfits : ∀ x r n, ringFits t x r n = ringFits s x r n := fun x r n => by
    simp only [ringFits, skipped, hcap, rowRetired, h.store, h.regs, h.base]
  refine ⟨hfits, fun x r n => ?_⟩
  simp only [ringPlace, hfits, stagingRoom, h.store]

theorem Alike.accessLoc (h : Alike s t) (x : Side) (cls loc : Nat) : Alike (accessLoc x cls loc s) (accessLoc x cls loc t) := by
  simp only [Machine.accessLoc, h.store]
  exact (((h.modBst x _).modChan x _ _).bump _ _ _ _).ite ((h.modBst x _).modChan x _ _)

theorem Alike.putWords (h : Alike s t) (x : Side) (q : Queued) : Alike (putWords x q s) (putWords x q t) := h.modBst x _

theorem Alike.writeGranule (h : Alike s t) (x : Side) (q : Queued) : Alike (writeGranule x q s) (writeGranule x q t) := by
  have h1 : Alike (if q.cls = 0 then s.modChan x (locChan q.loc) (fun c => { c with lastIngest := some s.clock.ticks }) else s)
      (if q.cls = 0 then t.modChan x (locChan q.loc) (fun c => { c with lastIngest := some s.clock.ticks }) else t) :=
    (h.modChan x _ _).ite h
  simp only [Machine.writeGranule, h.base, h1.store]
  exact ((h1.modChan x _ _).high _ _ _ _).ite ((h1.accessLoc x _ _).putWords x q)

theorem Alike.logError (h : Alike s t) (x : Side) (loc w lane : Nat) (bad : Bool) :
    Alike (logError x loc w lane bad s) (logError x loc w lane bad t) := by
  simp only [Machine.logError, h.regs, h.events]
  have h1 := (h.raiseBit (Reg.BST_LOG_STATUS x (locChan loc)) 31).bump (Reg.BST_LOG_STATUS x (locChan loc)) 15 0 1
  exact (((h.wr _ _).wr _ _).wf _ _ _ _).ite ((h1.raiseSide x _ _ _).ite h1)

theorem Alike.badWord (h : Alike s t) (x : Side) (loc w lane : Nat) : Alike (badWord x loc w lane s) (badWord x loc w lane t) :=
  (((h.bump _ _ _ _).tally x _ _).raiseSide x _ _ _).logError x loc w lane true

/-- What the words of a granule have read so far: the same words and mark, in alike states. -/
def AlikeRead (a b : List GotWord × Bool × State) : Prop := b.1 = a.1 ∧ b.2.1 = a.2.1 ∧ Alike a.2.2 b.2.2

theorem AlikeRead.judgeWord {a b : List GotWord × Bool × State} (h : AlikeRead a b) (x : Side) (loc w : Nat) :
    AlikeRead (judgeWord x loc w a) (judgeWord x loc w b) := by
  obtain ⟨l, m, s⟩ := a
  obtain ⟨_, _, t⟩ := b
  obtain ⟨rfl, rfl, h⟩ := h
  dsimp only at h
  simp only [Machine.judgeWord, h.store]
  have h1 := ((h.badWord x loc w (decodeStore (rawWord s x loc w)).lane).ite
    ((((h.bump (Reg.BST_ECC x (locChan loc)) 15 0 1).tally x .storeCorr 1).logError x loc w (decodeStore (rawWord s x loc w)).lane
      false).ite h (c := (decodeStore (rawWord s x loc w)).corrected = true)) (c := (decodeStore (rawWord s x loc w)).bad = true))
  cases rewriteOf (rawWord s x loc w) with
  | none => exact ⟨rfl, rfl, h1⟩
  | some v =>
    cases wordQueued s x loc w with
    | true => exact ⟨rfl, rfl, h1⟩
    | false =>
      simp only [Bool.false_eq_true, if_false]
      refine ⟨rfl, rfl, ?_⟩
      dsimp only
      exact h1.modBst x _

theorem Alike.readGranule (h : Alike s t) (x : Side) (cls loc : Nat) (l : List Nat) :
    (readGranule x cls loc l t).1 = (readGranule x cls loc l s).1 ∧ Alike (readGranule x cls loc l s).2 (readGranule x cls loc l t).2 := by
  simp only [Machine.readGranule, h.store]
  cases chanRetired s x (locChan loc) with
  | true =>
    simp only [if_true]
    exact ⟨trivial, Alike.foldl (fun _ _ w h => h.badWord x loc w 15) l h⟩
  | false =>
    have hr : AlikeRead ((List.range 8).foldl (fun a w => judgeWord x loc w a) ([], false, Machine.accessLoc x cls loc s))
        ((List.range 8).foldl (fun a w => judgeWord x loc w a) ([], false, Machine.accessLoc x cls loc t)) :=
      List.foldl_rel ⟨rfl, rfl, h.accessLoc x cls loc⟩ fun w _ _ _ hab => hab.judgeWord x loc w
    simp only [Bool.false_eq_true, if_false]
    generalize List.foldl _ _ _ = a, List.foldl _ _ _ = b at hr ⊢
    obtain ⟨h1, h2, h3⟩ := hr
    simp only [h1, h2]
    exact ⟨trivial, (h3.accessLoc x cls loc).ite h3⟩

theorem Alike.writeItem (h : Alike s t) (x : Side) (cls kind : Nat) (gs : List Nat) (ws : List Word72) :
    Alike (writeItem x cls kind gs ws s) (writeItem x cls kind gs ws t) :=
  Alike.foldl (fun s t q h => by simp only [h.store]; exact h.writeGranule x _) _ h

theorem Alike.putItem (h : Alike s t) (x : Side) (r cls kind : Nat) (what : Stored) (ws : List Word72) (q : List Nat × Nat) :
    Alike (putItem x r cls kind what ws q s).1 (putItem x r cls kind what ws q t).1 ∧
      (putItem x r cls kind what ws q t).2 = (putItem x r cls kind what ws q s).2 := by
  have h2 := ((h.writeItem x cls kind q.1 ws).modBst x (fun b => { b with nextId := (s.bst x).nextId + 1 })).modRing x r
    (fun k => { k with items := k.items ++ [⟨(s.bst x).nextId, what, q.1, ws.length, false, false, none, []⟩], at_ := q.2 })
  simp only [Machine.putItem, h.store, h2.store]
  exact ⟨h2.high _ _ _ _, trivial⟩

theorem Alike.ringFull (h : Alike s t) (x : Side) (r n : Nat) : Alike (ringFull x r n s) (ringFull x r n t) := by
  simp only [Machine.ringFull, h.store, h.rings]
  exact h.ite ((h.modRing x r _).raiseSide x _ _ _)

theorem Alike.dropItem (h : Alike s t) (x : Side) (id : Nat) : Alike (dropItem x id s) (dropItem x id t) := h.modBst x _

theorem Alike.ringLoss (h : Alike s t) (x : Side) (source : Nat) (b : Block) : Alike (ringLoss x source b s) (ringLoss x source b t) := by
  simp only [Machine.ringLoss, h.ports]
  exact h.sendNotice x _ _ _ _

theorem Alike.overwrite (x : Side) (r n : Nat) : ∀ (fuel : Nat) {s t : State}, Alike s t → Alike (overwrite x r n fuel s) (overwrite x r n fuel t)
  | 0, _, _, h => h
  | fuel + 1, s, t, h => by
    simp only [Machine.overwrite, h.store, h.rings]
    refine h.ite ?_
    cases oldestFree (s.ring x r) with
    | none => exact h
    | some q =>
      have h1 := (((h.dropItem x q.1).bump (Reg.BST_RING_LOSS x r) 10 0 1).tally x .overwritten 1).ringLoss x 0x13 q.2
      simp only [h1.store]
      exact Alike.overwrite x r n fuel (h1.ite ((h1.modRing x r _).raiseSide x _ _ _))

theorem Alike.spillBlock (h : Alike s t) (x : Side) (b : Block) :
    Alike (spillBlock x b s).1 (spillBlock x b t).1 ∧ (spillBlock x b t).2 = (spillBlock x b s).2 := by
  have h1 : Alike (if s.rb (Reg.BST_RING_CTRL x (ringOf s x b.id.stream)) 1 then
        Machine.overwrite x (ringOf s x b.id.stream) b.words.length (s.ring x (ringOf s x b.id.stream)).items.length s else s)
      (if s.rb (Reg.BST_RING_CTRL x (ringOf s x b.id.stream)) 1 then
        Machine.overwrite x (ringOf s x b.id.stream) b.words.length (s.ring x (ringOf s x b.id.stream)).items.length t else t) :=
    (Alike.overwrite x _ _ _ h).ite h
  simp only [Machine.spillBlock, h.store, h.regs, h1.rings]
  cases ringPlace _ x _ _ with
  | none => exact ⟨h1, rfl⟩
  | some q => exact ⟨(h1.putItem x _ 0 0 _ _ q).1, rfl⟩

theorem Alike.freeCompressor (h : Alike s t) (x : Side) (b : Block) : Alike (freeCompressor x b s) (freeCompressor x b t) := h.modCmp x _

theorem Alike.admitWaiting (x : Side) (r : Nat) : ∀ (n : Nat) {s t : State}, Alike s t → Alike (admitWaiting x r n s) (admitWaiting x r n t)
  | 0, _, _, h => h
  | n + 1, s, t, h => by
    simp only [Machine.admitWaiting, h.store]
    cases (s.ring x r).waiting with
    | nil => exact h
    | cons b rest =>
      obtain ⟨h1, h2⟩ := h.spillBlock x b
      have pass : ∀ {s t : State}, Alike s t →
          Alike (Machine.admitWaiting x r n (Machine.freeCompressor x b (s.modRing x r (fun k => { k with waiting := rest }))))
            (Machine.admitWaiting x r n (Machine.freeCompressor x b (t.modRing x r (fun k => { k with waiting := rest })))) :=
        fun h => Alike.admitWaiting x r n ((h.modRing x r _).freeCompressor x b)
      simp only [h2]
      exact (pass (h.modLnk x _)).ite ((pass h1).ite (h1.ringFull x r _))

theorem Alike.settleStore (h : Alike s t) (x : Side) : Alike (settleStore x s) (settleStore x t) := by
  simp only [Machine.settleStore, h.store, h.sides]
  refine Alike.foldl (fun s t r h => ?_) _ (Alike.foldl (fun _ _ id h => h.dropItem x id) _ h)
  simp only [h.store]
  exact Alike.admitWaiting x r _ h

theorem Alike.freeItem (h : Alike s t) (x : Side) (id : Nat) : Alike (freeItem x id s) (freeItem x id t) := (h.dropItem x id).settleStore x

end

end Sys2Proof.Machine
end

section
/-!
### Discarded items of alike states (R261)
-/

namespace Sys2Proof.Machine

section
variable {s t : State}

theorem Alike.enter (h : Alike s t) :
    groupBits t = groupBits s ∧ (∀ x, assemblyBytes t x = assemblyBytes s x) ∧ (∀ x, assemblyLevel t x = assemblyLevel s x) ∧
      ∀ x, t.dsp x = s.dsp x := by
  have hg : groupBits t = groupBits s := by simp only [groupBits, h.base, h.sides]
  have hb : ∀ x, assemblyBytes t x = assemblyBytes s x := fun x => by
    simp only [assemblyBytes, takenOf, keptBlocks, hg, h.sides]
  exact ⟨hg, hb, fun x => by simp only [assemblyLevel, hb], fun x => (h.sides x).2.2.2.1⟩

/-- What a sequence's next block is cut from. -/
theorem Alike.slotted (h : Alike s t) (x : Side) (k : SeqKey) (u : Nat) : slotted t x k u = slotted s x k u := by
  have hslice : ∀ v, unitSlice t v = unitSlice s v := fun v => by
    simp only [unitSlice, sliceOf, State.sliceTicks, State.runStart, h.base, h.regs]
  have habsent : unitAbsent t x u = unitAbsent s x u := by
    simp only [unitAbsent, topUnit, tileDone, State.tile, sliceOf, State.sliceTicks, hslice, h.base, h.regs, h.sides]
    rfl
  have hahead : mainAhead t x k u = mainAhead s x k u := by simp only [mainAhead, h.sides]
  obtain ⟨-, -, -, hdsp, hcmp, -⟩ := h.sides x
  simp only [Machine.slotted, hahead, habsent]
  rw [h.enter.1, hdsp, hcmp]

theorem Alike.flushBetween (h : Alike s t) (a b : Nat) : flushBetween t a b = flushBetween s a b := by
  have hbegin : ∀ u, unitBegin t u = unitBegin s u := fun u => by
    simp only [unitBegin, sliceStart, unitSlice, sliceOf, State.sliceTicks, State.runStart, h.base, h.regs]
  have hbegins : ∀ u, begins t u = begins s u := fun u => by
    simp only [begins, State.tile, hbegin, h.base]
  simp only [Machine.flushBetween, hbegin, hbegins, h.base]

theorem Alike.gather (h : Alike s t) (x : Side) (k : SeqKey) : ∀ (l : List Nat) (taken part : Nat) (g : Gather),
    gather t x k l taken part g = gather s x k l taken part g
  | [], _, _, _ => rfl
  | u :: rest, taken, part, g => by
    have ih := fun a b c => Alike.gather h x k rest a b c
    simp only [Machine.gather, h.slotted, h.flushBetween, ih]

/-- What the ready list of a side's compressors is filled from. -/
theorem Alike.readyCount (h : Alike s t) (x : Side) : ∀ (n : Nat) (p : Progress), readyCount t x n p = readyCount s x n p
  | 0, _ => rfl
  | n + 1, p => by
    have ih := fun q => Alike.readyCount h x n q
    have hcut : nextCut t x p = nextCut s x p := by simp only [nextCut, slotsOf, h.gather, h.enter, h.sides]
    simp only [Machine.readyCount, hcut, ih]

theorem Alike.noteReady (h : Alike s t) (x : Side) (k : SeqKey) : Alike (noteReady x s k) (noteReady x t k) := by
  have hprogress : progressOf t x k = progressOf s x k := by
    simp only [progressOf, partsOf, h.sides]
  simp only [Machine.noteReady, h.readyCount, hprogress, h.enter, h.sides]
  exact h.modCmp x _

theorem Alike.scanReady (h : Alike s t) (x : Side) : Alike (scanReady x s) (scanReady x t) := by
  simp only [Machine.scanReady, h.enter, h.sides]
  exact Alike.foldl (fun _ _ k h => h.noteReady x k) _ h

/-- An item written, with its number, in alike states; or in neither. -/
theorem Alike.storeWords (h : Alike s t) (x : Side) (st cls : Nat) (what : Stored) (ws : List Word72) :
    Option.Rel (fun q r => r.2 = q.2 ∧ Alike q.1 r.1) (storeWords x st cls what ws s) (storeWords x st cls what ws t) := by
  simp only [Machine.storeWords, h.store, h.rings]
  cases ringPlace s x (ringOf s x st) ws.length with
  | none => exact .none
  | some q =>
    obtain ⟨hs, hn⟩ := h.putItem x (ringOf s x st) cls 1 what ws q
    exact .some ⟨hn, hs⟩

/-- An output entered in alike states, or in neither. -/
theorem Alike.enterOutput (h : Alike s t) (x : Side) (o : Output) : Option.Rel Alike (enterOutput x o s) (enterOutput x o t) := by
  simp only [Machine.enterOutput, h.enter]
  split
  · have h1 := h.modCmp x (fun c => { c with outputs := c.outputs ++ [o] })
    simp only [noteLevel, h1.enter]
    exact .some (h1.high _ _ _ _)
  · have hw := h.storeWords x (overflowStream o) 0 .output o.words
    generalize Machine.storeWords _ _ _ _ _ s = a, Machine.storeWords _ _ _ _ _ t = b at hw ⊢
    cases hw with
    | none => exact .none
    | some hq =>
      simp only [hq.1]
      exact .some ((hq.2.bump _ _ _ _).modCmp x _)

theorem Alike.enterMember (h : Alike s t) (x : Side) (o : Output) : Option.Rel Alike (enterMember x o s) (enterMember x o t) := by
  have hw := h.storeWords x 2 1 .output o.words
  simp only [Machine.enterMember]
  generalize Machine.storeWords _ _ _ _ _ s = a, Machine.storeWords _ _ _ _ _ t = b at hw ⊢
  cases hw with
  | none => exact .none
  | some hq =>
    simp only [Option.map_some, hq.1]
    exact .some (hq.2.modCmp x _)

theorem Alike.outputWaits (h : Alike s t) (x : Side) (member : Bool) (o : Output) :
    Alike (outputWaits x member o s) (outputWaits x member o t) := by
  simp only [Machine.outputWaits, h.store]
  exact h.ringFull x _ _

theorem Alike.enterLater (h : Alike s t) (x : Side) (member : Bool) (o : Output) :
    Alike (enterLater x member o s) (enterLater x member o t) := by
  have he : Option.Rel Alike (enterAs x member o s) (enterAs x member o t) := by
    cases member with
    | true => exact h.enterMember x o
    | false => exact h.enterOutput x o
  simp only [Machine.enterLater]
  generalize enterAs x member o s = a, enterAs x member o t = b at he ⊢
  cases he with
  | none => exact (h.outputWaits x member o).modCmp x _
  | some h1 => exact h1

theorem Alike.removeUnit (h : Alike s t) (x : Side) (v : UnitIn) : Alike (removeUnit x v s) (removeUnit x v t) := by
  simp only [Machine.removeUnit]
  cases v.held with
  | none => exact h.modDsp x _
  | some id => exact (h.modDsp x _).freeItem x id

theorem Alike.dropReduce (h : Alike s t) (i : Nat) : Alike (dropReduce i s) (dropReduce i t) := (h.modTdc _).modFrames _

/-- Words read at alike states: the same ones are bad. -/
theorem Alike.readAttached (h : Alike s t) (x : Side) (v : UnitIn) :
    Alike (readAttached x v s).1 (readAttached x v t).1 ∧ (readAttached x v t).2 = (readAttached x v s).2 := by
  have hfind : findItem t x = findItem s x := funext fun id => by simp only [h.store]
  simp only [Machine.readAttached, hfind]
  cases v.held.bind (findItem s x) with
  | none => exact ⟨h, rfl⟩
  | some i =>
    refine And.imp_right (congrArg (· ++ v.bad))
      (List.foldl_rel (r := fun a b : State × List Nat => Alike a.1 b.1 ∧ b.2 = a.2) ⟨h, rfl⟩ fun q _ a b hab => ?_)
    obtain ⟨ha, hl⟩ := hab
    obtain ⟨hw, h1⟩ := ha.readGranule x 1 (itemLoc (a.1.bst x) i.2 q.1) (List.range (min 8 (v.pre.length - 8 * q.2)))
    simp only [ha.store, hw, hl]
    exact ⟨h1, trivial⟩

end

/-- What a discarded item of one unit becomes: a substitute of what can be read of the unit, which enters the assembly buffer (R261). -/
def discardUnit (x : Side) (n : BitVec 48) (s : State) : State :=
  match (s.dsp x).units.find? (fun v => v.number = n) with
  | none => s
  | some v =>
    let a := readAttached x v s
    let o := outputOf v (substitute (unitTile n.toNat) 0x10 a.2 v.pre v.words v.post)
    scanReady x (removeUnit x v (enterLater x o.1 o.2 ((a.1.bump (Reg.DSP_QERR x) 31 16 1).tally x .substitutes 1)))

theorem discardItem_sort (x : Side) (s : State) (k d : Nat) (n : BitVec 48) : discardItem x s (k, ⟨.sort n, d⟩) = discardUnit x n s := rfl

theorem discardItem_cluster (x : Side) (s : State) (k d : Nat) (n : BitVec 48) :
    discardItem x s (k, ⟨.cluster n, d⟩) = discardUnit x n s := rfl

section
variable {s t : State}

theorem Alike.discardUnit (h : Alike s t) (x : Side) (n : BitVec 48) : Alike (discardUnit x n s) (discardUnit x n t) := by
  have hunits : (t.dsp x).units.find? (fun v => v.number = n) = (s.dsp x).units.find? (fun v => v.number = n) := by rw [h.enter.2.2.2]
  simp only [Machine.discardUnit, hunits]
  cases (s.dsp x).units.find? (fun v => v.number = n) with
  | none => exact h
  | some v =>
    obtain ⟨h1, hbad⟩ := h.readAttached x v
    simp only [hbad]
    exact ((((h1.bump _ _ _ _).tally x _ _).enterLater x _ _).removeUnit x v).scanReady x

theorem Alike.discardItem (h : Alike s t) (x : Side) (q : Nat × Item) : Alike (discardItem x s q) (discardItem x t q) := by
  obtain ⟨k, w, d⟩ := q
  cases w with
  | sort n => simp only [discardItem_sort]; exact h.discardUnit x n
  | cluster n => simp only [discardItem_cluster]; exact h.discardUnit x n
  | record _ | merge _ _ | verify _ =>
    simp only [Machine.discardItem, h.base]
    exact h.modDsp x _
  | telemetry ws =>
    simp only [Machine.discardItem, h.base]
    exact h.ite (h.modDsp x _)
  | reduce i => exact h.dropReduce i

end

end Sys2Proof.Machine
end

section
/-!
### The actions that strobes trigger, on alike states
-/

namespace Sys2Proof.Machine

section
variable {s t : State}

theorem Alike.awlFire (h : Alike s t) : Alike (awlFire s) (awlFire t) := by
  simp only [Machine.awlFire, h.regs, h.base, h.events]
  have h1 := (h.raiseBit Reg.PIX_AWL_STATUS 1).ite h (c := s.rf Reg.PIX_AWL_PERIOD 23 0 < 3000)
  exact h.ite (((h1.raiseBit _ _).ite h1).modPix _)

theorem Alike.awlAbort (h : Alike s t) : Alike (awlAbort s) (awlAbort t) := by
  simp only [Machine.awlAbort, h.base]
  exact h.ite (h.modPix _)

theorem Alike.injStart (h : Alike s t) : Alike (injStart s) (injStart t) := by
  simp only [Machine.injStart, injTrigger, h.regs, h.base]
  exact (h.bump _ _ _ _).ite (h.ite ((h.count _ _ _ _).modHk _))

theorem Alike.clearLog (h : Alike s t) (x : Side) (ch : Nat) : Alike (clearLog x ch s) (clearLog x ch t) := by
  simp only [Machine.clearLog, h.regs]
  refine Alike.foldl (fun s t i h => ?_) _ (h.wr _ _)
  exact (h.wr _ _).wr _ _

theorem Alike.clearSources (h : Alike s t) (x : Side) : Alike (clearSources x s) (clearSources x t) := h.modEvt x _

theorem Alike.tryResync (h : Alike s t) (asked : Bool) (x : Side) : Alike (tryResync asked x s) (tryResync asked x t) := by
  simp only [Machine.tryResync, weltUp, weltCarries, State.serving, State.both, h.regs, h.base, h.sides]
  refine Alike.ite ?_ h
  exact ((h.modArb _).modWlt .a _ fun _ => by dsimp only).modWlt .b _ fun _ => by dsimp only

theorem Alike.flushReady (h : Alike s t) (x : Side) : Alike (flushReady x s) (flushReady x t) := by
  simp only [Machine.flushReady, h.enter]
  exact Alike.foldl (fun _ _ q h => h.discardItem x q) _ (h.modDsp x _)

theorem Alike.flushDelay (h : Alike s t) (x : Side) : Alike (flushDelay x s) (flushDelay x t) := by
  simp only [Machine.flushDelay, h.enter]
  exact Alike.foldl (fun _ _ q h => h.discardItem x (q.1, q.2.1)) _ (h.modDsp x _)

theorem Alike.flushStore (h : Alike s t) (x : Side) : Alike (flushStore x s) (flushStore x t) :=
  Alike.foldl (fun _ _ ch h => h.modChan x ch _) _ h

theorem Alike.freeGroups (h : Alike s t) (x : Side) (p n : Nat) : Alike (freeGroups x p n s) (freeGroups x p n t) := by
  simp only [Machine.freeGroups, h.ports]
  exact (h.modPort x p _).ite h

theorem Alike.flushLace (h : Alike s t) (x : Side) : Alike (flushLace x s) (flushLace x t) := by
  refine Alike.foldl (fun s t p h => ?_) _ h
  simp only [h.sides]
  exact (h.modLce x _).freeGroups x p _

theorem Alike.flushEgress (h : Alike s t) (x : Side) : Alike (flushEgress x s) (flushEgress x t) := (h.modLnk x _).settleStore x

theorem Alike.flushStaging (h : Alike s t) (x : Side) : Alike (flushStaging x s) (flushStaging x t) := by
  simp only [Machine.flushStaging]
  exact ((h.modDsp x _).modCmp x _).modWlt x _ fun _ => by dsimp only

theorem Alike.flushWelt (h : Alike s t) (x : Side) : Alike (flushWelt x s) (flushWelt x t) :=
  (h.modWlt x _ fun _ => rfl).modWlt _ _ fun _ => rfl

theorem Alike.flushCommands (h : Alike s t) (x : Side) : Alike (flushCommands x s) (flushCommands x t) := h.modMgt x _

theorem Alike.flushEvents (h : Alike s t) (x : Side) : Alike (flushEvents x s) (flushEvents x t) :=
  Alike.foldl (fun _ _ p h => h.portNext x p) _ ((Alike.foldl (fun _ _ p h => h.modPort x p _) _ h).evBefore x _)

end

end Sys2Proof.Machine
end

section
/-!
### Work on a side's store and compressors: what it leaves alone

An item that enters the store, or a unit that leaves it, changes the store, the compressors, counters and events of a side, and sends
notices. The lace, the dispatcher, the egress buffer and the blocks of the ports stay as they are, and so do the blocks that wait for room.
-/

namespace Sys2Proof.Machine

theorem port_modPort (s : State) (x y : Side) (p q : Nat) (f : Port → Port) :
    (s.modPort x p f).port y q = if y = x ∧ q = p then f (s.port x p) else s.port y q := by
  unfold State.port State.modPort
  by_cases hy : y = x
  · subst hy; simp [Sparse.get_upd]
  · simp [State.modLnk_ne s _ hy, hy]

/-- Work on the store and the compressors of a side. -/
structure StoreWork (s t : State) : Prop where
  lace : t.lace = s.lace
  dsp : ∀ y, (t.side y).dsp = (s.side y).dsp
  egress : ∀ y, (t.side y).lnk.egress = (s.side y).lnk.egress
  blocks : ∀ y p, (t.port y p).blocks = (s.port y p).blocks
  frag : ∀ y p, (s.port y p).blocks = [] → (t.port y p).frag = (s.port y p).frag
  waiting : ∀ y r, (t.ring y r).waiting = (s.ring y r).waiting

/-- The parts that such work may change: what it changes of the ports and the store is told apart. -/
def besideStore : List Part :=
  .tdc :: .frames :: .spi :: bothOf .evt ++ bothOf .tally ++ bothOf .cmp ++ bothOf .mgt ++ bothOf .wlt ++ bothOf .lce

namespace StoreWork

variable {s t u : State}

theorem refl (s : State) : StoreWork s s := ⟨rfl, fun _ => rfl, fun _ => rfl, fun _ _ => rfl, fun _ _ _ => rfl, fun _ _ => rfl⟩

theorem trans (h : StoreWork s t) (k : StoreWork t u) : StoreWork s u where
  lace := k.lace.trans h.lace
  dsp y := (k.dsp y).trans (h.dsp y)
  egress y := (k.egress y).trans (h.egress y)
  blocks y p := (k.blocks y p).trans (h.blocks y p)
  frag y p hb := (k.frag y p ((h.blocks y p).trans hb)).trans (h.frag y p hb)
  waiting y r := (k.waiting y r).trans (h.waiting y r)

theorem foldl {α : Type} {f : State → α → State} (h : ∀ t a, StoreWork t (f t a)) (l : List α) (s : State) : StoreWork s (l.foldl f s) :=
  List.foldlRecOn (motive := StoreWork s) l _ (refl s) fun t ht a _ => ht.trans (h t a)

theorem ite {c : Prop} [Decidable c] {a b : State} (ha : StoreWork s a) (hb : StoreWork s b) : StoreWork s (if c then a else b) := by
  split
  · exact ha
  · exact hb

/-- Work that touches neither ports nor store. -/
theorem of_only {ps : List Part} {w : Nat → Prop} (h : Only ps w s t) (hps : ps ⊆ besideStore) : StoreWork s t := by
  have out : ∀ p, p ∉ besideStore → p.same s t := fun p hp => h.1 p fun hm => hp (hps hm)
  have hlnk : ∀ y, (t.side y).lnk = (s.side y).lnk := fun y => out (.lnk y) (by cases y <;> decide)
  have hbst : ∀ y, (t.side y).bst = (s.side y).bst := fun y => out (.bst y) (by cases y <;> decide)
  exact ⟨out .lace (by decide), fun y => out (.dsp y) (by cases y <;> decide), fun y => by rw [hlnk],
    fun y p => by simp only [State.port, hlnk], fun y p _ => by simp only [State.port, hlnk],
    fun y r => by simp only [State.ring, State.bst, hbst]⟩

theorem wr (a : Nat) (v : Word) (s : State) : StoreWork s (s.wr a v) :=
  of_only (Only.wr (ps := []) (w := fun _ => True) s a v trivial) (by simp)

theorem wf (a hi lo v : Nat) (s : State) : StoreWork s (s.wf a hi lo v) := wr a _ s

theorem raiseBit (a i : Nat) (s : State) : StoreWork s (s.raiseBit a i) :=
  of_only (Only.raiseBit (ps := []) (w := fun _ => True) s a i trivial) (by simp)

theorem bump (a hi lo n : Nat) (s : State) : StoreWork s (s.bump a hi lo n) :=
  of_only (Only.bump (ps := []) (w := fun _ => True) s a hi lo n trivial) (by simp)

theorem high (a hi lo v : Nat) (s : State) : StoreWork s (s.high a hi lo v) :=
  of_only (Only.high (ps := []) (w := fun _ => True) s a hi lo v trivial) (by simp)

theorem tally (x : Side) (c : Tally) (n : Nat) (s : State) : StoreWork s (s.tally x c n) :=
  of_only (Only.tally (ps := [.tally x]) (w := noReg) s x c n (by simp)) (by cases x <;> decide)

theorem modCmp (x : Side) (f : Cmp → Cmp) (s : State) : StoreWork s (s.modCmp x f) :=
  of_only (Only.modCmp (ps := [.cmp x]) (w := noReg) s x f (by simp)) (by cases x <;> decide)

theorem raiseSide (x : Side) (n sev inst : Nat) (s : State) : StoreWork s (raiseSide x n sev inst s) :=
  of_only (raiseSide_only x n sev inst s) (by decide)

/-- A change of the store that keeps the blocks that wait for room. -/
theorem modBst (x : Side) {f : Bst → Bst} (s : State)
    (hf : ∀ b r, (Sparse.get (f b).rings r Ring.idle).waiting = (Sparse.get b.rings r Ring.idle).waiting := by intros; rfl) : StoreWork s (s.modBst x f) where
  lace := by simp
  dsp y := by simp
  egress y := by simp
  blocks y p := by simp [State.port]
  frag y p _ := by simp [State.port]
  waiting y r := by
    unfold State.ring State.bst
    by_cases hy : y = x
    · subst hy; rw [State.modBst_self, hf]
    · rw [State.modBst_ne s f hy]

theorem modChan (x : Side) (ch : Nat) (f : Chan → Chan) (s : State) : StoreWork s (s.modChan x ch f) := modBst x s

theorem modRing (x : Side) (r : Nat) {f : Ring → Ring} (s : State) (hf : ∀ k, (f k).waiting = k.waiting := by intros; rfl) :
    StoreWork s (s.modRing x r f) :=
  modBst x s fun b q => by
    simp only [Sparse.get_upd]
    split
    · next h => rw [hf, h]
    · rfl

theorem dropItem (x : Side) (id : Nat) (s : State) : StoreWork s (dropItem x id s) :=
  modBst x s fun b r => by
    have h := congrArg Ring.waiting
      (Sparse.get_map (fun _ (k : Ring) => { k with items := k.items.filter (·.id ≠ id) }) Ring.idle r rfl b.rings)
    exact h

/-- A change of a port that keeps its blocks, and how far they are sent where it has none. -/
theorem modPort (x : Side) (p : Nat) {f : Port → Port} (s : State) (hb : (f (s.port x p)).blocks = (s.port x p).blocks)
    (hf : (s.port x p).blocks = [] → (f (s.port x p)).frag = (s.port x p).frag) : StoreWork s (s.modPort x p f) := by
  refine ⟨by simp [State.modPort], fun y => by simp [State.modPort], fun y => ?_, fun y q => ?_, fun y q hq => ?_,
    fun y r => by simp [State.ring, State.bst, State.modPort]⟩
  · unfold State.modPort
    by_cases hy : y = x
    · subst hy; simp
    · rw [State.modLnk_ne s _ hy]
  · rw [port_modPort]; split
    · next h => obtain ⟨rfl, rfl⟩ := h; exact hb
    · rfl
  · rw [port_modPort]; split
    · next h => obtain ⟨rfl, rfl⟩ := h; exact hf hq
    · rfl

/-- A change of a side's links that touches neither ports nor the egress buffer. -/
theorem tookSeq (x : Side) (ty : Nat) (s : State) : StoreWork s (s.tookSeq x ty) where
  lace := by simp [State.tookSeq]
  dsp y := by simp [State.tookSeq]
  egress y := by cases x <;> cases y <;> rfl
  blocks y p := by cases x <;> cases y <;> rfl
  frag y p _ := by cases x <;> cases y <;> rfl
  waiting y r := by cases x <;> cases y <;> rfl

/-! Notices -/

theorem startFrame (x : Side) (p : Nat) (f : Frame) (s : State) : StoreWork s (startFrame x p f s) := modPort x p s rfl fun _ => rfl

theorem portNext (x : Side) (p : Nat) (s : State) : StoreWork s (portNext x p s) := by
  unfold Machine.portNext
  extract_lets q
  split
  · exact refl s
  · split
    · exact ite ((modPort x p s rfl fun _ => rfl).trans (startFrame x p _ _)) (refl s)
    · split
      · exact refl s
      · next b r hb =>
        exact ite (refl s) ((modPort x p s rfl fun h => absurd (hb.symm.trans h) (by simp)).trans (startFrame x p _ _))

theorem sendNotice (x : Side) (kind st : Nat) (ws : List Word72) (ports : List Nat) (s : State) : StoreWork s (sendNotice x kind st ws ports s) :=
  (foldl (fun t p => (modPort x p t rfl fun _ => rfl).trans (portNext x p _)) ports s).trans (tookSeq x 5 _)

/-! The store's words -/

theorem accessLoc (x : Side) (cls loc : Nat) (s : State) : StoreWork s (accessLoc x cls loc s) := by
  unfold Machine.accessLoc
  extract_lets k r s1
  have h1 : StoreWork s s1 := (modBst x s).trans (modChan x _ _ _)
  exact ite (h1.trans (bump _ _ _ _ _)) h1

theorem putWords (x : Side) (q : Queued) (s : State) : StoreWork s (putWords x q s) := modBst x s

theorem writeGranule (x : Side) (q : Queued) (s : State) : StoreWork s (writeGranule x q s) := by
  unfold Machine.writeGranule
  extract_lets ch s1 n
  have h1 : StoreWork s s1 := ite (modChan x ch _ s) (refl s)
  exact ite (h1.trans ((modChan x ch _ _).trans (high _ _ _ _ _))) (h1.trans ((accessLoc x _ _ _).trans (putWords x q _)))

theorem logError (x : Side) (loc w lane : Nat) (bad : Bool) (s : State) : StoreWork s (logError x loc w lane bad s) := by
  unfold Machine.logError
  extract_lets ch st n first s1
  have h1 : StoreWork s s1 := (raiseBit _ _ s).trans (bump _ _ _ _ _)
  exact ite ((wr _ _ s).trans ((wr _ _ _).trans (wf _ _ _ _ _))) (ite (h1.trans (raiseSide x _ _ _ _)) h1)

theorem badWord (x : Side) (loc w lane : Nat) (s : State) : StoreWork s (badWord x loc w lane s) :=
  ((bump _ _ _ _ s).trans (tally x _ _ _)).trans ((raiseSide x _ _ _ _).trans (logError x _ _ _ _ _))

theorem judgeWord (x : Side) (loc w : Nat) (a : List GotWord × Bool × State) : StoreWork a.2.2 (judgeWord x loc w a).2.2 := by
  unfold Machine.judgeWord
  extract_lets s raw d ch s1
  have h1 : StoreWork s s1 :=
    ite (badWord x loc w _ s) (ite (((bump _ _ _ _ s).trans (tally x _ _ _)).trans (logError x _ _ _ _ _)) (refl s))
  split
  · split
    · exact h1
    · dsimp only
      exact h1.trans (modBst x _)
  · exact h1

theorem readGranule (x : Side) (cls loc : Nat) (l : List Nat) (s : State) : StoreWork s (readGranule x cls loc l s).2 := by
  unfold Machine.readGranule
  split
  · exact foldl (fun t w => badWord x loc w 15 t) l s
  · extract_lets r
    have h1 : StoreWork s r.2.2 := List.foldlRecOn (motive := fun a : List GotWord × Bool × State => StoreWork s a.2.2) _ _
      (accessLoc x cls loc s) fun a ha w _ => ha.trans (judgeWord x loc w a)
    exact ite (h1.trans (accessLoc x cls loc _)) h1

/-! Items -/

theorem writeItem (x : Side) (cls kind : Nat) (gs : List Nat) (ws : List Word72) (s : State) : StoreWork s (writeItem x cls kind gs ws s) :=
  foldl (fun t _ => writeGranule x _ t) _ s

theorem putItem (x : Side) (r cls kind : Nat) (what : Stored) (ws : List Word72) (q : List Nat × Nat) (s : State) :
    StoreWork s (putItem x r cls kind what ws q s).1 :=
  (writeItem x cls kind q.1 ws s).trans ((modBst x _).trans ((modRing x r _).trans (high _ _ _ _ _)))

theorem ringFull (x : Side) (r n : Nat) (s : State) : StoreWork s (ringFull x r n s) :=
  ite (refl s) ((modRing x r s).trans (raiseSide x _ _ _ _))

theorem ringLoss (x : Side) (source : Nat) (b : Block) (s : State) : StoreWork s (ringLoss x source b s) := sendNotice x _ _ _ _ s

theorem overwrite (x : Side) (r n : Nat) : ∀ (fuel : Nat) (s : State), StoreWork s (overwrite x r n fuel s)
  | 0, s => refl s
  | fuel + 1, s => by
    rw [Machine.overwrite]
    refine ite (refl s) ?_
    split
    · exact refl s
    · extract_lets s1 said s2
      have h1 : StoreWork s s1 := (((dropItem x _ s).trans (bump _ _ _ _ _)).trans (tally x _ _ _)).trans (ringLoss x _ _ _)
      have h2 : StoreWork s s2 := ite h1 (h1.trans ((modRing x r _).trans (raiseSide x _ _ _ _)))
      exact h2.trans (overwrite x r n fuel s2)

theorem spillBlock (x : Side) (b : Block) (s : State) : StoreWork s (spillBlock x b s).1 := by
  unfold Machine.spillBlock
  extract_lets r s1
  have h1 : StoreWork s s1 := ite (overwrite x r _ _ s) (refl s)
  split
  · exact h1.trans (putItem x r 0 0 _ _ _ _)
  · exact h1

theorem freeCompressor (x : Side) (b : Block) (s : State) : StoreWork s (freeCompressor x b s) := modCmp x _ s

/-! Outputs -/

theorem storeWords {x : Side} {st cls : Nat} {what : Stored} {ws : List Word72} {s : State} {q : State × Nat}
    (h : storeWords x st cls what ws s = some q) : StoreWork s q.1 := by
  simp only [Machine.storeWords] at h
  split at h
  · cases h; exact putItem x _ _ _ _ _ _ s
  · cases h

theorem noteLevel (x : Side) (s : State) : StoreWork s (noteLevel x s) := high _ _ _ _ s

theorem enterAs {x : Side} {member : Bool} {o : Output} {s t : State} (h : enterAs x member o s = some t) : StoreWork s t := by
  unfold Machine.enterAs at h
  split at h
  · unfold enterMember at h
    obtain ⟨q, hq, rfl⟩ := Option.map_eq_some_iff.1 h
    exact (storeWords hq).trans (modCmp x _ _)
  · unfold enterOutput at h
    split at h
    · cases h; exact (modCmp x _ s).trans (noteLevel x _)
    · split at h
      · next q hq => cases h; exact ((storeWords hq).trans (bump _ _ _ _ _)).trans (modCmp x _ _)
      · cases h

theorem enterLater (x : Side) (member : Bool) (o : Output) (s : State) : StoreWork s (enterLater x member o s) := by
  unfold Machine.enterLater
  split
  · next h => exact enterAs h
  · exact (ringFull x _ _ s).trans (modCmp x _ _)

theorem scanReady (x : Side) (s : State) : StoreWork s (scanReady x s) := by
  unfold Machine.scanReady
  refine foldl (fun t k => ?_) _ s
  unfold noteReady
  exact modCmp x _ t

theorem readAttached (x : Side) (v : UnitIn) (s : State) : StoreWork s (readAttached x v s).1 := by
  unfold Machine.readAttached
  split
  · exact refl s
  · extract_lets n r
    exact List.foldlRecOn (motive := fun a : State × List Nat => StoreWork s a.1) _ _ (refl s)
      fun a ha q _ => ha.trans (readGranule x 1 _ _ a.1)

theorem dropReduce (i : Nat) (s : State) : StoreWork s (dropReduce i s) :=
  of_only ((Only.setTdc (ps := [.tdc, .frames]) (w := noReg) s _ (by simp)).trans (Only.setFrames _ _ (by simp))) (by decide)

end StoreWork

end Sys2Proof.Machine
end

section
/-!
### What the flushes of the store, the egress buffer and the lists leave (R261, R327, R491)
-/

namespace Sys2Proof.Machine

/-- Work in which blocks that wait for room may enter the egress buffer, and no port takes one. -/
structure SettleWork (s t : State) : Prop where
  lace : t.lace = s.lace
  dsp : ∀ y, (t.side y).dsp = (s.side y).dsp
  egress : ∀ y, ∀ b ∈ (t.side y).lnk.egress, b ∈ (s.side y).lnk.egress ∨ ∃ r, b ∈ (s.ring y r).waiting
  ports : ∀ y p, (s.port y p).blocks = [] → (t.port y p).blocks = [] ∧ (t.port y p).frag = (s.port y p).frag
  waiting : ∀ y r, ∀ b ∈ (t.ring y r).waiting, b ∈ (s.ring y r).waiting

theorem StoreWork.settle {s t : State} (h : StoreWork s t) : SettleWork s t where
  lace := h.lace
  dsp := h.dsp
  egress y _ hb := .inl (h.egress y ▸ hb)
  ports y p hp := ⟨(h.blocks y p).trans hp, h.frag y p hp⟩
  waiting y r _ hb := h.waiting y r ▸ hb

namespace SettleWork

variable {s t u : State}

theorem trans (h : SettleWork s t) (k : SettleWork t u) : SettleWork s u where
  lace := k.lace.trans h.lace
  dsp y := (k.dsp y).trans (h.dsp y)
  egress y b hb := (k.egress y b hb).elim (h.egress y b) fun ⟨r, hr⟩ => .inr ⟨r, h.waiting y r b hr⟩
  ports y p hp := by
    obtain ⟨hb, hf⟩ := h.ports y p hp
    obtain ⟨hb', hf'⟩ := k.ports y p hb
    exact ⟨hb', hf'.trans hf⟩
  waiting y r b hb := h.waiting y r b (k.waiting y r b hb)

theorem refl (s : State) : SettleWork s s := (StoreWork.refl s).settle

theorem foldl {α : Type} {f : State → α → State} (h : ∀ t a, SettleWork t (f t a)) (l : List α) (s : State) : SettleWork s (l.foldl f s) :=
  List.foldlRecOn (motive := SettleWork s) l _ (refl s) fun t ht a _ => ht.trans (h t a)

/-- The ring that a block leaves of those that wait for room. -/
theorem ring_modRing (s : State) (x y : Side) (r q : Nat) (f : Ring → Ring) :
    (s.modRing x r f).ring y q = if y = x ∧ q = r then f (s.ring x r) else s.ring y q := by
  unfold State.ring State.bst State.modRing
  by_cases hy : y = x
  · subst hy; simp [Sparse.get_upd]
  · simp [State.modBst_ne s _ hy, hy]

/-- The first block that waits for room leaves the list. -/
theorem popWaiting {x : Side} {r : Nat} {b : Block} {rest : List Block} (h : (s.ring x r).waiting = b :: rest) :
    SettleWork s (s.modRing x r (fun k => { k with waiting := rest })) where
  lace := by simp [State.modRing]
  dsp y := by simp [State.modRing]
  egress y b hb := .inl (by simpa [State.modRing] using hb)
  ports y p hp := by simp only [State.port, State.modRing, State.modBst_side_lnk] at hp ⊢; exact ⟨hp, trivial⟩
  waiting y q d hd := by
    rw [ring_modRing] at hd
    split at hd
    · next hq => obtain ⟨rfl, rfl⟩ := hq; rw [h]; exact List.mem_cons_of_mem _ hd
    · exact hd

/-- A block that waits for room enters the egress buffer. -/
theorem intoEgress {x : Side} {r : Nat} {b : Block} (h : b ∈ (s.ring x r).waiting) :
    SettleWork s (s.modLnk x (fun l => { l with egress := l.egress ++ [b] })) where
  lace := by simp
  dsp y := by simp
  egress y d hd := by
    by_cases hy : y = x
    · subst hy
      simp only [State.modLnk_self, List.mem_append, List.mem_singleton] at hd
      refine hd.imp id fun hd => ?_
      subst hd
      exact ⟨r, h⟩
    · rw [State.modLnk_ne s _ hy] at hd; exact .inl hd
  ports y p hp := by cases x <;> cases y <;> exact ⟨hp, rfl⟩
  waiting y q d hd := by simpa [State.ring, State.bst] using hd

theorem admitWaiting (x : Side) (r : Nat) : ∀ (n : Nat) (s : State), SettleWork s (admitWaiting x r n s)
  | 0, s => refl s
  | n + 1, s => by
    rw [Machine.admitWaiting]
    split
    · exact refl s
    · next b rest hw =>
      have pass : ∀ t : State, (t.ring x r).waiting = b :: rest →
          SettleWork t (Machine.admitWaiting x r n (freeCompressor x b (t.modRing x r (fun k => { k with waiting := rest })))) :=
        fun t ht => ((popWaiting ht).trans (StoreWork.freeCompressor x b _).settle).trans (admitWaiting x r n _)
      have hspill := StoreWork.spillBlock x b s
      extract_lets cont q
      split
      · exact (intoEgress (hw ▸ List.mem_cons_self)).trans (pass _ (by simpa [State.ring, State.bst] using hw))
      · split
        · exact hspill.settle.trans (pass _ ((hspill.waiting x r).trans hw))
        · exact hspill.settle.trans (StoreWork.ringFull x r _ _).settle

theorem settleStore (x : Side) (s : State) : SettleWork s (settleStore x s) := by
  unfold Machine.settleStore
  extract_lets l held gone s1
  exact (foldl (fun t id => (StoreWork.dropItem x id t).settle) gone s).trans (foldl (fun t r => admitWaiting x r _ t) _ s1)

end SettleWork

/-! ### The lists of the dispatcher -/

/-- Work that leaves the lace and the lists of the dispatcher alone. -/
structure ListWork (s t : State) : Prop where
  lace : t.lace = s.lace
  ready : ∀ y, (t.side y).dsp.ready = (s.side y).dsp.ready
  delay : ∀ y, (t.side y).dsp.delay = (s.side y).dsp.delay

theorem SettleWork.list {s t : State} (h : SettleWork s t) : ListWork s t := ⟨h.lace, fun y => by rw [h.dsp], fun y => by rw [h.dsp]⟩

theorem StoreWork.list {s t : State} (h : StoreWork s t) : ListWork s t := h.settle.list

namespace ListWork

variable {s t u : State}

theorem refl (s : State) : ListWork s s := ⟨rfl, fun _ => rfl, fun _ => rfl⟩

theorem trans (h : ListWork s t) (k : ListWork t u) : ListWork s u :=
  ⟨k.lace.trans h.lace, fun y => (k.ready y).trans (h.ready y), fun y => (k.delay y).trans (h.delay y)⟩

/-- A change of the dispatcher that keeps its lists. -/
theorem modDsp (x : Side) {f : Dsp → Dsp} (s : State) (hr : ∀ d, (f d).ready = d.ready := by intros; rfl)
    (hd : ∀ d, (f d).delay = d.delay := by intros; rfl) : ListWork s (s.modDsp x f) where
  lace := by simp
  ready y := by
    by_cases hy : y = x
    · subst hy; rw [State.modDsp_self, hr]
    · rw [State.modDsp_ne s f hy]
  delay y := by
    by_cases hy : y = x
    · subst hy; rw [State.modDsp_self, hd]
    · rw [State.modDsp_ne s f hy]

theorem removeUnit (x : Side) (v : UnitIn) (s : State) : ListWork s (removeUnit x v s) := by
  unfold Machine.removeUnit
  extract_lets s1
  have h1 : ListWork s s1 := modDsp x s
  split
  · next id _ => exact h1.trans ((StoreWork.dropItem x id s1).list.trans (SettleWork.settleStore x _).list)
  · exact h1

theorem discardUnit (x : Side) (n : BitVec 48) (s : State) : ListWork s (discardUnit x n s) := by
  unfold Machine.discardUnit
  split
  · exact refl s
  · next v _ =>
    extract_lets a o
    have h1 : StoreWork s ((a.1.bump (Reg.DSP_QERR x) 31 16 1).tally x .substitutes 1) :=
      ((StoreWork.readAttached x v s).trans (StoreWork.bump _ _ _ _ _)).trans (StoreWork.tally x _ _ _)
    exact (h1.trans (StoreWork.enterLater x _ _ _)).list.trans ((removeUnit x v _).trans (StoreWork.scanReady x _).list)

/-- An item that a flush discards goes into no list (R261). -/
theorem discardItem (x : Side) (s : State) (q : Nat × Item) : ListWork s (discardItem x s q) := by
  obtain ⟨k, w, d⟩ := q
  cases w with
  | sort n => rw [discardItem_sort]; exact discardUnit x n s
  | cluster n => rw [discardItem_cluster]; exact discardUnit x n s
  | record _ | merge _ _ | verify _ =>
    simp only [Machine.discardItem]
    exact modDsp x s
  | telemetry ws =>
    show ListWork s (if periodic ws then s else s.modDsp x _)
    split
    · exact refl s
    · exact modDsp x s
  | reduce i => exact (StoreWork.dropReduce i s).list

theorem foldl {α : Type} {f : State → α → State} (h : ∀ t a, ListWork t (f t a)) (l : List α) (s : State) : ListWork s (l.foldl f s) :=
  List.foldlRecOn (motive := ListWork s) l _ (refl s) fun t ht a _ => ht.trans (h t a)

end ListWork

/-- A flush of the ready list leaves it empty, and the lace alone (R261). -/
theorem flushReady_lists (x : Side) (s : State) : (flushReady x s).lace = s.lace ∧ ((flushReady x s).side x).dsp.ready = [] := by
  have h := ListWork.foldl (fun t q => ListWork.discardItem x t q) (s.dsp x).ready (s.modDsp x (fun d => { d with ready := [] }))
  exact ⟨h.lace.trans (by simp), (h.ready x).trans (by simp)⟩

/-- A flush of the delay list leaves it empty, and the lace alone (R261). -/
theorem flushDelay_lists (x : Side) (s : State) : (flushDelay x s).lace = s.lace ∧ ((flushDelay x s).side x).dsp.delay = [] := by
  have h := ListWork.foldl (fun t (q : Nat × Item × Time) => ListWork.discardItem x t (q.1, q.2.1)) (s.dsp x).delay
    (s.modDsp x (fun d => { d with delay := [] }))
  exact ⟨h.lace.trans (by simp), (h.delay x).trans (by simp)⟩

end Sys2Proof.Machine
end

section
/-!
### What answering a command leaves of the parts that it changes
-/

namespace Sys2Proof.Machine

/-- The command queues, the egress buffer and the blocks of the ports, and what stands at the ends of the Welt link are the same; on a port
waits no frame but a reply that did not wait before. -/
structure AnswerKeeps (s t : State) : Prop where
  queue : ∀ y, (t.side y).mgt.queue = (s.side y).mgt.queue
  egress : ∀ y, (t.side y).lnk.egress = (s.side y).lnk.egress
  blocks : ∀ y p, (t.port y p).blocks = (s.port y p).blocks
  frag : ∀ y p, (t.port y p).frag = (s.port y p).frag
  waiting : ∀ y p, ∀ f ∈ (t.port y p).waiting, f ∈ (s.port y p).waiting ∨ f.type = 2
  unacked : ∀ y, (t.side y).wlt.unacked = (s.side y).wlt.unacked
  inbox : ∀ y, (t.side y).wlt.inbox = (s.side y).wlt.inbox
  retained : ∀ y, (t.side y).wlt.retained = (s.side y).wlt.retained
  transferring : ∀ y, (t.side y).wlt.transferring = (s.side y).wlt.transferring

namespace AnswerKeeps

variable {s t u : State}

theorem trans (h : AnswerKeeps s t) (k : AnswerKeeps t u) : AnswerKeeps s u where
  queue y := (k.queue y).trans (h.queue y)
  egress y := (k.egress y).trans (h.egress y)
  blocks y p := (k.blocks y p).trans (h.blocks y p)
  frag y p := (k.frag y p).trans (h.frag y p)
  waiting y p f hf := (k.waiting y p f hf).elim (h.waiting y p f) .inr
  unacked y := (k.unacked y).trans (h.unacked y)
  inbox y := (k.inbox y).trans (h.inbox y)
  retained y := (k.retained y).trans (h.retained y)
  transferring y := (k.transferring y).trans (h.transferring y)

/-- Sides whose queues, ports and ends of the Welt link agree so far. -/
theorem of_sides (hq : ∀ y, (t.side y).mgt.queue = (s.side y).mgt.queue) (hl : ∀ y, (t.side y).lnk = (s.side y).lnk)
    (hw : ∀ y, ∃ n b, (t.side y).wlt = { (s.side y).wlt with lastValid := n, rxOk := b }) : AnswerKeeps s t where
  queue := hq
  egress y := by rw [hl]
  blocks y p := by simp only [State.port, hl]
  frag y p := by simp only [State.port, hl]
  waiting y p f hf := by simp only [State.port, hl] at hf ⊢; exact .inl hf
  unacked y := by obtain ⟨n, b, h⟩ := hw y; rw [h]
  inbox y := by obtain ⟨n, b, h⟩ := hw y; rw [h]
  retained y := by obtain ⟨n, b, h⟩ := hw y; rw [h]
  transferring y := by obtain ⟨n, b, h⟩ := hw y; rw [h]

/-- A change that leaves the controllers, the ports and Welt alone. -/
theorem of_only {ps : List Part} {w : Nat → Prop} (h : Only ps w s t)
    (hps : ps ⊆ .spi :: bothOf .tally) : AnswerKeeps s t := by
  have out : ∀ p, p ∉ .spi :: bothOf .tally → p.same s t := fun p hp => h.1 p fun hm => hp (hps hm)
  exact of_sides (fun y => congrArg Mgt.queue (out (.mgt y) (by cases y <;> decide))) (fun y => out (.lnk y) (by cases y <;> decide))
    fun y => ⟨_, _, out (.wlt y) (by cases y <;> decide)⟩

theorem refl (s : State) : AnswerKeeps s s := of_only (Only.refl [] noReg s) (by simp)

theorem ite {c : Prop} [Decidable c] {a b : State} (ha : AnswerKeeps s a) (hb : AnswerKeeps s b) :
    AnswerKeeps s (if c then a else b) := by
  split
  · exact ha
  · exact hb

theorem wf (a hi lo v : Nat) (s : State) : AnswerKeeps s (s.wf a hi lo v) :=
  of_only (Only.wf (ps := []) (w := fun _ => True) s a hi lo v trivial) (by simp)

theorem bump (a hi lo n : Nat) (s : State) : AnswerKeeps s (s.bump a hi lo n) :=
  of_only (Only.bump (ps := []) (w := fun _ => True) s a hi lo n trivial) (by simp)

theorem setSpi (v : Spi) (s : State) : AnswerKeeps s { s with spi := v } :=
  of_only (Only.setSpi (ps := [.spi]) (w := noReg) s v (by simp)) (by decide)

/-- A reply set to wait on a port. -/
theorem queueReply (x : Side) (p : Nat) (f : Frame) (hf : f.type = 2) (s : State) : AnswerKeeps s (s.queueFrame x p f) := by
  have hport := fun y q => port_modPort s x y p q (fun k => { k with waiting := k.waiting ++ [f] })
  refine ⟨fun y => by simp [State.queueFrame, State.modPort], fun y => ?_, fun y q => ?_, fun y q => ?_, fun y q g hg => ?_,
    fun y => by simp [State.queueFrame, State.modPort], fun y => by simp [State.queueFrame, State.modPort],
    fun y => by simp [State.queueFrame, State.modPort], fun y => by simp [State.queueFrame, State.modPort]⟩
  · cases x <;> cases y <;> rfl
  · rw [State.queueFrame, hport]; split
    · next h => obtain ⟨rfl, rfl⟩ := h; rfl
    · rfl
  · rw [State.queueFrame, hport]; split
    · next h => obtain ⟨rfl, rfl⟩ := h; rfl
    · rfl
  · rw [State.queueFrame, hport] at hg
    split at hg
    · next h =>
      obtain ⟨rfl, rfl⟩ := h
      refine (List.mem_append.1 hg).imp id fun hg => ?_
      rw [List.mem_singleton.1 hg, hf]
    · exact .inl hg

theorem tookSeq (x : Side) (ty : Nat) (s : State) : AnswerKeeps s (s.tookSeq x ty) where
  queue y := by cases x <;> cases y <;> rfl
  egress y := by cases x <;> cases y <;> rfl
  blocks y p := by cases x <;> cases y <;> rfl
  frag y p := by cases x <;> cases y <;> rfl
  waiting y p f hf := .inl (by cases x <;> cases y <;> exact hf)
  unacked y := by cases x <;> cases y <;> rfl
  inbox y := by cases x <;> cases y <;> rfl
  retained y := by cases x <;> cases y <;> rfl
  transferring y := by cases x <;> cases y <;> rfl

theorem deliver (x : Side) (via : Via) (r : Reply) (s : State) : AnswerKeeps s (deliver x via r s) := by
  cases via with
  | spi => exact ite (setSpi _ s) (bump _ _ _ _ s)
  | port y p => exact ite ((queueReply y p.val _ rfl s).trans (tookSeq y 2 _)) (bump _ _ _ _ s)
  | inner =>
    have put : ∀ y (t : State), AnswerKeeps t ((t.wf (Reg.LCE_BCAST y) 15 8 r.op).wf (Reg.LCE_BCAST y) 7 0 r.status) :=
      fun y t => (wf _ _ _ _ t).trans (wf _ _ _ _ _)
    exact ite ((put _ s).trans (put _ _)) (put _ s)

/-- A change of a controller that keeps its queue. -/
theorem modMgt (x : Side) {f : Mgt → Mgt} (s : State) (hf : ∀ m, (f m).queue = m.queue := by intros; rfl) : AnswerKeeps s (s.modMgt x f) :=
  of_sides (fun y => by
      by_cases hy : y = x
      · subst hy; rw [State.modMgt_self, hf]
      · rw [State.modMgt_ne s f hy])
    (fun y => by simp) fun y => ⟨(s.side y).wlt.lastValid, (s.side y).wlt.rxOk, by simp⟩

theorem formReply (x : Side) (c : Ctx) (r : Reply) (s : State) : AnswerKeeps s (formReply x c r s) := by
  have hcached : AnswerKeeps s (withCached c r s) := by
    unfold withCached
    split
    · exact setSpi _ s
    · exact modMgt _ s
    · exact refl s
  have htallied : ∀ t, AnswerKeeps t (tallied x r t) := fun t =>
    ite ((wf _ _ _ _ t).trans (of_only (Only.tally (ps := [.tally x]) (w := noReg) _ x _ _ (by simp)) (by cases x <;> decide))) (refl t)
  rw [formReply_eq]
  exact hcached.trans ((htallied _).trans (ite (refl _) (deliver x _ r _)))

/-- A message that a side has heard. -/
theorem heard (x : Side) (s : State) : AnswerKeeps s (heard x s) := by
  have hhigh : ∀ v, AnswerKeeps s (s.high (Reg.WLT_LINK x) 15 0 v) := fun v =>
    of_only (Only.high (ps := []) (w := fun _ => True) s _ _ _ v trivial) (by simp)
  unfold Machine.heard
  extract_lets w gap
  refine (hhigh gap).trans (of_sides (fun y => by simp) (fun y => by simp) fun y => ?_)
  by_cases hy : y = x
  · subst hy; exact ⟨_, _, State.modWlt_self _ _ _⟩
  · exact ⟨_, _, by rw [State.modWlt_ne _ _ hy]⟩

theorem crossed (x : Side) (n : Need) (s : State) : AnswerKeeps s (crossed x n s) := ite (heard _ s) (refl s)

end AnswerKeeps

end Sys2Proof.Machine
end

section
/-!
### A strobe: a write of a register whose bits trigger an action (R12, R447)
-/

namespace Sys2Proof.Machine

/-- A command that its body completes, and whose part that follows the reply changes nothing: the reply is formed on what it leaves. -/
theorem commandThen_answers {dt : Nat} {c : Ctx} {n : Need} {par : Side → State → Option Status} {body : Side → State → Res}
    {after : Side → State → State} {s s2 : State} {st : Status} {r1 : Word} {ws : List Word72}
    (h : Admitted c n (par (receiver (s.elapse dt) c) (s.elapse dt)) (s.elapse dt))
    (hb : body (receiver (s.elapse dt) c) (taken (receiver (s.elapse dt) c) c (s.elapse dt)) = .done s2 st r1 ws)
    (hn : s2.lace.barriers = []) (ha : ∀ x t, after x t = t) :
    commandThen dt c n par body after s =
      formReply (receiver (s.elapse dt) c) c (replyTo s2 (receiver (s.elapse dt) c) c n.op st r1 ws)
        (crossed (receiver (s.elapse dt) c) n s2) := by
  simp only [commandThen, runCommand_done h hb hn, ha, ite_self]

theorem forAddr_via (c : Ctx) (a : Nat) : (forAddr c a).via = c.via := by
  unfold forAddr
  split
  · split <;> rfl
  · split <;> rfl
  · rfl

theorem receiver_forAddr (s : State) (c : Ctx) (a : Nat) : receiver s (forAddr c a) = receiver s c := by
  unfold receiver; rw [forAddr_via]

/-! ### The word that a strobe stores -/

/-- A mask of actions of the register at an address: nothing but the action follows from a write of them over the settings that stand. -/
structure StrobeAt (a : Nat) (mask : Word) : Prop where
  inSpace : a < 0x03000000
  place : placeOf a = some (.reg a)
  single : paired a = false
  power : a ≠ Reg.PWR_CTRL
  privPorts : ∀ y, a ≠ Reg.MGT_PRIV_PORTS y
  portCtrl : ∀ y, ∀ p : Fin 16, a ≠ Reg.LNK_PORT_CTRL y p
  settings : storeBits a = rwBits a
  action : mask &&& storeBits a = 0
  clearless : (storeBits a ||| mask) &&& (strobeBits a &&& ~~~actionBits a) = 0

/-- The word of a strobe over what the register holds. -/
def strobeWord (a : Nat) (mask old : Word) : Word := (old &&& storeBits a) ||| mask

theorem bit_of_disjoint {v w : Word} (h : v &&& w = 0) (i : Nat) : (v.getLsbD i && w.getLsbD i) = false := by
  rw [← BitVec.getLsbD_and, h]
  exact BitVec.getLsbD_zero

/-- A word put over settings that it agrees with is the word. -/
theorem mixBits_settings {old m late mask : Word} (h : mask &&& m = 0) :
    mixBits ((old &&& m) ||| mask) (late &&& m) old = (old &&& m) ||| mask := by
  have hbool : ∀ o m l k : Bool, (k && m) = false → ((o && m || k) && !(l && m) || o && (l && m)) = (o && m || k) := by decide
  refine BitVec.eq_of_getLsbD_eq fun i hi => ?_
  simp only [mixBits, BitVec.getLsbD_or, BitVec.getLsbD_and, BitVec.getLsbD_not, hi, decide_true, Bool.true_and]
  exact hbool _ _ _ _ (bit_of_disjoint h i)

/-- Settings stored over themselves stand, where nothing that is written clears. -/
theorem mixBits_clear {old m mask cl set : Word} (hm : mask &&& m = 0) (hc : (m ||| mask) &&& cl = 0) :
    mixBits old m ((old &&& m) ||| mask) &&& ~~~(((old &&& m) ||| mask) &&& cl &&& ~~~set) = old := by
  have hbool : ∀ o m k c e : Bool, (k && m) = false → ((m || k) && c) = false →
      ((o && !m || (o && m || k) && m) && !((o && m || k) && c && !e)) = o := by decide
  refine BitVec.eq_of_getLsbD_eq fun i hi => ?_
  have hci := bit_of_disjoint hc i
  simp only [mixBits, BitVec.getLsbD_or, BitVec.getLsbD_and, BitVec.getLsbD_not, hi, decide_true, Bool.true_and] at hci ⊢
  exact hbool _ _ _ _ _ (bit_of_disjoint hm i) hci

section
variable {a : Nat} {mask : Word}

/-- A strobe stores what the register held. -/
theorem StrobeAt.stored (ha : StrobeAt a mask) (k : State) :
    mixBits (k.rd a) (storeBits a) (strobeWord a mask (k.rd a)) &&& ~~~clearedBy a (strobeWord a mask (k.rd a)) k = k.rd a :=
  mixBits_clear ha.action ha.clearless

theorem StrobeAt.store (ha : StrobeAt a mask) (k : State) : Alike k (store a (strobeWord a mask (k.rd a)) k) where
  core := rfl
  rd b := by
    unfold Machine.store
    rw [ha.stored]
    by_cases hb : b = a
    · subst hb; exact State.rd_wr_self k b _
    · exact State.rd_wr_ne k _ hb
  setNow _ := rfl

/-- What side A's controller lands after a write of side B's is its own word: the settings in it are those that stand (R587). -/
theorem StrobeAt.landing (ha : StrobeAt a mask) (x : Side) (k : State) :
    landing x (.reg a) (strobeWord a mask (k.rd a)) k = strobeWord a mask (k.rd a) := by
  unfold Machine.landing
  split
  · simp only [settingBits, standing, ← ha.settings, strobeWord]
    exact mixBits_settings ha.action
  · rfl

theorem StrobeAt.deferred (ha : StrobeAt a mask) (c : Ctx) (v : Word) : deferred c (.reg a) v = false := by
  unfold Machine.deferred
  split
  · next y p hv he _ =>
    cases he
    simp [ha.privPorts, ha.portCtrl, ha.power]
  · next he _ => cases he; simp [ha.power]
  · rfl

theorem StrobeAt.wakes (ha : StrobeAt a mask) (s : State) (v : Word) : wakes s (.reg a) v = false := by
  simp [Machine.wakes, ha.power]

theorem StrobeAt.resolved (ha : StrobeAt a mask) (s : State) (c : Ctx) : resolve s c (BitVec.ofNat 32 a).toNat = a := by
  have hs := ha.inSpace
  rw [BitVec.toNat_ofNat, Nat.mod_eq_of_lt (by omega), resolve, if_neg (by omega)]

theorem StrobeAt.writeAll (ha : StrobeAt a mask) (x : Side) (k : State) :
    writeAll x 0xFFFFFFFF (.reg a) (strobeWord a mask (k.rd a)) k =
      noteLate x 0xFFFFFFFF (.reg a) (writeReg a (strobeWord a mask (k.rd a)) k) := by
  simp only [Machine.writeAll, targets, ha.single, Bool.false_and, Bool.false_eq_true, if_false, List.foldl_cons, List.foldl_nil,
    ha.landing, writePlace]

end

/-- A command taken up leaves a state that registers' actions cannot tell apart. -/
theorem Alike.taken (x : Side) (c : Ctx) (s : State) : Alike s (taken x c s) := by
  cases x <;> exact ⟨rfl, fun _ => rfl, fun _ => rfl⟩

theorem Alike.trans {s t u : State} (h : Alike s t) (k : Alike t u) : Alike s u :=
  ⟨k.core.trans h.core, fun a => (k.rd a).trans (h.rd a), fun a => (k.setNow a).trans (h.setNow a)⟩

theorem Alike.noteLate {s t : State} (h : Alike s t) (x : Side) (mask : Word) (q : Place) : Alike s (noteLate x mask q t) := by
  unfold Machine.noteLate
  split
  · exact ⟨h.core, h.rd, h.setNow⟩
  · exact h

/-- A strobe that is admitted writes its word on the state that takes the command up, and its reply follows. -/
theorem strobe_next {dt : Nat} {c : Ctx} {a : Nat} {mask : Word} {s l : State} (ha : StrobeAt a mask)
    (h : WriteAdmitted dt c a (strobeWord a mask (s.rd a)) s)
    (hl : writeAll (receiver (s.elapse dt) c) 0xFFFFFFFF (.reg a) (strobeWord a mask (s.rd a))
      (taken (receiver (s.elapse dt) c) (forAddr c a) (s.elapse dt)) = l) (hb : l.lace.barriers = []) :
    ∃ n m, strobe dt c a mask s = .next (formReply (receiver (s.elapse dt) c) (forAddr c a) ⟨0x03, (forAddr c a).tag, m, Status.ok.code, 0, []⟩
      (crossed (receiver (s.elapse dt) c) n l)) := by
  obtain ⟨hadm, href⟩ := h
  have hx := receiver_forAddr (s.elapse dt) c a
  refine ⟨.writeReg s c a (strobeWord a mask (s.rd a)) false (!standbyWrites a) (crosses s c a true),
    l.moduleId (receiver (s.elapse dt) c), ?_⟩
  unfold strobe execWriteReg
  simp only [ha.resolved, ha.place, ha.deferred]
  refine congrArg _ ((commandThen_answers hadm ?_ hb fun _ _ => rfl).trans (by rw [hx]; rfl))
  rw [hx]
  simp only [doWrite, strobeWord] at href hl ⊢
  simp only [href, ha.wakes, ha.deferred, hl]
  rfl

/-- A strobe that is admitted: the register's action f happens, on a state that f cannot tell from the one at hand, and the reply follows. -/
theorem strobed {dt : Nat} {c : Ctx} {a : Nat} {mask : Word} {s : State} {f : State → State} {p : State → Prop} (ha : StrobeAt a mask)
    (hf : ∀ {k l}, Alike k l → Alike (f k) (f l))
    (hw : ∀ k, ∃ l, Alike k l ∧ writeReg a (strobeWord a mask (k.rd a)) k = f l) (hl : ∀ k, (f k).lace = k.lace)
    (hp : ∀ k t, Alike (s.elapse dt) k → Only answering answerRegs (f (s.elapse dt)) t → AnswerKeeps (f k) t → p t) :
    Strobed dt c a mask s (f (s.elapse dt)) p (strobe dt c a mask s) := by
  intro h
  have hk := Alike.taken (receiver (s.elapse dt) c) (forAddr c a) (s.elapse dt)
  obtain ⟨l, hkl, hwrite⟩ := hw (taken (receiver (s.elapse dt) c) (forAddr c a) (s.elapse dt))
  have hul := hk.trans hkl
  have hlate := noteLate_only (receiver (s.elapse dt) c) 0xFFFFFFFF (.reg a) (f l)
  obtain ⟨n, m, hnext⟩ := strobe_next ha h (l := noteLate (receiver (s.elapse dt) c) 0xFFFFFFFF (.reg a) (f l))
    (by rw [← hwrite, ← ha.writeAll, hk.rd]; rfl)
    (by rw [hlate.1 .lace (by decide), hl, hul.read State.lace fun _ => rfl]; exact h.1.1.2.2.1)
  have honly : Only answering answerRegs (f l) _ :=
    ((hlate.mono (by simp) fun _ h => h.elim).trans (crossed_only (receiver (s.elapse dt) c) n _)).trans
      (formReply_only (receiver (s.elapse dt) c) (forAddr c a) ⟨0x03, (forAddr c a).tag, m, Status.ok.code, 0, []⟩ _)
  have hkeeps : AnswerKeeps (f l) _ :=
    ((AnswerKeeps.of_only hlate (by simp)).trans (AnswerKeeps.crossed (receiver (s.elapse dt) c) n _)).trans
      (AnswerKeeps.formReply (receiver (s.elapse dt) c) (forAddr c a) ⟨0x03, (forAddr c a).tag, m, Status.ok.code, 0, []⟩ _)
  have hframe := (hf hul).only.trans honly
  exact ⟨_, hnext, ⟨formReply_replied _ _ _ _ _ _ m _, hp l _ hul hframe hkeeps⟩, hframe⟩

end Sys2Proof.Machine
end

section
/-!
### The registers whose bits trigger actions (R12, R491)
-/

namespace Sys2Proof.Machine

/-- Whether a mask is one of actions of the register at an address (see StrobeAt). -/
def strobeAt (a : Nat) (mask : Word) : Bool :=
  decide (a < 0x03000000) && decide (placeOf a = some (.reg a)) && !paired a && decide (a ≠ Reg.PWR_CTRL)
    && [Side.a, .b].all (fun y => decide (a ≠ Reg.MGT_PRIV_PORTS y) && decide (∀ p : Fin 16, a ≠ Reg.LNK_PORT_CTRL y p))
    && decide (storeBits a = rwBits a) && decide (mask &&& storeBits a = 0)
    && decide ((storeBits a ||| mask) &&& (strobeBits a &&& ~~~actionBits a) = 0)

theorem StrobeAt.of_check {a : Nat} {mask : Word} (h : strobeAt a mask = true) : StrobeAt a mask := by
  simp only [strobeAt, Bool.and_eq_true, List.all_cons, List.all_nil, decide_eq_true_eq, Bool.not_eq_true'] at h
  obtain ⟨⟨⟨⟨⟨⟨⟨hs, hp⟩, hpair⟩, hpwr⟩, ⟨ha1, ha2⟩, ⟨hb1, hb2⟩, -⟩, hst⟩, hact⟩, hcl⟩ := h
  exact ⟨hs, hp, hpair, hpwr, fun y => by cases y <;> assumption, fun y => by cases y <;> assumption, hst, hact, hcl⟩

theorem strobeAt_awlFire : strobeAt Reg.PIX_AWL_FIRE 1 = true ∧ strobeAt Reg.PIX_AWL_FIRE 2 = true := by decide +kernel

theorem strobeAt_injCtrl : strobeAt Reg.HK_INJ_CTRL 0x80000000 = true := by decide +kernel

theorem strobeAt_logStatus (x : Side) : ∀ ch : Fin 16, strobeAt (Reg.BST_LOG_STATUS x ch) 0x40000000 = true := by
  cases x <;> decide +kernel

theorem strobeAt_evtCtrl (x : Side) : strobeAt (Reg.EVT_CTRL x) 1 = true := by cases x <;> decide +kernel

theorem strobeAt_wltCtrl (x : Side) : strobeAt (Reg.WLT_CTRL x) 0x100 = true := by cases x <;> decide +kernel

theorem strobeAt_dspCtrl (x : Side) : strobeAt (Reg.DSP_CTRL x) 2 = true ∧ strobeAt (Reg.DSP_CTRL x) 4 = true := by
  cases x <;> decide +kernel

theorem strobeAt_qflush (x : Side) : ∀ i : Fin 7, strobeAt (Reg.EVT_QFLUSH x) (BitVec.ofNat 32 (2 ^ i.val)) = true := by
  cases x <;> decide +kernel

/-- The bits outside the settings of a strobe's word are those of its mask. -/
theorem bit_strobeWord {a i : Nat} {mask old : Word} (h : (storeBits a).getLsbD i = false) :
    bit (strobeWord a mask old).toNat i = mask.getLsbD i := by
  have hb : bit (strobeWord a mask old).toNat i = (strobeWord a mask old).getLsbD i := rfl
  rw [hb, strobeWord, BitVec.getLsbD_or, BitVec.getLsbD_and, h, Bool.and_false, Bool.false_or]

/-! ### Writes of a side's registers -/

theorem sideOfAddr_base (x : Side) {o : Nat} (h : o < 0x01000000) : sideOfAddr (sideBase x + o) = some x := by
  cases x with
  | a => exact if_pos ⟨by simp only [sideBase]; omega, by simp only [sideBase]; omega⟩
  | b =>
    rw [sideOfAddr, if_neg (by simp only [sideBase]; omega), if_pos ⟨by simp only [sideBase]; omega, by simp only [sideBase]; omega⟩]

theorem tileOfAddr_base (x : Side) (o : Nat) : tileOfAddr (sideBase x + o) = none := by
  cases x <;> exact if_neg (by simp only [sideBase]; omega)

theorem sideBase_mod (x : Side) {o : Nat} (h : o < 0x01000000) : (sideBase x + o) % 0x01000000 = o := by
  cases x <;> simp only [sideBase] <;> omega

/-- A write of a side's register outside the ports' settings and the lace's stores the word and has its own effect. -/
theorem writeReg_side (x : Side) {o : Nat} (h : o < 0x01000000) (hl : o < 0x60000 ∨ 0x60400 ≤ o) (hc : o ≠ 0x80000 ∧ o ≠ 0x80008)
    (v : Word) (k : State) : writeReg (sideBase x + o) v k = sideEffect x o v.toNat (store (sideBase x + o) v k) := by
  have hport : isPortCtrl (sideBase x + o) = false := by
    simp only [isPortCtrl, sideBase_mod x h]
    rcases hl with hl | hl
    · simp [show ¬ 0x60000 ≤ o by omega]
    · simp [show ¬ o < 0x60400 by omega]
  simp only [writeReg, touchBlock, sideOfAddr_base x h, tileOfAddr_base, hport, sideBase_mod x h, Bool.false_eq_true, if_false,
    if_neg hc.1, if_neg hc.2]

/-- A strobe of a side's register whose own effect is f: f happens on the state with the word stored. -/
theorem writeReg_sideStrobe (x : Side) {o : Nat} {mask : Word} {f : State → State} (ha : StrobeAt (sideBase x + o) mask)
    (h : o < 0x01000000 ∧ (o < 0x60000 ∨ 0x60400 ≤ o) ∧ o ≠ 0x80000 ∧ o ≠ 0x80008)
    (he : ∀ old k, sideEffect x o (strobeWord (sideBase x + o) mask old).toNat k = f k) (k : State) :
    ∃ l, Alike k l ∧ writeReg (sideBase x + o) (strobeWord (sideBase x + o) mask (k.rd (sideBase x + o))) k = f l :=
  ⟨_, ha.store k, by rw [writeReg_side x h.1 h.2.1 h.2.2, he]⟩

theorem sideEffect_evtCtrl (x : Side) (old : Word) (k : State) :
    sideEffect x 0x10000 (strobeWord (Reg.EVT_CTRL x) 1 old).toNat k = clearSources x k := by
  have hb : (storeBits (Reg.EVT_CTRL x)).getLsbD 0 = false := by cases x <;> decide +kernel
  rw [sideEffect, if_pos rfl, bit_strobeWord hb]
  rfl

theorem sideEffect_wltCtrl (x : Side) (old : Word) (k : State) :
    sideEffect x 0x70000 (strobeWord (Reg.WLT_CTRL x) 0x100 old).toNat k = tryResync true (peerOf x) k := by
  have hb : (storeBits (Reg.WLT_CTRL x)).getLsbD 8 = false := by cases x <;> decide +kernel
  simp only [sideEffect, bit_strobeWord hb]
  rfl

theorem sideEffect_dspCtrl (x : Side) (mask old : Word) (k : State) :
    sideEffect x 0x30000 (strobeWord (Reg.DSP_CTRL x) mask old).toNat k =
      if mask.getLsbD 2 then flushDelay x (if mask.getLsbD 1 then flushReady x k else k) else if mask.getLsbD 1 then flushReady x k else k := by
  have hb : (storeBits (Reg.DSP_CTRL x)).getLsbD 1 = false ∧ (storeBits (Reg.DSP_CTRL x)).getLsbD 2 = false := by
    cases x <;> decide +kernel
  simp only [sideEffect, bit_strobeWord hb.1, bit_strobeWord hb.2]
  rfl

theorem sideEffect_logStatus (x : Side) (ch : Fin 16) (old : Word) (k : State) :
    sideEffect x (0x50604 + 8 * ch) (strobeWord (Reg.BST_LOG_STATUS x ch) 0x40000000 old).toNat k = clearLog x ch k := by
  have hb : (storeBits (Reg.BST_LOG_STATUS x ch)).getLsbD 30 = false := by revert ch; cases x <;> decide +kernel
  have hch := ch.isLt
  rw [sideEffect, if_neg (by omega), if_neg (by omega), if_neg (by omega), if_neg (by omega), if_pos (by omega), bit_strobeWord hb,
    if_pos (by decide), show (0x50604 + 8 * ch.val - 0x50604) / 8 = ch.val by omega]

theorem sideEffect_qflush (x : Side) (mask old : Word) (k : State) :
    sideEffect x 0x1001C (strobeWord (Reg.EVT_QFLUSH x) mask old).toNat k = flushQueues x mask.toNat k := by
  have hb : storeBits (Reg.EVT_QFLUSH x) = 0 := by cases x <;> decide +kernel
  have hw : strobeWord (Reg.EVT_QFLUSH x) mask old = mask := by simp [strobeWord, hb]
  rw [hw]
  rfl

/-! ### Writes of base control's registers -/

theorem writeReg_base {a : Nat} (hs : sideOfAddr a = none) (ht : tileOfAddr a = none) (hm : ¬(Reg.MP_CTRL 0 ≤ a ∧ a < Reg.MP_CTRL 12))
    (hp : a ≠ Reg.PWR_CTRL) (v : Word) (k : State) :
    writeReg a v k = if awlLocked k a then k else baseEffect a v.toNat (store a v k) := by
  simp only [writeReg, touchBlock, hs, ht, if_neg hm, hp, decide_false, Bool.false_or]

/-- A strobe of PIX_AWL_FIRE, which a THRESH_SCAN in progress locks (R72): its action is then none. -/
theorem writeReg_awlStrobe {mask : Word} {f : State → State} (ha : StrobeAt Reg.PIX_AWL_FIRE mask)
    (hlock : ∀ k : State, k.pix.scan.isSome = true → f k = k)
    (he : ∀ old k, baseEffect Reg.PIX_AWL_FIRE (strobeWord Reg.PIX_AWL_FIRE mask old).toNat k = f k) (k : State) :
    ∃ l, Alike k l ∧ writeReg Reg.PIX_AWL_FIRE (strobeWord Reg.PIX_AWL_FIRE mask (k.rd Reg.PIX_AWL_FIRE)) k = f l := by
  rw [writeReg_base (by decide) (by decide) (by decide) (by decide)]
  cases hscan : awlLocked k Reg.PIX_AWL_FIRE with
  | true =>
    simp only [awlLocked, Bool.and_eq_true] at hscan
    exact ⟨k, .refl k, (hlock k hscan.1).symm⟩
  | false => exact ⟨_, ha.store k, by rw [if_neg (by decide), he]⟩

theorem baseEffect_awlFire (mask old : Word) (k : State) :
    baseEffect Reg.PIX_AWL_FIRE (strobeWord Reg.PIX_AWL_FIRE mask old).toNat k =
      if mask.getLsbD 1 then awlAbort (if mask.getLsbD 0 then awlFire k else k) else if mask.getLsbD 0 then awlFire k else k := by
  have hb : (storeBits Reg.PIX_AWL_FIRE).getLsbD 0 = false ∧ (storeBits Reg.PIX_AWL_FIRE).getLsbD 1 = false := by decide +kernel
  simp only [baseEffect, bit_strobeWord hb.1, bit_strobeWord hb.2, if_true]

theorem writeReg_injStrobe (k : State) : ∃ l, Alike k l ∧
    writeReg Reg.HK_INJ_CTRL (strobeWord Reg.HK_INJ_CTRL 0x80000000 (k.rd Reg.HK_INJ_CTRL)) k = injStart l := by
  have hb : (storeBits Reg.HK_INJ_CTRL).getLsbD 31 = false := by decide +kernel
  refine ⟨_, (StrobeAt.of_check strobeAt_injCtrl).store k, ?_⟩
  have hlock : awlLocked k Reg.HK_INJ_CTRL = false := by
    rw [awlLocked, show [Reg.PIX_AWL_CTRL, Reg.PIX_AWL_PERIOD, Reg.PIX_AWL_TIME, Reg.PIX_AWL_TIME_4, Reg.PIX_AWL_FIRE].contains
      Reg.HK_INJ_CTRL = false by decide, Bool.and_false]
  rw [writeReg_base (by decide) (by decide) (by decide) (by decide), hlock, if_neg (by decide), baseEffect, if_neg (by decide),
    if_neg (by decide), if_pos rfl, bit_strobeWord hb]
  rfl

end Sys2Proof.Machine
end

section
/-!
### What the actions do (R67–R69, R337, R373, R392, R475, R491, R500)
-/

namespace Sys2Proof.Machine

/-! ### The Awl and the injected sequence -/

theorem awlFire_scan (s : State) (h : s.pix.scan.isSome = true) : awlFire s = s := by simp [awlFire, h]

theorem awlAbort_scan (s : State) (h : s.pix.scan.isSome = true) : awlAbort s = s := by simp [awlAbort, h]

theorem awlFire_lace (s : State) : (awlFire s).lace = s.lace := by
  unfold awlFire
  extract_lets n per t timed late s1 s2
  split
  · rfl
  · have h1 : s1.lace = s.lace := by unfold s1; split <;> rfl
    have h2 : s2.lace = s1.lace := by unfold s2; split <;> rfl
    exact h2.trans h1

theorem awlAbort_lace (s : State) : (awlAbort s).lace = s.lace := by unfold awlAbort; split <;> rfl

theorem injStart_lace (s : State) : (injStart s).lace = s.lace := by
  unfold injStart injTrigger
  split
  · simp
  · extract_lets l
    split
    · rfl
    · simp [State.count]

/-- A train as its settings stand at FIRE (R67, R68). -/
theorem awlFire_train (s : State) (hs : s.pix.scan = none) (ht : s.pix.train = none) (hn : s.rf Reg.PIX_AWL_CTRL 31 16 ≠ 0) :
    (awlFire s).pix.train = some ⟨s.rf Reg.PIX_AWL_CTRL 31 16,
      if s.rb Reg.PIX_AWL_CTRL 9 && !reached s.now (s.rd64 Reg.PIX_AWL_TIME Reg.PIX_AWL_TIME_4) then
        s.rd64 Reg.PIX_AWL_TIME Reg.PIX_AWL_TIME_4 else s.now + 1, max (s.rf Reg.PIX_AWL_PERIOD 23 0) 3000⟩ := by
  unfold awlFire
  extract_lets n per t timed late s1 s2
  rw [if_neg (by simp [hs, ht, n, hn])]
  have hlate : (timed && !late) = (timed && !reached s.now t) := by
    simp only [late]
    cases timed <;> simp
  simp only [State.modPix, hlate]
  rfl

theorem awlAbort_train (s : State) (hs : s.pix.scan = none) : (awlAbort s).pix.train = none := by simp [awlAbort, hs]

theorem injStart_inj (s : State) (hi : s.hk.inj = none)
    (hl : (List.range (min 8 (s.rf Reg.HK_INJ_CTRL 11 8))).map (fun i => s.rf (Reg.HK_INJ i) 5 0) ≠ []) :
    (injStart s).hk.inj = some ((List.range (min 8 (s.rf Reg.HK_INJ_CTRL 11 8))).map (fun i => s.rf (Reg.HK_INJ i) 5 0), 0, s.clock.ticks) ∧
      (injStart s).hk.began = none := by
  unfold injStart injTrigger
  rw [if_neg (by simp [hi])]
  extract_lets l
  rw [if_neg hl]
  exact ⟨rfl, rfl⟩

/-! ### Logs and records of events -/

/-- The entries of some numbers of a log freed. -/
def freeEntries (x : Side) (ch : Nat) (l : List Nat) (s : State) : State :=
  l.foldl (fun t i => (t.wr (Reg.BST_LOG x ch i) 0).wr (Reg.BST_LOG_4 x ch i) 0) s

theorem clearLog_eq (x : Side) (ch : Nat) (s : State) : clearLog x ch s = freeEntries x ch (List.range 16)
    (s.wr (Reg.BST_LOG_STATUS x ch) ((((s.setNow (Reg.BST_LOG_STATUS x ch)).map (·.2)).getD 0) &&& 0x80000000)) := rfl

theorem freeEntries_rd_of_ne (x : Side) (ch a : Nat) (ha : ∀ i, a ≠ Reg.BST_LOG x ch i ∧ a ≠ Reg.BST_LOG_4 x ch i) (l : List Nat) (s : State) :
    (freeEntries x ch l s).rd a = s.rd a :=
  List.foldlRecOn (motive := fun t : State => t.rd a = s.rd a) l _ rfl fun t ht i _ => by
    rw [State.rd_wr_ne _ _ (ha i).2, State.rd_wr_ne _ _ (ha i).1, ht]

theorem freeEntries_rd (x : Side) (ch i : Nat) : ∀ (l : List Nat) (s : State),
    (i ∈ l ∨ s.rd (Reg.BST_LOG x ch i) = 0 ∧ s.rd (Reg.BST_LOG_4 x ch i) = 0) →
      (freeEntries x ch l s).rd (Reg.BST_LOG x ch i) = 0 ∧ (freeEntries x ch l s).rd (Reg.BST_LOG_4 x ch i) = 0
  | [], _, h => h.resolve_left (by simp)
  | j :: r, s, h => by
    rw [freeEntries, List.foldl_cons]
    refine freeEntries_rd x ch i r _ ?_
    by_cases hj : i = j
    · subst hj
      exact .inr ⟨by rw [State.rd_wr_ne _ _ (by unfold Reg.BST_LOG Reg.BST_LOG_4; omega), State.rd_wr_self], State.rd_wr_self _ _ _⟩
    · refine h.imp (fun hm => (List.mem_cons.1 hm).resolve_left hj) fun h0 => ?_
      rw [State.rd_wr_ne _ _ (by unfold Reg.BST_LOG Reg.BST_LOG_4; omega), State.rd_wr_ne _ _ (by unfold Reg.BST_LOG; omega),
        State.rd_wr_ne _ _ (by unfold Reg.BST_LOG_4; omega), State.rd_wr_ne _ _ (by unfold Reg.BST_LOG_4 Reg.BST_LOG; omega)]
      exact h0

theorem clearLog_lace (x : Side) (ch : Nat) (s : State) : (clearLog x ch s).lace = s.lace :=
  List.foldlRecOn (motive := fun t : State => t.lace = s.lace) _ _ (State.wr_lace _ _ _) fun t h i _ => by simp [h]

/-- A cleared log: its status holds an OVERFLOW of the present tick alone, its entries are free (R13, R337). -/
theorem clearLog_rd (x : Side) (ch : Fin 16) (s : State) :
    (clearLog x ch s).rd (Reg.BST_LOG_STATUS x ch) = (((s.setNow (Reg.BST_LOG_STATUS x ch)).map (·.2)).getD 0) &&& 0x80000000 ∧
      ∀ i, i < 16 → (clearLog x ch s).rd (Reg.BST_LOG x ch i) = 0 ∧ (clearLog x ch s).rd (Reg.BST_LOG_4 x ch i) = 0 := by
  rw [clearLog_eq]
  refine ⟨?_, fun i hi => freeEntries_rd x ch i _ _ (.inl (List.mem_range.2 hi))⟩
  rw [freeEntries_rd_of_ne, State.rd_wr_self]
  have := ch.isLt
  intro i
  unfold Reg.BST_LOG_STATUS Reg.BST_LOG Reg.BST_LOG_4
  omega

/-! ### The peer's return -/

theorem tryResync_lace (asked : Bool) (x : Side) (s : State) : (tryResync asked x s).lace = s.lace := by
  unfold tryResync
  split <;> simp [State.both]

/-- The peer, out of service, its self-test passed, begins to return (R392, R402). -/
theorem tryResync_returns (x : Side) (s : State) (hs : s.serving (peerOf x) = true) (ho : s.arb.svc.get x = .out)
    (hp : s.arb.passed.get x = true) (hw : weltUp s = true) (hm : s.power.mode ≠ .standby) :
    (tryResync true x s).arb.svc.get x = .resync ∧ ((tryResync true x s).side x).wlt.transferring = true := by
  unfold tryResync
  rw [if_pos (by simp [hs, ho, hp, hw, hm])]
  cases x <;> simp [State.both, State.modArb, Two.set, Two.get, State.modWlt, State.modSide, State.setSide, State.side]

/-! ### The queues -/

theorem flushStore_storeWork (x : Side) (s : State) : StoreWork s (flushStore x s) := StoreWork.foldl (fun t ch => StoreWork.modChan x ch _ t) _ s

/-- The write queues of the channels of some numbers emptied. -/
theorem emptied_queue (x : Side) (ch : Nat) : ∀ (l : List Nat) (s : State), (ch ∈ l ∨ (s.chan x ch).queue = []) →
    ((l.foldl (fun t n => t.modChan x n (fun k => { k with queue := [] })) s).chan x ch).queue = []
  | [], _, h => h.resolve_left (by simp)
  | n :: r, s, h => by
    refine emptied_queue x ch r _ ?_
    have hc : (s.modChan x n (fun k => { k with queue := [] })).chan x ch =
        if ch = n then { s.chan x n with queue := [] } else s.chan x ch := by
      unfold State.chan State.bst State.modChan
      rw [State.modBst_self]
      exact Sparse.get_upd (s.side x).bst.chans n ch Chan.idle (fun k => { k with queue := [] })
    rw [hc]
    split
    · exact .inr rfl
    · next hn => exact h.imp (fun hm => (List.mem_cons.1 hm).resolve_left hn) id

theorem flushStore_queue (x : Side) (s : State) {ch : Nat} (h : ch < 16) : ((flushStore x s).chan x ch).queue = [] :=
  emptied_queue x ch _ s (.inl (List.mem_range.2 h))

/-- The receive buffers of one port emptied, and their groups free (R373). -/
def flushBatch (x : Side) (p : Nat) (s : State) : State :=
  let l := Sparse.get (s.side x).lce.batch p []
  let gone := (l.filter (fun q => q.1.isNone)).foldl (fun n q => n + q.2.len) 0
  freeGroups x p gone (s.modLce x (fun k => { k with batch := Sparse.set k.batch p (l.filter (fun q => q.1.isSome)) [] }))

theorem flushLace_eq (x : Side) (s : State) : flushLace x s = (List.range 16).foldl (fun t p => flushBatch x p t) s := rfl

theorem flushBatch_batch (x : Side) (p q : Nat) (s : State) : Sparse.get ((flushBatch x p s).side x).lce.batch q [] =
    if q = p then (Sparse.get (s.side x).lce.batch p []).filter (fun e => e.1.isSome) else Sparse.get (s.side x).lce.batch q [] := by
  have hfree : ∀ (n : Nat) (t : State), ((freeGroups x p n t).side x).lce = (t.side x).lce := fun n t => by
    unfold freeGroups; split
    · simp [State.modPort]
    · rfl
  simp only [flushBatch, hfree, State.modLce_self]
  exact Sparse.get_set _ _ _ _ _

theorem flushBatch_lace (x : Side) (p : Nat) (s : State) : (flushBatch x p s).lace = s.lace := by
  unfold flushBatch freeGroups
  extract_lets l gone
  split <;> simp [State.modPort]

theorem flushLace_lace (x : Side) (s : State) : (flushLace x s).lace = s.lace :=
  List.foldlRecOn (motive := fun t : State => t.lace = s.lace) _ _ rfl fun t h p _ => (flushBatch_lace x p t).trans h

/-- Of the buffers of some ports only frames that the store holds stay. -/
theorem flushed_batch (x : Side) (p : Nat) : ∀ (l : List Nat) (s : State),
    (p ∈ l ∨ ∀ e ∈ Sparse.get (s.side x).lce.batch p [], e.1.isSome = true) →
      ∀ e ∈ Sparse.get ((l.foldl (fun t p => flushBatch x p t) s).side x).lce.batch p [], e.1.isSome = true
  | [], _, h => h.resolve_left (by simp)
  | n :: r, s, h => by
    refine flushed_batch x p r _ ?_
    rw [flushBatch_batch]
    split
    · exact .inr fun e he => (List.mem_filter.1 he).2
    · next hn => exact h.imp (fun hm => (List.mem_cons.1 hm).resolve_left hn) id

theorem flushLace_batch (x : Side) (s : State) {p : Nat} (h : p < 16) :
    ∀ e ∈ Sparse.get ((flushLace x s).side x).lce.batch p [], e.1.isSome = true := by
  rw [flushLace_eq]
  exact flushed_batch x p _ s (.inl (List.mem_range.2 h))

end Sys2Proof.Machine
end

section
/-!
### What the flushes of egress, staging, Welt and events leave (R327, R284, R491)
-/

namespace Sys2Proof.Machine

/-! ### The egress buffer -/

/-- A side's links without blocks. -/
def emptyEgress (x : Side) (s : State) : State :=
  s.modLnk x (fun l => { l with
    egress := []
    ports := l.ports.map (fun e => (e.1, { e.2 with
      blocks := []
      frag := 0
      out := if e.2.blocks ≠ [] then e.2.out.filter (fun f => f.type ≠ 0) else e.2.out })) })

theorem flushEgress_eq (x : Side) (s : State) : flushEgress x s = settleStore x (emptyEgress x s) := rfl

theorem emptyEgress_port (x : Side) (p : Nat) (s : State) :
    ((emptyEgress x s).port x p).blocks = [] ∧ ((emptyEgress x s).port x p).frag = 0 := by
  have h := Sparse.get_map (fun _ (q : Port) => { q with
    blocks := []
    frag := 0
    out := if q.blocks ≠ [] then q.out.filter (fun f => f.type ≠ 0) else q.out }) Port.idle p rfl (s.side x).lnk.ports
  unfold emptyEgress State.port
  rw [State.modLnk_self]
  exact ⟨congrArg Port.blocks h, congrArg Port.frag h⟩

theorem emptyEgress_ring (x y : Side) (r : Nat) (s : State) : (emptyEgress x s).ring y r = s.ring y r := by
  simp [emptyEgress, State.ring, State.bst]

theorem flushEgress_lace (x : Side) (s : State) : (flushEgress x s).lace = s.lace := by
  rw [flushEgress_eq, (SettleWork.settleStore x _).lace, emptyEgress, State.modLnk_lace]

/-- Nothing stands on the ports, and in the egress buffer only what waited for room. -/
theorem flushEgress_empties (x : Side) (s : State) :
    (∀ p, ((flushEgress x s).port x p).blocks = [] ∧ ((flushEgress x s).port x p).frag = 0) ∧
      ∀ b ∈ ((flushEgress x s).side x).lnk.egress, ∃ r, b ∈ (s.ring x r).waiting := by
  have h := SettleWork.settleStore x (emptyEgress x s)
  rw [flushEgress_eq]
  refine ⟨fun p => ?_, fun b hb => ?_⟩
  · obtain ⟨hblocks, hfrag⟩ := emptyEgress_port x p s
    obtain ⟨h1, h2⟩ := h.ports x p hblocks
    exact ⟨h1, h2.trans hfrag⟩
  · rcases h.egress x b hb with hb | ⟨r, hr⟩
    · simp [emptyEgress] at hb
    · exact ⟨r, emptyEgress_ring x x r s ▸ hr⟩

/-! ### Staging, Welt and commands -/

theorem flushStaging_lace (x : Side) (s : State) : (flushStaging x s).lace = s.lace := by simp [flushStaging]

theorem flushWelt_lace (x : Side) (s : State) : (flushWelt x s).lace = s.lace := by simp [flushWelt]

theorem flushCommands_lace (x : Side) (s : State) : (flushCommands x s).lace = s.lace := by simp [flushCommands]

theorem flushStaging_staging (x : Side) (s : State) : ((flushStaging x s).side x).dsp.intake = [] ∧
    ((flushStaging x s).side x).dsp.units = heldUnits (s.side x).dsp ∧
    (∀ o ∈ ((flushStaging x s).side x).cmp.outputs, o.spill.isSome = true) ∧ ((flushStaging x s).side x).wlt.retained = [] := by
  refine ⟨by simp [flushStaging], by simp [flushStaging], fun o ho => ?_, by simp [flushStaging]⟩
  simp only [flushStaging, State.modWlt_side_cmp, State.modCmp_self] at ho
  exact (List.mem_filter.1 ho).2

theorem flushWelt_welt (x : Side) (s : State) :
    ((flushWelt x s).side x).wlt.unacked = [] ∧ ((flushWelt x s).side (peerOf x)).wlt.inbox = [] := by
  cases x <;> exact ⟨rfl, rfl⟩

theorem flushCommands_queue (x : Side) (s : State) : ((flushCommands x s).side x).mgt.queue = [] := by simp [flushCommands]

/-! ### Events -/

/-- A change of a port after which no more frames wait on it. -/
theorem waiting_modPort {s : State} {x y : Side} {p q : Nat} {f : Port → Port} {g : Frame}
    (hf : ∀ g ∈ (f (s.port x p)).waiting, g ∈ (s.port x p).waiting) (h : g ∈ ((s.modPort x p f).port y q).waiting) :
    g ∈ (s.port y q).waiting := by
  rw [port_modPort] at h
  split at h
  · next hq => obtain ⟨rfl, rfl⟩ := hq; exact hf g h
  · exact h

theorem takeFrame_rest {ok : Frame → Bool} {l rest : List Frame} {f : Frame} (h : takeFrame ok l = some (f, rest)) :
    ∀ g ∈ rest, g ∈ l := by
  unfold takeFrame at h
  extract_lets best at h
  split at h
  · next i _ =>
    obtain ⟨k, -, hk⟩ := Option.map_eq_some_iff.1 h
    cases hk
    exact fun g hg => List.mem_of_mem_eraseIdx hg
  · cases h

theorem waiting_startFrame {s : State} {x y : Side} {p q : Nat} {f g : Frame} (h : g ∈ ((startFrame x p f s).port y q).waiting) :
    g ∈ (s.port y q).waiting := waiting_modPort (fun _ h => h) h

/-- No frame begins to wait where a port goes on to its next one (R370). -/
theorem waiting_portNext {s : State} {x y : Side} {p q : Nat} {g : Frame} (h : g ∈ ((portNext x p s).port y q).waiting) :
    g ∈ (s.port y q).waiting := by
  unfold portNext at h
  extract_lets k at h
  split at h
  · exact h
  · split at h
    · next f rest hf =>
      split at h
      · exact waiting_modPort (fun g hg => takeFrame_rest hf g hg) (waiting_startFrame h)
      · exact h
    · split at h
      · exact h
      · extract_lets f at h
        split at h
        · exact h
        · exact waiting_modPort (fun _ h => h) (waiting_startFrame h)

theorem portNext_only (x : Side) (p : Nat) (s : State) : Only [.lnk x] noReg s (portNext x p s) := by
  have hport : ∀ (f : Port → Port) (t : State), Only [.lnk x] noReg t (t.modPort x p f) := fun f t => Only.modLnk t x _ (by simp)
  unfold portNext
  extract_lets q
  split
  · exact Only.refl _ _ s
  · split
    · split
      · exact (hport _ s).trans (hport _ _)
      · exact Only.refl _ _ s
    · split
      · exact Only.refl _ _ s
      · extract_lets f
        split
        · exact Only.refl _ _ s
        · exact (hport _ s).trans (hport _ _)

theorem dropEventFrames_only (x : Side) (s : State) : Only [.lnk x] noReg s (dropEventFrames x s) :=
  Only.foldl (fun t _ => Only.modLnk t x _ (by simp)) (Only.refl _ _ s)

theorem evBefore_only (x : Side) (f : EvCore → EvCore) (s : State) : Only raising raiseRegs s (evBefore x f s) := evTake_only x _ s

/-- The flush of the event queue changes ports, events and what raises of events change. -/
theorem flushEvents_only (x : Side) (s : State) : Only (.lnk x :: raising) raiseRegs s (flushEvents x s) :=
  (((dropEventFrames_only x s).mono (by simp) fun _ h => h.elim).trans ((evBefore_only x _ _).mono (by simp) fun _ => id)).trans
    (Only.foldl (fun t p => (portNext_only x p t).mono (by simp) fun _ h => h.elim) (Only.refl _ _ _))

theorem flushEvents_lace (x : Side) (s : State) : (flushEvents x s).lace = s.lace :=
  (flushEvents_only x s).1 .lace (by cases x <;> decide)

/-- Without a raise in the present tick the event queue is empty (R491). -/
theorem flushEvents_queue (x : Side) (s : State) (h : ∀ r, (s.side x).evt.round = some r → r.tick ≠ s.clock.ticks) :
    ((flushEvents x s).side x).evt.queue = [] := by
  have hd := dropEventFrames_only x s
  have hevt : ((dropEventFrames x s).side x).evt = (s.side x).evt := hd.1 (.evt x) (by simp)
  have hclock : (dropEventFrames x s).clock = s.clock := hd.1 .clock (by simp)
  have hraises : (evRound x (dropEventFrames x s)).raises = [] := by
    unfold evRound
    rw [hevt, hclock]
    cases hr : (s.side x).evt.round with
    | none => rfl
    | some r => simp only [h r hr, if_false]
  have hports : Only [.lnk x] noReg (evBefore x (fun c => { c with queue := [] }) (dropEventFrames x s)) (flushEvents x s) :=
    Only.foldl (fun t p => portNext_only x p t) (Only.refl _ _ _)
  rw [show ((flushEvents x s).side x).evt = _ from hports.1 (.evt x) (by simp), evBefore,
    show ((evTake x _ _).side x).evt = _ from (evTake_only_after x _ _).1 (.evt x) (by simp), State.modEvt_self]
  simp [roundTaken, hraises]

/-- The frames of a side's ports of some numbers that are not EVENT frames. -/
theorem dropped_waiting (x : Side) (p : Nat) : ∀ (l : List Nat) (s : State), (p ∈ l ∨ ∀ f ∈ (s.port x p).waiting, f.type ≠ 3) →
    ∀ f ∈ ((l.foldl (fun t p => t.modPort x p (fun q => { q with
      waiting := q.waiting.filter (fun f => f.type ≠ 3)
      out := q.out.filter (fun f => f.type ≠ 3) })) s).port x p).waiting, f.type ≠ 3
  | [], _, h => h.resolve_left (by simp)
  | n :: r, s, h => by
    refine dropped_waiting x p r _ ?_
    rw [port_modPort]
    split
    · exact .inr fun f hf => of_decide_eq_true (List.mem_filter.1 hf).2
    · next hn => exact h.imp (fun hm => (List.mem_cons.1 hm).resolve_left fun he => hn ⟨rfl, he⟩) id

theorem flushEvents_waiting (x : Side) (s : State) {p : Nat} (h : p < 16) : ∀ f ∈ ((flushEvents x s).port x p).waiting, f.type ≠ 3 := by
  intro f hf
  have hback : f ∈ ((evBefore x (fun c => { c with queue := [] }) (dropEventFrames x s)).port x p).waiting :=
    List.foldlRecOn (motive := fun t : State => f ∈ (t.port x p).waiting → f ∈ ((evBefore x _ (dropEventFrames x s)).port x p).waiting)
      _ _ id (fun _ ht _ _ hm => ht (waiting_portNext hm)) hf
  have hlnk := (evBefore_only x (fun c => { c with queue := [] }) (dropEventFrames x s)).1 (.lnk x) (by cases x <;> decide)
  refine dropped_waiting x p (List.range 16) s (.inl (List.mem_range.2 h)) f ?_
  rw [State.port, show (_ : SideState).lnk = _ from hlnk] at hback
  exact hback

end Sys2Proof.Machine
end

section
/-!
### O26: the rows that are writes of a register with an action
-/

namespace Sys2Proof.Machine

/-- A strobe of a side's register, whose own effect is f. -/
theorem sideStrobed {dt : Nat} {c : Ctx} {x : Side} {a o : Nat} {mask : Word} {s : State} {f : State → State} {p : State → Prop}
    (hreg : a = sideBase x + o) (ha : strobeAt a mask = true) (h : o < 0x01000000 ∧ (o < 0x60000 ∨ 0x60400 ≤ o) ∧ o ≠ 0x80000 ∧ o ≠ 0x80008)
    (he : ∀ old k, sideEffect x o (strobeWord a mask old).toNat k = f k)
    (hf : ∀ {k l}, Alike k l → Alike (f k) (f l)) (hl : ∀ k, (f k).lace = k.lace)
    (hp : ∀ k t, Alike (s.elapse dt) k → Only answering answerRegs (f (s.elapse dt)) t → AnswerKeeps (f k) t → p t) :
    Strobed dt c a mask s (f (s.elapse dt)) p (strobe dt c a mask s) := by
  subst hreg
  exact strobed (StrobeAt.of_check ha) hf (writeReg_sideStrobe x (StrobeAt.of_check ha) h he) hl hp

/-- Answering a command writes no register of the store. -/
theorem not_answerRegs_store (x : Side) {o : Nat} (h : 0x50000 ≤ o ∧ o < 0x60000) : ¬ answerRegs (sideBase x + o) := by
  rintro ⟨y, h' | h' | h' | h'⟩ <;> cases x <;> cases y <;>
    simp only [Reg.MGT_CMD_COUNT, Reg.MGT_CMD_STATUS, Reg.LCE_BCAST, Reg.WLT_LINK, sideBase] at h' <;> omega

/-- A strobe of EVT_QFLUSH, whose one bit empties the queue that f empties (R491). -/
theorem qflushStrobed {dt : Nat} {c : Ctx} {x : Side} {s : State} {f : State → State} {p : State → Prop} (i : Fin 7)
    (he : ∀ k, flushQueues x (BitVec.ofNat 32 (2 ^ i.val)).toNat k = f k)
    (hf : ∀ {k l}, Alike k l → Alike (f k) (f l)) (hl : ∀ k, (f k).lace = k.lace)
    (hp : ∀ k t, Alike (s.elapse dt) k → Only answering answerRegs (f (s.elapse dt)) t → AnswerKeeps (f k) t → p t) :
    Strobed dt c (Reg.EVT_QFLUSH x) (BitVec.ofNat 32 (2 ^ i.val)) s (f (s.elapse dt)) p
      (strobe dt c (Reg.EVT_QFLUSH x) (BitVec.ofNat 32 (2 ^ i.val)) s) :=
  sideStrobed rfl (strobeAt_qflush x i) (by decide) (fun old k => (sideEffect_qflush x _ old k).trans (he k)) hf hl hp

section
variable {dt : Nat} {c : Ctx} {s : State} {x : Side}

theorem awlFire_strobed : let u := s.elapse dt
    let n := u.rf Reg.PIX_AWL_CTRL 31 16
    let at_ := u.rd64 Reg.PIX_AWL_TIME Reg.PIX_AWL_TIME_4
    Strobed dt c Reg.PIX_AWL_FIRE 1 s (awlFire u) (fun t => u.pix.scan = none → u.pix.train = none → n ≠ 0 →
      t.pix.train = some ⟨n, if u.rb Reg.PIX_AWL_CTRL 9 && !reached u.now at_ then at_ else u.now + 1,
        max (u.rf Reg.PIX_AWL_PERIOD 23 0) 3000⟩) (exec (.awlFire dt c) s) := by
  have ha := StrobeAt.of_check strobeAt_awlFire.1
  refine strobed ha (fun h => h.awlFire) (writeReg_awlStrobe ha awlFire_scan fun old k => baseEffect_awlFire 1 old k) awlFire_lace
    fun k t _ ho _ hs ht hn => ?_
  rw [show t.pix = _ from ho.1 .pix (by decide)]
  exact awlFire_train _ hs ht hn

theorem awlAbort_strobed : let u := s.elapse dt
    Strobed dt c Reg.PIX_AWL_FIRE 2 s (awlAbort u) (fun t => u.pix.scan = none → t.pix.train = none) (exec (.awlAbort dt c) s) := by
  have ha := StrobeAt.of_check strobeAt_awlFire.2
  refine strobed ha (fun h => h.awlAbort) (writeReg_awlStrobe ha awlAbort_scan fun old k => baseEffect_awlFire 2 old k) awlAbort_lace
    fun k t _ ho _ hs => ?_
  rw [show t.pix = _ from ho.1 .pix (by decide)]
  exact awlAbort_train _ hs

theorem injStart_strobed : let u := s.elapse dt
    let l := (List.range (min 8 (u.rf Reg.HK_INJ_CTRL 11 8))).map (fun i => u.rf (Reg.HK_INJ i) 5 0)
    Strobed dt c Reg.HK_INJ_CTRL 0x80000000 s (injStart u) (fun t => u.hk.inj = none → l ≠ [] →
      t.hk.inj = some (l, 0, u.clock.ticks) ∧ t.hk.began = none) (exec (.injStart dt c) s) := by
  refine strobed (StrobeAt.of_check strobeAt_injCtrl) (fun h => h.injStart) writeReg_injStrobe injStart_lace fun k t _ ho _ hi hl => ?_
  rw [show t.hk = _ from ho.1 .hk (by decide)]
  exact injStart_inj _ hi hl

theorem logClear_strobed (ch : Fin 16) : let u := s.elapse dt
    Strobed dt c (Reg.BST_LOG_STATUS x ch) 0x40000000 s (clearLog x ch u) (fun t =>
      t.rd (Reg.BST_LOG_STATUS x ch) = (((u.setNow (Reg.BST_LOG_STATUS x ch)).map (fun q : Word × Word => q.2)).getD 0) &&& 0x80000000 ∧
      ∀ i, i < 16 → t.rd (Reg.BST_LOG x ch i) = 0 ∧ t.rd (Reg.BST_LOG_4 x ch i) = 0) (exec (.logClear dt c x ch) s) := by
  have hch := ch.isLt
  refine sideStrobed (Nat.add_assoc _ _ _) (strobeAt_logStatus x ch) (by omega) (sideEffect_logStatus x ch) (fun h => h.clearLog x ch)
    (clearLog_lace x ch) fun k t _ ho _ => ?_
  obtain ⟨hstatus, hlog⟩ := clearLog_rd x ch (s.elapse dt)
  have hout : ∀ a o, a = sideBase x + o → 0x50000 ≤ o ∧ o < 0x60000 → t.rd a = (clearLog x ch (s.elapse dt)).rd a :=
    fun a o ha h => (ho.2 a (ha ▸ not_answerRegs_store x h)).1
  refine ⟨(hout _ (0x50604 + 8 * ch) (Nat.add_assoc _ _ _) (by omega)).trans hstatus, fun i hi => ?_⟩
  obtain ⟨hlow, hhigh⟩ := hlog i hi
  exact ⟨(hout _ (0x51000 + 128 * ch + 8 * i) (by unfold Reg.BST_LOG; omega) (by omega)).trans hlow,
    (hout _ (0x51004 + 128 * ch + 8 * i) (by unfold Reg.BST_LOG_4; omega) (by omega)).trans hhigh⟩

theorem srcClear_strobed : Strobed dt c (Reg.EVT_CTRL x) 1 s (clearSources x (s.elapse dt)) (fun t => (t.side x).evt.recs = [])
    (exec (.srcClear dt c x) s) := by
  refine sideStrobed rfl (strobeAt_evtCtrl x) (by decide) (sideEffect_evtCtrl x) (fun h => h.clearSources x)
    (fun k => State.modEvt_lace k x _) fun k t _ ho _ => ?_
  rw [show (t.side x).evt = _ from ho.1 (.evt x) (by cases x <;> decide), clearSources, State.modEvt_self]

theorem wltResync_strobed : let u := s.elapse dt
    Strobed dt c (Reg.WLT_CTRL x) 0x100 s (tryResync true (peerOf x) u) (fun t => u.serving x = true →
      u.arb.svc.get (peerOf x) = .out → u.arb.passed.get (peerOf x) = true → weltUp u = true → u.power.mode ≠ .standby →
      t.arb.svc.get (peerOf x) = .resync ∧ (t.side (peerOf x)).wlt.transferring = true) (exec (.wltResync dt c x) s) := by
  refine sideStrobed rfl (strobeAt_wltCtrl x) (by decide) (sideEffect_wltCtrl x) (fun h => h.tryResync true _) (tryResync_lace true _)
    fun k t hk ho hkeep hs hout hp hw hm => ?_
  have hpeer : peerOf (peerOf x) = x := by cases x <;> rfl
  have hu := tryResync_returns (peerOf x) (s.elapse dt) (hpeer.symm ▸ hs) hout hp hw hm
  obtain ⟨-, hpower, harb, -⟩ := hk.base
  have hserve : ∀ y, k.serving y = (s.elapse dt).serving y := fun y => by simp only [State.serving, hpower, harb]
  have hwelt : weltUp k = weltUp (s.elapse dt) := by simp only [weltUp, weltCarries, hk.sides]
  rw [show t.arb = _ from ho.1 .arb (by decide), hkeep.transferring]
  exact ⟨hu.1, (tryResync_returns (peerOf x) k (by rw [hpeer, hserve, hs]) (by rw [harb, hout]) (by rw [harb, hp]) (hwelt.trans hw)
    (by rwa [hpower])).2⟩

theorem readyFlush_strobed : Strobed dt c (Reg.DSP_CTRL x) 2 s (flushReady x (s.elapse dt)) (fun t => (t.side x).dsp.ready = [])
    (exec (.readyFlush dt c x) s) := by
  refine sideStrobed rfl (strobeAt_dspCtrl x).1 (by decide) (fun old k => sideEffect_dspCtrl x 2 old k) (fun h => h.flushReady x)
    (fun k => (flushReady_lists x k).1) fun k t _ ho _ => ?_
  rw [show (t.side x).dsp = _ from ho.1 (.dsp x) (by cases x <;> decide)]
  exact (flushReady_lists x _).2

theorem delayFlush_strobed : Strobed dt c (Reg.DSP_CTRL x) 4 s (flushDelay x (s.elapse dt)) (fun t => (t.side x).dsp.delay = [])
    (exec (.delayFlush dt c x) s) := by
  refine sideStrobed rfl (strobeAt_dspCtrl x).2 (by decide) (fun old k => sideEffect_dspCtrl x 4 old k) (fun h => h.flushDelay x)
    (fun k => (flushDelay_lists x k).1) fun k t _ ho _ => ?_
  rw [show (t.side x).dsp = _ from ho.1 (.dsp x) (by cases x <;> decide)]
  exact (flushDelay_lists x _).2

/-! ### The queues of EVT_QFLUSH (R491) -/

theorem qflushStore_strobed : Strobed dt c (Reg.EVT_QFLUSH x) 0x40 s (flushStore x (s.elapse dt))
    (fun t => ∀ ch, ch < 16 → (t.chan x ch).queue = []) (exec (.qflushStore dt c x) s) := by
  refine qflushStrobed 6 (fun _ => rfl) (fun h => h.flushStore x) (fun k => (flushStore_storeWork x k).lace) fun k t _ ho _ ch hch => ?_
  have hbst : t.bst x = (flushStore x (s.elapse dt)).bst x := ho.1 (.bst x) (by cases x <;> decide)
  rw [State.chan, hbst]
  exact flushStore_queue x _ hch

theorem qflushLace_strobed : Strobed dt c (Reg.EVT_QFLUSH x) 0x20 s (flushLace x (s.elapse dt))
    (fun t => ∀ p, p < 16 → ∀ e ∈ Sparse.get (t.side x).lce.batch p [], e.1.isSome = true) (exec (.qflushLace dt c x) s) := by
  refine qflushStrobed 5 (fun _ => rfl) (fun h => h.flushLace x) (flushLace_lace x) fun k t _ ho _ p hp => ?_
  rw [show (t.side x).lce = _ from ho.1 (.lce x) (by cases x <;> decide)]
  exact flushLace_batch x _ hp

theorem qflushEgress_strobed : Strobed dt c (Reg.EVT_QFLUSH x) 0x10 s (flushEgress x (s.elapse dt))
    (fun t => (∀ p, (t.port x p).blocks = [] ∧ (t.port x p).frag = 0) ∧
      ∀ b ∈ (t.side x).lnk.egress, ∃ r, b ∈ ((s.elapse dt).ring x r).waiting) (exec (.qflushEgress dt c x) s) := by
  refine qflushStrobed 4 (fun _ => rfl) (fun h => h.flushEgress x) (flushEgress_lace x) fun k t hk _ hkeep => ?_
  obtain ⟨hports, hegress⟩ := flushEgress_empties x k
  refine ⟨fun p => ⟨(hkeep.blocks x p).trans (hports p).1, (hkeep.frag x p).trans (hports p).2⟩, fun b hb => ?_⟩
  rw [hkeep.egress] at hb
  obtain ⟨r, hr⟩ := hegress b hb
  exact ⟨r, hk.store.2.2.1 x r ▸ hr⟩

theorem qflushStaging_strobed : Strobed dt c (Reg.EVT_QFLUSH x) 0x08 s (flushStaging x (s.elapse dt))
    (fun t => (t.side x).dsp.intake = [] ∧ (t.side x).dsp.units = heldUnits ((s.elapse dt).side x).dsp ∧
      (∀ o ∈ (t.side x).cmp.outputs, o.spill.isSome = true) ∧ (t.side x).wlt.retained = []) (exec (.qflushStaging dt c x) s) := by
  refine qflushStrobed 3 (fun _ => rfl) (fun h => h.flushStaging x) (flushStaging_lace x) fun k t _ ho hkeep => ?_
  obtain ⟨hintake, hunits, houtputs, -⟩ := flushStaging_staging x (s.elapse dt)
  rw [show (t.side x).dsp = _ from ho.1 (.dsp x) (by cases x <;> decide), show (t.side x).cmp = _ from ho.1 (.cmp x) (by cases x <;> decide),
    hkeep.retained]
  exact ⟨hintake, hunits, houtputs, (flushStaging_staging x k).2.2.2⟩

theorem qflushWelt_strobed : Strobed dt c (Reg.EVT_QFLUSH x) 0x04 s (flushWelt x (s.elapse dt))
    (fun t => (t.side x).wlt.unacked = [] ∧ (t.side (peerOf x)).wlt.inbox = []) (exec (.qflushWelt dt c x) s) :=
  qflushStrobed 2 (fun _ => rfl) (fun h => h.flushWelt x) (flushWelt_lace x) fun k _ _ _ hkeep =>
    ⟨(hkeep.unacked x).trans (flushWelt_welt x k).1, (hkeep.inbox _).trans (flushWelt_welt x k).2⟩

theorem qflushCmd_strobed : Strobed dt c (Reg.EVT_QFLUSH x) 0x02 s (flushCommands x (s.elapse dt)) (fun t => (t.side x).mgt.queue = [])
    (exec (.qflushCmd dt c x) s) :=
  qflushStrobed 1 (fun _ => rfl) (fun h => h.flushCommands x) (flushCommands_lace x) fun k _ _ _ hkeep =>
    (hkeep.queue x).trans (flushCommands_queue x k)

theorem qflushEvents_strobed : let u := s.elapse dt
    Strobed dt c (Reg.EVT_QFLUSH x) 0x01 s (flushEvents x u)
      (fun t => ((∀ r, (u.side x).evt.round = some r → r.tick ≠ u.clock.ticks) → (t.side x).evt.queue = []) ∧
        ∀ p, p < 16 → ∀ f ∈ (t.port x p).waiting, f.type ≠ 3) (exec (.qflushEvents dt c x) s) := by
  refine qflushStrobed 0 (fun _ => rfl) (fun h => h.flushEvents x) (flushEvents_lace x) fun k t _ ho hkeep => ⟨fun h => ?_, fun p hp f hf => ?_⟩
  · rw [show (t.side x).evt = _ from ho.1 (.evt x) (by cases x <;> decide)]
    exact flushEvents_queue x _ h
  · rcases hkeep.waiting x p f hf with h | h
    · exact flushEvents_waiting x k hp f h
    · rw [h]; decide

end

/-- Settles O26: a strobe stores its word over the same settings, so its register's action runs on a state that it cannot tell from the one
at hand (Alike), and answering the command leaves what the action has emptied or begun (AnswerKeeps). -/
theorem strobesTriggerTheirActions : Obligations.StrobesTriggerTheirActions := by
  unfold Obligations.StrobesTriggerTheirActions
  exact ⟨fun dt c s x ch => ⟨awlFire_strobed, awlAbort_strobed, injStart_strobed, logClear_strobed ch, srcClear_strobed, wltResync_strobed,
      readyFlush_strobed, delayFlush_strobed⟩,
    fun dt c s x => ⟨qflushStore_strobed, qflushLace_strobed, qflushEgress_strobed, qflushStaging_strobed, qflushWelt_strobed,
      qflushCmd_strobed, qflushEvents_strobed⟩⟩

end Sys2Proof.Machine
end

section
/-!
### Calibrations begin (R125, R148, R506)
-/

namespace Sys2Proof.Machine

section
variable {dt : Nat} {c : Ctx} {s u : State}

/-- A command that is admitted, and whose body makes of the state that takes it up a state that differs from v in what answering changes
alone. -/
theorem command_completes {n : Need} {par : Side → State → Option Status} {body : Side → State → Res}
    {v s2 : State} {st : Status} {r1 : Word} {ws : List Word72} (hu : s.elapse dt = u)
    (h : Admitted c n (par (receiver u c) u) u) (hb : body (receiver u c) (taken (receiver u c) c u) = .done s2 st r1 ws)
    (hv : Only answering answerRegs v s2) (hl : v.lace = u.lace) :
    Completes (receiver u c) c n.op st r1 ws v (.next (command dt c n par body s)) := by
  subst hu
  obtain ⟨⟨-, -, hbar, -⟩, -⟩ := id h
  have hlace : s2.lace = v.lace := hv.1 .lace (by decide)
  obtain ⟨t, ht, ho, hr⟩ := command_next (P := Only answering answerRegs v) h hb (by rw [hlace, hl, hbar]) fun t k => hv.trans k
  exact ⟨t, ht, hr, ho⟩

theorem faCal_completes {lo hi : Word} (hu : s.elapse dt = u) (h : Admitted c (.faCal lo hi) none u) (hr : u.trg.run = .idle)
    (hc : calBusy u = false) (hs : u.pix.scan = none) :
    Completes (receiver u c) c 0x30 .accepted 0 [] (((u.modFrames (fun f => { f with
      cal := some ⟨maskOrAll lo hi, u.clock.ticks, 1, 0, []⟩ })).wf Reg.FRM_STATUS 0 0 1).wr Reg.FRM_FA_STATUS 0)
      (exec (.faCal dt c lo hi) s) := by
  have hk := Alike.taken (receiver u c) c u
  refine command_completes (par := noPar) hu h ?_ (((hk.modFrames _).wf _ _ _ _).wr _ _).only rfl
  simp [hk.base, taken_calBusy, hr, hc, hs]

theorem hkCal_completes (hu : s.elapse dt = u) (h : Admitted c .hkCal none u) (hc : u.hk.cal = none) :
    Completes (receiver u c) c 0x32 .accepted 0 [] (u.modHk (fun k => { k with cal := some u.clock.ticks, began := none }))
      (exec (.hkCal dt c) s) := by
  have hk := Alike.taken (receiver u c) c u
  refine command_completes (par := noPar) hu h ?_ (hk.modHk _).only rfl
  simp [hk.base, hc]

theorem Alike.beginPass {s t : State} (h : Alike s t) (tiles : List Nat) (ext : Bool) :
    Alike (beginPass tiles ext s) (beginPass tiles ext t) := by
  have hrot : ∀ {s t : State}, Alike s t → ∀ i, t.rotation i = s.rotation i := fun h i => h.read (·.rotation i) fun _ => rfl
  have hends : ∀ {s t : State}, Alike s t → ∀ i, Alike (rotationEnds i s) (rotationEnds i t) := fun h i => by
    simp only [rotationEnds, h.base]
    exact h.modTdc _
  simp only [Machine.beginPass, h.base]
  refine ((Alike.foldl (fun s t i h => ?_) tiles h).modTdc _).wf _ _ _ _
  simp only [hrot h]
  exact ((hends h i).modTdc _).ite h

theorem beginPass_lace (tiles : List Nat) (ext : Bool) (s : State) : (beginPass tiles ext s).lace = s.lace := by
  have h : Only [.tdc] (fun a => a = Reg.TDC_INIT_STATUS) s (beginPass tiles ext s) := by
    refine ((Only.foldl (fun t i => ?_) (Only.refl _ _ s)).trans (Only.setTdc _ _ (by simp))).trans (Only.wf _ _ _ _ _ rfl)
    split
    · exact (Only.setTdc _ _ (by simp) : Only _ _ _ (rotationEnds i t)).trans (Only.modDigi _ _ _ (by simp))
    · exact Only.refl _ _ t
  exact h.1 .lace (by simp)

theorem tdcCal_completes {lo hi ext : Word} (hu : s.elapse dt = u) (he : ext = 0 ∨ ext = 1 ∨ ext = 3)
    (h : Admitted c (.tdcCal lo hi ext) none u) (hr : u.trg.run = .idle) (hc : calBusy u = false) (hs : u.pix.scan = none)
    (ha : u.pix.apply = none) :
    Completes (receiver u c) c 0x31 .accepted 0 [] (beginPass (if ext = 3 then [] else maskOrAll lo hi) (ext != 0) u)
      (exec (.tdcCal dt c lo hi ext) s) := by
  have hk := Alike.taken (receiver u c) c u
  have hext : tdcCalRange ext = true ∧ bit ext.toNat 1 = decide (ext = 3) ∧ bit ext.toNat 0 = (ext != 0) := by
    rcases he with rfl | rfl | rfl <;> decide
  refine command_completes (par := fun _ _ => param (tdcCalRange ext)) hu (by rw [hext.1]; exact h) ?_
    (hk.beginPass _ _).only (beginPass_lace _ _ u)
  simp [hk.base, taken_calBusy, hr, hc, hs, ha, hext]

end

end Sys2Proof.Machine
end

section
/-!
### Tiles brought up to date in alike states
-/

namespace Sys2Proof.Machine

section
variable {s t : State}

theorem Alike.modTile (h : Alike s t) (i : Nat) (f : Tile → Tile) : Alike (s.modTile i f) (t.modTile i f) :=
  h.map (·.modTile i f) (fun _ => rfl) (fun _ _ => rfl) fun _ _ => rfl

/-- What a tile's FIFO reads of the tile and of the registers. -/
theorem Alike.tiles (h : Alike s t) :
    t.now = s.now ∧ (∀ i, t.tile i = s.tile i) ∧ ∀ i, t.frameTile i = s.frameTile i := by
  simp only [State.now, State.tile, State.frameTile, h.base, h.regs, implies_true, and_self]

theorem Alike.both (h : Alike s t) {f : Side → State → State} (hf : ∀ x {s t : State}, Alike s t → Alike (f x s) (f x t)) :
    Alike (s.both f) (t.both f) := hf .b (hf .a h)

theorem Alike.raiseBase (h : Alike s t) (n sev inst : Nat) : Alike (raiseBase n sev inst s) (raiseBase n sev inst t) :=
  h.both fun x s t h => by
    simp only [h.events]
    exact (h.raiseAt x n sev inst).ite h

theorem Alike.tallyAll (h : Alike s t) (k : Tally) (n : Nat) : Alike (s.tallyAll k n) (t.tallyAll k n) :=
  h.both fun x s t h => by
    simp only [h.events]
    exact (h.tally x k n).ite h

theorem Alike.settleBusy (h : Alike s t) (i : Nat) : Alike (settleBusy i s) (settleBusy i t) := by
  simp only [Machine.settleBusy, h.tiles, h.base]
  split
  · exact h.ite (h.modTile i _)
  · exact h

theorem Alike.withBusy (h : Alike s t) (i : Nat) (f : Tile → Tile) : Alike (withBusy i f s) (withBusy i f t) := by
  have h0 := h.settleBusy i
  have h1 := h0.modTile i f
  simp only [Machine.withBusy, h0.tiles, h1.tiles, h.base, h.tiles]
  exact ((h1.modTile i _).raiseBase _ _ _).ite ((h1.modTile i _).ite h1)

theorem Alike.levelCheck (h : Alike s t) (i : Nat) : Alike (levelCheck i s) (levelCheck i t) := by
  simp only [Machine.levelCheck, h.tiles]
  exact h.ite ((h.withBusy i _).ite ((h.withBusy i _).ite h))

theorem Alike.pushSlots (h : Alike s t) (i : Nat) (l : List Slot) (n : Nat) : Alike (pushSlots i l n s) (pushSlots i l n t) := by
  simp only [Machine.pushSlots, h.base, (h.modTile i _).tiles]
  exact ((h.modTile i _).high _ _ _ _).levelCheck i

theorem Alike.closeFrame (h : Alike s t) (i : Nat) (l : List Word72) : Alike (closeFrame i l s) (closeFrame i l t) := by
  simp only [Machine.closeFrame, h.tiles]
  exact (h.modTile i _).pushSlots i _ _

theorem Alike.feedPairs (h : Alike s t) (i : Nat) (n : Time) (f : FrameOut) : Alike (feedPairs i n f s) (feedPairs i n f t) := by
  have hp := h.pushSlots i
  simp only [Machine.feedPairs, h.tiles]
  exact h.ite (((((hp _ _).modTile i _).tallyAll _ _).closeFrame i _).ite (((hp _ _).closeFrame i _).ite ((hp _ _).modTile i _)))

theorem Alike.feedFrame (h : Alike s t) (i : Nat) (n : Time) : Alike (feedFrame i n s) (feedFrame i n t) := by
  simp only [Machine.feedFrame, h.tiles]
  split
  · exact h
  · exact h.ite ((h.feedPairs i n _).ite (h.ite (((h.modTile i _).tallyAll _ _).ite
      ((((h.modTile i _).pushSlots i _ _).count _ _ _ _).feedPairs i n _))))

theorem Alike.settleTile (h : Alike s t) (i : Nat) : Alike (settleTile i s) (settleTile i t) := by
  have h1 : Alike { feedTo i (s.now - 1) s with fresh := s.fresh } { feedTo i (s.now - 1) t with fresh := t.fresh } :=
    have hf : Alike (feedTo i (s.now - 1) s) (feedTo i (s.now - 1) t) := (h.feedFrame i _).feedFrame i _
    ⟨hf.core, hf.rd, h.setNow⟩
  simp only [Machine.settleTile, h.tiles]
  exact ((h1.feedFrame i _).feedFrame i _).settleBusy i

end

end Sys2Proof.Machine
end

section
/-!
### What a tile's FIFO and its feeding change (R180, R182, R184, R189)
-/

namespace Sys2Proof.Machine

/-- The parts that a tile's FIFO changes: the tile, and what a raise or a fall of BUSY reports. -/
abbrev fifoParts : List Part := .tiles :: raising

/-- The registers that a tile's FIFO changes: those of the tiles' blocks, and those of a raise. -/
abbrev fifoRegs : Nat → Prop := inBlocks [8, 17]

/-- A change of a tile within the frame of its FIFO. -/
theorem fifo_modTile (i : Nat) (f : Tile → Tile) (s : State) : Only fifoParts fifoRegs s (s.modTile i f) := Only.modTile s i f (by simp)

theorem raiseTile_only (i k sev inst : Nat) (s : State) : Only raising raiseRegs s (raiseTile i k sev inst s) := raiseBase_only _ _ _ _

theorem fifo_tallyAll (k : Tally) (n : Nat) (s : State) : Only fifoParts fifoRegs s (s.tallyAll k n) :=
  (Only.tallyAll (w := noReg) s k n).mono (by decide) fun _ => False.elim

theorem settleBusy_only (i : Nat) (s : State) : Only [.tiles] noReg s (settleBusy i s) := by
  unfold settleBusy
  extract_lets k
  split
  · split
    · exact Only.refl _ _ s
    · exact Only.modTile s i _ (by simp)
  · exact Only.refl _ _ s

theorem withBusy_only (i : Nat) (f : Tile → Tile) (s : State) : Only fifoParts raiseRegs s (withBusy i f s) := by
  unfold withBusy
  extract_lets s0 was s1 is
  have h1 : Only fifoParts raiseRegs s s1 :=
    ((settleBusy_only i s).mono (by simp) fun _ => False.elim).trans (Only.modTile s0 i f (by simp))
  split
  · exact (h1.trans (Only.modTile s1 i _ (by simp))).trans ((raiseTile_only i 0 _ _ _).mono (by simp) fun _ => id)
  · split
    · exact h1.trans (Only.modTile s1 i _ (by simp))
    · exact h1

theorem levelCheck_only (i : Nat) (s : State) : Only fifoParts raiseRegs s (levelCheck i s) := by
  unfold levelCheck
  extract_lets k n
  split
  · exact Only.refl _ _ s
  · split
    · exact withBusy_only i _ s
    · split
      · exact withBusy_only i _ s
      · exact Only.refl _ _ s

section
variable {i : Nat} (hi : i < 64)
include hi

theorem pushSlots_only (l : List Slot) (n : Nat) (s : State) : Only fifoParts fifoRegs s (pushSlots i l n s) := by
  unfold pushSlots
  extract_lets s1
  have hr : fifoRegs (Reg.TIL_FIFO i) := inBlocks_tile hi (by omega) (by simp)
  exact ((fifo_modTile i _ s).trans (Only.high s1 _ _ _ _ hr)).trans
    ((levelCheck_only i _).mono (fun _ => id) fun _ => raiseRegs_inBlocks (by simp))

theorem closeFrame_only (l : List Word72) (s : State) : Only fifoParts fifoRegs s (closeFrame i l s) :=
  (fifo_modTile i _ s).trans (pushSlots_only hi _ _ _)

theorem feedPairs_only (n : Time) (f : FrameOut) (s : State) : Only fifoParts fifoRegs s (feedPairs i n f s) := by
  unfold feedPairs
  split
  · exact Only.refl _ _ s
  · extract_lets due room want m sent s1
    have h1 : Only fifoParts fifoRegs s s1 := pushSlots_only hi _ _ s
    split
    · exact ((h1.trans (fifo_modTile i _ s1)).trans (fifo_tallyAll _ _ _)).trans (closeFrame_only hi _ _)
    · split
      · exact h1.trans (closeFrame_only hi _ s1)
      · exact h1.trans (fifo_modTile i _ s1)

theorem feedFrame_only (n : Time) (s : State) : Only fifoParts fifoRegs s (feedFrame i n s) := by
  have hr : fifoRegs (Reg.FRM_FRAMES i) := inBlocks_tile hi (by omega) (by simp)
  unfold feedFrame
  extract_lets k
  split
  · exact Only.refl _ _ s
  · split
    · exact Only.refl _ _ s
    · split
      · exact feedPairs_only hi n _ s
      · split
        · exact Only.refl _ _ s
        · split
          · exact (fifo_modTile i _ s).trans (fifo_tallyAll _ _ _)
          · exact (((fifo_modTile i _ s).trans (pushSlots_only hi _ _ _)).trans (Only.count _ _ _ _ _ hr)).trans
              (feedPairs_only hi n _ _)

theorem settleTile_only (s : State) : Only fifoParts fifoRegs s (settleTile i s) := by
  have hf : ∀ n s, Only fifoParts fifoRegs s (feedTo i n s) := fun n s => (feedFrame_only hi n s).trans (feedFrame_only hi n _)
  have h1 : Only fifoParts fifoRegs s { feedTo i (s.now - 1) s with fresh := s.fresh } := by
    obtain ⟨hp, hr⟩ := hf (s.now - 1) s
    exact ⟨fun p h => by have := hp p h; cases p <;> exact this, fun a ha => ⟨(hr a ha).1, rfl⟩⟩
  exact (h1.trans (hf s.now _)).trans ((settleBusy_only i _).mono (by simp) fun _ => False.elim)

end

end Sys2Proof.Machine
end

section
/-!
### Rows that write one place of the base tier (R121, R123, R124, R587)
-/

namespace Sys2Proof.Machine

/-! Where a write lands -/

/-- Where side B has written nothing in this tick, and for side B itself, what is written lands (R587). -/
theorem landing_eq {x : Side} {u : State} (q : Place) (v : Word) (h : u.late = [] ∨ x = .b) : landing x q v u = v := by
  unfold landing
  split
  · obtain h | h := h
    · have hones : v &&& 4294967295#32 = v := BitVec.and_allOnes
      simp [h, Sparse.get, mixBits, hones]
    · cases h
  · rfl

theorem landing_taken (x y : Side) (c : Ctx) (q : Place) (v : Word) (u : State) : landing x q v (taken y c u) = landing x q v u := by
  cases x <;> cases y <;> cases q <;> rfl

/-- A place that no other stands for is written alone. -/
theorem writeAll_single {q : Place} {u : State} (h : targets u q = [q]) (x : Side) (mask v : Word) :
    writeAll x mask q v u = noteLate x mask q (writePlace q (landing x q v u) u) := by
  simp only [writeAll, h, List.foldl_cons, List.foldl_nil]

theorem targets_of_no_side {a : Nat} (h : sideOfAddr a = none) (u : State) : targets u (.reg a) = [.reg a] := by
  simp [targets, paired, h]

theorem Only.noteLate {s t : State} (h : Only answering answerRegs s t) (x : Side) (mask : Word) (q : Place) :
    Only answering answerRegs s (noteLate x mask q t) :=
  h.trans ((noteLate_only x mask q t).mono (by simp) fun _ => False.elim)

section
variable {dt : Nat} {c : Ctx} {s u : State}

/-! A pause of the background rotation (R121) -/

theorem tileOfAddr_tile {i o : Nat} (hi : i < 64) (ho : o < 0x10000) : tileOfAddr (tileBase i + o) = some i := by
  rw [tileOfAddr, if_pos ⟨by simp only [tileBase]; omega, by simp only [tileBase]; omega⟩]
  exact congrArg some (by simp only [tileBase]; omega)

theorem sideOfAddr_tile {i o : Nat} (hi : i < 64) (ho : o < 0x10000) : sideOfAddr (tileBase i + o) = none := by
  rw [sideOfAddr, if_neg (by simp only [tileBase]; omega), if_neg (by simp only [tileBase]; omega)]

theorem writeReg_calCtrl (i : Fin 64) (v : Word) (k : State) :
    writeReg (Reg.TDC_CAL_CTRL i) v k = (touchTile i (settleTile i k)).wr (Reg.TDC_CAL_CTRL i) (v &&& 0xF) := by
  have ht : tileOfAddr (Reg.TDC_CAL_CTRL i) = some i.val := tileOfAddr_tile i.isLt (by omega)
  have hs : sideOfAddr (Reg.TDC_CAL_CTRL i) = none := sideOfAddr_tile i.isLt (by omega)
  have ho : Reg.TDC_CAL_CTRL i % 0x10000 = 0xD004 := by simp only [Reg.TDC_CAL_CTRL, tileBase]; omega
  simp only [writeReg, touchBlock, settleBlock, ht, hs, ho, if_true, writeCalCtrl]

theorem tdcCalPauseWrite_completes {i : Fin 64} {value : Word} (hu : s.elapse dt = u)
    (h : Admitted c (.writeReg s c (Reg.TDC_CAL_CTRL i) value false true false) none u) :
    Completes (receiver u c) c 0x03 .ok 0 [] ((touchTile i (settleTile i u)).wr (Reg.TDC_CAL_CTRL i)
        (landing (receiver u c) (.reg (Reg.TDC_CAL_CTRL i)) value u &&& 0xF))
      (exec (.tdcCalPauseWrite dt c i value) s) := by
  have hk := (Alike.taken (receiver u c) c u).settleTile i
  have htouch : Alike (touchTile i (settleTile i u)) (touchTile i (settleTile i (taken (receiver u c) c u))) := by
    simp only [touchTile, hk.base]
    exact hk.modTile _ _
  have hside : sideOfAddr (Reg.TDC_CAL_CTRL i) = none := sideOfAddr_tile i.isLt (by omega)
  have hw := writeAll_single (targets_of_no_side hside (taken (receiver u c) c u))
    (receiver u c) 0xFFFFFFFF value
  rw [landing_taken, writePlace, writeReg_calCtrl] at hw
  have hlace : (settleTile i u).lace = u.lace := (settleTile_only i.isLt u).1 .lace (by decide)
  refine command_completes (par := noPar) hu h ?_ ((htouch.wr _ _).only.noteLate (receiver u c) 0xFFFFFFFF (.reg (Reg.TDC_CAL_CTRL i)))
    (by rw [State.wr_lace, touchTile, State.modTile_lace, hlace])
  exact congrArg (Res.done · .ok 0 []) hw

/-! A table entry (R123, R124) -/

theorem Alike.writeTable {s t : State} (h : Alike s t) (d n : Nat) (v : Word) : Alike (writeTable d n v s) (writeTable d n v t) := by
  have hd : t.digi d = s.digi d := h.read (·.digi d) fun _ => rfl
  have hb : nextBoundary t = nextBoundary s := by
    simp only [nextBoundary, boundaryAfter, State.sliceTicks, State.now, h.base, h.regs]
  simp only [Machine.writeTable, newTable, hd, hb]
  exact h.modTdc _

/-- The entries of a table with those of a word written. -/
def wordWritten (l : List Nat) (n : Nat) (v : Word) : List Nat :=
  (((List.range 64).map (entryOf l)).set (2 * n) (bits v.toNat 15 0)).set (2 * n + 1) (bits v.toNat 31 16)

theorem writeTable_latest (d n : Nat) (v : Word) (u : State) :
    ((writeTable d n v u).digi d).latest = wordWritten (u.digi d).latest n v := by
  rw [writeTable, newTable, State.digi_modDigi_self]
  rfl

theorem entryOf_wordWritten (l : List Nat) {n k : Nat} (v : Word) (hk : k < 64) :
    entryOf (wordWritten l n v) k =
      if k = 2 * n + 1 then bits v.toNat 31 16 else if k = 2 * n then bits v.toNat 15 0 else entryOf l k := by
  have hlen : (wordWritten l n v).length = 64 := by simp [wordWritten]
  have hne : wordWritten l n v ≠ [] := fun h => by rw [h] at hlen; simp at hlen
  rw [entryOf, if_neg hne, nth, wordWritten, List.getD_eq_getElem _ _ (by simpa using hk)]
  simp only [List.getElem_set, List.getElem_map, List.getElem_range, eq_comm]

theorem readTable_writeTable_self (d : Nat) {n : Nat} (v : Word) (u : State) (hn : n < 32) : readTable (writeTable d n v u) d n = v := by
  simp only [readTable, writeTable_latest]
  rw [entryOf_wordWritten _ _ (by omega), entryOf_wordWritten _ _ (by omega), if_pos rfl, if_neg (by omega), if_pos rfl]
  have hv := v.isLt
  refine BitVec.eq_of_toNat_eq ?_
  rw [BitVec.toNat_ofNat]
  simp only [bits, Nat.shiftRight_eq_div_pow]
  omega

theorem readTable_writeTable_ne (d : Nat) {n k : Nat} (v : Word) (u : State) (hk : k < 32) (h : k ≠ n) :
    readTable (writeTable d n v u) d k = readTable u d k := by
  simp only [readTable, writeTable_latest]
  rw [entryOf_wordWritten _ _ (by omega), entryOf_wordWritten _ _ (by omega), if_neg (by omega), if_neg (by omega), if_neg (by omega),
    if_neg (by omega)]

theorem tableWord_lt {a : Nat} {q : Nat × Nat} (h : tableWord a = some q) : q.2 < 32 := by
  unfold tableWord at h
  split at h
  · cases h; show _ / 4 < 32; omega
  · cases h

theorem tdcTableWrite_completes {addr value : Word} {q : Nat × Nat} (hu : s.elapse dt = u) (hq : tableWord addr.toNat = some q)
    (h : Admitted c (.writeReg s c addr.toNat value false true false) none u) (hr : u.trg.run ≠ .running) (hp : u.tdc.pass = none) :
    Completes (receiver u c) c 0x03 .ok 0 [] (writeTable q.1 q.2 (landing (receiver u c) (.table q.1 q.2) value u) u)
      (exec (.tdcTableWrite dt c addr value) s) := by
  have hk := Alike.taken (receiver u c) c u
  have hw := writeAll_single (q := .table q.1 q.2) (u := taken (receiver u c) c u) rfl (receiver u c) 0xFFFFFFFF value
  rw [landing_taken, writePlace] at hw
  have hnone : tableRefusal (taken (receiver u c) c u) = none := by
    rw [tableRefusal, hk.base.2.2.2.1, if_neg hr, hk.read State.tdc fun _ => rfl, hp]
    rfl
  refine command_completes (par := fun _ _ => param (tableWord addr.toNat).isSome) hu (by rw [hq]; exact h) ?_
    ((hk.writeTable _ _ _).only.noteLate (receiver u c) 0xFFFFFFFF (.table q.1 q.2)) rfl
  simp only [hq, hnone]
  exact congrArg (Res.done · .ok 0 []) hw

end

end Sys2Proof.Machine
end

section
/-!
### A pin's function switched (R511–R515)
-/

namespace Sys2Proof.Machine

/-- What a switch of pin i to the word v makes of the state s (R514, R515). -/
structure PinSwitches (i : Nat) (v : Word) (s t : State) : Prop where
  func : pinFunc t i = bits v.toNat 3 0
  inv : t.rb (Reg.MP_CTRL i) 5 = bit v.toNat 5
  switches : t.rb Reg.MP_IN (16 + i) = true
  inactive : t.rb Reg.MP_IN i = false
  since : (t.pin i).switch = some (s.clock.ticks, none)
  old : (t.pin i).old = s.rd (Reg.MP_CTRL i)
  pad : (t.pin i).pad = (driveBy s i (s.rd (Reg.MP_CTRL i)) (s.now + 1)).getD (s.pin i).pad
  pulses : Sparse.get t.trg.pulses i [] = (Sparse.get s.trg.pulses i []).filter (fun q => reached (s.now + 1) q.1)

/-- The registers that a switch of a pin writes. -/
def pinRegs (i a : Nat) : Prop := a = Reg.MP_IN ∨ a = Reg.MP_CTRL i

theorem Only.modPin {ps : List Part} {w : Nat → Prop} (s : State) (i : Nat) (f : Pin → Pin) (h : .pins ∈ ps) :
    Only ps w s (s.modPin i f) := Only.setPins s _ h

theorem State.pin_modPin_self (s : State) (i : Nat) (f : Pin → Pin) : (s.modPin i f).pin i = f (s.pin i) :=
  (Sparse.get_upd _ _ _ _ _).trans (if_pos rfl)

theorem bit_eq_bits (w i : Nat) : bit w i = decide (bits w i i = 1) := by
  simp [bit, bits, Nat.testBit, Nat.and_comm, Nat.and_one_is_mod]

theorem State.rb_eq_rf (s : State) (a i : Nat) : s.rb a i = decide (s.rf a i i = 1) := bit_eq_bits _ i

/-- A bit of a register just written reads as written. -/
theorem State.rb_wf_self (s : State) (a : Nat) {i : Nat} (b : Bool) (hi : i < 32) : (s.wf a i i (b2n b)).rb a i = b := by
  rw [State.rb_eq_rf, State.rf_wf_self _ _ hi (Nat.le_refl i)]
  cases b <;> simp [b2n]

theorem setPinIn_only (i : Nat) (sw level : Bool) (s : State) : Only [] (fun a => a = Reg.MP_IN) s (setPinIn i sw level s) :=
  Only.trans (Only.wf s Reg.MP_IN _ _ _ rfl) (Only.wf _ Reg.MP_IN _ _ _ rfl)

theorem setPinIn_level {i : Nat} (hi : i < 12) (sw level : Bool) (s : State) :
    (setPinIn i sw level s).rb Reg.MP_IN (16 + i) = sw ∧ (setPinIn i sw level s).rb Reg.MP_IN i = level := by
  refine ⟨?_, State.rb_wf_self _ _ _ (by omega)⟩
  rw [setPinIn, State.rb_eq_rf, State.rf_wf_ne _ _ (by omega) (Nat.le_refl i) (.inr (by omega)), ← State.rb_eq_rf,
    State.rb_wf_self _ _ _ (by omega)]

/-- The settings that a switch stores: FUNC and INV (R512). -/
def pinWord (v : Word) : Word := BitVec.ofNat 32 (v.toNat % 64 - v.toNat % 32 + v.toNat % 16)

theorem pinWord_fields (v : Word) : bits (pinWord v).toNat 3 0 = bits v.toNat 3 0 ∧ bit (pinWord v).toNat 5 = bit v.toNat 5 := by
  have hv : (pinWord v).toNat = v.toNat % 64 - v.toNat % 32 + v.toNat % 16 := by
    rw [pinWord, BitVec.toNat_ofNat, Nat.mod_eq_of_lt (by omega)]
  simp only [bit_eq_bits, bits, Nat.shiftRight_eq_div_pow, hv]
  constructor
  · omega
  · exact decide_eq_decide.2 (by omega)

/-- What a pin drives depends on its control word, MP_OUT, the pulses that it shows and the alarms (R224, R512). -/
theorem driveBy_congr {s t : State} {i : Nat} {ctrl : Word} {at_ : Time} (hr : ∀ a, ¬ pinRegs i a → t.rd a = s.rd a)
    (hi : i < 12)
    (hp : (Sparse.get t.trg.pulses i []).any (fun q => reached at_ q.1 && !reached at_ q.2) =
      (Sparse.get s.trg.pulses i []).any (fun q => reached at_ q.1 && !reached at_ q.2)) :
    driveBy t i ctrl at_ = driveBy s i ctrl at_ := by
  have hctrl : 0x30010 ≤ Reg.MP_CTRL i ∧ Reg.MP_CTRL i < 0x30040 := by simp only [Reg.MP_CTRL]; omega
  have hreg : ∀ a, a < 0x30010 ∨ a = Reg.MP_OUT → t.rd a = s.rd a := fun a ha => hr a fun h => by
    have hin : Reg.MP_IN = 0x30044 := rfl
    have hout : Reg.MP_OUT = 0x30040 := rfl
    rcases h with h | h <;> omega
  have halarm : alarmOut t = alarmOut s := by
    rw [Bool.eq_iff_iff]
    simp only [alarmOut, List.any_eq_true, List.mem_range]
    refine exists_congr fun k => and_congr_right fun hk => ?_
    have halarm : alarmReg k < 0x30010 := by unfold alarmReg; split <;> decide
    have hlim : Reg.HK_LIM_CTRL k < 0x30010 := by simp only [Reg.HK_LIM_CTRL]; omega
    simp only [inAlarm, State.rb, hreg _ (.inl halarm), hreg _ (.inl hlim)]
  simp only [driveBy, State.rb, hreg Reg.MP_OUT (.inr rfl), hp, halarm]

/-- The state of a switch before the level at the pad is kept. -/
def pinTurned (i : Nat) (v : Word) (s : State) : State :=
  ((setPinIn i true false (s.wr (Reg.MP_CTRL i) (pinWord v))).modPin i (fun p => { p with
    switch := some (s.clock.ticks, none)
    old := s.rd (Reg.MP_CTRL i) })).modTrg (fun g => { g with
    pulses := Sparse.upd g.pulses i [] (fun l => l.filter (fun q => reached (s.now + 1) q.1)) })

theorem switchPin_eq (i : Nat) (v : Word) (s : State) : switchPin i v s = keepLevel s.clock.ticks i (pinTurned i v s) := rfl

theorem pinTurned_only (i : Nat) (v : Word) (s : State) : Only [.pins, .trg] (pinRegs i) s (pinTurned i v s) :=
  (((Only.wr s _ _ (.inr rfl)).trans ((setPinIn_only i true false _).mono (by simp) fun _ => .inl)).trans
    (Only.modPin _ i _ (by simp))).trans (Only.setTrg _ _ (by simp))

theorem pinTurned_pin (i : Nat) (v : Word) (s : State) : (pinTurned i v s).pin i = { s.pin i with
    switch := some (s.clock.ticks, none)
    old := s.rd (Reg.MP_CTRL i) } := by
  have h := State.pin_modPin_self (setPinIn i true false (s.wr (Reg.MP_CTRL i) (pinWord v))) i (fun p => { p with
    switch := some (s.clock.ticks, none)
    old := s.rd (Reg.MP_CTRL i) })
  exact h

theorem pinTurned_pulses (i : Nat) (v : Word) (s : State) :
    Sparse.get (pinTurned i v s).trg.pulses i [] = (Sparse.get s.trg.pulses i []).filter (fun q => reached (s.now + 1) q.1) :=
  (Sparse.get_upd _ _ _ _ _).trans (if_pos rfl)

theorem switchPin_only (i : Nat) (v : Word) (s : State) : Only [.pins, .trg] (pinRegs i) s (switchPin i v s) :=
  (pinTurned_only i v s).trans (Only.modPin _ i _ (by simp))

theorem switchPin_switches {i : Nat} (hi : i < 12) (v : Word) (s : State) : PinSwitches i v s (switchPin i v s) := by
  obtain ⟨hfunc, hinv⟩ := pinWord_fields v
  have hne : Reg.MP_CTRL i ≠ Reg.MP_IN := by
    have : Reg.MP_IN = 0x30044 := rfl
    simp only [Reg.MP_CTRL]; omega
  have hctrl : (switchPin i v s).rd (Reg.MP_CTRL i) = pinWord v :=
    ((setPinIn_only i true false (s.wr (Reg.MP_CTRL i) (pinWord v))).rd hne).trans (State.rd_wr_self _ _ _)
  obtain ⟨hsw, hlevel⟩ := setPinIn_level hi true false (s.wr (Reg.MP_CTRL i) (pinWord v))
  have hpin : (switchPin i v s).pin i = { (pinTurned i v s).pin i with
      pad := (driveBy (pinTurned i v s) i (s.rd (Reg.MP_CTRL i)) (s.now + 1)).getD (s.pin i).pad } := by
    rw [switchPin_eq, keepLevel, State.pin_modPin_self, pinTurned_pin]
    simp only [show (pinTurned i v s).clock = s.clock from rfl, show (pinTurned i v s).now = s.now from rfl, le_refl, if_true]
  have hdrive : driveBy (pinTurned i v s) i (s.rd (Reg.MP_CTRL i)) (s.now + 1) = driveBy s i (s.rd (Reg.MP_CTRL i)) (s.now + 1) := by
    refine driveBy_congr (fun a ha => (pinTurned_only i v s).rd ha) hi ?_
    rw [pinTurned_pulses, List.any_filter]
    refine congrArg (List.any _) (funext fun q => ?_)
    cases reached (s.now + 1) q.1 <;> simp
  exact {
    func := by rw [pinFunc, State.rf, hctrl, hfunc]
    inv := by rw [State.rb, hctrl, hinv]
    switches := hsw
    inactive := hlevel
    since := by rw [hpin, pinTurned_pin]
    old := by rw [hpin, pinTurned_pin]
    pad := by rw [hpin, hdrive]
    pulses := pinTurned_pulses i v s }

/-- The registers that answering a command writes lie in the sides' blocks. -/
theorem not_answerRegs_of_block {a : Nat} (h : addrBlock a < 16) : ¬ answerRegs a := by
  rintro ⟨y, k | k | k | k⟩ <;> subst k <;> cases y <;> revert h <;> decide

/-- A switch of the pin on a state alike, with what answering changes after it. -/
theorem PinSwitches.answered {i : Nat} (hi : i < 12) {v : Word} {s s' t t' : State} (h : PinSwitches i v s' t) (hs : Alike s s')
    (ht : Only answering answerRegs t t') : PinSwitches i v s t' := by
  have hctrl : t'.rd (Reg.MP_CTRL i) = t.rd (Reg.MP_CTRL i) := ht.rd (not_answerRegs_of_block (by
    have : Reg.MP_CTRL i < 0x30040 := by simp only [Reg.MP_CTRL]; omega
    rw [addrBlock, if_pos (by omega)]; omega))
  have hin : t'.rd Reg.MP_IN = t.rd Reg.MP_IN := ht.rd (not_answerRegs_of_block (by decide))
  have hpin : t'.pin i = t.pin i := by rw [State.pin, State.pin, show t'.pins = t.pins from ht.1 .pins (by decide)]
  have htrg : t'.trg = t.trg := ht.1 .trg (by decide)
  have hnow : s'.now = s.now := hs.tiles.1
  have hspin : s'.pin i = s.pin i := hs.read (·.pin i) fun _ => rfl
  have hdrive : ∀ ctrl at_, driveBy s' i ctrl at_ = driveBy s i ctrl at_ := fun _ _ =>
    driveBy_congr (fun a _ => hs.rd a) hi (by rw [hs.base.2.2.2.1])
  exact {
    func := by rw [pinFunc, State.rf, hctrl]; exact h.func
    inv := by rw [State.rb, hctrl]; exact h.inv
    switches := by rw [State.rb, hin]; exact h.switches
    inactive := by rw [State.rb, hin]; exact h.inactive
    since := by rw [hpin, h.since, hs.base.1]
    old := by rw [hpin, h.old, hs.rd]
    pad := by rw [hpin, h.pad, hs.rd, hnow, hdrive, hspin]
    pulses := by rw [htrg, h.pulses, hs.base.2.2.2.1, hnow] }

/-! A write of MP_CTRL -/

theorem writeReg_mpCtrl (i : Fin 12) (v : Word) (k : State) : writeReg (Reg.MP_CTRL i) v k = writeMp i v k := by
  have hi := i.isLt
  have hs : sideOfAddr (Reg.MP_CTRL i) = none := by
    rw [sideOfAddr, if_neg (by simp only [Reg.MP_CTRL]; omega), if_neg (by simp only [Reg.MP_CTRL]; omega)]
  have ht : tileOfAddr (Reg.MP_CTRL i) = none := if_neg (by simp only [Reg.MP_CTRL]; omega)
  have hr : Reg.MP_CTRL 0 ≤ Reg.MP_CTRL i ∧ Reg.MP_CTRL i < Reg.MP_CTRL 12 := by simp only [Reg.MP_CTRL]; omega
  have hd : (Reg.MP_CTRL i - Reg.MP_CTRL 0) / 4 = i := by simp only [Reg.MP_CTRL]; omega
  simp only [writeReg, touchBlock, hs, ht, if_pos hr, hd]

section
variable {dt : Nat} {c : Ctx} {s u : State} {i : Fin 12} {value : Word}

/-- An MP_SWITCH that is admitted forms its reply on what the write makes of the state that takes it up. -/
theorem mpSwitch_next (hu : s.elapse dt = u) (hv : bits value.toNat 3 0 < 7) (hs : switching u i = false)
    (h : Admitted c (.writeReg s c (Reg.MP_CTRL i) value false false false) none u) {k : State}
    (hk : writeMp i (landing (receiver u c) (.reg (Reg.MP_CTRL i)) value u) (taken (receiver u c) c u) = k)
    (hl : k.lace = (taken (receiver u c) c u).lace) :
    Completes (receiver u c) c 0x03 .ok 0 [] k (exec (.mpSwitch dt c i value) s) := by
  have hal := Alike.taken (receiver u c) c u
  have hi := i.isLt
  have hside : sideOfAddr (Reg.MP_CTRL i) = none := by
    rw [sideOfAddr, if_neg (by simp only [Reg.MP_CTRL]; omega), if_neg (by simp only [Reg.MP_CTRL]; omega)]
  have hw := writeAll_single (targets_of_no_side hside (taken (receiver u c) c u)) (receiver u c) 0xFFFFFFFF value
  rw [landing_taken, writePlace, writeReg_mpCtrl, hk] at hw
  have hnone : mpRefusal (taken (receiver u c) c u) i value = none := by
    have hsw : switching (taken (receiver u c) c u) i = false := (hal.read (switching · i) fun _ => rfl).trans hs
    rw [mpRefusal, if_neg (by omega), hsw, if_neg (by decide)]
  refine command_completes (par := fun _ _ => param (bits value.toNat 3 0 < 7)) hu (by simpa [param, hv] using h) ?_
    ((Only.refl _ _ k).noteLate (receiver u c) 0xFFFFFFFF (.reg (Reg.MP_CTRL i))) (hl.trans (taken_lace _ _ _))
  simp only [hnone]
  exact congrArg (Res.done · .ok 0 []) hw

theorem mpSwitch_same (hu : s.elapse dt = u) (hv : bits value.toNat 3 0 < 7) (hs : switching u i = false)
    (h : Admitted c (.writeReg s c (Reg.MP_CTRL i) value false false false) none u) {v : Word}
    (hl : landing (receiver u c) (.reg (Reg.MP_CTRL i)) value u = v)
    (hsame : bits v.toNat 3 0 = pinFunc u i ∧ bit v.toNat 5 = u.rb (Reg.MP_CTRL i) 5) :
    Completes (receiver u c) c 0x03 .ok 0 [] u (exec (.mpSwitch dt c i value) s) := by
  have hal := Alike.taken (receiver u c) c u
  have hfunc : bits v.toNat 3 0 = pinFunc (taken (receiver u c) c u) i := by rw [pinFunc, hal.regs.2.2.1]; exact hsame.1
  have hinv : bit v.toNat 5 = (taken (receiver u c) c u).rb (Reg.MP_CTRL i) 5 := by rw [hal.regs.2.2.2.1]; exact hsame.2
  have hw : writeMp i v (taken (receiver u c) c u) = taken (receiver u c) c u := by simp [writeMp, hfunc, hinv]
  obtain ⟨t, ht, hr, ho⟩ := mpSwitch_next hu hv hs h (hl ▸ hw) rfl
  exact ⟨t, ht, hr, hal.only.trans ho⟩

theorem mpSwitch_switches (hu : s.elapse dt = u) (hv : bits value.toNat 3 0 < 7) (hs : switching u i = false)
    (h : Admitted c (.writeReg s c (Reg.MP_CTRL i) value false false false) none u) {v : Word}
    (hl : landing (receiver u c) (.reg (Reg.MP_CTRL i)) value u = v)
    (hdiff : ¬ (bits v.toNat 3 0 = pinFunc u i ∧ bit v.toNat 5 = u.rb (Reg.MP_CTRL i) 5)) :
    Happens (.pins :: .trg :: answering) (fun r => answerRegs r ∨ r = Reg.MP_IN ∨ r = Reg.MP_CTRL i) u
      (fun t => Replied (receiver u c) c 0x03 .ok 0 [] t ∧ PinSwitches i v u t) (exec (.mpSwitch dt c i value) s) := by
  have hal := Alike.taken (receiver u c) c u
  have hw : writeMp i v (taken (receiver u c) c u) = switchPin i v (taken (receiver u c) c u) := by
    simp only [writeMp, pinFunc, hal.regs, Bool.and_eq_true, decide_eq_true_eq]
    exact if_neg hdiff
  have hsw := switchPin_only i v (taken (receiver u c) c u)
  obtain ⟨t, ht, hr, ho⟩ := mpSwitch_next hu hv hs h (hl ▸ hw) (hsw.1 .lace (by simp))
  refine ⟨t, ht, ⟨hr, (switchPin_switches i.isLt v _).answered i.isLt hal ho⟩, ?_⟩
  exact ((hal.only.mono (by simp) fun _ => .inl).trans (hsw.mono (by simp) fun _ => .inr)).trans (ho.mono (by simp) fun _ => .inl)

end

/-- Settles O35: what each command's body does to the state that takes it up it does alike to the state at hand (`Alike`), and a word of the
base tier is written in one place alone. -/
theorem calibrationCommandsBegin : Obligations.CalibrationCommandsBegin := by
  intro dt c s u x
  refine ⟨fun q value h => landing_eq q value h, fun _ _ h hr hc hs => faCal_completes rfl h hr hc hs,
    fun _ _ _ he h hr hc hs ha => tdcCal_completes rfl he h hr hc hs ha, fun h hc => hkCal_completes rfl h hc,
    fun _ _ h => tdcCalPauseWrite_completes rfl h, fun _ _ q hq h hr hp => ?_, ?_⟩
  · exact ⟨readTable_writeTable_self _ _ _ (tableWord_lt hq), fun n hn hne => readTable_writeTable_ne _ _ _ hn hne,
      tdcTableWrite_completes rfl hq h hr hp⟩
  · intro i value hv hs h v hlv same
    refine ⟨fun hsame => mpSwitch_same rfl hv hs h rfl hsame, fun hdiff => ?_⟩
    obtain ⟨t, ht, ⟨hrep, hp⟩, ho⟩ := mpSwitch_switches rfl hv hs h rfl hdiff
    exact ⟨t, ht, ⟨hrep, hp.func, hp.inv, hp.switches, hp.inactive, hp.since, hp.old, hp.pad, hp.pulses⟩, ho⟩

end Sys2Proof.Machine
end

section
/-!
### Conversions, windows and dead times end (R90, R93, R96, R100)
-/

namespace Sys2Proof.Machine

section
variable {dt : Nat} {d : Fin 65536} {s u : State}

theorem digiTile_lt (d : Fin 65536) : digiTile d < 64 := by have := d.isLt; unfold digiTile; omega

theorem State.rf_lt (s : State) (a : Nat) {hi lo : Nat} : s.rf a hi lo < 2 ^ (hi + 1 - lo) := Nat.mod_lt _ (Nat.two_pow_pos _)

theorem vernierConversionEnd_ends {k : Conv} (hu : s.elapse dt = u) (hk : (u.digi d).conv = some k) (hc : k.cal = none)
    (ho : k.over u.now 1023 = true) :
    Happens [.tdc] (inBlocks [8]) u
      (fun t => t.digi d = { u.digi d with conv := none } ∧ (∀ e, e ≠ d.val → t.digi e = u.digi e) ∧
        t.rf (Reg.TDC_OVERRANGE (digiTile d)) 31 0 = min (u.rf (Reg.TDC_OVERRANGE (digiTile d)) 31 0 + b2n k.ovr) 4294967295)
      (exec (.vernierConversionEnd dt d) s) := by
  subst hu
  have hexec : exec (.vernierConversionEnd dt d) s = .next (endConversion d (s.elapse dt)) := by
    show execVernierConversionEnd dt d s = _
    simp only [execVernierConversionEnd, hk, hc, ho]
    rfl
  have hend : endConversion d (s.elapse dt) = if k.ovr then
      ((s.elapse dt).modDigi d (fun g => { g with conv := none })).bump (Reg.TDC_OVERRANGE (digiTile d)) 31 0 1
      else (s.elapse dt).modDigi d (fun g => { g with conv := none }) := by
    simp only [endConversion, hk, hc]
    rfl
  rw [hexec, hend]
  have hm : Only [.tdc] (inBlocks [8]) (s.elapse dt) ((s.elapse dt).modDigi d fun g => { g with conv := none }) :=
    Only.modDigi _ d _ (by simp)
  have hreg : inBlocks [8] (Reg.TDC_OVERRANGE (digiTile d)) := inBlocks_tile (digiTile_lt d) (by omega) (by simp)
  cases k.ovr with
  | true =>
    rw [if_pos rfl]
    refine ⟨_, rfl, ⟨by rw [State.digi_bump, State.digi_modDigi_self],
      fun e he => by rw [State.digi_bump, State.digi_modDigi_ne _ _ he], ?_⟩, hm.trans (Only.bump _ _ _ _ _ hreg)⟩
    rw [State.rf_bump_self _ _ _ (by omega) (by omega)]
    rfl
  | false =>
    rw [if_neg Bool.false_ne_true]
    refine ⟨_, rfl, ⟨State.digi_modDigi_self _ d _, fun e he => State.digi_modDigi_ne _ _ he, ?_⟩, hm⟩
    have hlt : (s.elapse dt).rf (Reg.TDC_OVERRANGE (digiTile d)) 31 0 ≤ 4294967295 := Nat.le_of_lt_succ (State.rf_lt _ _)
    exact (Nat.min_eq_left hlt).symm

theorem clusterWindowEnd_closes {c : Cluster} (hu : s.elapse dt = u) (hc : (u.digi d).cluster = some c)
    (ho : reached u.now c.windowEnd = true) :
    exec (.clusterWindowEnd dt d) s = .next (u.modDigi d (fun g => { g with
      phase := .dead
      cluster := none
      waiting := g.waiting ++ [{ c with closed := some c.windowEnd }]
      readyAt := (if reached c.windowEnd c.last then c.windowEnd else c.last) + 60 })) := by
  subst hu
  have hclosed : (s.elapse dt).modDigi d (·.closedAt c.windowEnd) = _ :=
    congrArg (fun g => (s.elapse dt).modTdc (fun t => { t with digis := Sparse.set t.digis d g Digi.idle }))
      (show ((s.elapse dt).digi d).closedAt c.windowEnd = _ by unfold Digi.closedAt; rw [hc])
  show Host.Outcome.next (closeIfOver d (s.elapse dt)) = _
  rw [closeIfOver, hc]
  simp only [ho, if_true, closeCluster_eq]
  exact congrArg _ hclosed

theorem digitizerReady_readies (hu : s.elapse dt = u) (hp : (u.digi d).phase = .dead) (hr : reached u.now (u.digi d).readyAt = true) :
    exec (.digitizerReady dt d) s = .next (u.modDigi d (fun g => { g with phase := .ready })) := by
  subst hu
  show execDigitizerReady dt d s = _
  simp [execDigitizerReady, hp, hr]

end

end Sys2Proof.Machine
end

section
/-!
### Clusters pass to their tile (R101, R105–R109, R177, R182, R186, R200)
-/

namespace Sys2Proof.Machine

/-! A tile's FIFO filled -/

theorem Only.tile_eq {w : Nat → Prop} {s t : State} (h : Only raising w s t) (i : Nat) : t.tile i = s.tile i := h.tile (by decide) i

theorem settleBusy_tile (i : Nat) (s : State) : ∃ b c, (settleBusy i s).tile i = { s.tile i with spans := b, pllBusy := c } := by
  unfold settleBusy
  extract_lets k
  split
  · split
    · exact ⟨_, _, rfl⟩
    · exact ⟨_, _, by rw [State.tile_modTile, if_pos rfl]⟩
  · exact ⟨_, _, rfl⟩

/-- A change of full that raises or drops BUSY changes nothing else of the tile than BUSY and its spans. -/
theorem withBusy_tile (i : Nat) (x : Bool) (s : State) :
    ∃ b c, (withBusy i (fun k => { k with full := x }) s).tile i = { s.tile i with full := x, spans := b, pllBusy := c } := by
  obtain ⟨b, c, h0⟩ := settleBusy_tile i s
  unfold withBusy
  extract_lets s0 was s1 is
  have h1 : s1.tile i = { s.tile i with full := x, spans := b, pllBusy := c } := by rw [State.tile_modTile, if_pos rfl, h0]
  split
  · exact ⟨_, _, by rw [(raiseTile_only i 0 _ _ _).tile_eq, State.tile_modTile, if_pos rfl, h1]⟩
  · split
    · exact ⟨_, _, by rw [State.tile_modTile, if_pos rfl, h1]⟩
    · exact ⟨_, _, h1⟩

theorem levelCheck_tile (i : Nat) (s : State) :
    ∃ a b c, (levelCheck i s).tile i = { s.tile i with full := a, spans := b, pllBusy := c } := by
  unfold levelCheck
  extract_lets k n
  split
  · exact ⟨_, _, _, rfl⟩
  · split
    · exact ⟨_, withBusy_tile i true s⟩
    · split
      · exact ⟨_, withBusy_tile i false s⟩
      · exact ⟨_, _, _, rfl⟩

theorem pushSlots_fifo (i : Nat) (l : List Slot) (n : Nat) (s : State) :
    ((pushSlots i l n s).tile i).fifo = (s.tile i).fifo ++ l ∧ ((pushSlots i l n s).tile i).words = (s.tile i).words + n := by
  unfold pushSlots
  extract_lets s1
  obtain ⟨a, b, c, h⟩ := levelCheck_tile i (s1.high (Reg.TIL_FIFO i) 28 16 (s1.tile i).fifo.length)
  have hh : (s1.high (Reg.TIL_FIFO i) 28 16 (s1.tile i).fifo.length).tile i = s1.tile i := by simp only [State.tile, State.high_tiles]
  rw [h, hh, State.tile_modTile, if_pos rfl]
  exact ⟨rfl, rfl⟩

/-! What becomes of a cluster group -/

/-- The parts that the assembly of a cluster changes. -/
abbrev assembleParts : List Part := [.tdc, .tiles, .squall, .freeCount] ++ bothOf .evt ++ bothOf .tally

/-- A lost cluster is counted in a register of its tile and in its slice, and leaves the tile's words as they are (R186, R200). -/
def lost (i n o : Nat) (k : Tally) (f : Lost → Lost) (s : State) : State :=
  loseCluster i n f ((s.bump (tileBase i + o) 31 0 1).tallyAll k 1)

theorem lost_spec {i o : Nat} (hi : i < 64) (ho : o < 0x10000) (n : Nat) (k : Tally) (f : Lost → Lost) (s : State) :
    Only assembleParts (inBlocks [8, 17]) s (lost i n o k f s) ∧ ((lost i n o k f s).tile i).fifo = (s.tile i).fifo ∧
      ((lost i n o k f s).tile i).next = (s.tile i).next ∧
      (lost i n o k f s).rf (tileBase i + o) 31 0 = min (s.rf (tileBase i + o) 31 0 + 1) 4294967295 := by
  have hb : Only [] (inBlocks [8, 17]) s (s.bump (tileBase i + o) 31 0 1) := Only.bump s _ _ _ _ (inBlocks_tile hi ho (by simp))
  have ht : Only (bothOf .tally) noReg (s.bump (tileBase i + o) 31 0 1) ((s.bump (tileBase i + o) 31 0 1).tallyAll k 1) :=
    Only.tallyAll _ _ _
  have htile : ((s.bump (tileBase i + o) 31 0 1).tallyAll k 1).tile i = s.tile i := (ht.tile (by decide) i).trans (hb.tile (by simp) i)
  have hl : (lost i n o k f s).tile i = { s.tile i with lost := Sparse.upd (s.tile i).lost n Lost.zero f } := by
    rw [lost, loseCluster, State.tile_modTile, if_pos rfl, htile]
  refine ⟨?_, by rw [hl], by rw [hl], ?_⟩
  · exact ((hb.mono (by simp) fun _ => id).trans (ht.mono (by decide) fun _ => False.elim)).trans (Only.modTile _ i _ (by decide))
  · exact (ht.rf (by simp [noReg]) 31 0).trans (State.rf_bump_self s _ _ (by omega) (by omega))

/-- A group of slice n that is written into the FIFO: the slice is the open one, and no group of it waits. -/
def Direct (k : Tile) (n : Nat) : Prop := k.slice = some n ∧ k.next.any (fun q => q.1 = n) = false

section
variable {i n : Nat} {g : List Word72} {s : State}

theorem placeGroup_direct (h : Direct (s.tile i) n) (hl : (s.tile i).fifo.length + g.length ≤ 4032) :
    placeGroup i n g s = (pushSlots i (groupSlots g) g.length s, true) := by
  simp [placeGroup, h.1, h.2, hl]

theorem placeGroup_full (h : Direct (s.tile i) n) (hl : 4032 < (s.tile i).fifo.length + g.length) : placeGroup i n g s =
    (lost i n 0x18 .clusterDrop (fun l => { l with drop := min (l.drop + 1) 0xFFFFFFFF }) s, false) := by
  simp [placeGroup, h.1, h.2, Nat.not_le.2 hl]
  rfl

theorem not_direct_iff {k : Tile} : ¬ Direct k n ↔ (decide (k.slice = some n) && !k.next.any (fun q => q.1 = n)) = false := by
  unfold Direct
  cases k.next.any (fun q => q.1 = n) <;> simp

theorem placeGroup_next (h : ¬ Direct (s.tile i) n) (hl : (s.tile i).buffered + g.length ≤ 512) : placeGroup i n g s =
    (s.modTile i (fun k => { k with next := k.next ++ [(n, g)], lastAct := s.clock.ticks, gatedAt := none }), true) := by
  simp [placeGroup, not_direct_iff.1 h, hl]

theorem placeGroup_over (h : ¬ Direct (s.tile i) n) (hl : 512 < (s.tile i).buffered + g.length) : placeGroup i n g s =
    (lost i n 0x18 .clusterDrop (fun l => { l with drop := min (l.drop + 1) 0xFFFFFFFF }) s, false) := by
  simp [placeGroup, not_direct_iff.1 h, Nat.not_le.2 hl]
  rfl

end

/-! A cluster assembled -/

/-- The state in which a cluster of a tile is counted, and the free value for its unfinished pulses taken (R193). -/
def clusterCounted (i : Nat) (c : Cluster) (s : State) : State :=
  countCluster i c.lp (if c.pulses.any (fun q => q.fall.isNone) then s.took else s)

theorem clusterCounted_only (i : Nat) (c : Cluster) (s : State) : Only [.tiles, .freeCount] noReg s (clusterCounted i c s) := by
  have h : Only [.tiles, .freeCount] noReg s (if c.pulses.any (fun q => q.fall.isNone) then s.took else s) := by
    split
    · exact Only.setFreeCount s _ (by simp)
    · exact Only.refl _ _ s
  exact h.trans (Only.modTile _ i _ (by simp))

theorem clusterCounted_tile (i : Nat) (c : Cluster) (s : State) :
    ∃ n, (clusterCounted i c s).tile i = { s.tile i with counts := n } := by
  have h : (if c.pulses.any (fun q => q.fall.isNone) then s.took else s).tile i = s.tile i := by split <;> rfl
  have ht : (clusterCounted i c s).tile i = _ := State.tile_modTile _ i _ i
  rw [if_pos rfl, h] at ht
  exact ⟨_, ht⟩

/-- The group of a cluster at a state, flagged where its squall is to be (R200). -/
def groupAt (i : Nat) (c : Cluster) (s : State) : List Word72 :=
  groupOf i c s.free.toNat ((squallOf s c.c).any (fun q => q.policy ≠ 0))

theorem assemble_dropped {i : Nat} {c : Cluster} {s : State} (h : (squallOf s c.c).any (fun q => q.policy = 2) = true) :
    assemble i c s = lost i (sliceOf s c.c) 0x14 .squallDrop (fun l => { l with squall := min (l.squall + 1) 0xFFFFFFFF })
      (clusterCounted i c s) := by
  obtain ⟨q, hq, hp⟩ := (Option.any_eq_true _ _).1 h
  simp only [assemble, hq, of_decide_eq_true hp, if_true]
  rfl

theorem ite_squall (b : Bool) (f : Detector → Detector) (s : State) :
    ∃ v, (if b then { s with squall := f s.squall } else s) = { s with squall := v } := by
  cases b
  · exact ⟨_, rfl⟩
  · exact ⟨_, rfl⟩

/-- A cluster that no squall drops is placed; the detector may note its start. -/
theorem assemble_placed {i : Nat} {c : Cluster} {s : State} (h : (squallOf s c.c).any (fun q => q.policy = 2) = false) :
    ∃ v, assemble i c s = { (placeGroup i (sliceOf s c.c) (groupAt i c s) (clusterCounted i c s)).1 with squall := v } := by
  cases hq : squallOf s c.c with
  | none =>
    obtain ⟨v, hv⟩ := ite_squall (placeGroup i (sliceOf s c.c) (groupAt i c s) (clusterCounted i c s)).2
      (fun d => { d with recent := c.c :: d.recent.filter (fun e => decide (since s.now e < 4500)) })
      (placeGroup i (sliceOf s c.c) (groupAt i c s) (clusterCounted i c s)).1
    refine ⟨v, ?_⟩
    rw [← hv]
    simp only [assemble, groupAt, clusterCounted, hq, Option.any_none, Option.isNone_none, Bool.and_true]
    rfl
  | some q =>
    have hp : ¬ q.policy = 2 := by simpa [hq] using h
    refine ⟨(placeGroup i (sliceOf s c.c) (groupAt i c s) (clusterCounted i c s)).1.squall, ?_⟩
    simp only [assemble, groupAt, clusterCounted, hq, hp, if_false, Option.any_some, Option.isNone_some, Bool.and_false]
    rfl

section
variable {i : Nat} {c : Cluster} {v : State}

theorem clusterCounted_frame (i : Nat) (c : Cluster) (v : State) : Only assembleParts (inBlocks [8, 17]) v (clusterCounted i c v) :=
  (clusterCounted_only i c v).mono (by decide) fun _ => False.elim

/-- A cluster lost: of the tile's words nothing changes, and its counter takes it (R186, R200). -/
theorem lost_counted {o : Nat} (hi : i < 64) (ho : o < 0x10000) (n : Nat) (k : Tally) (f : Lost → Lost) (c : Cluster) (v : State) :
    Only assembleParts (inBlocks [8, 17]) v (lost i n o k f (clusterCounted i c v)) ∧
      ((lost i n o k f (clusterCounted i c v)).tile i).fifo = (v.tile i).fifo ∧
      ((lost i n o k f (clusterCounted i c v)).tile i).next = (v.tile i).next ∧
      (lost i n o k f (clusterCounted i c v)).rf (tileBase i + o) 31 0 = min (v.rf (tileBase i + o) 31 0 + 1) 4294967295 := by
  obtain ⟨hl, hf, hn, hr⟩ := lost_spec hi ho n k f (clusterCounted i c v)
  obtain ⟨m, ht⟩ := clusterCounted_tile i c v
  rw [ht] at hf hn
  rw [(clusterCounted_only i c v).rf (by simp [noReg])] at hr
  exact ⟨(clusterCounted_frame i c v).trans hl, hf, hn, hr⟩

/-- What the placing of a cluster's group leaves, the assembly leaves. -/
theorem assemble_happens {p : State → Prop} (hp : ∀ (t : State) q, p t → p { t with squall := q })
    (h : (squallOf v c.c).any (fun q => q.policy = 2) = false) {k : State} {b : Bool}
    (hk : placeGroup i (sliceOf v c.c) (groupAt i c v) (clusterCounted i c v) = (k, b))
    (ho : Only assembleParts (inBlocks [8, 17]) (clusterCounted i c v) k) (ht : p k) :
    Happens assembleParts (inBlocks [8, 17]) v p (.next (assemble i c v)) := by
  obtain ⟨q, hq⟩ := assemble_placed (i := i) h
  rw [hk] at hq
  exact ⟨_, rfl, hq ▸ hp k q ht, hq ▸ ((clusterCounted_frame i c v).trans ho).trans (Only.setSquall k q (by decide))⟩

theorem assemble_drops (hi : i < 64) (h : (squallOf v c.c).any (fun q => q.policy = 2) = true) :
    Happens assembleParts (inBlocks [8, 17]) v (fun t => (t.tile i).fifo = (v.tile i).fifo ∧ (t.tile i).next = (v.tile i).next ∧
      t.rf (Reg.TIL_SQ_DROP i) 31 0 = min (v.rf (Reg.TIL_SQ_DROP i) 31 0 + 1) 4294967295) (.next (assemble i c v)) := by
  obtain ⟨ho, ht⟩ := lost_counted hi (o := 0x14) (by omega) (sliceOf v c.c) .squallDrop
    (fun l => { l with squall := min (l.squall + 1) 0xFFFFFFFF }) c v
  rw [assemble_dropped h]
  exact ⟨_, rfl, ht, ho⟩

theorem assemble_loses (hi : i < 64) (h : (squallOf v c.c).any (fun q => q.policy = 2) = false)
    (hk : placeGroup i (sliceOf v c.c) (groupAt i c v) (clusterCounted i c v) =
      (lost i (sliceOf v c.c) 0x18 .clusterDrop (fun l => { l with drop := min (l.drop + 1) 0xFFFFFFFF }) (clusterCounted i c v), false)) :
    Happens assembleParts (inBlocks [8, 17]) v (fun t => (t.tile i).fifo = (v.tile i).fifo ∧ (t.tile i).next = (v.tile i).next ∧
      t.rf (Reg.TIL_CL_DROP i) 31 0 = min (v.rf (Reg.TIL_CL_DROP i) 31 0 + 1) 4294967295) (.next (assemble i c v)) :=
  assemble_happens (fun _ _ ht => ht) h hk (lost_spec hi (by omega) _ _ _ _).1
    (lost_counted hi (o := 0x18) (by omega) (sliceOf v c.c) .clusterDrop _ c v).2

theorem assemble_writes (hi : i < 64) (h : (squallOf v c.c).any (fun q => q.policy = 2) = false)
    (hd : Direct (v.tile i) (sliceOf v c.c)) (hl : (v.tile i).fifo.length + (groupAt i c v).length ≤ 4032) :
    Happens assembleParts (inBlocks [8, 17]) v (fun t =>
      (t.tile i).fifo = (v.tile i).fifo ++ groupSlots (groupAt i c v) ∧ (t.tile i).words = (v.tile i).words + (groupAt i c v).length)
      (.next (assemble i c v)) := by
  obtain ⟨n, ht⟩ := clusterCounted_tile i c v
  refine assemble_happens (fun _ _ ht => ht) h (placeGroup_direct (by rw [ht]; exact hd) (by rw [ht]; exact hl))
    ((pushSlots_only hi _ _ _).mono (by decide) fun _ => id) ?_
  have hp := pushSlots_fifo i (groupSlots (groupAt i c v)) (groupAt i c v).length (clusterCounted i c v)
  rw [ht] at hp
  exact hp

theorem assemble_waits (h : (squallOf v c.c).any (fun q => q.policy = 2) = false)
    (hd : ¬ Direct (v.tile i) (sliceOf v c.c)) (hl : (v.tile i).buffered + (groupAt i c v).length ≤ 512) :
    Happens assembleParts (inBlocks [8, 17]) v (fun t =>
      (t.tile i).fifo = (v.tile i).fifo ∧ (t.tile i).next = (v.tile i).next ++ [(sliceOf v c.c, groupAt i c v)])
      (.next (assemble i c v)) := by
  obtain ⟨n, ht⟩ := clusterCounted_tile i c v
  refine assemble_happens (fun _ _ ht => ht) h (placeGroup_next (by rw [ht]; exact hd) (by rw [ht]; exact hl))
    (Only.modTile _ i _ (by decide)) ?_
  rw [State.tile_modTile, if_pos rfl, ht]
  exact ⟨rfl, rfl⟩

end

theorem exec_clusterAssembled {dt : Nat} {d : Fin 65536} {s u : State} {j : Nat} {c : Cluster} (hu : s.elapse dt = u)
    (hw : (u.tile (digiTile d)).waitPll.isSome = false) (hj : (u.digi d).waiting.findIdx? (·.due u.now) = some j)
    (hc : (u.digi d).waiting[j]? = some c) {v : State}
    (hv : settleTile (digiTile d) (u.modDigi d (fun g => { g with waiting := g.waiting.eraseIdx j })) = v) :
    exec (.clusterAssembled dt d) s = .next (if (v.tile (digiTile d)).inRun c.c && (scanOf u (digiTile d)).isNone then
      assemble (digiTile d) c v else v) := by
  subst hu hv
  show execClusterAssembled dt d s = _
  rw [apply_ite Host.Outcome.next]
  simp only [execClusterAssembled, hw, Bool.false_eq_true, if_false, hj, hc]

/-- Settles O38: the group of an assembled cluster goes where `placeGroup` puts it, and the tile's own reports leave its words alone. -/
theorem clustersReachTheirTile : Obligations.ClustersReachTheirTile := by
  intro dt d s u g i
  have hi : i < 64 := digiTile_lt d
  refine ⟨fun k hk hc ho => vernierConversionEnd_ends rfl hk hc ho, fun c hc ho => clusterWindowEnd_closes rfl hc ho,
    fun hp hr => digitizerReady_readies rfl hp hr, ?_⟩
  intro j c hw hj hc v m w
  have hexec := exec_clusterAssembled (v := v) rfl hw hj hc rfl
  refine ⟨fun h => ?_, fun hin hs => ?_⟩
  · rw [hexec, if_neg]
    rintro hb
    obtain ⟨hin, hs⟩ := Bool.and_eq_true_iff.1 hb
    rcases h with h | h
    · exact absurd hin (ne_true_of_eq_false h)
    · rw [Option.isNone_iff_eq_none.1 hs] at h
      cases h
  · rw [hexec, if_pos (Bool.and_eq_true_iff.2 ⟨hin, Option.isNone_iff_eq_none.2 hs⟩)]
    refine ⟨assemble_drops hi, ?_⟩
    intro hp direct dropped
    refine ⟨fun hd hl => assemble_writes hi hp hd hl, fun hd hl => ?_, fun hd hl => assemble_waits hp hd hl, fun hd hl => ?_⟩
    · obtain ⟨n, ht⟩ := clusterCounted_tile i c v
      exact assemble_loses hi hp (placeGroup_full (by rw [ht]; exact hd) (by rw [ht]; exact hl))
    · obtain ⟨n, ht⟩ := clusterCounted_tile i c v
      exact assemble_loses hi hp (placeGroup_over (by rw [ht]; exact hd) (by rw [ht]; exact hl))

end Sys2Proof.Machine
end

section
/-!
### Fills end: their CAL_REDUCE items, and calibration failures (R113, R118, R122, R129, R136, R237)
-/

namespace Sys2Proof.Machine

theorem Only.ite {ps : List Part} {w : Nat → Prop} {c : Prop} [Decidable c] {s a b : State} (ha : Only ps w s a) (hb : Only ps w s b) :
    Only ps w s (if c then a else b) := by
  split
  · exact ha
  · exact hb

/-! CAL_REDUCE items -/

theorem addrBlock_side (x : Side) {o : Nat} (h : o < 0x01000000) : addrBlock (sideBase x + o) = 16 + o / 0x10000 := by
  have hb : 0x01000000 ≤ sideBase x + o := by cases x <;> simp only [sideBase] <;> omega
  rw [addrBlock, if_neg (by omega), if_neg (by omega), sideBase_mod x h]

/-- The parts that an item put into side x's ready list changes. -/
abbrev enqueueParts (x : Side) : List Part := .dsp x :: raising

/-- The registers that an item put into a ready list writes. -/
def enqueueRegs (a : Nat) : Prop := addrBlock a = 17 ∨ addrBlock a = 19

theorem enqueueRegs_dsp (x : Side) {o : Nat} (h : 0x30000 ≤ o ∧ o < 0x40000) : enqueueRegs (sideBase x + o) :=
  .inr (by rw [addrBlock_side x (by omega)]; omega)

theorem enqueueItem_only (x : Side) (w : Work) (s : State) : Only (enqueueParts x) enqueueRegs s (enqueueItem x w s) := by
  have hmod : ∀ (t : State) (f : Dsp → Dsp), Only (enqueueParts x) enqueueRegs t (t.modDsp x f) := fun t f => Only.modDsp t x f (by simp)
  unfold enqueueItem
  extract_lets n
  split
  · exact hmod s _
  · split
    · exact (hmod s _).trans (Only.high _ _ _ _ _ (enqueueRegs_dsp x (by omega)))
    · have h1 : ∀ f, Only (enqueueParts x) enqueueRegs s ((s.bump (Reg.DSP_REFUSED x) 31 0 1).modDsp x f) := fun f =>
        (Only.bump s _ _ _ _ (enqueueRegs_dsp x (by omega))).trans (hmod _ f)
      split
      · exact h1 _
      · exact (h1 _).trans ((raiseSide_only x 573 _ _ _).mono (by simp [raising]) fun _ h => .inl (raiseRegs_block h))

/-- The parts that a CAL_REDUCE item's creation changes. -/
abbrev reduceParts : List Part := bothOf .dsp ++ raising

theorem wantReduce_only (i : Nat) (s : State) : Only reduceParts enqueueRegs s (wantReduce i s) := by
  unfold wantReduce
  extract_lets x
  split
  · exact Only.refl _ _ s
  · exact (enqueueItem_only x _ s).mono (by cases x <;> decide) fun _ => id

/-! A fill is over -/

/-- The digitizer d of a state with its fill cleared. -/
def fillCleared (d : Nat) (s : State) : Digi :=
  { s.digi d with hist := [], ovr := 0, codes := [], reals := stillNeeded s d (s.digi d).reals }

/-- What is left when a fill is over: its digitizer's histogram is cleared, and the pass and the rotations may go on. -/
theorem fillOver_tdc (d : Nat) (failed : Bool) (s : State) : ∃ p r, fillOver d failed s = s.modTdc (fun k => { k with
    digis := Sparse.set k.digis d (fillCleared d s) Digi.idle
    pass := p
    rot := r }) := by
  unfold fillOver
  extract_lets s1
  split
  · split
    · exact ⟨_, _, rfl⟩
    · split
      · exact ⟨_, _, rfl⟩
      · exact ⟨_, _, rfl⟩
  · split
    · exact ⟨_, _, rfl⟩
    · exact ⟨_, _, rfl⟩

theorem fillOver_only (d : Nat) (failed : Bool) (s : State) : Only [.tdc] noReg s (fillOver d failed s) := by
  obtain ⟨p, r, h⟩ := fillOver_tdc d failed s
  rw [h]
  exact Only.setTdc s _ (by simp)

theorem fillOver_digi (d : Nat) (failed : Bool) (s : State) : (fillOver d failed s).digi d = fillCleared d s := by
  obtain ⟨p, r, h⟩ := fillOver_tdc d failed s
  rw [h]
  exact Sparse.get_set_self _ _ _ _

theorem fillOver_turns (d : Nat) (failed : Bool) (s : State) : (fillOver d failed s).tdc.fills = s.tdc.fills ∧
    (fillOver d failed s).tdc.etdTurn = s.tdc.etdTurn ∧ (fillOver d failed s).tdc.etdSince = s.tdc.etdSince := by
  obtain ⟨p, r, h⟩ := fillOver_tdc d failed s
  rw [h]
  exact ⟨rfl, rfl, rfl⟩

/-! A digitizer retired -/

theorem Only.digiRetired {ps : List Part} {w : Nat → Prop} {s t : State} (h : Only ps w s t) (k : .bg ∉ ps) (d : Nat) :
    t.digiRetired d = s.digiRetired d := by simp only [State.digiRetired, show t.bg = s.bg from h.1 .bg k]

/-- The parts that a digitizer's retirement changes. -/
abbrev retireParts : List Part := .tdc :: .bg :: raising

/-- A digitizer listed as retired, or retired without a place in the list (R131, R552). -/
def digiListed (d : Nat) (s : State) : State :=
  if d < 65536 && 4096 ≤ ((s.entries (·.digitizers)).filter (· < 65536)).length then
    raiseBase 524 sevFault noInst { s with bg := { s.bg with unlistedDigis := insertNat d s.bg.unlistedDigis } }
  else wantUpdate { s with bg := { s.bg with inForce := { s.bg.inForce with digitizers := insertNat d s.bg.inForce.digitizers } } }

theorem digiListed_only (d : Nat) (s : State) : Only (.bg :: raising) raiseRegs s (digiListed d s) := by
  unfold digiListed
  split
  · exact (Only.setBg s _ (by simp)).trans ((raiseBase_only _ _ _ _).mono (by simp) fun _ => id)
  · exact (Only.setBg s _ (by simp)).trans ((wantUpdate_only _).mono (by simp) fun _ => False.elim)

/-- The rotation of a digitizer's tile when the digitizer is retired: its present fill, if it is this one's, is over. -/
def rotationLeft (d : Nat) (s t : State) : State := if rotationFills s d then rotationEnds (digiTile d) t else t

theorem rotationLeft_spec (d : Nat) (s t : State) : Only [.tdc] noReg t (rotationLeft d s t) ∧ (rotationLeft d s t).digi d = t.digi d ∧
    (rotationLeft d s t).tdc.etdTurn = t.tdc.etdTurn ∧ (rotationLeft d s t).tdc.etdSince = t.tdc.etdSince := by
  unfold rotationLeft
  split
  · exact ⟨Only.setTdc t _ (by simp), rfl, rfl, rfl⟩
  · exact ⟨Only.refl _ _ t, rfl, rfl, rfl⟩

theorem retireDigitizer_eq (d : Nat) {s : State} (h : s.digiRetired d = false) : retireDigitizer d s =
    if d < 65536 then
      raiseTile (digiTile d) 2 sevFault (d % 1024) ((rotationLeft d s (digiListed d s)).modDigi d (fun g => { g with
        coarseNext := true
        effectAt := some (nextBoundary s) }))
    else raiseBase 528 sevFault (d - 65536) ((rotationLeft d s (digiListed d s)).modDigi d (fun g => { g with
      coarse := true
      coarseNext := true })) := by
  rw [retireDigitizer, h, if_neg Bool.false_ne_true]
  rfl

theorem mem_insertNat_self (d : Nat) : ∀ l : List Nat, d ∈ insertNat d l
  | [] => by simp [insertNat]
  | a :: l => by
    rw [insertNat]
    split
    · exact List.mem_cons_self
    · split
      · next h => subst h; exact List.mem_cons_self
      · exact List.mem_cons_of_mem _ (mem_insertNat_self d l)

theorem retireDigitizer_only (d : Nat) (s : State) : Only retireParts raiseRegs s (retireDigitizer d s) := by
  cases h : s.digiRetired d with
  | true =>
    rw [retireDigitizer, h, if_pos rfl]
    exact Only.refl _ _ s
  | false =>
    have h1 : Only retireParts raiseRegs s (rotationLeft d s (digiListed d s)) :=
      ((digiListed_only d s).mono (by simp) fun _ => id).trans
        ((rotationLeft_spec d s _).1.mono (by simp) fun _ => False.elim)
    have h2 : ∀ f n sev inst, Only retireParts raiseRegs s (raiseBase n sev inst ((rotationLeft d s (digiListed d s)).modDigi d f)) :=
      fun f n sev inst => (h1.trans (Only.modDigi _ d f (by simp))).trans ((raiseBase_only _ _ _ _).mono (by simp) fun _ => id)
    rw [retireDigitizer_eq d h]
    exact Only.ite (h2 _ _ _ _) (h2 _ _ _ _)

/-- A retirement takes from a digitizer its fine times alone. -/
theorem retireDigitizer_digi (d : Nat) (s : State) : ∃ c n e, (retireDigitizer d s).digi d = { s.digi d with
    coarse := c
    coarseNext := n
    effectAt := e } := by
  cases h : s.digiRetired d with
  | true => exact ⟨_, _, _, by rw [retireDigitizer, h, if_pos rfl]⟩
  | false =>
    have h1 : (rotationLeft d s (digiListed d s)).digi d = s.digi d :=
      (rotationLeft_spec d s _).2.1.trans ((digiListed_only d s).digi (by decide) d)
    rw [retireDigitizer_eq d h]
    split
    · exact ⟨_, _, _, by rw [(raiseTile_only _ _ _ _ _).digi (by decide), State.digi_modDigi_self, h1]⟩
    · exact ⟨_, _, _, by rw [(raiseBase_only _ _ _ _).digi (by decide), State.digi_modDigi_self, h1]⟩

theorem retireDigitizer_turns (d : Nat) (s : State) :
    (retireDigitizer d s).tdc.etdTurn = s.tdc.etdTurn ∧ (retireDigitizer d s).tdc.etdSince = s.tdc.etdSince := by
  cases h : s.digiRetired d with
  | true => rw [retireDigitizer, h, if_pos rfl]; exact ⟨rfl, rfl⟩
  | false =>
    obtain ⟨-, -, hturn, hsince⟩ := rotationLeft_spec d s (digiListed d s)
    have hlist : (digiListed d s).tdc = s.tdc := (digiListed_only d s).1 .tdc (by decide)
    rw [hlist] at hturn hsince
    have hraise : ∀ n sev inst t, (raiseBase n sev inst t).tdc = t.tdc := fun n sev inst t => (raiseBase_only n sev inst t).1 .tdc (by decide)
    rw [retireDigitizer_eq d h]
    split
    · rw [raiseTile, hraise]; exact ⟨hturn, hsince⟩
    · rw [hraise]; exact ⟨hturn, hsince⟩

theorem wantUpdate_inForce (s : State) : (wantUpdate s).bg.inForce = s.bg.inForce := by
  unfold wantUpdate beginUpdate
  split <;> rfl

/-- An external-trigger digitizer retired is listed, and gives coarse times from now on (R136). -/
theorem retireDigitizer_etd {d : Nat} (hd : 65536 ≤ d) {s : State} (h : s.digiRetired d = false) :
    (retireDigitizer d s).digiRetired d = true ∧ ((retireDigitizer d s).digi d).coarse = true := by
  have hnot : ¬ d < 65536 := by omega
  have hlisted : (digiListed d s).digiRetired d = true := by
    have hmem : d ∈ (digiListed d s).bg.inForce.digitizers := by
      rw [digiListed, decide_eq_false hnot, Bool.false_and, if_neg Bool.false_ne_true, wantUpdate_inForce]
      exact mem_insertNat_self d _
    simp [State.digiRetired, hmem]
  rw [retireDigitizer_eq d h, if_neg hnot]
  constructor
  · rw [(raiseBase_only _ _ _ _).digiRetired (by decide)]
    exact ((rotationLeft_spec d s _).1.digiRetired (by decide) d).trans hlisted
  · rw [(raiseBase_only _ _ _ _).digi (by decide), State.digi_modDigi_self]

/-! A calibration failure -/

/-- A calibration failure of a digitizer that is not retired, counted and reported (R113, R118, R136). -/
def failureNoted (d : Nat) (s : State) : State :=
  if d < 65536 then raiseTile (digiTile d) 2 sevNotice (d % 1024)
    (((fillOver d true s).tallyAll .calFail 1).bump (Reg.TDC_CAL_FAIL (digiTile d)) 15 0 1)
  else raiseBase 528 sevNotice (d - 65536) ((fillOver d true s).tallyAll .calFail 1)

/-- The registers that a calibration failure of a digitizer of tile i writes. -/
def failRegs (i a : Nat) : Prop := raiseRegs a ∨ a = Reg.TDC_CAL_FAIL i

theorem failRegs_inBlocks {i a : Nat} {l : List Nat} (hi : i < 64) (h8 : 8 ∈ l) (h17 : 17 ∈ l) (h : failRegs i a) : inBlocks l a := by
  rcases h with h | h
  · exact raiseRegs_inBlocks h17 h
  · subst h; exact inBlocks_tile hi (by omega) h8

theorem failureCleared_only (d : Nat) (s : State) : Only (.tdc :: raising) noReg s ((fillOver d true s).tallyAll .calFail 1) :=
  ((fillOver_only d true s).mono (by simp) fun _ => False.elim).trans
    ((Only.tallyAll (w := noReg) _ _ _).mono (by decide) fun _ => False.elim)

theorem failureCleared_digi (d : Nat) (s : State) : ((fillOver d true s).tallyAll .calFail 1).digi d = fillCleared d s :=
  ((Only.tallyAll (w := noReg) (fillOver d true s) .calFail 1).digi (by decide) d).trans (fillOver_digi d true s)

theorem failureNoted_only (d : Nat) (s : State) : Only (.tdc :: raising) (failRegs (digiTile d)) s (failureNoted d s) := by
  have h1 := (failureCleared_only d s).mono (fun _ => id) fun a (h : noReg a) => (h.elim : failRegs (digiTile d) a)
  unfold failureNoted
  split
  · exact (h1.trans (Only.bump _ _ _ _ _ (.inr rfl))).trans ((raiseTile_only _ _ _ _ _).mono (by simp) fun _ => .inl)
  · exact h1.trans ((raiseBase_only _ _ _ _).mono (by simp) fun _ => .inl)

theorem failureNoted_digi (d : Nat) (s : State) : (failureNoted d s).digi d = fillCleared d s := by
  unfold failureNoted
  split
  · rw [(raiseTile_only _ _ _ _ _).digi (by decide), State.digi_bump, failureCleared_digi]
  · rw [(raiseBase_only _ _ _ _).digi (by decide), failureCleared_digi]

theorem failureNoted_turns (d : Nat) (s : State) :
    (failureNoted d s).tdc.etdTurn = s.tdc.etdTurn ∧ (failureNoted d s).tdc.etdSince = s.tdc.etdSince := by
  have hraise : ∀ n sev inst t, (raiseBase n sev inst t).tdc = t.tdc := fun n sev inst t => (raiseBase_only n sev inst t).1 .tdc (by decide)
  have htally : ((fillOver d true s).tallyAll .calFail 1).tdc = (fillOver d true s).tdc :=
    (Only.tallyAll (w := noReg) _ _ _).1 .tdc (by decide)
  obtain ⟨-, hturn, hsince⟩ := fillOver_turns d true s
  unfold failureNoted
  split
  · rw [raiseTile, hraise, State.bump_tdc, htally]; exact ⟨hturn, hsince⟩
  · rw [hraise, htally]; exact ⟨hturn, hsince⟩

/-- A failure is the digitizer's third in the time of R548: it is retired, and the pass, where it fills the digitizer, counts it (R118). -/
def thirdFailure (d : Nat) (s : State) : State :=
  retireDigitizer d (if passFills s d then countRetired (failureNoted d s) else failureNoted d s)

theorem calFailure_retired {d : Nat} {s : State} (h : s.digiRetired d = true) : calFailure d s = fillOver d true s := by
  rw [calFailure, h, if_pos rfl]

theorem calFailure_eq {d : Nat} {s : State} (h : s.digiRetired d = false) : calFailure d s =
    if (s.digi d).faults.third s.now then thirdFailure d s
    else (failureNoted d s).modDigi d (fun g => { g with faults := g.faults.push s.now }) := by
  rw [calFailure, h, if_neg Bool.false_ne_true]
  rfl

/-- The state of a third failure before the retirement: the failure noted, and counted in the pass where that fills the digitizer. -/
theorem countRetired_spec (d : Nat) (s : State) : let t := if passFills s d then countRetired (failureNoted d s) else failureNoted d s
    Only [.tdc] noReg (failureNoted d s) t ∧ t.digi d = fillCleared d s ∧ t.tdc.etdTurn = s.tdc.etdTurn ∧ t.tdc.etdSince = s.tdc.etdSince := by
  obtain ⟨hturn, hsince⟩ := failureNoted_turns d s
  intro t
  simp only [t]
  split
  · exact ⟨Only.setTdc _ _ (by simp), failureNoted_digi d s, hturn, hsince⟩
  · exact ⟨Only.refl _ _ _, failureNoted_digi d s, hturn, hsince⟩

theorem calFailure_only (d : Nat) (s : State) : Only retireParts (failRegs (digiTile d)) s (calFailure d s) := by
  have hn := (failureNoted_only d s).mono (ps := retireParts) (by simp) fun _ => id
  cases h : s.digiRetired d with
  | true =>
    rw [calFailure_retired h]
    exact (fillOver_only d true s).mono (by simp) fun _ => False.elim
  | false =>
    rw [calFailure_eq h]
    refine Only.ite ?_ (hn.trans (Only.modDigi _ d _ (by simp)))
    exact (hn.trans ((countRetired_spec d s).1.mono (by simp) fun _ => False.elim)).trans
      ((retireDigitizer_only d _).mono (fun _ => id) fun _ => .inl)

/-- What a calibration failure leaves of its digitizer: its fill is cleared, and its faults and fine times may change. -/
theorem calFailure_digi (d : Nat) (s : State) : ∃ c n e f, (calFailure d s).digi d = { fillCleared d s with
    coarse := c
    coarseNext := n
    effectAt := e
    faults := f } := by
  cases h : s.digiRetired d with
  | true => exact ⟨_, _, _, _, by rw [calFailure_retired h, fillOver_digi]⟩
  | false =>
    rw [calFailure_eq h]
    split
    · obtain ⟨c, n, e, hr⟩ := retireDigitizer_digi d (if passFills s d then countRetired (failureNoted d s) else failureNoted d s)
      rw [(countRetired_spec d s).2.1] at hr
      exact ⟨c, n, e, _, hr⟩
    · exact ⟨_, _, _, _, by rw [State.digi_modDigi_self, failureNoted_digi]⟩

theorem calFailure_turns (d : Nat) (s : State) :
    (calFailure d s).tdc.etdTurn = s.tdc.etdTurn ∧ (calFailure d s).tdc.etdSince = s.tdc.etdSince := by
  cases h : s.digiRetired d with
  | true => rw [calFailure_retired h]; exact (fillOver_turns d true s).2
  | false =>
    rw [calFailure_eq h]
    split
    · obtain ⟨hturn, hsince⟩ := retireDigitizer_turns d (if passFills s d then countRetired (failureNoted d s) else failureNoted d s)
      obtain ⟨-, -, hturn', hsince'⟩ := countRetired_spec d s
      exact ⟨hturn.trans hturn', hsince.trans hsince'⟩
    · exact failureNoted_turns d s

/-- A failure of a super-pixel digitizer that is not retired is counted in its tile (R113). -/
theorem calFailure_counted {d : Nat} (hd : d < 65536) {s : State} (h : s.digiRetired d = false) :
    (calFailure d s).rf (Reg.TDC_CAL_FAIL (digiTile d)) 15 0 = min (s.rf (Reg.TDC_CAL_FAIL (digiTile d)) 15 0 + 1) 65535 := by
  have hi : digiTile d < 64 := by unfold digiTile; omega
  have hr : ¬ raiseRegs (Reg.TDC_CAL_FAIL (digiTile d)) := not_raiseRegs_tile hi (by omega)
  have hn : (failureNoted d s).rf (Reg.TDC_CAL_FAIL (digiTile d)) 15 0 = min (s.rf (Reg.TDC_CAL_FAIL (digiTile d)) 15 0 + 1) 65535 := by
    rw [failureNoted, if_pos hd, (raiseTile_only _ _ _ _ _).rf hr, State.rf_bump_self _ _ _ (by omega) (by omega),
      (failureCleared_only d s).rf (by simp [noReg])]
    rfl
  rw [calFailure_eq h, ← hn]
  split
  · rw [thirdFailure, (retireDigitizer_only d _).rf hr]
    exact (countRetired_spec d s).1.rf (by simp [noReg]) 15 0
  · rfl

/-- The third failure of an external-trigger digitizer retires it (R136). -/
theorem calFailure_etd_third {d : Nat} (hd : 65536 ≤ d) {s : State} (h : s.digiRetired d = false)
    (hf : (s.digi d).faults.third s.now = true) : (calFailure d s).digiRetired d = true ∧ ((calFailure d s).digi d).coarse = true := by
  have hn : (failureNoted d s).digiRetired d = false := ((failureNoted_only d s).digiRetired (by decide) d).trans h
  rw [calFailure_eq h, if_pos hf]
  exact retireDigitizer_etd hd (((countRetired_spec d s).1.digiRetired (by decide) d).trans hn)

/-- An earlier failure of an external-trigger digitizer is kept, and reported with event 528 (R136). -/
theorem calFailure_etd_kept {d : Nat} (hd : 65536 ≤ d) {s : State} (h : s.digiRetired d = false)
    (hf : (s.digi d).faults.third s.now = false) :
    ((calFailure d s).digi d).faults = (s.digi d).faults.push s.now ∧ RaisedBase 528 s (calFailure d s) := by
  rw [calFailure_eq h, if_neg (by rw [hf]; exact Bool.false_ne_true)]
  constructor
  · rw [State.digi_modDigi_self, failureNoted_digi]
    rfl
  · have hc := failureCleared_only d s
    have hrec : ∀ x, ((fillOver d true s).tallyAll .calFail 1).srcRec x 528 = s.srcRec x 528 := fun x =>
      ((Only.tallyAll (w := noReg) _ _ _).srcRec x (by cases x <;> decide) 528).trans
        ((fillOver_only d true s).srcRec x (by simp) 528)
    rw [failureNoted, if_neg (by omega)]
    exact (raiseBase_raisedBase 528 sevNotice (d - 65536) _).from (fun x => hc.live (by decide) (by decide) x)
      hrec (hc.now (by decide))

end Sys2Proof.Machine
end

section
/-!
### Codes enter the histograms, and fills are complete (R110, R112, R113)
-/

namespace Sys2Proof.Machine

/-! Codes -/

/-- A calibration code as it enters a histogram: once. -/
def codeOnce (q : Nat × Nat × Bool) : Nat × Bool × Nat := (q.2.1, q.2.2, 1)

/-- A code counted in a histogram, unless it is an overrange (R112). -/
def countCode (h : List Nat) (q : Nat × Nat × Bool) : List Nat := if q.2.2 then h else h.set q.2.1 (nth h q.2.1 + 1)

/-- Codes that do not complete a fill all enter. -/
theorem enterCodes_below : ∀ (l : List (Nat × Nat × Bool)) (hist : List Nat) (total ovr : Nat),
    total + (l.filter (fun q => !q.2.2)).length < fillSize → enterCodes hist total ovr (l.map codeOnce) =
      (l.foldl countCode hist, total + (l.filter (fun q => !q.2.2)).length, ovr + (l.filter (·.2.2)).length)
  | [], _, _, _, _ => rfl
  | q :: l, hist, total, ovr, h => by
    have htotal : ¬ fillSize ≤ total := by omega
    rw [List.map_cons, enterCodes, if_neg htotal]
    cases hq : q.2.2 with
    | true =>
      simp only [List.filter_cons, hq, Bool.not_true, Bool.false_eq_true, if_false, if_true, List.length_cons] at h ⊢
      simp only [codeOnce, hq, if_true, List.foldl_cons, countCode]
      rw [enterCodes_below l hist total (ovr + 1) h, Nat.add_assoc, Nat.add_comm 1]
    | false =>
      simp only [List.filter_cons, hq, Bool.not_false, Bool.false_eq_true, if_false, if_true, List.length_cons] at h ⊢
      have hn : min 1 (fillSize - total) = 1 := by omega
      simp only [codeOnce, hq, Bool.false_eq_true, if_false, hn, List.foldl_cons, countCode]
      rw [enterCodes_below l _ (total + 1) ovr (by omega), Nat.add_assoc, Nat.add_comm 1]

/-- Codes that make a complete fill leave one. -/
theorem enterCodes_full : ∀ (l : List (Nat × Nat × Bool)) (hist : List Nat) (total ovr : Nat),
    fillSize ≤ total + (l.filter (fun q => !q.2.2)).length → fillSize ≤ (enterCodes hist total ovr (l.map codeOnce)).2.1
  | [], _, _, _, h => h
  | q :: l, hist, total, ovr, h => by
    rw [List.map_cons, enterCodes]
    split
    · assumption
    · cases hq : q.2.2 with
      | true =>
        simp only [List.filter_cons, hq, Bool.not_true, Bool.false_eq_true, if_false] at h
        simp only [codeOnce, hq, if_true]
        exact enterCodes_full l _ _ _ h
      | false =>
        simp only [List.filter_cons, hq, Bool.not_false, if_true, List.length_cons] at h
        simp only [codeOnce, hq, Bool.false_eq_true, if_false]
        exact enterCodes_full l _ _ _ (by omega)

/-- No fill takes more edges than make it complete. -/
theorem enterCodes_le : ∀ (l : List (Nat × Bool × Nat)) (hist : List Nat) (total ovr : Nat),
    total ≤ fillSize → (enterCodes hist total ovr l).2.1 ≤ fillSize
  | [], _, _, _, h => h
  | q :: l, hist, total, ovr, h => by
    rw [enterCodes]
    split
    · exact h
    · split
      · exact enterCodes_le l _ _ _ h
      · exact enterCodes_le l _ _ _ (by omega)

/-! A complete fill -/

/-- The parts that the end of a fill changes. -/
abbrev fillParts : List Part := [.tdc, .bg] ++ bothOf .evt ++ bothOf .dsp ++ bothOf .tally

/-- What a complete fill of digitizer d, of histogram and overranges as given, leaves (R113, R137). -/
structure FillEnds (d : Nat) (hist : List Nat) (ovr : Nat) (s t : State) : Prop where
  only : Only fillParts (inBlocks [8, 17, 19]) s t
  phase : (t.digi d).phase = (s.digi d).phase
  conv : (t.digi d).conv = (s.digi d).conv
  cleared : (t.digi d).hist = []
  counted : t.rf (Reg.TDC_CAL_STATUS (digiTile d)) 31 16 = (s.rf (Reg.TDC_CAL_STATUS (digiTile d)) 31 16 + 1) % 65536
  accepted : fillAccepted hist ovr = true →
    Sparse.get t.tdc.fills (digiTile d) [] = Sparse.get s.tdc.fills (digiTile d) [] ++ [(d, hist)]
  retired : fillAccepted hist ovr = false → s.digiRetired d = true →
    t.rd (Reg.TDC_CAL_FAIL (digiTile d)) = s.rd (Reg.TDC_CAL_FAIL (digiTile d))
  failed : fillAccepted hist ovr = false → s.digiRetired d = false →
    t.rf (Reg.TDC_CAL_FAIL (digiTile d)) 15 0 = min (s.rf (Reg.TDC_CAL_FAIL (digiTile d)) 15 0 + 1) 65535

section
variable {d : Nat} {s : State}

/-- A complete fill is counted in its tile. -/
def fillCounted (d : Nat) (s : State) : State := s.count (Reg.TDC_CAL_STATUS (digiTile d)) 31 16 1

theorem fillCounted_only (d : Nat) (s : State) : Only [] (fun a => a = Reg.TDC_CAL_STATUS (digiTile d)) s (fillCounted d s) :=
  Only.count s _ _ _ _ rfl

/-- An accepted fill, kept for its reduction (R113, R114). -/
def fillKept (d : Nat) (s : State) : State :=
  (fillOver d false (fillCounted d s)).modTdc (fun k => { k with
    fills := Sparse.upd k.fills (digiTile d) [] (fun l => l ++ [(d, (s.digi d).hist)]) })

theorem fillKept_only (d : Nat) (s : State) : Only [.tdc] noReg (fillCounted d s) (fillKept d s) :=
  (fillOver_only d false _).trans (Only.setTdc _ _ (by simp))

theorem fillKept_digi (d : Nat) (s : State) : (fillKept d s).digi d = fillCleared d (fillCounted d s) :=
  fillOver_digi d false (fillCounted d s)

theorem fillComplete_accepted (h : fillAccepted (s.digi d).hist (s.digi d).ovr = true) :
    fillComplete d s = wantReduce (digiTile d) (fillKept d s) := by
  rw [fillComplete, if_pos h]
  rfl

theorem fillComplete_failed (h : fillAccepted (s.digi d).hist (s.digi d).ovr = false) :
    fillComplete d s = calFailure d (fillCounted d s) := by
  rw [fillComplete, h, if_neg Bool.false_ne_true]
  rfl

theorem fillComplete_ends (hd : d < 65536) : FillEnds d (s.digi d).hist (s.digi d).ovr s (fillComplete d s) := by
  have hi : digiTile d < 64 := by unfold digiTile; omega
  have hstatus : addrBlock (Reg.TDC_CAL_STATUS (digiTile d)) = 8 := addrBlock_tile hi (by omega)
  have hne : Reg.TDC_CAL_STATUS (digiTile d) ≠ Reg.TDC_CAL_FAIL (digiTile d) := by
    simp only [Reg.TDC_CAL_STATUS, Reg.TDC_CAL_FAIL]; omega
  have hc : (fillCounted d s).rf (Reg.TDC_CAL_STATUS (digiTile d)) 31 16 = (s.rf (Reg.TDC_CAL_STATUS (digiTile d)) 31 16 + 1) % 65536 :=
    State.rf_wf_self s _ (by omega) (by omega)
  have ho : Only fillParts (inBlocks [8, 17, 19]) s (fillCounted d s) :=
    (fillCounted_only d s).mono (by simp) fun a h => by subst h; exact inBlocks_tile hi (by omega) (by simp)
  have hg : (fillCounted d s).digi d = s.digi d := (fillCounted_only d s).digi (by simp) d
  cases h : fillAccepted (s.digi d).hist (s.digi d).ovr with
  | true =>
    have hw := wantReduce_only (digiTile d) (fillKept d s)
    have hk := fillKept_only d s
    have hdigi : (wantReduce (digiTile d) (fillKept d s)).digi d = fillCleared d (fillCounted d s) :=
      (hw.digi (by decide) d).trans (fillKept_digi d s)
    have hreg : ¬ enqueueRegs (Reg.TDC_CAL_STATUS (digiTile d)) := by unfold enqueueRegs; omega
    rw [fillComplete_accepted h]
    exact {
      only := (ho.trans (hk.mono (by simp) fun _ => False.elim)).trans (hw.mono (by decide) fun a ha => by
        unfold inBlocks; rcases ha with ha | ha <;> simp [ha])
      phase := by rw [hdigi, ← hg]; rfl
      conv := by rw [hdigi, ← hg]; rfl
      cleared := by rw [hdigi]; rfl
      counted := by rw [hw.rf hreg, hk.rf (by simp [noReg]), hc]
      accepted := fun _ => by
        rw [show (wantReduce (digiTile d) (fillKept d s)).tdc = (fillKept d s).tdc from hw.1 .tdc (by decide), fillKept,
          State.modTdc_tdc, Sparse.get_upd, if_pos rfl, (fillOver_turns d false _).1]
        rfl
      retired := fun hf => absurd (h.symm.trans hf) (by decide)
      failed := fun hf => absurd (h.symm.trans hf) (by decide) }
  | false =>
    obtain ⟨c, n, e, f, hdigi⟩ := calFailure_digi d (fillCounted d s)
    have hf := calFailure_only d (fillCounted d s)
    have hreg : ¬ failRegs (digiTile d) (Reg.TDC_CAL_STATUS (digiTile d)) := fun h =>
      h.elim (not_raiseRegs (by omega)) hne
    have hfail : (fillCounted d s).rd (Reg.TDC_CAL_FAIL (digiTile d)) = s.rd (Reg.TDC_CAL_FAIL (digiTile d)) :=
      (fillCounted_only d s).rd hne.symm
    have hret : (fillCounted d s).digiRetired d = s.digiRetired d := (fillCounted_only d s).digiRetired (by simp) d
    rw [fillComplete_failed h]
    exact {
      only := ho.trans (hf.mono (by decide) fun a => failRegs_inBlocks hi (by simp) (by simp))
      phase := by rw [hdigi, ← hg]; rfl
      conv := by rw [hdigi, ← hg]; rfl
      cleared := by rw [hdigi]; rfl
      counted := by rw [hf.rf hreg, hc]
      accepted := fun ha => absurd (h.symm.trans ha) (by decide)
      retired := fun _ hr => by
        rw [calFailure_retired (hret.trans hr), (fillOver_only d true _).rd (by simp [noReg]), hfail]
      failed := fun _ hr => by rw [calFailure_counted hd (hret.trans hr), State.rf, State.rf, hfail] }

end

end Sys2Proof.Machine
end

section
/-!
### Calibration edges and their codes (R103, R110–R113)
-/

namespace Sys2Proof.Machine

/-! Codes whose clearance has passed -/

/-- Whether the clearance of a code has passed (R110). -/
def codeClear (s : State) (q : Nat × Nat × Bool) : Bool := decide (q.1 + clearance < s.clock.ticks)

/-- The histogram that a digitizer's codes enter: its fill's, or an empty one. -/
def Digi.filled (g : Digi) : List Nat := if g.hist = [] then List.replicate 64 0 else g.hist

/-- What a digitizer's clear codes make of its fill: the histogram, its edges and its overranges. -/
def codesEntered (d : Nat) (s : State) : List Nat × Nat × Nat :=
  enterCodes (s.digi d).filled ((s.digi d).filled.foldl (· + ·) 0) (s.digi d).ovr (((s.digi d).codes.filter (codeClear s)).map codeOnce)

/-- The state whose digitizer's clear codes have entered its histogram. -/
def codesSettled (d : Nat) (s : State) : State :=
  s.modDigi d (fun g => { g with
    hist := (codesEntered d s).1
    ovr := (codesEntered d s).2.2
    codes := g.codes.filter (fun q => !codeClear s q) })

theorem settleCodes_none {d : Nat} {s : State} (h : (s.digi d).codes.filter (codeClear s) = []) : settleCodes d s = s := if_pos h

theorem settleCodes_some {d : Nat} {s : State} (h : (s.digi d).codes.filter (codeClear s) ≠ []) :
    settleCodes d s = if fillSize ≤ (codesEntered d s).2.1 then fillComplete d (codesSettled d s) else codesSettled d s := if_neg h

theorem settleCodes_only {d : Nat} (hd : d < 65536) (s : State) : Only fillParts (inBlocks [8, 17, 19]) s (settleCodes d s) := by
  have hm : Only fillParts (inBlocks [8, 17, 19]) s (codesSettled d s) := Only.modDigi s d _ (by simp)
  rcases eq_or_ne ((s.digi d).codes.filter (codeClear s)) [] with h | h
  · rw [settleCodes_none h]; exact Only.refl _ _ s
  · rw [settleCodes_some h]; exact Only.ite (hm.trans (fillComplete_ends hd).only) hm

section
variable {dt : Nat} {d : Fin 65536} {n : Fin 64} {ovr : Bool} {s u : State}

/-! An edge delivered -/

theorem calEdgeDelivered_starts (hu : s.elapse dt = u) : let i := digiTile d; let v := settleCodes d u
    let k : Conv := { convOf u.now 0 n ovr (some u.clock.ticks) with spoiled := nearReal (v.digi d).reals u.clock.ticks }
    let w := v.modDigi d (fun g => { g with phase := .cal, conv := some k })
    v.power.mode = .active → (v.digi d).phase = .ready → (passFills v d = true ∨ rotationFills v d = true) →
    exec (.calEdgeDelivered dt d n ovr) s = .next (if rotationFills v d = true ∧ (v.rotation i).first = none then
      w.modRot i (fun r => { r with first := some u.clock.ticks }) else w) := by
  intro i v k w hmode hphase hfills
  have hclock : v.clock = u.clock := (settleCodes_only d.isLt u).1 .clock (by decide)
  have hk : { convOf v.now 0 n ovr (some v.clock.ticks) with spoiled := nearReal (v.digi d).reals v.clock.ticks } = k := by
    rw [State.now, hclock]; rfl
  have hgo : (decide (v.power.mode ≠ .active) || decide ((v.digi d).phase ≠ .ready) || !(passFills v d || rotationFills v d)) = false := by
    have hor : (passFills v d || rotationFills v d) = true := (Bool.or_eq_true _ _).mpr hfills
    simp [hmode, hphase, hor]
  subst hu
  show (if (decide _ || decide _ || !_) = true then _ else _) = _
  rw [if_neg (ne_true_of_eq_false hgo), hk]
  simp only [Bool.and_eq_true, Option.isNone_iff_eq_none]
  rw [apply_ite Host.Outcome.next, hclock]

/-! A conversion's end -/

/-- A digitizer after its calibration conversion, with the codes l. -/
def Digi.converted (g : Digi) (l : List (Nat × Nat × Bool)) : Digi := { g with
  phase := .ready
  conv := none
  codes := l }

theorem calConversionEnds_of_over {g : Digi} {now : Time} {k : Conv} {e : Nat} (hk : g.conv = some k) (he : k.cal = some e)
    (hp : g.phase = .cal) (ho : k.over now 1023 = true) :
    calConversionEnds g now = g.converted (if k.spoiled then g.codes else g.codes ++ [(e, k.code, k.ovr)]) := by
  simp [calConversionEnds, Digi.converted, hk, he, hp, ho]

theorem calConversionEnd_exec {k : Conv} {e : Nat} (hu : s.elapse dt = u) (hk : (u.digi d).conv = some k) (he : k.cal = some e)
    (hp : (u.digi d).phase = .cal) (ho : k.over u.now 1023 = true) :
    exec (.calConversionEnd dt d) s = .next (settleCodes d (u.modDigi d (·.converted
      (if k.spoiled then (u.digi d).codes else (u.digi d).codes ++ [(e, k.code, k.ovr)])))) := by
  subst hu
  have hconv := congrArg (fun g => (s.elapse dt).modTdc (fun t => { t with digis := Sparse.set t.digis d g Digi.idle }))
    (calConversionEnds_of_over hk he hp ho)
  exact congrArg (fun t => Host.Outcome.next (settleCodes d t)) hconv

/-- The code of a calibration conversion that ends waits, and the clear codes enter (R110, R112, R113). -/
theorem converted_settles (codes : List (Nat × Nat × Bool)) :
    let clear := fun q : Nat × Nat × Bool => decide (q.1 + 150 < u.clock.ticks)
    let old := codes.filter clear
    let hist := if (u.digi d).hist = [] then List.replicate 64 0 else (u.digi d).hist
    let counted := hist.foldl (· + ·) 0 + (old.filter (fun q => !q.2.2)).length
    let full := enterCodes hist (hist.foldl (· + ·) 0) (u.digi d).ovr (old.map codeOnce)
    let r := Host.Outcome.next (settleCodes d (u.modDigi d (·.converted codes)))
    (old = [] → r = .next (u.modDigi d (·.converted codes))) ∧
    (old ≠ [] → counted < fillSize → Happens [.tdc] noReg u (fun t => (t.digi d).phase = .ready ∧ (t.digi d).conv = none ∧
      (t.digi d).hist = old.foldl countCode hist ∧ (t.digi d).ovr = (u.digi d).ovr + (old.filter (·.2.2)).length ∧
      (t.digi d).codes = codes.filter (fun q => !clear q) ∧ ∀ e, e ≠ d.val → t.digi e = u.digi e) r) ∧
    (old ≠ [] → fillSize ≤ counted → Happens fillParts (inBlocks [8, 17, 19]) u
      (fun t => (t.digi d).phase = .ready ∧ (t.digi d).conv = none ∧ (t.digi d).hist = [] ∧
        (hist.foldl (· + ·) 0 ≤ fillSize → full.2.1 = fillSize) ∧
        t.rf (Reg.TDC_CAL_STATUS (digiTile d)) 31 16 = (u.rf (Reg.TDC_CAL_STATUS (digiTile d)) 31 16 + 1) % 65536 ∧
        (fillAccepted full.1 full.2.2 = true →
          Sparse.get t.tdc.fills (digiTile d) [] = Sparse.get u.tdc.fills (digiTile d) [] ++ [(d.val, full.1)]) ∧
        (fillAccepted full.1 full.2.2 = false → u.digiRetired d = true →
          t.rd (Reg.TDC_CAL_FAIL (digiTile d)) = u.rd (Reg.TDC_CAL_FAIL (digiTile d))) ∧
        (fillAccepted full.1 full.2.2 = false → u.digiRetired d = false →
          t.rf (Reg.TDC_CAL_FAIL (digiTile d)) 15 0 = min (u.rf (Reg.TDC_CAL_FAIL (digiTile d)) 15 0 + 1) 65535)) r) := by
  intro clear old hist counted full r
  let v := u.modDigi d (·.converted codes)
  have hv : v.digi d = (u.digi d).converted codes := State.digi_modDigi_self _ _ _
  have hold : (v.digi d).codes.filter (codeClear v) = old := by rw [hv]; rfl
  have hfull : codesEntered d v = full := by rw [codesEntered, hv]; rfl
  have hset : (codesSettled d v).digi d = { (u.digi d).converted codes with
      hist := full.1
      ovr := full.2.2
      codes := codes.filter (fun q => !clear q) } := by
    rw [codesSettled, State.digi_modDigi_self, hfull, hv]; rfl
  have honly : Only [.tdc] noReg u (codesSettled d v) := (Only.modDigi u d _ (by simp)).trans (Only.modDigi v d _ (by simp))
  refine ⟨fun h => congrArg Host.Outcome.next (settleCodes_none (hold.trans h)), fun h hlt => ?_, fun h hle => ?_⟩
  · have hbelow : full = _ := enterCodes_below old hist _ _ hlt
    refine ⟨_, congrArg Host.Outcome.next ((settleCodes_some (hold ▸ h)).trans (if_neg ?_)), ?_, honly⟩
    · rw [hfull, hbelow]; exact Nat.not_le.2 hlt
    · rw [hbelow] at hset
      exact ⟨congrArg Digi.phase hset, congrArg Digi.conv hset, congrArg Digi.hist hset, congrArg Digi.ovr hset, congrArg Digi.codes hset,
        fun e he => (State.digi_modDigi_ne v _ he).trans (State.digi_modDigi_ne u _ he)⟩
  · have hge : fillSize ≤ full.2.1 := enterCodes_full old hist _ _ hle
    have hends := fillComplete_ends (s := codesSettled d v) d.isLt
    rw [hset] at hends
    refine ⟨_, congrArg Host.Outcome.next ((settleCodes_some (hold ▸ h)).trans (if_pos (hfull ▸ hge))),
      ⟨?_, ?_, hends.cleared, ?_, ?_, ?_, ?_, ?_⟩,
      (honly.mono (by simp) fun _ => False.elim).trans hends.only⟩
    · rw [hends.phase, hset]; rfl
    · rw [hends.conv, hset]; rfl
    · exact fun htot => Nat.le_antisymm (enterCodes_le _ _ _ _ htot) hge
    · exact hends.counted
    · exact hends.accepted
    · exact hends.retired
    · exact hends.failed

end

end Sys2Proof.Machine
end

section
/-!
### External triggers: their stamps and fills (R132–R136, R549)
-/

namespace Sys2Proof.Machine

section
variable {dt : Nat} {i : Fin 4} {s u : State}

/-! An edge on an external trigger -/

/-- The state that an edge leaves at an external-trigger digitizer, before it is stamped: the edge is a real one (R136). -/
def etdMet (i : Nat) (s : State) : State :=
  s.modDigi (65536 + i) (fun g => { g with
    reals := s.clock.ticks :: g.reals.filter (fun r => decide (etdFrom s (65536 + i) ≤ r + 300)) })

/-- Whether an edge follows the last stamped one within 20 ns (R135). -/
def etdNear (s : State) (i : Nat) : Bool := (Sparse.get s.tdc.etdLast i none).any (fun b => decide (s.clock.ticks < b + 60))

/-- The state after an edge that is stamped (R133). -/
def etdStamped (i : Nat) (rising : Bool) (fu n : Nat) (s : State) : State :=
  let e := 65536 + i
  let at_ := minusFu s.now ((s.digi e).fine n) (s.rf (Reg.TDC_EXT_DELAY i) 15 0)
  ((s.bump (Reg.TDC_EXT_STATUS i) 15 0 1).modDigi e (fun g => { g with conv := some (convOf s.now fu n false none) })).modTdc
    (fun k => { k with
      etdLast := Sparse.set k.etdLast i (some s.clock.ticks) none
      stamps := k.stamps ++ [⟨i, at_.1, if (s.digi e).coarse then 0 else at_.2, rising, s.clock.ticks + 64⟩] })

theorem etdStamped_only (i : Nat) (rising : Bool) (fu n : Nat) (s : State) :
    Only [.tdc] (fun a => a = Reg.TDC_EXT_STATUS i) s (etdStamped i rising fu n s) := by
  have h : Only [.tdc] (fun a => a = Reg.TDC_EXT_STATUS i) s (s.bump (Reg.TDC_EXT_STATUS i) 15 0 1) := Only.bump _ _ _ _ _ rfl
  exact (h.trans (Only.modDigi _ _ _ (by simp))).trans (Only.setTdc _ _ (by simp))

/-- A stamp leaves the real edges of its digitizer. -/
theorem etdStamped_reals (i : Nat) (rising : Bool) (fu n : Nat) (s : State) :
    ((etdStamped i rising fu n s).digi (65536 + i)).reals = (s.digi (65536 + i)).reals := by
  have h : (etdStamped i rising fu n s).digi (65536 + i) = ((s.bump (Reg.TDC_EXT_STATUS i) 15 0 1).modDigi (65536 + i) (fun g => { g with
      conv := some (convOf s.now fu n false none) })).digi (65536 + i) := rfl
  rw [h, State.digi_modDigi_self, State.digi_bump]

theorem etdEdge_exec {rising : Bool} {fu : Fin 1024} {n : Fin 64} (hu : s.elapse dt = u) (hmode : u.power.mode = .active)
    (hedge : bit (u.rf (Reg.TDC_EXT_CTRL i) 5 4) (if rising then 0 else 1) = true) (hsees : etdSees u (u.rf (Reg.TDC_EXT_CTRL i) 3 0) = true) :
    exec (.etdEdge dt i rising fu n) s = .next (if etdNear u i
      then raiseBase 527 sevNotice i ((etdMet i u).bump (Reg.TDC_EXT_STATUS i) 31 16 1)
      else etdStamped i rising fu n (etdMet i u)) := by
  subst hu
  have hwanted : (if rising then bit ((s.elapse dt).rf (Reg.TDC_EXT_CTRL i) 5 4) 0
      else bit ((s.elapse dt).rf (Reg.TDC_EXT_CTRL i) 5 4) 1) = true := by
    exact (apply_ite (bit _) (rising = true) 0 1).symm.trans hedge
  have hgo : (decide ((s.elapse dt).power.mode ≠ .active) ||
      !(if rising then bit ((s.elapse dt).rf (Reg.TDC_EXT_CTRL i) 5 4) 0 else bit ((s.elapse dt).rf (Reg.TDC_EXT_CTRL i) 5 4) 1) ||
      !etdSees (s.elapse dt) ((s.elapse dt).rf (Reg.TDC_EXT_CTRL i) 3 0)) = false := by
    rw [hwanted, hsees, hmode]; rfl
  have hnear : (match Sparse.get (s.elapse dt).tdc.etdLast i none with
      | some t => decide ((s.elapse dt).clock.ticks < t + 60)
      | none => false) = etdNear (s.elapse dt) i := by
    unfold etdNear; cases Sparse.get (s.elapse dt).tdc.etdLast i none <;> rfl
  refine (if_neg (ne_true_of_eq_false hgo)).trans ?_
  rw [apply_ite Host.Outcome.next, ← hnear]
  rfl

theorem etdEdge_near {rising : Bool} {fu : Fin 1024} {n : Fin 64} (hu : s.elapse dt = u) (hmode : u.power.mode = .active)
    (hedge : bit (u.rf (Reg.TDC_EXT_CTRL i) 5 4) (if rising then 0 else 1) = true) (hsees : etdSees u (u.rf (Reg.TDC_EXT_CTRL i) 3 0) = true)
    (hnear : etdNear u i = true) :
    Happens (.tdc :: raising) (fun a => raiseRegs a ∨ a = Reg.TDC_EXT_STATUS i) u
      (fun t => t.rf (Reg.TDC_EXT_STATUS i) 31 16 = min (u.rf (Reg.TDC_EXT_STATUS i) 31 16 + 1) 65535 ∧ RaisedBase 527 u t ∧
        t.tdc.stamps = u.tdc.stamps ∧ t.tdc.etdLast = u.tdc.etdLast) (exec (.etdEdge dt i rising fu n) s) := by
  let v := (etdMet i u).bump (Reg.TDC_EXT_STATUS i) 31 16 1
  have hv : Only [.tdc] (fun a => a = Reg.TDC_EXT_STATUS i) u v := (Only.modDigi u _ _ (by simp)).trans (Only.bump _ _ _ _ _ rfl)
  have hraise := raiseBase_only 527 sevNotice i v
  have hreg : ¬ raiseRegs (Reg.TDC_EXT_STATUS i) := not_raiseRegs (by have := i.isLt; rw [addrBlock, Reg.TDC_EXT_STATUS, if_pos (by omega)]; omega)
  have htdc : (raiseBase 527 sevNotice i v).tdc = (etdMet i u).tdc := (hraise.1 .tdc (by decide)).trans (State.bump_tdc _ _ _ _ _)
  refine ⟨_, (etdEdge_exec hu hmode hedge hsees).trans (by rw [if_pos hnear]), ⟨?_, ?_, ?_, ?_⟩,
    (hv.mono (by simp) fun _ => .inr).trans (hraise.mono (by simp) fun _ => .inl)⟩
  · rw [hraise.rf hreg, State.rf_bump_self _ _ _ (by omega) (by omega)]; rfl
  · exact (raiseBase_raisedBase 527 sevNotice i v).from (fun x => hv.live (by decide) (by decide) x) (fun x => hv.srcRec x (by simp) 527)
      (hv.now (by decide))
  · rw [htdc]; rfl
  · rw [htdc]; rfl

theorem etdEdge_stamped {rising : Bool} {fu : Fin 1024} {n : Fin 64} (hu : s.elapse dt = u) (hmode : u.power.mode = .active)
    (hedge : bit (u.rf (Reg.TDC_EXT_CTRL i) 5 4) (if rising then 0 else 1) = true) (hsees : etdSees u (u.rf (Reg.TDC_EXT_CTRL i) 3 0) = true)
    (hnear : etdNear u i = false) : let e := 65536 + i.val
    let m := minusFu u.now ((u.digi e).fine n) (u.rf (Reg.TDC_EXT_DELAY i) 15 0)
    Happens [.tdc] (fun a => a = Reg.TDC_EXT_STATUS i) u
      (fun t => t.rf (Reg.TDC_EXT_STATUS i) 15 0 = min (u.rf (Reg.TDC_EXT_STATUS i) 15 0 + 1) 65535 ∧
        t.tdc.stamps = u.tdc.stamps ++ [⟨i, m.1, if (u.digi e).coarse then 0 else m.2, rising, u.clock.ticks + 64⟩] ∧
        Sparse.get t.tdc.etdLast i none = some u.clock.ticks ∧ (t.digi e).reals.head? = some u.clock.ticks)
      (exec (.etdEdge dt i rising fu n) s) := by
  intro e m
  have hmet : (etdMet i u).digi e = { u.digi e with
      reals := u.clock.ticks :: (u.digi e).reals.filter (fun r => decide (etdFrom u e ≤ r + 300)) } := State.digi_modDigi_self _ _ _
  have hm : Only [.tdc] (fun a => a = Reg.TDC_EXT_STATUS i) u (etdMet i u) := Only.modDigi u _ _ (by simp)
  refine ⟨_, (etdEdge_exec hu hmode hedge hsees).trans (by rw [hnear, if_neg Bool.false_ne_true]), ⟨?_, ?_, ?_, ?_⟩,
    hm.trans (etdStamped_only i rising fu n _)⟩
  · have hfield : (etdStamped i rising fu n (etdMet i u)).rf (Reg.TDC_EXT_STATUS i) 15 0 =
        ((etdMet i u).bump (Reg.TDC_EXT_STATUS i) 15 0 1).rf (Reg.TDC_EXT_STATUS i) 15 0 := rfl
    rw [hfield, State.rf_bump_self _ _ _ (by omega) (by omega)]
    rfl
  · have hg : (etdMet i u).digi e = _ := hmet
    show _ ++ [(⟨i, _, if ((etdMet i u).digi e).coarse then 0 else _, rising, _⟩ : Stamp)] = _
    rw [hg]
    rfl
  · exact Sparse.get_set_self (etdMet i u).tdc.etdLast i.val (some u.clock.ticks) none
  · rw [etdStamped_reals, hmet]
    rfl

/-! A fill of an external-trigger digitizer -/

/-- An external-trigger digitizer that the pass fills, or whose turn it is, is not retired (R136). -/
theorem notRetired_of_fills {e : Nat} (h : passFills s (65536 + e) = true ∨ etdInTurn s = some e) : s.digiRetired (65536 + e) = false := by
  rcases h with h | h
  · unfold passFills at h
    split at h
    · simp only [Bool.and_eq_true, Bool.not_eq_true'] at h
      obtain ⟨⟨⟨-, hret⟩, -⟩, -⟩ := h
      exact hret
    · cases h
  · have hcal : etdCalibrates s e = true := List.find?_some h
    simp only [etdCalibrates, Bool.and_eq_true, Bool.not_eq_true'] at hcal
    exact hcal.1

theorem failureNoted_etd_only {d : Nat} (hd : 65536 ≤ d) (s : State) : Only (.tdc :: raising) raiseRegs s (failureNoted d s) := by
  rw [failureNoted, if_neg (by omega)]
  exact ((failureCleared_only d s).mono (fun _ => id) fun _ => False.elim).trans ((raiseBase_only _ _ _ _).mono (by simp) fun _ => id)

theorem calFailure_etd_only {d : Nat} (hd : 65536 ≤ d) {s : State} (h : s.digiRetired d = false) :
    Only retireParts raiseRegs s (calFailure d s) := by
  have hn := (failureNoted_etd_only hd s).mono (ps := retireParts) (by simp) fun _ => id
  rw [calFailure_eq h]
  refine Only.ite ?_ (hn.trans (Only.modDigi _ d _ (by simp)))
  exact (hn.trans ((countRetired_spec d s).1.mono (by simp) fun _ => False.elim)).trans (retireDigitizer_only d _)

/-- The turn passes to the next external-trigger digitizer (R136). -/
def turnPassed (i : Nat) (s : State) : State := s.modTdc (fun k => { k with etdTurn := (i + 1) % 4, etdSince := s.clock.ticks })

/-- A new table after a fill (R114, R116). -/
theorem newTable_fillOver (d : Nat) (table : List Nat) (s : State) : let t := newTable d table (fillOver d false s)
    Only [.tdc] noReg s t ∧ t.tdc.etdTurn = s.tdc.etdTurn ∧ t.tdc.etdSince = s.tdc.etdSince ∧
    t.digi d = { fillCleared d s with
      latest := table
      effectAt := some (nextBoundary s) } := by
  obtain ⟨-, hturn, hsince⟩ := fillOver_turns d false s
  have honly := fillOver_only d false s
  have hnext : nextBoundary (fillOver d false s) = nextBoundary s := by
    obtain ⟨p, r, h⟩ := fillOver_tdc d false s
    rw [h]
    rfl
  exact ⟨honly.trans (Only.modDigi _ d _ (by simp)), hturn, hsince, by rw [newTable, State.digi_modDigi_self, fillOver_digi, hnext]⟩

theorem etdCalFill_exec {edges : List CalEdge} (hu : s.elapse dt = u) (hmode : u.power.mode = .active) :
    let e := 65536 + i.val
    let q := etdFill (etdBegan u e) u.clock.ticks (u.digi e).reals edges
    fillSize ≤ q.2.1 → (passFills u e = true ∨ etdInTurn u = some i.val) →
    exec (.etdCalFill dt i edges) s = .next (if fillAccepted q.1 q.2.2 then newTable e (reduceFrom 0 q.1) (fillOver e false (turnPassed i u))
      else calFailure e (turnPassed i u)) := by
  subst hu
  intro e q hsize hfills
  have hgo : (decide ((s.elapse dt).power.mode ≠ .active) || decide (q.2.1 < fillSize) ||
      !(passFills (s.elapse dt) e || decide (etdInTurn (s.elapse dt) = some i.val))) = false := by
    have hlt : decide (q.2.1 < fillSize) = false := decide_eq_false (Nat.not_lt.2 hsize)
    have hor : (passFills (s.elapse dt) e || decide (etdInTurn (s.elapse dt) = some i.val)) = true := by
      rw [Bool.or_eq_true, decide_eq_true_iff]; exact hfills
    rw [hmode, hlt, hor]; rfl
  refine (if_neg (ne_true_of_eq_false hgo)).trans ?_
  rw [apply_ite Host.Outcome.next]
  rfl

theorem etdCalFill_ends {edges : List CalEdge} (hu : s.elapse dt = u) (hmode : u.power.mode = .active) :
    let e := 65536 + i.val; let f := (u.digi e).faults
    let q := etdFill (etdBegan u e) u.clock.ticks (u.digi e).reals edges
    fillSize ≤ q.2.1 → (passFills u e = true ∨ etdInTurn u = some i.val) →
    Happens ([.tdc, .bg] ++ bothOf .evt ++ bothOf .tally) (inBlocks [8, 17]) u
      (fun t => t.tdc.etdTurn = (i.val + 1) % 4 ∧ t.tdc.etdSince = u.clock.ticks ∧ (t.digi e).hist = [] ∧
        (fillAccepted q.1 q.2.2 = true → (t.digi e).latest = reduceFrom 0 q.1 ∧ (t.digi e).effectAt = some (nextBoundary u)) ∧
        (fillAccepted q.1 q.2.2 = false → f.third u.now = false → (t.digi e).faults = f.push u.now ∧ RaisedBase 528 u t) ∧
        (fillAccepted q.1 q.2.2 = false → f.third u.now = true → t.digiRetired e = true ∧ (t.digi e).coarse = true))
      (exec (.etdCalFill dt i edges) s) := by
  intro e f q hsize hfills
  have he : 65536 ≤ e := Nat.le_add_right _ _
  have hv : Only [.tdc] noReg u (turnPassed i u) := Only.setTdc u _ (by simp)
  have hret : (turnPassed i u).digiRetired e = false :=
    (hv.digiRetired (by simp) e).trans (notRetired_of_fills hfills)
  refine ⟨_, etdCalFill_exec hu hmode hsize hfills, ?_⟩
  cases h : fillAccepted q.1 q.2.2 with
  | true =>
    rw [if_pos rfl]
    obtain ⟨honly, hturn, hsince, hdigi⟩ := newTable_fillOver e (reduceFrom 0 q.1) (turnPassed i u)
    refine ⟨⟨hturn, hsince, by rw [hdigi]; rfl, fun _ => by rw [hdigi]; exact ⟨rfl, rfl⟩, fun hf => ?_, fun hf => ?_⟩,
      (hv.trans honly).mono (by simp) fun _ => False.elim⟩
    · cases hf
    · cases hf
  | false =>
    rw [if_neg Bool.false_ne_true]
    obtain ⟨hturn, hsince⟩ := calFailure_turns e (turnPassed i u)
    obtain ⟨c, n, b, p, hdigi⟩ := calFailure_digi e (turnPassed i u)
    refine ⟨⟨hturn, hsince, by rw [hdigi]; rfl, fun ht => ?_, fun _ hthird => ?_, fun _ hthird => calFailure_etd_third he hret hthird⟩,
      (hv.mono (by simp) fun _ => False.elim).trans ((calFailure_etd_only he hret).mono (by decide) fun _ => raiseRegs_inBlocks (by simp))⟩
    · cases ht
    · obtain ⟨hfaults, hraised⟩ := calFailure_etd_kept he hret hthird
      exact ⟨hfaults, hraised.from (fun _ => rfl) (fun _ => rfl) rfl⟩

end

/-- Settles O39: what clear codes make of a histogram is `enterCodes`' own recursion (`enterCodes_below`, `enterCodes_full`); a complete
fill ends as `fillComplete_ends` says, and one of an external-trigger digitizer as `calFailure` does when the digitizer is not retired. -/
theorem calibrationEdgesFillHistograms : Obligations.CalibrationEdgesFillHistograms := by
  intro dt d n ovr s u i
  refine ⟨calEdgeDelivered_starts rfl, ?_, ?_, ?_⟩
  · intro k e hk he hp ho codes clear old hist counted h full r
    have hr : r = _ := calConversionEnd_exec rfl hk he hp ho
    rw [hr]
    exact converted_settles codes
  · intro i rising fu e hmode hedge hsees near m
    exact ⟨etdEdge_near rfl hmode hedge hsees, etdEdge_stamped rfl hmode hedge hsees⟩
  · intro i edges e f from_ far q hmode hsize hfills
    exact etdCalFill_ends rfl hmode hsize hfills

end Sys2Proof.Machine
end

section
/-!
### What the store, the compressors and the lists of a side leave alone when they go on (R237, R284, R321)

An item that completes enters outputs, frees items of the store and lets blocks into it, finds blocks ready and creates items. `Aside`
says what all this leaves: the engines with their items and homes, the units and outputs, the frames that stand on the ports, the records
of the events that an item itself raises, and every register but those of the store, the ready list and the assembly buffer.
-/

namespace Sys2Proof.Machine

/-- The parts that such work changes. -/
abbrev asideParts (x : Side) : List Part := .trg :: .dsp x :: .lnk x :: .cmp x :: .bst x :: raising

/-- The registers that such work writes. -/
def asideRegs (x : Side) (a : Nat) : Prop :=
  raiseRegs a ∨ a = Reg.DSP_READY_MAX x ∨ a = Reg.DSP_REFUSED x ∨ a = Reg.CMP_ASSEMBLY x ∨ a = Reg.CMP_OVERFLOW x ∨ sideBase x + 0x50000 ≤ a

theorem asideRegs_store (x : Side) {a : Nat} (h : sideBase x + 0x50000 ≤ a) : asideRegs x a := .inr (.inr (.inr (.inr (.inr h))))

/-- What is left of a side's units, outputs, ports and events. -/
structure Kept (x : Side) (s t : State) : Prop where
  units : (t.side x).dsp.units = (s.side x).dsp.units
  accs : ∀ id, Sparse.get (s.side x).dsp.accs id Acc.zero = Acc.zero → Sparse.get (t.side x).dsp.accs id Acc.zero = Acc.zero
  outputs : (t.side x).cmp.outputs = (s.side x).cmp.outputs
  out : ∀ p f, (s.port x p).out = some f → (t.port x p).out = some f
  seq : t.frameSeq x 4 = s.frameSeq x 4
  recs : ∀ n ∈ [575, 576], t.srcRec x (srcOn x n) = s.srcRec x (srcOn x n)

/-- The store, the compressors and the lists of side x go on. -/
structure Aside (x : Side) (s t : State) : Prop extends Kept x s t where
  only : Only (asideParts x) (asideRegs x) s t
  engines : (t.side x).dsp.engines = (s.side x).dsp.engines
  home : (t.side x).dsp.home = (s.side x).dsp.home

theorem Kept.refl (x : Side) (s : State) : Kept x s s := ⟨rfl, fun _ h => h, rfl, fun _ _ h => h, rfl, fun _ _ => rfl⟩

theorem Kept.trans {x : Side} {s t u : State} (h : Kept x s t) (k : Kept x t u) : Kept x s u where
  units := k.units.trans h.units
  accs id h0 := k.accs id (h.accs id h0)
  outputs := k.outputs.trans h.outputs
  out p f hf := k.out p f (h.out p f hf)
  seq := k.seq.trans h.seq
  recs n hn := (k.recs n hn).trans (h.recs n hn)

/-- A change of other parts than these. -/
theorem Kept.of_only {x : Side} {s t : State} {ps : List Part} {w : Nat → Prop} (h : Only ps w s t) (hd : .dsp x ∉ ps) (hc : .cmp x ∉ ps)
    (hl : .lnk x ∉ ps) (he : .evt x ∉ ps) : Kept x s t := by
  have hdsp : (t.side x).dsp = (s.side x).dsp := h.1 (.dsp x) hd
  have hcmp : (t.side x).cmp = (s.side x).cmp := h.1 (.cmp x) hc
  have hlnk : (t.side x).lnk = (s.side x).lnk := h.1 (.lnk x) hl
  exact ⟨by rw [hdsp], fun id h0 => by rw [hdsp]; exact h0, by rw [hcmp], fun p f hf => by simpa only [State.port, hlnk] using hf,
    by simp only [State.frameSeq, hlnk], fun n _ => h.srcRec x he _⟩

/-- A change of the dispatcher that leaves its units and accumulators. -/
theorem Kept.modDsp (x : Side) {f : Dsp → Dsp} (s : State) (hu : ∀ d, (f d).units = d.units := by intros; rfl)
    (ha : ∀ d id, Sparse.get d.accs id Acc.zero = Acc.zero → Sparse.get (f d).accs id Acc.zero = Acc.zero := by intros; assumption) :
    Kept x s (s.modDsp x f) where
  units := by rw [State.modDsp_self, hu]
  accs id h0 := by rw [State.modDsp_self]; exact ha _ id h0
  outputs := by simp
  out p g hg := by simpa [State.port] using hg
  seq := by simp [State.frameSeq]
  recs n _ := srcRec_of_recs (by simp) _

namespace Aside

variable {x : Side} {s t u : State}

theorem refl (x : Side) (s : State) : Aside x s s := ⟨Kept.refl x s, Only.refl _ _ s, rfl, rfl⟩

theorem trans (h : Aside x s t) (k : Aside x t u) : Aside x s u :=
  ⟨h.toKept.trans k.toKept, h.only.trans k.only, k.engines.trans h.engines, k.home.trans h.home⟩

theorem foldl {α : Type} {f : State → α → State} (h : ∀ t a, Aside x t (f t a)) (l : List α) (s : State) : Aside x s (l.foldl f s) :=
  List.foldlRecOn (motive := Aside x s) l _ (refl x s) fun t ht a _ => ht.trans (h t a)

theorem ite {c : Prop} [Decidable c] {a b : State} (ha : Aside x s a) (hb : Aside x s b) : Aside x s (if c then a else b) := by
  split
  · exact ha
  · exact hb

/-! Counters, events and parts -/

/-- Work that touches neither lists, compressors, ports nor events. -/
theorem of_only {ps : List Part} {w : Nat → Prop} (h : Only ps w s t) (hps : ps ⊆ .trg :: .bst x :: bothOf .tally)
    (hw : ∀ a, w a → asideRegs x a) : Aside x s t := by
  have out : ∀ p, p ∉ .trg :: .bst x :: bothOf .tally → p ∉ ps := fun p hp hm => hp (hps hm)
  have hdsp : (t.side x).dsp = (s.side x).dsp := h.1 (.dsp x) (out _ (by simp [bothOf]))
  refine ⟨Kept.of_only h (out _ (by simp [bothOf])) (out _ (by simp [bothOf])) (out _ (by simp [bothOf])) (out _ (by simp [bothOf])),
    h.mono (fun p hp => ?_) hw, by rw [hdsp], by rw [hdsp]⟩
  have := hps hp
  simp only [List.mem_cons, bothOf, List.not_mem_nil, or_false] at this
  simp only [asideParts, raising, List.mem_cons, List.not_mem_nil, or_false]
  tauto

theorem reg (h : Only [] (asideRegs x) s t) : Aside x s t := of_only h (by simp) fun _ => id

theorem bump {a : Nat} (ha : asideRegs x a) (hi lo n : Nat) (s : State) : Aside x s (s.bump a hi lo n) := reg (Only.bump s a hi lo n ha)

theorem high {a : Nat} (ha : asideRegs x a) (hi lo v : Nat) (s : State) : Aside x s (s.high a hi lo v) := reg (Only.high s a hi lo v ha)

theorem wr {a : Nat} (ha : asideRegs x a) (v : Word) (s : State) : Aside x s (s.wr a v) := reg (Only.wr s a v ha)

theorem wf {a : Nat} (ha : asideRegs x a) (hi lo v : Nat) (s : State) : Aside x s (s.wf a hi lo v) := reg (Only.wf s a hi lo v ha)

theorem raiseBit {a : Nat} (ha : asideRegs x a) (i : Nat) (s : State) : Aside x s (s.raiseBit a i) := reg (Only.raiseBit s a i ha)

theorem tally (x : Side) (c : Tally) (n : Nat) (s : State) : Aside x s (s.tally x c n) :=
  of_only (Only.tally (ps := [.tally x]) (w := noReg) s x c n (by simp)) (by cases x <;> decide) fun _ => False.elim

theorem modBst (x : Side) (f : Bst → Bst) (s : State) : Aside x s (s.modBst x f) :=
  of_only (Only.modBst (ps := [.bst x]) (w := noReg) s x f (by simp)) (by simp) fun _ => False.elim

theorem modTrg (x : Side) (f : Trg → Trg) (s : State) : Aside x s (s.modTrg f) :=
  of_only (Only.setTrg (ps := [.trg]) (w := noReg) s _ (by simp)) (by simp) fun _ => False.elim

/-- A change of the compressors and their lists that leaves the outputs. -/
theorem modCmp (x : Side) {f : Cmp → Cmp} (s : State) (hf : ∀ c, (f c).outputs = c.outputs := by intros; rfl) : Aside x s (s.modCmp x f) where
  units := by simp
  accs id h0 := by simpa using h0
  outputs := by rw [State.modCmp_self, hf]
  out p g hg := by simpa [State.port] using hg
  seq := by simp [State.frameSeq]
  recs n _ := srcRec_of_recs (by simp) _
  only := Only.modCmp s x f (by simp)
  engines := by simp
  home := by simp

/-- A change of the dispatcher that leaves its engines, homes, units and accumulators. -/
theorem modDsp (x : Side) {f : Dsp → Dsp} (s : State) (he : ∀ d, (f d).engines = d.engines := by intros; rfl)
    (hh : ∀ d, (f d).home = d.home := by intros; rfl) (hu : ∀ d, (f d).units = d.units := by intros; rfl)
    (ha : ∀ d id, Sparse.get d.accs id Acc.zero = Acc.zero → Sparse.get (f d).accs id Acc.zero = Acc.zero := by intros; assumption) :
    Aside x s (s.modDsp x f) :=
  ⟨Kept.modDsp x s hu ha, Only.modDsp s x f (by simp), by rw [State.modDsp_self, he], by rw [State.modDsp_self, hh]⟩

/-- A change of a side's ports and frame numbers that keeps the frames on the ports and the numbers of TELEMETRY frames. -/
theorem modLnk (x : Side) {f : Lnk → Lnk} (s : State)
    (ho : ∀ p g, (s.port x p).out = some g → (Sparse.get (f (s.side x).lnk).ports p Port.idle).out = some g)
    (hq : Sparse.get (f (s.side x).lnk).seqs 4 0 = s.frameSeq x 4) : Aside x s (s.modLnk x f) where
  units := by simp
  accs id h0 := by simpa using h0
  outputs := by simp
  out p g hg := by simpa [State.port] using ho p g hg
  seq := by simpa [State.frameSeq] using hq
  recs n _ := srcRec_of_recs (by simp) _
  only := Only.modLnk s x f (by simp)
  engines := by simp
  home := by simp

/-- An event other than those that an item raises. -/
theorem raiseSide (x : Side) {n : Nat} (hn : n ∉ [575, 576]) (sev inst : Nat) (s : State) : Aside x s (raiseSide x n sev inst s) := by
  have h := raiseSide_only x n sev inst s
  have hdsp : ((Machine.raiseSide x n sev inst s).side x).dsp = (s.side x).dsp := h.1 (.dsp x) (by simp [raising])
  have hcmp : ((Machine.raiseSide x n sev inst s).side x).cmp = (s.side x).cmp := h.1 (.cmp x) (by simp [raising])
  have hlnk : ((Machine.raiseSide x n sev inst s).side x).lnk = (s.side x).lnk := h.1 (.lnk x) (by simp [raising])
  refine ⟨⟨by rw [hdsp], fun id h0 => by rw [hdsp]; exact h0, by rw [hcmp], fun p f hf => by simpa only [State.port, hlnk] using hf,
    by simp only [State.frameSeq, hlnk], fun m hm => ?_⟩, h.mono (by simp [raising]) fun _ => .inl, by rw [hdsp], by rw [hdsp]⟩
  have hne : srcOn x m ≠ srcOn x n := fun he => hn (Nat.add_right_cancel he ▸ hm)
  unfold Machine.raiseSide
  split
  · rw [raiseAt_srcRec, if_neg fun k => hne k.2]
  · rfl

end Aside

end Sys2Proof.Machine
end

section
/-!
### The store of a side goes on (R302–R344)
-/

namespace Sys2Proof.Machine

namespace Aside

variable {x : Side} {s t u : State}

/-! Ports and notices -/

/-- A change of a port that keeps the frame that stands on it. -/
theorem modPort {p : Nat} {f : Port → Port} (s : State) (hf : ∀ g, (s.port x p).out = some g → (f (s.port x p)).out = some g) :
    Aside x s (s.modPort x p f) :=
  modLnk x s (fun q g hg => by
    rw [Sparse.get_upd]
    split
    · next h => exact hf g (by rw [← h]; exact hg)
    · exact hg) rfl

theorem portNext (x : Side) (p : Nat) (s : State) : Aside x s (portNext x p s) := by
  have start : ∀ (f : Frame) (t : State), (t.port x p).out = none → Aside x t (startFrame x p f t) :=
    fun f t ht => modPort t fun g hg => absurd (ht.symm.trans hg) (by simp)
  unfold Machine.portNext
  extract_lets q
  split
  · exact refl x s
  · next hgo =>
    have hq : q.out = none := by
      rw [Bool.or_eq_true, not_or] at hgo
      exact Option.not_isSome_iff_eq_none.1 hgo.2
    have free : ∀ f : Port → Port, (∀ k, (f k).out = k.out) → ((s.modPort x p f).port x p).out = none := fun f hf => by
      rw [port_modPort, if_pos ⟨rfl, rfl⟩, hf]; exact hq
    split
    · next f rest _ =>
      exact ite ((modPort s fun _ hg => hg).trans (start _ _ (free _ fun _ => rfl))) (refl x s)
    · split
      · exact refl x s
      · exact ite (refl x s) ((modPort s fun _ hg => hg).trans (start _ _ (free _ fun _ => rfl)))

theorem sendFrame (x : Side) (p : Nat) (f : Frame) (s : State) : Aside x s (sendFrame x p f s) :=
  (modPort s fun _ hg => hg).trans (portNext x p _)

/-- A number of another frame type taken. -/
theorem tookSeq (x : Side) {ty : Nat} (h : ty ≠ 4) (s : State) : Aside x s (s.tookSeq x ty) :=
  modLnk x s (fun _ _ hg => hg) (by rw [Sparse.get_upd, if_neg h.symm]; rfl)

theorem sendNotice (x : Side) (kind st : Nat) (ws : List Word72) (ports : List Nat) (s : State) :
    Aside x s (sendNotice x kind st ws ports s) :=
  (foldl (fun t p => sendFrame x p _ t) ports s).trans (tookSeq x (by decide) _)

/-! The store's words -/

theorem modChan (x : Side) (ch : Nat) (f : Chan → Chan) (s : State) : Aside x s (s.modChan x ch f) := modBst x _ s

theorem modRing (x : Side) (r : Nat) (f : Ring → Ring) (s : State) : Aside x s (s.modRing x r f) := modBst x _ s

theorem dropItem (x : Side) (id : Nat) (s : State) : Aside x s (dropItem x id s) := modBst x _ s

theorem accessLoc (x : Side) (cls loc : Nat) (s : State) : Aside x s (accessLoc x cls loc s) := by
  unfold Machine.accessLoc
  extract_lets k r s1
  have h1 : Aside x s s1 := (modBst x _ s).trans (modChan x _ _ _)
  exact ite (h1.trans (bump (asideRegs_store x (by simp only [Reg.BST_REFRESH_8]; omega)) _ _ _ _)) h1

theorem putWords (x : Side) (q : Queued) (s : State) : Aside x s (putWords x q s) := modBst x _ s

theorem writeGranule (x : Side) (q : Queued) (s : State) : Aside x s (writeGranule x q s) := by
  unfold Machine.writeGranule
  extract_lets ch s1 n
  have h1 : Aside x s s1 := ite (modChan x ch _ s) (refl x s)
  have hreg : asideRegs x (Reg.BST_REFRESH_C x ch) := asideRegs_store x (by simp only [Reg.BST_REFRESH_C]; omega)
  exact ite (h1.trans ((modChan x ch _ _).trans (high hreg _ _ _ _))) (h1.trans ((accessLoc x _ _ _).trans (putWords x q _)))

theorem logError (x : Side) (loc w lane : Nat) (bad : Bool) (s : State) : Aside x s (logError x loc w lane bad s) := by
  unfold Machine.logError
  extract_lets ch st n first s1
  have hst : asideRegs x st := asideRegs_store x (by simp only [st, Reg.BST_LOG_STATUS]; omega)
  have hlog : asideRegs x (Reg.BST_LOG x ch n) := asideRegs_store x (by simp only [Reg.BST_LOG]; omega)
  have hlog4 : asideRegs x (Reg.BST_LOG_4 x ch n) := asideRegs_store x (by simp only [Reg.BST_LOG_4]; omega)
  have h1 : Aside x s s1 := (raiseBit hst _ s).trans (bump hst _ _ _ _)
  exact ite ((wr hlog _ s).trans ((wr hlog4 _ _).trans (wf hst _ _ _ _))) (ite (h1.trans (raiseSide x (by decide) _ _ _)) h1)

theorem asideRegs_ecc (x : Side) (ch : Nat) : asideRegs x (Reg.BST_ECC x ch) := asideRegs_store x (by simp only [Reg.BST_ECC]; omega)

theorem badWord (x : Side) (loc w lane : Nat) (s : State) : Aside x s (badWord x loc w lane s) :=
  ((bump (asideRegs_ecc x _) _ _ _ s).trans (tally x _ _ _)).trans ((raiseSide x (by decide) _ _ _).trans (logError x _ _ _ _ _))

theorem judgeWord (x : Side) (loc w : Nat) (a : List GotWord × Bool × State) : Aside x a.2.2 (judgeWord x loc w a).2.2 := by
  unfold Machine.judgeWord
  extract_lets s raw d ch s1
  have h1 : Aside x s s1 :=
    ite (badWord x loc w _ s) (ite (((bump (asideRegs_ecc x _) _ _ _ s).trans (tally x _ _ _)).trans (logError x _ _ _ _ _)) (refl x s))
  split
  · split
    · exact h1
    · dsimp only
      exact h1.trans (modBst x _ _)
  · exact h1

theorem readGranule (x : Side) (cls loc : Nat) (l : List Nat) (s : State) : Aside x s (readGranule x cls loc l s).2 := by
  unfold Machine.readGranule
  split
  · exact foldl (fun t w => badWord x loc w 15 t) l s
  · extract_lets r
    have h1 : Aside x s r.2.2 := List.foldlRecOn (motive := fun a : List GotWord × Bool × State => Aside x s a.2.2) _ _
      (accessLoc x cls loc s) fun a ha w _ => ha.trans (judgeWord x loc w a)
    exact ite (h1.trans (accessLoc x cls loc _)) h1

/-! Items -/

theorem fetchItem (x : Side) (cls : Nat) (i : RingItem) (s : State) : Aside x s (fetchItem x cls i s).1 := by
  refine foldl (fun t q => ?_) _ s
  unfold fetchGranule
  extract_lets loc r
  exact ite (refl x t) ((readGranule x cls loc _ t).trans (modBst x _ _))

theorem upsetItem (x : Side) (i : RingItem) (n : Nat) (mask : BitVec 120) (s : State) : Aside x s (upsetItem x i n mask s) := by
  unfold Machine.upsetItem
  split
  · exact ite (modBst x _ s) (refl x s)
  · exact refl x s

theorem writeItem (x : Side) (cls kind : Nat) (gs : List Nat) (ws : List Word72) (s : State) : Aside x s (writeItem x cls kind gs ws s) :=
  foldl (fun t _ => writeGranule x _ t) _ s

theorem putItem (x : Side) (r cls kind : Nat) (what : Stored) (ws : List Word72) (q : List Nat × Nat) (s : State) :
    Aside x s (putItem x r cls kind what ws q s).1 :=
  (writeItem x cls kind q.1 ws s).trans ((modBst x _ _).trans ((modRing x r _ _).trans
    (high (asideRegs_store x (by simp only [Reg.BST_RING_MAX]; omega)) _ _ _ _)))

theorem ringFull (x : Side) (r n : Nat) (s : State) : Aside x s (ringFull x r n s) :=
  ite (refl x s) ((modRing x r _ s).trans (raiseSide x (by decide) _ _ _))

theorem storeWords {st cls : Nat} {what : Stored} {ws : List Word72} {q : State × Nat}
    (h : storeWords x st cls what ws s = some q) : Aside x s q.1 := by
  simp only [Machine.storeWords] at h
  split at h
  · cases h; exact putItem x _ _ _ _ _ _ s
  · cases h

/-! Blocks that wait for room -/

theorem overwrite (x : Side) (r n : Nat) : ∀ (fuel : Nat) (s : State), Aside x s (overwrite x r n fuel s)
  | 0, s => refl x s
  | fuel + 1, s => by
    rw [Machine.overwrite]
    refine ite (refl x s) ?_
    split
    · exact refl x s
    · extract_lets s1 said s2
      have hreg : asideRegs x (Reg.BST_RING_LOSS x r) := asideRegs_store x (by simp only [Reg.BST_RING_LOSS]; omega)
      have h1 : Aside x s s1 := (((dropItem x _ s).trans (bump hreg _ _ _ _)).trans (tally x _ _ _)).trans (sendNotice x _ _ _ _ _)
      have h2 : Aside x s s2 := ite h1 (h1.trans ((modRing x r _ _).trans (raiseSide x (by decide) _ _ _)))
      exact h2.trans (overwrite x r n fuel s2)

theorem spillBlock (x : Side) (b : Block) (s : State) : Aside x s (spillBlock x b s).1 := by
  unfold Machine.spillBlock
  extract_lets r s1
  have h1 : Aside x s s1 := ite (overwrite x r _ _ s) (refl x s)
  split
  · exact h1.trans (putItem x r 0 0 _ _ _ _)
  · exact h1

theorem intoEgress (x : Side) (b : Block) (s : State) : Aside x s (s.modLnk x (fun l => { l with egress := l.egress ++ [b] })) :=
  modLnk x s (f := fun l => { l with egress := l.egress ++ [b] }) (fun _ _ hg => hg) rfl

theorem admitWaiting (x : Side) (r : Nat) : ∀ (n : Nat) (s : State), Aside x s (admitWaiting x r n s)
  | 0, s => refl x s
  | n + 1, s => by
    rw [Machine.admitWaiting]
    split
    · exact refl x s
    · next b rest _ =>
      have pass : ∀ t : State,
          Aside x t (Machine.admitWaiting x r n (freeCompressor x b (t.modRing x r (fun k => { k with waiting := rest })))) :=
        fun t => ((modRing x r _ t).trans (modCmp x _)).trans (admitWaiting x r n _)
      extract_lets cont q
      have hspill : Aside x s q.1 := spillBlock x b s
      exact ite ((intoEgress x b s).trans (pass _)) (ite (hspill.trans (pass _)) (hspill.trans (ringFull x r _ _)))

theorem freeItem (x : Side) (id : Nat) (s : State) : Aside x s (freeItem x id s) := by
  unfold Machine.freeItem settleStore
  extract_lets l held gone s1
  exact ((dropItem x id s).trans (foldl (fun t id => dropItem x id t) gone _)).trans (foldl (fun t r => admitWaiting x r _ t) _ s1)

/-! Blocks found ready, and items created -/

theorem scanReady (x : Side) (s : State) : Aside x s (scanReady x s) := by
  refine foldl (fun t k => ?_) _ s
  unfold noteReady
  exact modCmp x t

theorem freeSpill (x : Side) (id : Option Nat) (s : State) : Aside x s (freeSpill x id s) := by
  unfold Machine.freeSpill
  split
  · exact ite (refl x s) (freeItem x _ s)
  · exact refl x s

theorem freeAcc (x : Side) (id : Nat) (s : State) : Aside x s (freeAcc x id s) := by
  unfold Machine.freeAcc
  extract_lets s1 keep gone
  have hdel : ∀ (d : Dsp) j, Sparse.get d.accs j Acc.zero = Acc.zero → Sparse.get (Sparse.del d.accs id) j Acc.zero = Acc.zero := by
    intro d j h0
    rcases eq_or_ne j id with rfl | hj
    · exact Sparse.get_del_self _ _ _
    · rw [Sparse.get_del_ne _ _ hj]; exact h0
  have h1 : Aside x s s1 := (modDsp x s (ha := hdel)).trans (modTrg x _ _)
  exact (h1.trans (modCmp x _)).trans (foldl (fun t o => freeSpill x o.spill t) gone _)

theorem enqueueItem (x : Side) (w : Work) (s : State) : Aside x s (enqueueItem x w s) := by
  have hmax : asideRegs x (Reg.DSP_READY_MAX x) := .inr (.inl rfl)
  have hrefused : asideRegs x (Reg.DSP_REFUSED x) := .inr (.inr (.inl rfl))
  unfold Machine.enqueueItem
  extract_lets n s1
  have h1 : Aside x s s1 := (bump hrefused _ _ _ s).trans (modDsp x _)
  exact ite (modDsp x s) (ite ((modDsp x s).trans (high hmax _ _ _ _)) (ite h1 (h1.trans (raiseSide x (by decide) _ _ _))))

theorem makeBuilds (x : Side) (s : State) : Aside x s (makeBuilds x s) := by
  refine foldl (fun t r => ?_) _ s
  dsimp only
  exact ite (refl x t) (ite (freeAcc x r.id t) ((modTrg x _ t).trans (enqueueItem x _ _)))

end Aside

end Sys2Proof.Machine
end

section
/-!
### An item is over (R237, R257, R258, R267)
-/

namespace Sys2Proof.Machine

/-- A counter of a whole word after it has been raised. -/
theorem State.rd_count_word (s : State) (a : Nat) : (s.count a 31 0 1).rd a = s.rd a + 1 := by
  have h : bits ((s.count a 31 0 1).rd a).toNat 31 0 = _ := State.rf_wf_self s a (v := s.rf a 31 0 + 1) (by decide) (by decide)
  have hbits : ∀ w : Word, bits w.toNat 31 0 = w.toNat := fun w => Nat.mod_eq_of_lt w.isLt
  rw [hbits, State.rf, hbits] at h
  exact BitVec.eq_of_toNat_eq (by rw [h, BitVec.toNat_add]; rfl)

section
variable {x : Side} {e : Nat} {w : Work} {s : State}

theorem State.eng_modEng_self (s : State) (x : Side) (e : Nat) (f : Engine → Engine) : (s.modEng x e f).eng x e = f (s.eng x e) := by
  unfold State.eng State.modEng State.dsp
  rw [State.modDsp_self, Sparse.get_upd, if_pos rfl]

theorem eng_of_engines {t : State} (h : (t.side x).dsp.engines = (s.side x).dsp.engines) (e : Nat) : t.eng x e = s.eng x e := by
  unfold State.eng State.dsp
  rw [h]

/-- The decompressors taken up anew leave the outputs alone. -/
theorem settleDecs_aside (x : Side) (s : State) : Aside x s (settleDecs x s) := by
  unfold settleDecs
  refine Aside.modCmp x s fun c => List.foldlRecOn (motive := fun k : Cmp => k.outputs = c.outputs) _ _ rfl fun k hk e _ => ?_
  split
  · exact hk
  · split
    · exact hk
    · exact hk

theorem releaseSerial_aside (x : Side) (w : Work) (s : State) : Aside x s (releaseSerial x w s) := by
  unfold releaseSerial
  exact Aside.ite (Aside.refl x s) (Aside.modDsp x s)

/-- The item counted, and its engine its key's home (R257, R267). -/
def itemCounted (x : Side) (e : Nat) (w : Work) (s : State) : State :=
  (s.count (Reg.SE_ITEMS x w.kind) 31 0 1).modDsp x (fun d => { d with home := Sparse.set d.home w.key (some e) none })

/-- The item counted, its engine its key's home, and the engine's pre-empted item resumed (R258). -/
def engineFreed (x : Side) (e : Nat) (w : Work) (s : State) : State :=
  (itemCounted x e w s).modEng x e (fun g => g.resumed s.clock.ticks)

theorem itemDone_aside (x : Side) (e : Nat) (w : Work) (s : State) : Aside x (engineFreed x e w s) (itemDone x e w s) :=
  (releaseSerial_aside x w _).trans (settleDecs_aside x _)

theorem itemCounted_kept (x : Side) (e : Nat) (w : Work) (s : State) : Kept x s (itemCounted x e w s) := by
  have h1 : Kept x s (s.count (Reg.SE_ITEMS x w.kind) 31 0 1) :=
    Kept.of_only (Only.count (ps := []) (w := fun _ => True) s _ _ _ _ trivial) (by simp) (by simp) (by simp) (by simp)
  exact h1.trans (Kept.modDsp x (f := fun d => { d with home := Sparse.set d.home w.key (some e) none }) _)

theorem engineFreed_kept (x : Side) (e : Nat) (w : Work) (s : State) : Kept x s (engineFreed x e w s) :=
  (itemCounted_kept x e w s).trans (Kept.modDsp x (f := fun d => { d with
    engines := Sparse.upd d.engines e Engine.idle (fun g => g.resumed s.clock.ticks) }) _)

theorem engineFreed_only (x : Side) (e : Nat) (w : Work) (s : State) :
    Only [.dsp x] (fun a => a = Reg.SE_ITEMS x w.kind) s (engineFreed x e w s) := by
  have hmod : ∀ (f : Dsp → Dsp) (t : State), Only [.dsp x] (fun a => a = Reg.SE_ITEMS x w.kind) t (t.modDsp x f) :=
    fun f t => Only.modDsp t x f (by simp)
  have hcount : Only [.dsp x] (fun a => a = Reg.SE_ITEMS x w.kind) s (s.count (Reg.SE_ITEMS x w.kind) 31 0 1) := Only.count s _ _ _ _ rfl
  unfold engineFreed itemCounted State.modEng
  exact (hcount.trans (hmod _ _)).trans (hmod _ _)

theorem engineFreed_eng (x : Side) (e : Nat) (w : Work) (s : State) :
    (engineFreed x e w s).eng x e = (s.eng x e).resumed s.clock.ticks := by
  have hcount : (s.count (Reg.SE_ITEMS x w.kind) 31 0 1).side x = s.side x := by cases x <;> rfl
  have heng : (itemCounted x e w s).eng x e = s.eng x e := by
    unfold State.eng State.dsp itemCounted
    rw [State.modDsp_self, hcount]
  rw [engineFreed, State.eng_modEng_self, heng]

theorem engineFreed_home (x : Side) (e : Nat) (w : Work) (s : State) :
    Sparse.get ((engineFreed x e w s).side x).dsp.home w.key none = some e := by
  unfold engineFreed itemCounted State.modEng
  rw [State.modDsp_self, State.modDsp_self]
  exact Sparse.get_set_self _ w.key (some e) none

theorem engineFreed_items (x : Side) (e : Nat) (w : Work) (s : State) :
    (engineFreed x e w s).rd (Reg.SE_ITEMS x w.kind) = s.rd (Reg.SE_ITEMS x w.kind) + 1 := by
  rw [← State.rd_count_word]
  cases x <;> rfl

theorem Work.kind_lt (w : Work) : w.kind < 7 := by
  unfold Work.kind
  split <;> decide

/-- A register of side x below the store's, that is none of those that such work writes. -/
theorem not_asideRegs_side (x : Side) {o : Nat} (hlt : o < 0x50000) (hblock : o / 0x10000 ≠ 1)
    (hother : o ∉ [0x3000C, 0x30010, 0x40030, 0x40034]) : ¬ asideRegs x (sideBase x + o) := by
  simp only [List.mem_cons, List.not_mem_nil, or_false, not_or] at hother
  rintro (h | h | h | h | h | h)
  · exact not_raiseRegs (by rw [addrBlock_side x (by omega)]; omega) h
  · simp only [Reg.DSP_READY_MAX] at h; omega
  · simp only [Reg.DSP_REFUSED] at h; omega
  · simp only [Reg.CMP_ASSEMBLY] at h; omega
  · simp only [Reg.CMP_OVERFLOW] at h; omega
  · omega

theorem not_asideRegs_items (x : Side) (w : Work) : ¬ asideRegs x (Reg.SE_ITEMS x w.kind) := by
  have hk := w.kind_lt
  rw [Reg.SE_ITEMS, Nat.add_assoc]
  refine not_asideRegs_side x (by omega) (by omega) ?_
  simp only [List.mem_cons, List.not_mem_nil, or_false]
  omega

/-! Completion -/

/-- The state t after an item w of engine e, whose work has left k, is over: the item counted, the engine free or its pre-empted item
resumed, its key at home, and what then goes on. -/
structure Over (x : Side) (e : Nat) (w : Work) (k t : State) : Prop extends Kept x k t where
  only : Only (asideParts x) (fun a => asideRegs x a ∨ a = Reg.SE_ITEMS x w.kind) k t
  engine : t.eng x e = (k.eng x e).resumed k.clock.ticks
  home : Sparse.get (t.side x).dsp.home w.key none = some e
  items : t.rd (Reg.SE_ITEMS x w.kind) = k.rd (Reg.SE_ITEMS x w.kind) + 1

/-- A work's result, the item over. -/
def ended (x : Side) (e : Nat) (w : Work) (k : State) : State := makeBuilds x (scanReady x (itemDone x e w k))

theorem over_ended (x : Side) (e : Nat) (w : Work) (k : State) : Over x e w k (ended x e w k) := by
  have h : Aside x (engineFreed x e w k) (ended x e w k) :=
    (itemDone_aside x e w k).trans ((Aside.scanReady x _).trans (Aside.makeBuilds x _))
  refine ⟨(engineFreed_kept x e w k).trans h.toKept,
    ((engineFreed_only x e w k).mono (by simp) fun _ => .inr).trans (h.only.mono (by simp) fun _ => .inl), ?_, ?_, ?_⟩
  · rw [← engineFreed_eng x e w k]
    exact eng_of_engines h.engines e
  · rw [h.home, engineFreed_home]
  · rw [h.only.rd (not_asideRegs_items x w), engineFreed_items]

theorem complete_done {kind : Nat} {work : Work → State → Passed} {k : State} (hr : runningOf s x e kind = some w)
    (hw : work w s = .done k) : complete x e kind work s = ended x e w k := by
  simp only [complete, hr, hw]
  rfl

theorem complete_waits {kind : Nat} {work : Work → State → Passed} {k : State} (hr : runningOf s x e kind = some w)
    (hw : work w s = .waits k) : complete x e kind work s = k := by simp only [complete, hr, hw]

end

end Sys2Proof.Machine
end

section
/-!
### What an item over shows, and the events of a side (R257, R258, R267, R474)
-/

namespace Sys2Proof.Machine

section
variable {x : Side} {e : Nat} {w : Work} {u k t : State}

/-- An item over, as its engine shows it: it has freed the engine, or let the pre-empted one resume (R257, R258). -/
def ItemFree (x : Side) (e : Nat) (u : State) (w : Work) (t : State) : Prop :=
  (t.eng x e).item = (u.eng x e).saved ∧
  (t.eng x e).busy = (if (u.eng x e).saved.isSome then u.clock.ticks + 128 else (u.eng x e).busy) ∧
  (t.eng x e).key = ((u.eng x e).saved.map (·.1.work.key)).getD (u.eng x e).key ∧
  (t.eng x e).saved = none ∧ Sparse.get (t.side x).dsp.home w.key none = some e

/-- An item over and counted (R267). -/
def ItemEnds (x : Side) (e : Nat) (u : State) (w : Work) (t : State) : Prop :=
  ItemFree x e u w t ∧ t.rd (Reg.SE_ITEMS x w.kind) = u.rd (Reg.SE_ITEMS x w.kind) + 1

theorem Over.free (h : Over x e w k t) (he : k.eng x e = u.eng x e) (hc : k.clock = u.clock) : ItemFree x e u w t := by
  have hg : t.eng x e = (u.eng x e).resumed u.clock.ticks := by rw [h.engine, he, hc]
  unfold ItemFree
  rw [hg]
  exact ⟨rfl, rfl, rfl, rfl, h.home⟩

theorem Over.ends (h : Over x e w k t) (he : k.eng x e = u.eng x e) (hc : k.clock = u.clock)
    (hr : k.rd (Reg.SE_ITEMS x w.kind) = u.rd (Reg.SE_ITEMS x w.kind)) : ItemEnds x e u w t :=
  ⟨h.free he hc, by rw [h.items, hr]⟩

theorem Only.eng {ps : List Part} {r : Nat → Prop} {s t : State} (h : Only ps r s t) (hd : .dsp x ∉ ps) (e : Nat) : t.eng x e = s.eng x e :=
  eng_of_engines (congrArg Dsp.engines (h.1 (.dsp x) hd)) e

/-- A completed item whose work changes neither the dispatcher, nor the clock, nor the count of items. -/
theorem Over.ends_of_only {ps : List Part} {r : Nat → Prop} (h : Over x e w k t) (ho : Only ps r u k) (hd : .dsp x ∉ ps) (hc : .clock ∉ ps)
    (hr : ¬ r (Reg.SE_ITEMS x w.kind)) : ItemEnds x e u w t :=
  h.ends (ho.eng hd e) (ho.1 .clock hc) (ho.rd hr)

/-- A register that an item's end leaves. -/
theorem Over.rd (h : Over x e w k t) {a : Nat} (ha : ¬ asideRegs x a) (hs : a ≠ Reg.SE_ITEMS x w.kind) : t.rd a = k.rd a :=
  h.only.rd fun ho => ho.elim ha hs

/-! Events of a side -/

theorem raiseSide_raisedSide (x : Side) (n sev inst : Nat) (s : State) : RaisedSide x n s (raiseSide x n sev inst s) := by
  intro h
  unfold raiseSide
  rw [if_pos h]
  have hr := raiseAt_srcRec x x (srcOn x n) sev inst (srcOn x n) s
  rw [if_pos ⟨rfl, rfl⟩] at hr
  exact hr

/-- What raised an event before and after changes that touch no record of it raised it through them. -/
theorem RaisedSide.between {n : Nat} {ps : List Part} {r : Nat → Prop} {u v k t : State} (h : RaisedSide x n v k) (ho : Only ps r u v)
    (hps : ps ⊆ .trg :: .dsp x :: .lnk x :: .cmp x :: .bst x :: bothOf .tally) (hrec : t.srcRec x (srcOn x n) = k.srcRec x (srcOn x n)) :
    RaisedSide x n u t := by
  have out : ∀ p, p ∉ Part.trg :: .dsp x :: .lnk x :: .cmp x :: .bst x :: bothOf .tally → p ∉ ps := fun p hp hm => hp (hps hm)
  have hlogs : v.logsEvents x = u.logsEvents x := by
    simp only [State.logsEvents, ho.live (out .power (by simp [bothOf])) (out .arb (by simp [bothOf])),
      show v.arb = u.arb from ho.1 .arb (out .arb (by simp [bothOf]))]
  intro hu
  have hraised : k.srcRec x (srcOn x n) = (v.srcRec x (srcOn x n)).raise v.now := h (hlogs.trans hu)
  show t.srcRec x (srcOn x n) = (u.srcRec x (srcOn x n)).raise u.now
  rw [hrec, hraised, ho.srcRec x (out _ (by simp [bothOf])), ho.now (out .clock (by simp [bothOf]))]

end

end Sys2Proof.Machine
end

section
/-!
### VERIFY items (R287–R290)
-/

namespace Sys2Proof.Machine

/-- A field stands through the raise of a counter in other bits of its register. -/
theorem State.rf_bump_ne (s : State) (a n : Nat) {hi lo h l : Nat} (hh : hi < 32) (hl : lo ≤ hi) (k : h < lo ∨ hi < l) :
    (s.bump a hi lo n).rf a h l = s.rf a h l := State.rf_wf_ne (s.noteSet a hi lo _) a hh hl k

section
variable {x : Side} {e : Nat} {b : Block} {dt : Nat} {s u : State}

/-- The registers from CMP_VERIFY_STATUS to the last word of CMP_VERIFY_LAST. -/
def verifyRegs (x : Side) (a : Nat) : Prop := sideBase x + 0x40038 ≤ a ∧ a ≤ sideBase x + 0x4004C

/-- The failure counted, and the record of the block that failed in CMP_VERIFY_LAST (R288). -/
def failureNamed (x : Side) (b : Block) (s : State) : State :=
  ((s.bump (Reg.CMP_VERIFY_STATUS x) 31 16 1).tally x .verifyFail 1).wr (Reg.CMP_VERIFY_LAST x) b.id.record

/-- The failure counted, and the block that failed in CMP_VERIFY_LAST (R288). -/
def failureLogged (x : Side) (b : Block) (h : Halt) (s : State) : State :=
  let u := b.id.unit.toNat
  let code := if h = .need then Status.illegalCode.code else h.status.code
  (((failureNamed x b s).wr (Reg.CMP_VERIFY_LAST_4 x) (BitVec.ofNat 32 u)).wr (Reg.CMP_VERIFY_LAST_8 x) (BitVec.ofNat 32 (u / 2 ^ 32))).wr
    (Reg.CMP_VERIFY_LAST_C x) (BitVec.ofNat 32 (code * 2 ^ 24 + b.maker * 2 ^ 16 + b.id.stream * 2 ^ 8 + b.id.part % 256))

theorem failureNamed_only (x : Side) (b : Block) (s : State) :
    Only [.tally x] (fun a => a = Reg.CMP_VERIFY_LAST x) (s.bump (Reg.CMP_VERIFY_STATUS x) 31 16 1) (failureNamed x b s) :=
  (Only.tally _ x .verifyFail 1 (by simp)).trans (Only.wr _ _ _ rfl)

theorem failureLogged_only (x : Side) (b : Block) (h : Halt) (s : State) :
    Only [] (fun a => sideBase x + 0x40044 ≤ a ∧ a ≤ sideBase x + 0x4004C) (failureNamed x b s) (failureLogged x b h s) := by
  refine ((Only.wr _ _ _ ?_).trans (Only.wr _ _ _ ?_)).trans (Only.wr _ _ _ ?_)
  · simp only [Reg.CMP_VERIFY_LAST_4]; omega
  · simp only [Reg.CMP_VERIFY_LAST_8]; omega
  · simp only [Reg.CMP_VERIFY_LAST_C]; omega

theorem failureLogged_verifyRegs (x : Side) (b : Block) (h : Halt) (s : State) :
    Only [.tally x] (verifyRegs x) s (failureLogged x b h s) := by
  have h1 : Only [.tally x] (verifyRegs x) s (s.bump (Reg.CMP_VERIFY_STATUS x) 31 16 1) :=
    Only.bump s _ _ _ _ (by simp only [verifyRegs, Reg.CMP_VERIFY_STATUS]; omega)
  refine (h1.trans ((failureNamed_only x b s).mono (fun _ => id) fun a ha => ?_)).trans
    ((failureLogged_only x b h s).mono (by simp) fun a ha => ?_)
  · subst ha; simp only [verifyRegs, Reg.CMP_VERIFY_LAST]; omega
  · simp only [verifyRegs]; omega

/-- What a failure leaves in the registers of VERIFY. -/
theorem failureLogged_regs (x : Side) (b : Block) (h : Halt) (s : State) : let t := failureLogged x b h s
    t.rd (Reg.CMP_VERIFY_LAST x) = b.id.record ∧
    t.rf (Reg.CMP_VERIFY_STATUS x) 31 16 = min (s.rf (Reg.CMP_VERIFY_STATUS x) 31 16 + 1) 65535 ∧
    t.rf (Reg.CMP_VERIFY_STATUS x) 15 0 = s.rf (Reg.CMP_VERIFY_STATUS x) 15 0 := by
  have hnamed := failureNamed_only x b s
  have hlogged := failureLogged_only x b h s
  have hne : Reg.CMP_VERIFY_STATUS x ≠ Reg.CMP_VERIFY_LAST x := by simp only [Reg.CMP_VERIFY_STATUS, Reg.CMP_VERIFY_LAST]; omega
  have hout : ¬ (sideBase x + 0x40044 ≤ Reg.CMP_VERIFY_STATUS x ∧ Reg.CMP_VERIFY_STATUS x ≤ sideBase x + 0x4004C) := by
    simp only [Reg.CMP_VERIFY_STATUS]; omega
  refine ⟨?_, ?_, ?_⟩
  · rw [hlogged.rd (by simp only [Reg.CMP_VERIFY_LAST]; omega), failureNamed, State.rd_wr_self]
  · rw [hlogged.rf hout, hnamed.rf hne, State.rf_bump_self _ _ _ (by decide) (by decide)]
    rfl
  · rw [hlogged.rf hout, hnamed.rf hne, State.rf_bump_ne _ _ _ (by decide) (by decide) (by decide)]

/-- The failure logged, and reported (R288). -/
def failureReported (x : Side) (b : Block) (h : Halt) (s : State) : State := raiseSide x 576 sevFault b.maker (failureLogged x b h s)

theorem raiseSide_srcRec_ne {x : Side} {m n : Nat} (h : n ≠ m) (sev inst : Nat) (s : State) :
    (raiseSide x m sev inst s).srcRec x (srcOn x n) = s.srcRec x (srcOn x n) := by
  unfold raiseSide
  split
  · rw [raiseAt_srcRec, if_neg fun k => h (Nat.add_right_cancel k.2)]
  · rfl

/-- What becomes of the compressor that made a block that failed touches neither the dispatcher nor the failure's record (R288, R289). -/
structure MakerJudged (x : Side) (s t : State) : Prop where
  only : Only (.bg :: .cmp x :: raising) raiseRegs s t
  record : t.srcRec x (srcOn x 576) = s.srcRec x (srcOn x 576)

theorem MakerJudged.trans {s t u : State} (h : MakerJudged x s t) (k : MakerJudged x t u) : MakerJudged x s u :=
  ⟨h.only.trans k.only, k.record.trans h.record⟩

theorem MakerJudged.refl (x : Side) (s : State) : MakerJudged x s s := ⟨Only.refl _ _ s, rfl⟩

theorem MakerJudged.ite {p : Prop} [Decidable p] {s a b : State} (ha : MakerJudged x s a) (hb : MakerJudged x s b) :
    MakerJudged x s (if p then a else b) := by
  split
  · exact ha
  · exact hb

theorem MakerJudged.modCmp (x : Side) (f : Cmp → Cmp) (s : State) : MakerJudged x s (s.modCmp x f) :=
  ⟨Only.modCmp s x f (by simp), srcRec_of_recs (by simp) _⟩

theorem MakerJudged.retireCompressor (x : Side) (c : Nat) (s : State) : MakerJudged x s (retireCompressor x c s) := by
  unfold Machine.retireCompressor
  split
  · exact refl x s
  · have hbg : ∀ v : Background, Only [.bg] noReg s (wantUpdate { s with bg := v }) := fun v =>
      (Only.setBg s v (by simp)).trans ((wantUpdate_only _).mono (by simp) fun _ => id)
    refine ⟨((hbg _).mono (by simp) fun _ => False.elim).trans ((raiseSide_only _ _ _ _ _).mono (by simp) fun _ => id), ?_⟩
    rw [raiseSide_srcRec_ne (by decide)]
    exact (hbg _).srcRec x (by simp) _

theorem verifyFails_judged (x : Side) (b : Block) (h : Halt) (s : State) :
    MakerJudged x (failureReported x b h s) (verifyFails x b h s) := by
  have hjudged : ∀ (p q : Prop) [Decidable p] [Decidable q] (f : Compressor → Compressor) (v : State),
      MakerJudged x v (if p then v else if q then retireCompressor x b.maker v else v.modComp x b.maker f) := fun _ _ _ _ _ v =>
    .ite (.refl x v) (.ite (.retireCompressor x _ v) (.modCmp x _ v))
  unfold verifyFails
  extract_lets u code s1 s2 s3 s4 s5 k
  have h5 : MakerJudged x s4 s5 := .ite (.refl x _) (.modCmp x _ _)
  exact h5.trans (hjudged _ _ _ _)

/-- What a VERIFY's work changes. -/
abbrev verifyParts (x : Side) : List Part := .bg :: .cmp x :: raising

theorem verifyFails_only (x : Side) (b : Block) (h : Halt) (s : State) :
    Only (verifyParts x) (fun a => raiseRegs a ∨ verifyRegs x a) s (verifyFails x b h s) := by
  have h1 := (failureLogged_verifyRegs x b h s).mono (ps := verifyParts x) (w := fun a => raiseRegs a ∨ verifyRegs x a)
    (by cases x <;> decide) fun _ => .inr
  exact (h1.trans ((raiseSide_only x 576 sevFault b.maker _).mono (by simp) fun _ => .inl)).trans
    ((verifyFails_judged x b h s).only.mono (fun _ => id) fun _ => .inl)

/-- The block checked is counted (R287). -/
def blockChecked (x : Side) (s : State) : State := s.bump (Reg.CMP_VERIFY_STATUS x) 15 0 1

theorem verifyBlock_done (h : verifyHalt b = .done) : verifyBlock x b s = blockChecked x s := by
  simp only [verifyBlock, h]
  rfl

theorem verifyBlock_fails (h : verifyHalt b ≠ .done) : verifyBlock x b s = verifyFails x b (verifyHalt b) (blockChecked x s) := by
  unfold verifyBlock
  extract_lets s1
  cases hv : verifyHalt b with
  | done => exact absurd hv h
  | _ => rfl

theorem blockChecked_only (x : Side) (s : State) : Only [] (fun a => a = Reg.CMP_VERIFY_STATUS x) s (blockChecked x s) := Only.bump s _ _ _ _ rfl

theorem verifyBlock_only (x : Side) (b : Block) (s : State) :
    Only (verifyParts x) (fun a => raiseRegs a ∨ verifyRegs x a) s (verifyBlock x b s) := by
  have h1 := (blockChecked_only x s).mono (ps := verifyParts x) (w := fun a => raiseRegs a ∨ verifyRegs x a) (by simp) fun a ha =>
    .inr (by subst ha; simp only [verifyRegs, Reg.CMP_VERIFY_STATUS]; omega)
  rcases eq_or_ne (verifyHalt b) .done with h | h
  · rw [verifyBlock_done h]; exact h1
  · rw [verifyBlock_fails h]; exact h1.trans (verifyFails_only x b _ _)

/-- What a VERIFY that fails leaves. -/
theorem verifyBlock_failed (h : verifyHalt b ≠ .done) : let t := verifyBlock x b s
    RaisedSide x 576 s t ∧ t.rd (Reg.CMP_VERIFY_LAST x) = b.id.record ∧
    t.rf (Reg.CMP_VERIFY_STATUS x) 31 16 = min (s.rf (Reg.CMP_VERIFY_STATUS x) 31 16 + 1) 65535 ∧
    t.rf (Reg.CMP_VERIFY_STATUS x) 15 0 = min (s.rf (Reg.CMP_VERIFY_STATUS x) 15 0 + 1) 65535 := by
  intro t
  let v := failureLogged x b (verifyHalt b) (blockChecked x s)
  have ht : t = verifyFails x b (verifyHalt b) (blockChecked x s) := verifyBlock_fails h
  have hj := verifyFails_judged x b (verifyHalt b) (blockChecked x s)
  have hr : Only (verifyParts x) raiseRegs v t := by
    rw [ht]
    exact ((raiseSide_only x 576 sevFault b.maker v).mono (by simp) fun _ => id).trans hj.only
  have hregs : ∀ o, 0x40000 ≤ o → o < 0x50000 → ¬ raiseRegs (sideBase x + o) := fun o h0 h1 => by
    apply not_raiseRegs
    rw [addrBlock_side x (by omega)]
    omega
  have hv : Only [.tally x] (verifyRegs x) s v :=
    ((blockChecked_only x s).mono (by simp) fun a ha => by subst ha; simp only [verifyRegs, Reg.CMP_VERIFY_STATUS]; omega).trans
      (failureLogged_verifyRegs x b _ _)
  obtain ⟨hlast, hfails, hchecked⟩ := failureLogged_regs x b (verifyHalt b) (blockChecked x s)
  refine ⟨?_, ?_, ?_, ?_⟩
  · exact (raiseSide_raisedSide x 576 sevFault b.maker v).between hv (by cases x <;> decide) (by rw [ht]; exact hj.record)
  · exact (hr.rd (hregs 0x40040 (by decide) (by decide))).trans hlast
  · rw [hr.rf (a := Reg.CMP_VERIFY_STATUS x) (hregs 0x40038 (by decide) (by decide)), hfails, blockChecked,
      State.rf_bump_ne _ _ _ (by decide) (by decide) (by decide)]
  · rw [hr.rf (a := Reg.CMP_VERIFY_STATUS x) (hregs 0x40038 (by decide) (by decide)), hchecked, blockChecked,
      State.rf_bump_self _ _ _ (by decide) (by decide)]
    rfl

/-- What a VERIFY that finds its block right leaves. -/
theorem verifyBlock_right (h : verifyHalt b = .done) : let t := verifyBlock x b s
    t.rf (Reg.CMP_VERIFY_STATUS x) 31 16 = s.rf (Reg.CMP_VERIFY_STATUS x) 31 16 ∧
    t.rf (Reg.CMP_VERIFY_STATUS x) 15 0 = min (s.rf (Reg.CMP_VERIFY_STATUS x) 15 0 + 1) 65535 := by
  intro t
  have ht : t = blockChecked x s := verifyBlock_done h
  rw [ht, blockChecked]
  exact ⟨State.rf_bump_ne _ _ _ (by decide) (by decide) (by decide), State.rf_bump_self _ _ _ (by decide) (by decide)⟩

/-! The item -/

theorem not_asideRegs_verify (x : Side) {o : Nat} (h0 : 0x40038 ≤ o) (h1 : o < 0x50000) : ¬ asideRegs x (sideBase x + o) := by
  refine not_asideRegs_side x h1 (by omega) ?_
  simp only [List.mem_cons, List.not_mem_nil, or_false]
  omega

theorem verify_waits {e : Fin 48} (hu : s.elapse dt = u) (hr : runningOf u x e 4 = some (.verify b)) (hd : hasDec u x e = false) :
    exec (.verify dt x e) s = .next u := by
  subst hu
  exact congrArg Host.Outcome.next (complete_waits hr (by simp only [hd]; rfl))

theorem verify_ends {e : Fin 48} (hu : s.elapse dt = u) (hr : runningOf u x e 4 = some (.verify b)) (hd : hasDec u x e = true) :
    Next (fun t => ItemEnds x e u (.verify b) t ∧
      t.rf (Reg.CMP_VERIFY_STATUS x) 15 0 = min (u.rf (Reg.CMP_VERIFY_STATUS x) 15 0 + 1) 65535 ∧
      (verifyHalt b = .done → t.rf (Reg.CMP_VERIFY_STATUS x) 31 16 = u.rf (Reg.CMP_VERIFY_STATUS x) 31 16) ∧
      (verifyHalt b ≠ .done → RaisedSide x 576 u t ∧ t.rd (Reg.CMP_VERIFY_LAST x) = b.id.record ∧
        t.rf (Reg.CMP_VERIFY_STATUS x) 31 16 = min (u.rf (Reg.CMP_VERIFY_STATUS x) 31 16 + 1) 65535)) (exec (.verify dt x e) s) := by
  subst hu
  let u := s.elapse dt
  let k := verifyBlock x b u
  have hover := over_ended x e (.verify b) k
  have honly := verifyBlock_only x b u
  have hreg : ∀ o, 0x40038 ≤ o → o < 0x50000 → (ended x e (.verify b) k).rd (sideBase x + o) = k.rd (sideBase x + o) := fun o h0 h1 =>
    hover.rd (not_asideRegs_verify x h0 h1) (by simp only [Reg.SE_ITEMS, Work.kind]; omega)
  have hstatus : ∀ hi lo, (ended x e (.verify b) k).rf (Reg.CMP_VERIFY_STATUS x) hi lo = k.rf (Reg.CMP_VERIFY_STATUS x) hi lo := fun hi lo =>
    congrArg (fun w : Word => bits w.toNat hi lo) (hreg 0x40038 (by decide) (by decide))
  have hitems : ¬ (raiseRegs (Reg.SE_ITEMS x 4) ∨ verifyRegs x (Reg.SE_ITEMS x 4)) := by
    rintro (h | h)
    · exact not_raiseRegs (by rw [Reg.SE_ITEMS, Nat.add_assoc, addrBlock_side x (by omega)]; omega) h
    · simp only [verifyRegs, Reg.SE_ITEMS] at h; omega
  refine ⟨_, congrArg Host.Outcome.next (complete_done (k := k) hr (by simp only [hd]; rfl)),
    hover.ends_of_only honly (by simp [raising]) (by simp [raising]) hitems, ?_, fun h => ?_, fun h => ?_⟩
  · rw [hstatus]
    rcases eq_or_ne (verifyHalt b) .done with h | h
    · exact (verifyBlock_right h).2
    · exact (verifyBlock_failed h).2.2.2
  · rw [hstatus]; exact (verifyBlock_right h).1
  · obtain ⟨hraised, hlast, hfails, -⟩ := verifyBlock_failed (x := x) (s := u) h
    refine ⟨hraised.between (Only.refl [] noReg u) (by simp) (hover.recs 576 (by decide)), (hreg 0x40040 (by decide) (by decide)).trans hlast, ?_⟩
    rw [hstatus]; exact hfails

end

end Sys2Proof.Machine
end

section
/-!
### TELEMETRY items (R370, R492)
-/

namespace Sys2Proof.Machine

section
variable {x : Side} {p q : Nat} {f : Frame} {dt : Nat} {s u : State}

/-- An idle UP port that is not a lace port's. -/
structure IdleUp (x : Side) (p : Nat) (s : State) : Prop where
  up : (s.port x p).state = .up
  out : (s.port x p).out = none
  waiting : (s.port x p).waiting = []
  uplink : s.role x p = 1

theorem modLnk_role (s : State) (g : Lnk → Lnk) : (s.modLnk x g).role x p = s.role x p :=
  (Only.modLnk (ps := [.lnk x]) (w := noReg) s x g (by simp)).rf (by simp [noReg]) 2 0

/-- A TELEMETRY frame starts at once on an idle port (R370). -/
theorem sendFrame_idle (h : IdleUp x p s) (hf : f.type = 4) : ((sendFrame x p f s).port x p).out = some f := by
  let s1 := s.queueFrame x p f
  have hport : s1.port x p = { s.port x p with waiting := [f] } := by
    show (s.modPort x p _).port x p = _
    rw [port_modPort, if_pos ⟨rfl, rfl⟩, h.waiting]
    rfl
  have hgo : ¬ ((s1.port x p).state ≠ .up || (s1.port x p).out.isSome) = true := by
    rw [hport]; simp [h.up, h.out]
  have hline : inLine s1 x p f = true := by simp [inLine, hf]
  have htake : takeFrame (inLine s1 x p) (s1.port x p).waiting = some (f, []) := by
    rw [hport]
    simp [takeFrame, hline, hf, framePrio, List.findIdx?_cons]
  have hrole : s1.role x p = 1 := (modLnk_role s _).trans h.uplink
  have hcredit : hasCredit s1 x p f = true := by simp [hasCredit, hrole, laceRole]
  have hnext : sendFrame x p f s = startFrame x p f (s1.modPort x p (fun q => { q with waiting := [] })) := by
    show portNext x p s1 = _
    unfold portNext
    rw [if_neg hgo, htake]
    exact if_pos hcredit
  rw [hnext, startFrame, port_modPort, if_pos ⟨rfl, rfl⟩]

/-- A frame sent on another port leaves a port alone. -/
theorem sendFrame_port_ne (h : p ≠ q) : (sendFrame x q f s).port x p = s.port x p := by
  have hmod : ∀ (g : Port → Port) (t : State), (t.modPort x q g).port x p = t.port x p := fun g t => by
    rw [port_modPort, if_neg fun k => h k.2]
  have hstart : ∀ (g : Frame) (k : Port → Port) (t : State), (startFrame x q g (t.modPort x q k)).port x p = t.port x p := fun g k t => by
    rw [startFrame, hmod, hmod]
  have hqueue : (s.queueFrame x q f).port x p = s.port x p := hmod _ s
  rw [sendFrame, ← hqueue]
  unfold portNext
  extract_lets k
  split
  · rfl
  · split
    · split
      · exact hstart _ _ _
      · rfl
    · split
      · rfl
      · extract_lets g
        split
        · rfl
        · exact hstart _ _ _

theorem sendFrame_only (x : Side) (p : Nat) (f : Frame) (s : State) : Only [.lnk x] noReg s (sendFrame x p f s) :=
  (Only.modLnk s x _ (by simp)).trans (portNext_only x p _)

theorem IdleUp.sendFrame_ne (h : IdleUp x p s) (hpq : p ≠ q) : IdleUp x p (sendFrame x q f s) := by
  have hport := sendFrame_port_ne (x := x) (f := f) (s := s) hpq
  exact ⟨by rw [hport]; exact h.up, by rw [hport]; exact h.out, by rw [hport]; exact h.waiting,
    ((sendFrame_only x q f s).rf (by simp [noReg]) 2 0).trans h.uplink⟩

/-- A TELEMETRY frame sent on several ports stands on each that was idle. -/
theorem sendFrames_idle (hf : f.type = 4) (l : List Nat) (hp : p ∈ l) (h : IdleUp x p s) :
    ((l.foldl (fun t p => sendFrame x p f t) s).port x p).out = some f := by
  induction l generalizing s with
  | nil => cases hp
  | cons q l ih =>
    rw [List.foldl_cons]
    rcases eq_or_ne p q with rfl | hpq
    · exact (Aside.foldl (fun t p => Aside.sendFrame x p f t) l _).out p f (sendFrame_idle h hf)
    · exact ih ((List.mem_cons.1 hp).resolve_left hpq) (h.sendFrame_ne hpq)

theorem frameSeq_tookSeq (x : Side) (s : State) : (s.tookSeq x 4).frameSeq x 4 = s.frameSeq x 4 + 1 := by
  unfold State.frameSeq State.tookSeq
  rw [State.modLnk_self, Sparse.get_upd, if_pos rfl]

theorem sendTelemetry_only (x : Side) (ws : List Word72) (s : State) : Only [.lnk x] noReg s (sendTelemetry x ws s) :=
  Only.foldl (fun t p => sendFrame_only x p _ t) (Only.modLnk s x _ (by simp))

theorem sendTelemetry_seq (x : Side) (ws : List Word72) (s : State) : (sendTelemetry x ws s).frameSeq x 4 = s.frameSeq x 4 + 1 :=
  (Aside.foldl (fun t p => Aside.sendFrame x p _ t) _ (s.tookSeq x 4)).seq.trans (frameSeq_tookSeq x s)

theorem sendTelemetry_out (ws : List Word72) (hp : p < 16) (ht : s.rb (Reg.EVT_TELEM x) (16 + p) = true) (h : IdleUp x p s) :
    ((sendTelemetry x ws s).port x p).out = some (plainFrame s x 4 3 (s.frameSeq x 4) ws) := by
  have htook : (s.tookSeq x 4).port x p = s.port x p := by
    unfold State.port State.tookSeq
    rw [State.modLnk_self]
  refine sendFrames_idle rfl _ ?_ ⟨by rw [htook]; exact h.up, by rw [htook]; exact h.out, by rw [htook]; exact h.waiting,
    (modLnk_role s _).trans h.uplink⟩
  simp [hp, ht, h.up, h.uplink]

theorem telemetry_ends {e : Fin 48} {ws : List Word72} (hu : s.elapse dt = u) (hr : runningOf u x e 5 = some (.telemetry ws)) :
    Next (fun t => ItemEnds x e u (.telemetry ws) t ∧ t.frameSeq x 4 = u.frameSeq x 4 + 1 ∧
      ∀ p, p < 16 → (u.port x p).state = .up → u.role x p = 1 → u.rb (Reg.EVT_TELEM x) (16 + p) = true → (u.port x p).out = none →
        (u.port x p).waiting = [] → (t.port x p).out = some (plainFrame u x 4 3 (u.frameSeq x 4) ws)) (exec (.telemetry dt x e) s) := by
  subst hu
  have hover := over_ended x e (.telemetry ws) (sendTelemetry x ws (s.elapse dt))
  have honly := sendTelemetry_only x ws (s.elapse dt)
  refine ⟨_, congrArg Host.Outcome.next (complete_done hr rfl), hover.ends_of_only honly (by simp) (by simp) (by simp [noReg]), ?_, ?_⟩
  · rw [hover.seq, sendTelemetry_seq]
  · intro p hp hup hrole ht hout hwait
    exact hover.out p _ (sendTelemetry_out ws hp ht ⟨hup, hout, hwait, hrole⟩)

end

end Sys2Proof.Machine
end

section
/-!
### CAL_REDUCE items (R114, R150, R152)
-/

namespace Sys2Proof.Machine

section
variable {x : Side} {i d : Nat} {dt : Nat} {s u : State}

/-! One ADC evaluated -/

/-- The parts that the evaluation of an ADC changes. -/
abbrev faParts : List Part := .frames :: .bg :: raising

/-- The registers that the evaluation of an ADC writes. -/
def faRegs (a : Nat) : Prop := raiseRegs a ∨ a = Reg.FRM_FA_STATUS ∨ addrBlock a = 8

theorem retireAdc_only (d : Nat) (s : State) : Only (.bg :: raising) raiseRegs s (retireAdc d s) := by
  have hbg : ∀ v : Background, Only (.bg :: raising) raiseRegs s { s with bg := v } := fun v => Only.setBg s v (by simp)
  have hlisted : ∀ v : Background, Only (.bg :: raising) raiseRegs s (raiseBase 524 sevFault noInst { s with bg := v }) := fun v =>
    (hbg v).trans ((raiseBase_only _ _ _ _).mono (by simp) fun _ => id)
  have hforce : ∀ v : Background, Only (.bg :: raising) raiseRegs s (wantUpdate { s with bg := v }) := fun v =>
    (hbg v).trans ((wantUpdate_only _).mono (by simp) fun _ => False.elim)
  unfold retireAdc
  exact Only.ite (Only.refl _ _ s) ((Only.ite (hlisted _) (hforce _)).trans ((raiseTile_only _ _ _ _ _).mono (by simp) fun _ => id))

/-- A failed attempt counted and reported (R150). -/
def faCounted (d : Nat) (s : State) : State := raiseTile (d / 1024) 4 sevNotice (d % 1024) (s.bump Reg.FRM_FA_STATUS 15 0 1)

/-- A failed attempt counted, and kept among its ADC's faults and the attempt's failures (R150, R152). -/
def faNoted (d : Nat) (s : State) : State :=
  let h := Sparse.get s.frames.faults d Faults.clear
  (faCounted d s).modFrames (fun f => { f with
    faults := Sparse.set f.faults d (if h.third s.now then Faults.clear else h.push s.now) Faults.clear
    cal := f.cal.map (fun c => { c with failed := insertNat d c.failed }) })

theorem faFailure_eq (h : s.adcRetired d = false) : faFailure s d =
    if (Sparse.get s.frames.faults d Faults.clear).third s.now then (retireAdc d (faNoted d s)).bump Reg.FRM_FA_STATUS 31 16 1
    else faNoted d s := by
  rw [faFailure, h, if_neg Bool.false_ne_true]
  rfl

theorem faCounted_only (d : Nat) (s : State) : Only faParts faRegs s (faCounted d s) :=
  (Only.bump s _ _ _ _ (.inr (.inl rfl))).trans ((raiseBase_only _ _ _ _).mono (by simp) fun _ => .inl)

theorem faNoted_only (d : Nat) (s : State) : Only faParts faRegs s (faNoted d s) :=
  (faCounted_only d s).trans (Only.setFrames _ _ (by simp))

theorem faFailure_only (d : Nat) (s : State) : Only faParts faRegs s (faFailure s d) := by
  cases h : s.adcRetired d with
  | true => rw [faFailure, h, if_pos rfl]; exact Only.refl _ _ s
  | false =>
    rw [faFailure_eq h]
    exact Only.ite (((faNoted_only d s).trans ((retireAdc_only d _).mono (by simp) fun _ => .inl)).trans
      (Only.bump _ _ _ _ _ (.inr (.inl rfl)))) (faNoted_only d s)

/-- A failed attempt leaves the measurements that wait for other evaluations. -/
theorem faFailure_measured (d : Nat) (s : State) : (faFailure s d).frames.measured = s.frames.measured := by
  have hcount : (faCounted d s).frames = s.frames := (raiseBase_only _ _ _ _).1 .frames (by decide)
  have hnoted : (faNoted d s).frames.measured = s.frames.measured := by
    show (faCounted d s).frames.measured = _
    rw [hcount]
  cases h : s.adcRetired d with
  | true => rw [faFailure, h, if_pos rfl]
  | false =>
    rw [faFailure_eq h]
    split
    · have hretire : (retireAdc d (faNoted d s)).frames = (faNoted d s).frames := (retireAdc_only d _).1 .frames (by decide)
      rw [State.bump_frames, hretire, hnoted]
    · exact hnoted

theorem not_raiseRegs_fa : ¬ raiseRegs Reg.FRM_FA_STATUS := not_raiseRegs (by decide)

/-- A failed attempt of an ADC in service is counted, and that of a retired one is not (R150, R549). -/
theorem faFailure_count (d : Nat) (s : State) : (faFailure s d).rf Reg.FRM_FA_STATUS 15 0 =
    if s.adcRetired d then s.rf Reg.FRM_FA_STATUS 15 0 else min (s.rf Reg.FRM_FA_STATUS 15 0 + 1) 65535 := by
  cases h : s.adcRetired d with
  | true => rw [faFailure, h, if_pos rfl, if_pos rfl]
  | false =>
    have hcount : (faCounted d s).rf Reg.FRM_FA_STATUS 15 0 = min (s.rf Reg.FRM_FA_STATUS 15 0 + 1) 65535 := by
      rw [faCounted, (raiseTile_only _ _ _ _ _).rf not_raiseRegs_fa, State.rf_bump_self _ _ _ (by decide) (by decide)]
      rfl
    have hnoted : (faNoted d s).rf Reg.FRM_FA_STATUS 15 0 = (faCounted d s).rf Reg.FRM_FA_STATUS 15 0 := rfl
    rw [faFailure_eq h, if_neg Bool.false_ne_true, ← hcount, ← hnoted]
    split
    · rw [State.rf_bump_ne _ _ _ (by decide) (by decide) (by decide), (retireAdc_only d _).rf not_raiseRegs_fa]
    · rfl

theorem addrBlock_adcCal (m : AdcMeas) : addrBlock (Reg.FRM_ADC_CAL (m.gs.val / 1024) (m.gs.val % 1024)) = 8 := by
  have := m.gs.isLt
  rw [Reg.FRM_ADC_CAL, Nat.add_assoc]
  exact addrBlock_tile (by omega) (by omega)

theorem faPass_only (s : State) (m : AdcMeas) : Only faParts faRegs s (faPass s m) :=
  Only.wr s _ _ (.inr (.inr (addrBlock_adcCal m)))

theorem faEvaluate_only (s : State) (q : Nat × Option AdcMeas) : Only faParts faRegs s (faEvaluate s q) := by
  unfold faEvaluate
  split
  · exact Only.ite (faPass_only s _) (faFailure_only _ s)
  · exact faFailure_only _ s

theorem faEvaluate_measured (s : State) (q : Nat × Option AdcMeas) : (faEvaluate s q).frames.measured = s.frames.measured := by
  unfold faEvaluate
  split
  · split
    · rfl
    · exact faFailure_measured _ s
  · exact faFailure_measured _ s

theorem faEvaluate_fails {q : Nat × Option AdcMeas} (h : q.2.any faPasses = false) : faEvaluate s q = faFailure s q.1 := by
  unfold faEvaluate
  cases hq : q.2 with
  | none => rfl
  | some m =>
    rw [hq] at h
    exact if_neg (ne_true_of_eq_false h)

/-! A tile's fills and measurements -/

/-- A tile's fills reduced into tables (R114). -/
def fillsReduced (i : Nat) (s : State) : State := (Sparse.get s.tdc.fills i []).foldl (fun k f => newTable f.1 (reduceFrom 0 f.2) k) s

/-- A tile's fills reduced, and its fills and measurements taken from it. -/
def tileTaken (i : Nat) (s : State) : State :=
  ((fillsReduced i s).modTdc (fun k => { k with fills := Sparse.del k.fills i })).modFrames (fun f => { f with
    measured := Sparse.del f.measured i })

theorem fillsReduced_only (i : Nat) (s : State) : Only [.tdc] noReg s (fillsReduced i s) :=
  Only.foldl (fun t f => Only.modDigi t f.1 _ (by simp)) (Only.refl _ _ s)

theorem tileTaken_only (i : Nat) (s : State) : Only [.tdc, .frames] noReg s (tileTaken i s) :=
  (((fillsReduced_only i s).mono (by simp) fun _ => id).trans (Only.setTdc _ _ (by simp))).trans (Only.setFrames _ _ (by simp))

theorem reduceTile_eq (i : Nat) (s : State) : reduceTile i s = (Sparse.get s.frames.measured i []).foldl faEvaluate (tileTaken i s) := by
  have hframes : (fillsReduced i s).frames = s.frames := (fillsReduced_only i s).1 .frames (by decide)
  rw [← hframes]
  rfl

theorem reduceTile_evaluated (i : Nat) (s : State) : Only faParts faRegs (tileTaken i s) (reduceTile i s) := by
  rw [reduceTile_eq]
  exact Only.foldl (fun t q => faEvaluate_only t q) (Only.refl _ _ _)

theorem reduceTile_only (i : Nat) (s : State) : Only (.tdc :: faParts) faRegs s (reduceTile i s) :=
  ((tileTaken_only i s).mono (by simp) fun _ => False.elim).trans ((reduceTile_evaluated i s).mono (by simp) fun _ => id)

theorem reduceTile_fills (i : Nat) (s : State) : Sparse.get (reduceTile i s).tdc.fills i [] = [] := by
  rw [show (reduceTile i s).tdc = (tileTaken i s).tdc from (reduceTile_evaluated i s).1 .tdc (by decide)]
  exact Sparse.get_del_self _ _ _

theorem reduceTile_measured (i : Nat) (s : State) : Sparse.get (reduceTile i s).frames.measured i [] = [] := by
  have hfold : (reduceTile i s).frames.measured = (tileTaken i s).frames.measured := by
    rw [reduceTile_eq]
    exact List.foldlRecOn (motive := fun t : State => t.frames.measured = (tileTaken i s).frames.measured) _ _ rfl
      fun t ht q _ => (faEvaluate_measured t q).trans ht
  rw [hfold]
  exact Sparse.get_del_self _ _ _

/-- One fill becomes its digitizer's latest table (R114). -/
theorem reduceTile_table {f : Nat × List Nat} (h : Sparse.get s.tdc.fills i [] = [f]) :
    ((reduceTile i s).digi f.1).latest = reduceFrom 0 f.2 ∧ ((reduceTile i s).digi f.1).effectAt = some (nextBoundary s) := by
  have hdigi : (reduceTile i s).digi f.1 = (newTable f.1 (reduceFrom 0 f.2) s).digi f.1 := by
    rw [(reduceTile_evaluated i s).digi (by decide)]
    show (fillsReduced i s).digi f.1 = _
    rw [fillsReduced, h]
    rfl
  rw [hdigi, newTable, State.digi_modDigi_self]
  exact ⟨rfl, rfl⟩

theorem reduceTile_one {q : Nat × Option AdcMeas} (h : Sparse.get s.frames.measured i [] = [q]) :
    reduceTile i s = faEvaluate (tileTaken i s) q := by rw [reduceTile_eq, h]; rfl

/-! The item -/

/-- What goes on after an item writes no register of the base blocks and the tiles. -/
theorem not_asideRegs_base {a : Nat} (h : addrBlock a < 16) : ¬ asideRegs x a := by
  have hlt : a < 0x00500000 := by
    by_contra hle
    rw [addrBlock, if_neg (by omega), if_neg (by omega)] at h
    omega
  have hbase : 0x01000000 ≤ sideBase x := by cases x <;> decide
  rintro (h | h | h | h | h | h)
  · exact not_raiseRegs (by omega) h
  · simp only [Reg.DSP_READY_MAX] at h; omega
  · simp only [Reg.DSP_REFUSED] at h; omega
  · simp only [Reg.CMP_ASSEMBLY] at h; omega
  · simp only [Reg.CMP_OVERFLOW] at h; omega
  · omega

theorem addrBlock_items (x : Side) (w : Work) : addrBlock (Reg.SE_ITEMS x w.kind) = 19 := by
  have := w.kind_lt
  rw [Reg.SE_ITEMS, Nat.add_assoc, addrBlock_side x (by omega)]
  omega

theorem not_faRegs_items (x : Side) (w : Work) : ¬ faRegs (Reg.SE_ITEMS x w.kind) := by
  have hb := addrBlock_items x w
  rintro (h | h | h)
  · exact not_raiseRegs (by omega) h
  · rw [h] at hb; exact absurd hb (by decide)
  · omega

theorem calReduce_ends {e : Fin 48} (hu : s.elapse dt = u) (hr : runningOf u x e 6 = some (.reduce i)) :
    Next (fun t => ItemEnds x e u (.reduce i) t ∧ Sparse.get t.tdc.fills i [] = [] ∧ Sparse.get t.frames.measured i [] = [] ∧
      (∀ f, Sparse.get u.tdc.fills i [] = [f] → (t.digi f.1).latest = reduceFrom 0 f.2 ∧
        (t.digi f.1).effectAt = some (nextBoundary u)) ∧
      (∀ m : AdcMeas, Sparse.get u.frames.measured i [] = [(m.gs.val, some m)] → faPasses m = true →
        t.rd (Reg.FRM_ADC_CAL (m.gs.val / 1024) (m.gs.val % 1024)) = faWord m) ∧
      (∀ d m, Sparse.get u.frames.measured i [] = [(d, m)] → m.any faPasses = false →
        t.rf Reg.FRM_FA_STATUS 15 0 = if u.adcRetired d then u.rf Reg.FRM_FA_STATUS 15 0 else min (u.rf Reg.FRM_FA_STATUS 15 0 + 1) 65535))
      (exec (.calReduce dt x e) s) := by
  subst hu
  have hover := over_ended x e (.reduce i) (reduceTile i (s.elapse dt))
  have honly := reduceTile_only i (s.elapse dt)
  have htaken := tileTaken_only i (s.elapse dt)
  have htdc : (ended x e (.reduce i) (reduceTile i (s.elapse dt))).tdc = _ := hover.only.1 .tdc (by simp [raising])
  have hframes : (ended x e (.reduce i) (reduceTile i (s.elapse dt))).frames = _ := hover.only.1 .frames (by simp [raising])
  have hrd : ∀ a, addrBlock a < 16 → (ended x e (.reduce i) (reduceTile i (s.elapse dt))).rd a = (reduceTile i (s.elapse dt)).rd a :=
    fun a ha => hover.rd (not_asideRegs_base ha) fun h => by have := addrBlock_items x (.reduce i); rw [← h] at this; omega
  refine ⟨_, congrArg Host.Outcome.next (complete_done hr rfl), hover.ends_of_only honly (by simp [raising]) (by simp [raising])
    (not_faRegs_items x (.reduce i)), ?_, ?_, fun f hf => ?_, fun m hm hp => ?_, fun d m hm hp => ?_⟩
  · rw [htdc]; exact reduceTile_fills i _
  · rw [hframes]; exact reduceTile_measured i _
  · have hdigi := hover.only.digi (by simp [raising]) f.1
    rw [hdigi]
    exact reduceTile_table hf
  · rw [hrd _ (by rw [addrBlock_adcCal]; decide), reduceTile_one hm, faEvaluate]
    simp only [hp, if_true]
    exact State.rd_wr_self _ _ _
  · have hcount := faFailure_count d (tileTaken i (s.elapse dt))
    have hret : (tileTaken i (s.elapse dt)).adcRetired d = (s.elapse dt).adcRetired d := by
      simp only [State.adcRetired, show (tileTaken i (s.elapse dt)).bg = (s.elapse dt).bg from htaken.1 .bg (by decide)]
    rw [hret, htaken.rf (by simp [noReg])] at hcount
    have hstatus : (ended x e (.reduce i) (reduceTile i (s.elapse dt))).rf Reg.FRM_FA_STATUS 15 0 =
        (faFailure (tileTaken i (s.elapse dt)) d).rf Reg.FRM_FA_STATUS 15 0 := by
      rw [State.rf, hrd _ (by decide), reduceTile_one hm, faEvaluate_fails hp]
      rfl
    rw [hstatus, hcount]

end

end Sys2Proof.Machine
end

section
/-!
### Outputs entered, and RECORD_BUILD items (R228, R252, R284)
-/

namespace Sys2Proof.Machine

section
variable {x : Side} {dt : Nat} {s t u : State}

/-! Outputs -/

/-- What a change beside the outputs leaves of the engines, the clock and the registers. -/
theorem Only.modCmp_aside (x : Side) (f : Cmp → Cmp) (s : State) : Only (asideParts x) (asideRegs x) s (s.modCmp x f) :=
  Only.modCmp s x f (by simp)

theorem modCmp_srcRec (x : Side) (f : Cmp → Cmp) (s : State) (n : Nat) : (s.modCmp x f).srcRec x n = s.srcRec x n := srcRec_of_recs (by simp) n

/-- An output as it stands in the store, or in the assembly buffer. -/
def Output.placed (o : Output) (sp : Option Nat) : Output := { o with spill := sp }

/-- An output entered into the assembly buffer, or into overflow (R284). -/
structure Entered (x : Side) (o : Output) (s t : State) : Prop where
  only : Only (asideParts x) (asideRegs x) s t
  recs : ∀ n ∈ [575, 576], t.srcRec x (srcOn x n) = s.srcRec x (srcOn x n)
  outputs : ∃ sp, (t.side x).cmp.outputs = (s.side x).cmp.outputs ++ [o.placed sp]

theorem noteLevel_aside (x : Side) (s : State) : Aside x s (noteLevel x s) := Aside.high (.inr (.inr (.inr (.inl rfl)))) _ _ _ s

/-- The state of an output that finds room in the assembly buffer. -/
def outputPut (x : Side) (o : Output) (s : State) : State := s.modCmp x (fun c => { c with outputs := c.outputs ++ [o] })

theorem outputPut_outputs (x : Side) (o : Output) (s : State) : ((outputPut x o s).side x).cmp.outputs = (s.side x).cmp.outputs ++ [o] := by
  rw [outputPut, State.modCmp_self]

theorem enterOutput_room {o : Output} (h : assemblyBytes s x + 9 * o.words.length ≤ 33554432) :
    enterOutput x o s = some (noteLevel x (outputPut x o s)) := if_pos h

theorem enterOutput_entered {o : Output} (h : enterOutput x o s = some t) : Entered x o s t := by
  unfold enterOutput at h
  split at h
  · cases h
    have hn := noteLevel_aside x (outputPut x o s)
    exact ⟨(Only.modCmp_aside x _ s).trans hn.only, fun n hm => (hn.recs n hm).trans (modCmp_srcRec x _ s _),
      o.spill, hn.outputs.trans (outputPut_outputs x o s)⟩
  · split at h
    · next q hq =>
      cases h
      have hb : Aside x s (q.1.bump (Reg.CMP_OVERFLOW x) 31 0 1) :=
        (Aside.storeWords hq).trans (Aside.bump (.inr (.inr (.inr (.inr (.inl rfl))))) _ _ _ _)
      refine ⟨hb.only.trans (Only.modCmp_aside x _ _), fun n hm => (modCmp_srcRec x _ _ _).trans (hb.recs n hm), some q.2, ?_⟩
      rw [State.modCmp_self, hb.outputs]
      rfl
    · cases h

theorem enterAs_only {member : Bool} {o : Output} (h : enterAs x member o s = some t) : Only (asideParts x) (asideRegs x) s t := by
  cases member with
  | true =>
    obtain ⟨q, hq, rfl⟩ := Option.map_eq_some_iff.1 h
    exact (Aside.storeWords hq).only.trans (Only.modCmp_aside x _ _)
  | false => exact (enterOutput_entered h).only

theorem enterAs_dsp {member : Bool} {o : Output} (h : enterAs x member o s = some t) : (t.side x).dsp = (s.side x).dsp :=
  (StoreWork.enterAs h).dsp x

theorem outputWaits_aside (x : Side) (member : Bool) (o : Output) (s : State) : Aside x s (outputWaits x member o s) := Aside.ringFull x _ _ s

theorem Aside.eng (h : Aside x s t) (e : Nat) : t.eng x e = s.eng x e := eng_of_engines h.engines e

/-! Records -/

/-- A piece of a record: its head, k = 0, or its tail, k = 1. -/
def recordPiece (n k : Nat) (ws : List Word72) : Output := ⟨2, BitVec.ofNat 32 n, BitVec.ofNat 48 (2 ^ 47 + k), ws, none, false⟩

/-- The members of a record, as its outputs. -/
def recordMembers (x : Side) (r : Rec) (u : State) : List Output :=
  (membersOf u x r).map (fun o => { o with record := BitVec.ofNat 32 (r.number.getD 0) })

/-- The members of a record taken up into its outputs. -/
def membersTaken (x : Side) (r : Rec) (u s : State) : State :=
  noteTaken x (BitVec.ofNat 32 (r.number.getD 0)) (recordMembers x r u) (s.modCmp x (fun c => { c with
    outputs := c.outputs ++ recordMembers x r u }))

theorem membersTaken_only (x : Side) (r : Rec) (u s : State) : Only (asideParts x) (asideRegs x) s (membersTaken x r u s) := by
  unfold membersTaken noteTaken
  exact (Only.modCmp_aside x _ s).trans (Only.modCmp_aside x _ _)

theorem membersTaken_outputs (x : Side) (r : Rec) (u s : State) :
    ((membersTaken x r u s).side x).cmp.outputs = (s.side x).cmp.outputs ++ recordMembers x r u := by
  unfold membersTaken noteTaken
  rw [State.modCmp_self, State.modCmp_self]

theorem membersTaken_dsp (x : Side) (r : Rec) (u s : State) : ((membersTaken x r u s).side x).dsp = (s.side x).dsp := by
  unfold membersTaken noteTaken
  simp only [State.modCmp_side_dsp]

theorem buildRecord_eq {id : Nat} {r : Rec} (hr : u.trg.closed.find? (fun r => r.id = id) = some r) :
    let n := r.number.getD 0
    let head := recordPiece n 0 (headPiece u r n)
    let tail := recordPiece n 1 (tailPiece u r n (Sparse.get (u.side x).dsp.accs id Acc.zero))
    buildRecord x id u = match enterOutput x head u with
      | none => .waits (outputWaits x false head u)
      | some s1 =>
        match enterOutput x tail (membersTaken x r u s1) with
        | none => .waits (outputWaits x false tail u)
        | some s2 => .done (freeAcc x id s2) := by
  intro n head tail
  rw [buildRecord, hr]
  rfl

/-- A record that finds no room waits, its engine as it was (R284). -/
theorem buildRecord_waits {id : Nat} {r : Rec} {k : State} (hr : u.trg.closed.find? (fun r => r.id = id) = some r)
    (h : buildRecord x id u = .waits k) : Aside x u k := by
  rw [buildRecord_eq hr] at h
  split at h
  · cases h; exact outputWaits_aside x _ _ u
  · split at h
    · cases h; exact outputWaits_aside x _ _ u
    · cases h

theorem freeAcc_accs (x : Side) (id : Nat) (s : State) : Sparse.get ((freeAcc x id s).side x).dsp.accs id Acc.zero = Acc.zero := by
  unfold freeAcc
  extract_lets s1 keep gone
  have h1 : Sparse.get (s1.side x).dsp.accs id Acc.zero = Acc.zero := by
    have hdsp : (s1.side x).dsp = ((s.modDsp x (fun d => { d with accs := Sparse.del d.accs id })).side x).dsp := by cases x <;> rfl
    rw [hdsp, State.modDsp_self]
    exact Sparse.get_del_self _ _ _
  have h2 : Aside x s1 (gone.foldl (fun k o => freeSpill x o.spill k) (s1.modCmp x (fun c => { c with members := keep }))) :=
    (Aside.modCmp x s1).trans (Aside.foldl (fun t o => Aside.freeSpill x o.spill t) gone _)
  exact h2.accs id h1

/-- A record built: its pieces are outputs, and its accumulator is free (R252). -/
structure RecordBuilt (x : Side) (id : Nat) (r : Rec) (u k : State) : Prop where
  only : Only (asideParts x) (asideRegs x) u k
  engines : (k.side x).dsp.engines = (u.side x).dsp.engines
  accs : Sparse.get (k.side x).dsp.accs id Acc.zero = Acc.zero
  pieces : let n := r.number.getD 0
    ∀ j ws, ((j = 0 ∧ ws = headPiece u r n) ∨ (j = 1 ∧ ws = tailPiece u r n (Sparse.get (u.side x).dsp.accs id Acc.zero))) →
      ∃ o ∈ (k.side x).cmp.outputs, o.stream = 2 ∧ o.record = BitVec.ofNat 32 n ∧ o.unit = BitVec.ofNat 48 (2 ^ 47 + j) ∧ o.words = ws

theorem buildRecord_built {id : Nat} {r : Rec} {k : State} (hr : u.trg.closed.find? (fun r => r.id = id) = some r)
    (h : buildRecord x id u = .done k) : RecordBuilt x id r u k := by
  rw [buildRecord_eq hr] at h
  split at h
  · cases h
  · next s1 h1 =>
    split at h
    · cases h
    · next s2 h2 =>
      cases h
      have hhead := enterOutput_entered h1
      have htail := enterOutput_entered h2
      have hfree := Aside.freeAcc x id s2
      have hdsp : (s2.side x).dsp = (u.side x).dsp :=
        (enterAs_dsp (member := false) h2).trans ((membersTaken_dsp x r u s1).trans (enterAs_dsp (member := false) h1))
      obtain ⟨sp, hout⟩ := hhead.outputs
      obtain ⟨sq, hall⟩ := htail.outputs
      rw [membersTaken_outputs, hout] at hall
      refine ⟨((hhead.only.trans (membersTaken_only x r u s1)).trans htail.only).trans hfree.only, by rw [hfree.engines, hdsp],
        freeAcc_accs x id s2, ?_⟩
      intro n j ws hj
      refine ⟨(recordPiece n j ws).placed (if j = 0 then sp else sq), ?_, rfl, rfl, rfl, rfl⟩
      rw [hfree.outputs, hall]
      rcases hj with ⟨rfl, rfl⟩ | ⟨rfl, rfl⟩ <;> simp [n]

theorem recordBuild_ends {e : Fin 48} {id : Nat} {r : Rec} (hu : s.elapse dt = u) (hrun : runningOf u x e 2 = some (.record id))
    (hr : u.trg.closed.find? (fun r => r.id = id) = some r) :
    let n := r.number.getD 0; let acc := Sparse.get (u.side x).dsp.accs id Acc.zero
    (∀ k, buildRecord x id u = .waits k → exec (.recordBuild dt x e) s = .next k ∧ k.eng x e = u.eng x e) ∧
    (∀ k, buildRecord x id u = .done k → Next (fun t => ItemEnds x e u (.record id) t ∧
      Sparse.get (t.side x).dsp.accs id Acc.zero = Acc.zero ∧
      ∀ k ws, ((k = 0 ∧ ws = headPiece u r n) ∨ (k = 1 ∧ ws = tailPiece u r n acc)) → ∃ o ∈ (t.side x).cmp.outputs,
        o.stream = 2 ∧ o.record = BitVec.ofNat 32 n ∧ o.unit = BitVec.ofNat 48 (2 ^ 47 + k) ∧ o.words = ws)
      (exec (.recordBuild dt x e) s)) := by
  subst hu
  intro n acc
  refine ⟨fun k hk => ⟨congrArg Host.Outcome.next (complete_waits hrun hk), (buildRecord_waits hr hk).eng e⟩, fun k hk => ?_⟩
  have hbuilt := buildRecord_built hr hk
  have hover := over_ended x e (.record id) k
  refine ⟨_, congrArg Host.Outcome.next (complete_done hrun hk),
    hover.ends (eng_of_engines hbuilt.engines e) (hbuilt.only.1 .clock (by simp [raising]))
    (hbuilt.only.rd (not_asideRegs_items x (.record id))), hover.accs id hbuilt.accs, ?_⟩
  rw [hover.outputs]
  exact hbuilt.pieces

end

end Sys2Proof.Machine
end

section
/-!
### SLICE_SORT and CLUSTER items (R239, R245–R251, R262, R266, R284)
-/

namespace Sys2Proof.Machine

section
variable {x : Side} {dt : Nat} {cl : Bool} {n : BitVec 48} {bad : InputFault} {v : UnitIn} {s t u k : State}

/-! A unit read, and removed -/

/-- What a fault does to a held unit's item before its read. -/
def heldUpset (x : Side) (i : RingItem) (bad : InputFault) (s : State) : State :=
  match bad with
  | .store n m => upsetItem x i n m s
  | _ => s

theorem readUnit_aside (x : Side) (v : UnitIn) (bad : InputFault) (s : State) : Aside x s (readUnit x v bad s).1 := by
  have hheld : ∀ i, Aside x s (heldUpset x i bad s) := fun i => by
    unfold heldUpset
    split
    · exact Aside.upsetItem x i _ _ s
    · exact Aside.refl x s
  unfold readUnit
  cases v.held.bind (findItem s x) with
  | none => exact Aside.refl x s
  | some q => exact (hheld q.2).trans (Aside.fetchItem x 1 q.2 _)

/-- A unit removed from a side. -/
structure UnitGone (x : Side) (n : BitVec 48) (s t : State) : Prop where
  only : Only (asideParts x) (asideRegs x) s t
  engines : (t.side x).dsp.engines = (s.side x).dsp.engines
  outputs : (t.side x).cmp.outputs = (s.side x).cmp.outputs
  recs : ∀ m ∈ [575, 576], t.srcRec x (srcOn x m) = s.srcRec x (srcOn x m)
  units : ∀ z ∈ (t.side x).dsp.units, z.number ≠ n

theorem removeUnit_gone (x : Side) (v : UnitIn) (s : State) : UnitGone x v.number s (removeUnit x v s) := by
  let s1 := s.modDsp x (fun d => { d with units := d.units.filter (fun w => w.number ≠ v.number) })
  have h1 : Only [.dsp x] noReg s s1 := Only.modDsp s x _ (by simp)
  have h2 : Aside x s1 (removeUnit x v s) := by
    unfold removeUnit
    split
    · exact Aside.freeItem x _ s1
    · exact Aside.refl x s1
  have hcmp : (s1.side x).cmp = (s.side x).cmp := h1.1 (.cmp x) (by simp)
  refine ⟨(h1.mono (by simp) fun _ => False.elim).trans h2.only, by rw [h2.engines, State.modDsp_self], by rw [h2.outputs, hcmp],
    fun m hm => (h2.recs m hm).trans (h1.srcRec x (by simp) _), fun z hz => ?_⟩
  rw [h2.units, State.modDsp_self, List.mem_filter] at hz
  exact of_decide_eq_true hz.2

/-! Contributions to records -/

theorem contribute_only (x : Side) (v : UnitIn) (own : List Word72) (s : State) : Only [.dsp x] noReg s (contribute x v own s) := by
  unfold contribute
  refine Only.ite (Only.refl _ _ s) (Only.foldl (fun t r => ?_) (Only.refl _ _ s))
  exact Only.ite (Only.modDsp t x _ (by simp)) (Only.refl _ _ t)

theorem contribute_engines (x : Side) (v : UnitIn) (own : List Word72) (s : State) :
    ((contribute x v own s).side x).dsp.engines = (s.side x).dsp.engines := by
  unfold contribute
  split
  · rfl
  · refine List.foldlRecOn (motive := fun t : State => (t.side x).dsp.engines = (s.side x).dsp.engines) _ _ rfl fun t ht r _ => ?_
    split
    · rw [State.modDsp_self]; exact ht
    · exact ht

/-- A unit whose words have gone into the records is removed. -/
theorem contributed_gone (x : Side) (v : UnitIn) (own : List Word72) (s : State) : UnitGone x v.number s (removeUnit x v (contribute x v own s)) := by
  have hg := removeUnit_gone x v (contribute x v own s)
  have hc := contribute_only x v own s
  have hcmp : ((contribute x v own s).side x).cmp = (s.side x).cmp := hc.1 (.cmp x) (by simp)
  exact ⟨(hc.mono (by simp) fun _ => False.elim).trans hg.only, hg.engines.trans (contribute_engines x v own s), by rw [hg.outputs, hcmp],
    fun m hm => (hg.recs m hm).trans (hc.srcRec x (by simp) _), hg.units⟩

/-! The item's work -/

theorem passUnit_waits {out : List Word72} {f : State → State} {s0 : State} (h : passUnit x v out f s0 s = .waits k) : Aside x s0 k := by
  unfold passUnit at h
  extract_lets o at h
  split at h
  · cases h
  · cases h; exact outputWaits_aside x _ _ s0

theorem passUnit_done {out : List Word72} {f : State → State} {s0 : State} (h : passUnit x v out f s0 s = .done k) :
    ∃ t, enterAs x (outputOf v out).1 (outputOf v out).2 s = some t ∧ k = f t := by
  unfold passUnit at h
  extract_lets o at h
  split at h
  · next t ht => cases h; exact ⟨t, ht, rfl⟩
  · cases h

/-- A substitute's state before its output: a staging word that could not be read is counted and reported (R266). -/
def substituteNoted (x : Side) (source : Nat) (s : State) : State :=
  (if source = 0x11 then raiseSide x 575 sevFault noInst (s.bump (Reg.SE_TRAPS x) 31 16 1) else s).tally x .substitutes 1

/-- The words of a unit's substitute. -/
def substituteOf (v : UnitIn) (n : BitVec 48) (source : Nat) (q : UnitRead) : List Word72 :=
  substitute (unitTile n.toNat) source q.bad q.pre ((q.own.set 0 (v.words.headD 0)).set (q.own.length - 1) (v.words.getLastD 0)) v.post

theorem number_of_find {l : List UnitIn} (h : l.find? (fun v => v.number = n) = some v) : v.number = n := by
  simpa using List.find?_some h

theorem sortItem_eq (hf : (u.side x).dsp.units.find? (fun v => v.number = n) = some v) : sortItem x cl n bad u =
    if unitBehind u x v then .waits u
    else match (readUnit x v bad u).2 with
      | none => .waits (readUnit x v bad u).1
      | some q => match q.source with
        | some source => passUnit x v (substituteOf v n source q) (removeUnit x v) (readUnit x v bad u).1
            (substituteNoted x source (readUnit x v bad u).1)
        | none => passUnit x v (unitOut cl v q.pre q.own) (fun k => removeUnit x v (contribute x v q.own k)) (readUnit x v bad u).1
            (readUnit x v bad u).1 := by
  rw [sortItem, show (u.dsp x).units.find? (fun v => v.number = n) = some v from hf]
  rfl

theorem sortItem_waits (hf : (u.side x).dsp.units.find? (fun v => v.number = n) = some v) (h : sortItem x cl n bad u = .waits k) :
    Aside x u k := by
  have hread := readUnit_aside x v bad u
  rw [sortItem_eq hf] at h
  split at h
  · cases h; exact Aside.refl x u
  · split at h
    · cases h; exact hread
    · split at h
      · exact hread.trans (passUnit_waits h)
      · exact hread.trans (passUnit_waits h)

/-- What a completed unit's work leaves of the clock and the engines: the unit is gone. -/
structure SortDone (x : Side) (n : BitVec 48) (u k : State) : Prop where
  clock : k.clock = u.clock
  engines : (k.side x).dsp.engines = (u.side x).dsp.engines
  units : ∀ z ∈ (k.side x).dsp.units, z.number ≠ n

theorem substituteNoted_dsp (x : Side) (source : Nat) (s : State) :
    (substituteNoted x source s).clock = s.clock ∧ ((substituteNoted x source s).side x).dsp = (s.side x).dsp := by
  have h : Only raising (fun _ => True) s (substituteNoted x source s) :=
    (Only.ite ((Only.bump s _ _ _ _ trivial).trans ((raiseSide_only _ _ _ _ _).mono (fun _ => id) fun _ _ => trivial)) (Only.refl _ _ s)).trans
      (Only.tally _ x _ _ (by cases x <;> decide))
  exact ⟨h.1 .clock (by decide), h.1 (.dsp x) (by simp [raising])⟩

theorem sortDone_of_entered {a t : State} {member : Bool} {o : Output} (hc : a.clock = u.clock)
    (he : (a.side x).dsp.engines = (u.side x).dsp.engines) (ht : enterAs x member o a = some t) (hg : UnitGone x n t k) :
    SortDone x n u k where
  clock := (hg.only.1 .clock (by simp [raising])).trans (((enterAs_only ht).1 .clock (by simp [raising])).trans hc)
  engines := by rw [hg.engines, enterAs_dsp ht, he]
  units := hg.units

theorem sortItem_done (hf : (u.side x).dsp.units.find? (fun v => v.number = n) = some v) (h : sortItem x cl n bad u = .done k) :
    SortDone x n u k := by
  have hread := readUnit_aside x v bad u
  have hclock : (readUnit x v bad u).1.clock = u.clock := hread.only.1 .clock (by simp [raising])
  have hn : v.number = n := number_of_find hf
  rw [sortItem_eq hf] at h
  split at h
  · cases h
  · split at h
    · cases h
    · split at h
      · next source _ =>
        obtain ⟨t, ht, rfl⟩ := passUnit_done h
        obtain ⟨hc, hd⟩ := substituteNoted_dsp x source (readUnit x v bad u).1
        exact sortDone_of_entered (hc.trans hclock) (by rw [hd, hread.engines]) ht (hn ▸ removeUnit_gone x v t)
      · obtain ⟨t, ht, rfl⟩ := passUnit_done h
        exact sortDone_of_entered hclock hread.engines ht (hn ▸ contributed_gone x v _ t)

/-! The item -/

/-- The item of a unit: CLUSTER or SLICE_SORT. -/
abbrev unitItem (cl : Bool) (n : BitVec 48) : Work := if cl then .cluster n else .sort n

theorem sortExec_done {e : Fin 48} (hrun : runningOf (s.elapse dt) x e (unitItem cl n).kind = some (unitItem cl n))
    (h : sortItem x cl n bad (s.elapse dt) = .done k) :
    (if cl then exec (.cluster dt x e bad) s else exec (.sliceSort dt x e bad) s) = .next (ended x e (unitItem cl n) k) := by
  cases cl with
  | true => exact congrArg Host.Outcome.next (complete_done hrun h)
  | false => exact congrArg Host.Outcome.next (complete_done hrun h)

theorem sortExec_waits {e : Fin 48} (hrun : runningOf (s.elapse dt) x e (unitItem cl n).kind = some (unitItem cl n))
    (h : sortItem x cl n bad (s.elapse dt) = .waits k) :
    (if cl then exec (.cluster dt x e bad) s else exec (.sliceSort dt x e bad) s) = .next k := by
  cases cl with
  | true => exact congrArg Host.Outcome.next (complete_waits hrun h)
  | false => exact congrArg Host.Outcome.next (complete_waits hrun h)

end

end Sys2Proof.Machine
end

section
/-!
### Units that leave an output, and those given up for an unreadable word (R239, R266)
-/

namespace Sys2Proof.Machine

section
variable {x : Side} {dt : Nat} {cl : Bool} {n : BitVec 48} {bad : InputFault} {v : UnitIn} {s t u k : State} {e : Fin 48}

/-- The output of a unit that is no member's. -/
def unitOutput (n : BitVec 48) (out : List Word72) : Output := ⟨unitKind n.toNat, 0xFFFFFFFF, n, out, none, false⟩

theorem passUnit_room {out : List Word72} {f : State → State} {s0 : State} (hacq : v.acq ≠ 2)
    (h : assemblyBytes s x + 9 * out.length ≤ 33554432) :
    passUnit x v out f s0 s = .done (f (noteLevel x (outputPut x (unitOutput v.number out) s))) := by
  have ho : outputOf v out = (false, unitOutput v.number out) := if_neg hacq
  have henter : enterAs x false (unitOutput v.number out) s = some _ := enterOutput_room h
  unfold passUnit
  rw [ho]
  simp only [henter]

/-- The places of a unit's words that its read cannot deliver from staging memory. -/
def marksOf (v : UnitIn) (bad : InputFault) : List Nat :=
  (match bad with
    | .sram i => insertNat i v.bad
    | _ => v.bad).filter (fun i => decide (i < v.pre.length + v.words.length + v.post.length))

theorem readUnit_unheld (hheld : v.held = none) (bad : InputFault) (s : State) : readUnit x v bad s =
    (s, some ⟨v.pre, v.words, if marksOf v bad = [] then none else some 0x11, marksOf v bad⟩) := by
  have hnone : v.held.bind (findItem s x) = none := by rw [hheld]; rfl
  unfold readUnit
  rw [hnone]
  rfl

/-- A unit in staging memory, all of whose words can be read. -/
theorem readUnit_whole (hheld : v.held = none) (hbad : v.bad = []) (s : State) :
    readUnit x v .none s = (s, some ⟨v.pre, v.words, none, []⟩) := by
  have hmarks : marksOf v .none = [] := congrArg (List.filter _) hbad
  rw [readUnit_unheld hheld, hmarks]
  rfl

/-- A unit in staging memory, one of whose words cannot be read. -/
theorem readUnit_marked {i : Nat} (hheld : v.held = none) (hbad : v.bad = []) (hi : i < v.pre.length + v.words.length + v.post.length)
    (s : State) : readUnit x v (.sram i) s = (s, some ⟨v.pre, v.words, some 0x11, [i]⟩) := by
  have hmarks : marksOf v (.sram i) = [i] := by
    show (insertNat i v.bad).filter _ = [i]
    rw [hbad]
    exact List.filter_cons_of_pos (decide_eq_true hi)
  rw [readUnit_unheld hheld, hmarks]
  rfl

/-- A completed unit's state k: nothing but the side's work aside and its registers differs, and its output stands last. -/
structure SortLeaves (x : Side) (n : BitVec 48) (out : List Word72) (a k : State) : Prop where
  only : Only (asideParts x) (asideRegs x) a k
  engines : (k.side x).dsp.engines = (a.side x).dsp.engines
  outputs : (k.side x).cmp.outputs = (a.side x).cmp.outputs ++ [unitOutput n out]
  recs : ∀ m ∈ [575, 576], k.srcRec x (srcOn x m) = a.srcRec x (srcOn x m)

theorem outputPut_dsp (x : Side) (o : Output) (s : State) : ((outputPut x o s).side x).dsp = (s.side x).dsp := by
  rw [outputPut, State.modCmp_side_dsp]

theorem sortLeaves_of_gone {out : List Word72} (h : UnitGone x n (noteLevel x (outputPut x (unitOutput n out) s)) k) :
    SortLeaves x n out s k := by
  have hn := noteLevel_aside x (outputPut x (unitOutput n out) s)
  exact ⟨((Only.modCmp_aside x _ s).trans hn.only).trans h.only, by rw [h.engines, hn.engines, outputPut_dsp],
    by rw [h.outputs, hn.outputs, outputPut_outputs], fun m hm => (h.recs m hm).trans ((hn.recs m hm).trans (modCmp_srcRec x _ s _))⟩

/-- A unit read whole leaves its output (R239). -/
theorem sortItem_whole (hf : (u.side x).dsp.units.find? (fun v => v.number = n) = some v) (hheld : v.held = none) (hbad : v.bad = [])
    (hbehind : unitBehind u x v = false) (hacq : v.acq ≠ 2)
    (hroom : assemblyBytes u x + 9 * (unitOut cl v v.pre v.words).length ≤ 33554432) :
    ∃ k, sortItem x cl n .none u = .done k ∧ SortLeaves x n (unitOut cl v v.pre v.words) u k := by
  have hn : v.number = n := number_of_find hf
  refine ⟨_, ?_, sortLeaves_of_gone (hn ▸ contributed_gone x v v.words _)⟩
  rw [sortItem_eq hf, hbehind, if_neg Bool.false_ne_true, readUnit_whole hheld hbad]
  dsimp only
  rw [passUnit_room hacq hroom, hn]

/-- The bytes in the assembly buffer do not depend on what a raise of events changes. -/
theorem assemblyBytes_of_only {ps : List Part} {w : Nat → Prop} (h : Only ps w s t) (hps : ps ⊆ raising) :
    assemblyBytes t x = assemblyBytes s x := by
  have out : ∀ p, p ∉ raising → p.same s t := fun p hp => h.1 p fun hm => hp (hps hm)
  have hcmp : ∀ y, (t.side y).cmp = (s.side y).cmp := fun y => out (.cmp y) (by simp [raising])
  have hdsp : ∀ y, (t.side y).dsp = (s.side y).dsp := fun y => out (.dsp y) (by simp [raising])
  have hwlt : ∀ y, (t.side y).wlt = (s.side y).wlt := fun y => out (.wlt y) (by simp [raising])
  have harb : t.arb = s.arb := out .arb (by decide)
  have hg : groupBits t = groupBits s := by simp only [groupBits, hcmp, harb]
  simp only [assemblyBytes, takenOf, keptBlocks, hg, hcmp, hdsp, hwlt]

theorem substituteNoted_eq (x : Side) (s : State) : substituteNoted x 0x11 s =
    (raiseSide x 575 sevFault noInst (s.bump (Reg.SE_TRAPS x) 31 16 1)).tally x .substitutes 1 := by
  rw [substituteNoted, if_pos rfl]

/-- The state of a unit given up for a word of staging memory, before its output. -/
theorem substituteNoted_staging (x : Side) (s : State) : let a := substituteNoted x 0x11 s
    Only raising (fun a => raiseRegs a ∨ a = Reg.SE_TRAPS x) s a ∧ RaisedSide x 575 s a ∧
    a.rf (Reg.SE_TRAPS x) 31 16 = min (s.rf (Reg.SE_TRAPS x) 31 16 + 1) 65535 := by
  intro a
  let b := s.bump (Reg.SE_TRAPS x) 31 16 1
  have hb : Only [] (fun a => a = Reg.SE_TRAPS x) s b := Only.bump s _ _ _ _ rfl
  have hr := raiseSide_only x 575 sevFault noInst b
  have ht : Only [.tally x] noReg (raiseSide x 575 sevFault noInst b) a := by
    show Only _ _ _ (substituteNoted x 0x11 s)
    rw [substituteNoted_eq]
    exact Only.tally _ x _ _ (by simp)
  refine ⟨((hb.mono (by simp) fun _ => .inr).trans (hr.mono (fun _ => id) fun _ => .inl)).trans
      (ht.mono (by cases x <;> decide) fun _ => False.elim), ?_, ?_⟩
  · exact (raiseSide_raisedSide x 575 sevFault noInst b).between hb (by simp) (ht.srcRec x (by simp) _)
  · have hreg : ¬ raiseRegs (Reg.SE_TRAPS x) := not_raiseRegs (by rw [Reg.SE_TRAPS, addrBlock_side x (by omega)]; decide)
    rw [ht.rf (by simp [noReg]), hr.rf hreg, State.rf_bump_self _ _ _ (by decide) (by decide)]
    rfl

/-- A unit given up for a word of staging memory leaves its substitute (R266). -/
theorem sortItem_substitute {i : Nat} (hf : (u.side x).dsp.units.find? (fun v => v.number = n) = some v) (hheld : v.held = none)
    (hbad : v.bad = []) (hi : i < v.pre.length + v.words.length + v.post.length) (hbehind : unitBehind u x v = false) (hacq : v.acq ≠ 2)
    (hroom : assemblyBytes u x + 9 * (substituteOf v n 0x11 ⟨v.pre, v.words, some 0x11, [i]⟩).length ≤ 33554432) :
    ∃ k, sortItem x cl n (.sram i) u = .done k ∧
      SortLeaves x n (substituteOf v n 0x11 ⟨v.pre, v.words, some 0x11, [i]⟩) (substituteNoted x 0x11 u) k := by
  have hn : v.number = n := number_of_find hf
  have hbytes := assemblyBytes_of_only (x := x) (substituteNoted_staging x u).1 (fun _ => id)
  refine ⟨_, ?_, sortLeaves_of_gone (hn ▸ removeUnit_gone x v _)⟩
  rw [sortItem_eq hf, hbehind, if_neg Bool.false_ne_true, readUnit_marked hheld hbad hi]
  dsimp only
  rw [passUnit_room hacq (by rw [hbytes]; exact hroom), hn]

/-! The item -/

theorem sort_free (hrun : runningOf (s.elapse dt) x e (unitItem cl n).kind = some (unitItem cl n))
    (hf : ((s.elapse dt).side x).dsp.units.find? (fun v => v.number = n) = some v) (h : sortItem x cl n bad (s.elapse dt) = .done k) :
    Next (fun t => ItemFree x e (s.elapse dt) (unitItem cl n) t ∧ ∀ z ∈ (t.side x).dsp.units, z.number ≠ n)
      (if cl then exec (.cluster dt x e bad) s else exec (.sliceSort dt x e bad) s) := by
  have hdone := sortItem_done hf h
  have hover := over_ended x e (unitItem cl n) k
  refine ⟨_, sortExec_done hrun h, hover.free (eng_of_engines hdone.engines e) hdone.clock, ?_⟩
  rw [hover.units]
  exact hdone.units

/-- A unit's item over, whose work has changed no count of items before its output. -/
theorem SortLeaves.ends {out : List Word72} {a : State} (h : SortLeaves x n out a k) (hc : a.clock = u.clock)
    (hd : (a.side x).dsp.engines = (u.side x).dsp.engines)
    (hr : a.rd (Reg.SE_ITEMS x (unitItem cl n).kind) = u.rd (Reg.SE_ITEMS x (unitItem cl n).kind))
    (ht : Over x e (unitItem cl n) k t) : ItemEnds x e u (unitItem cl n) t := by
  exact ht.ends (eng_of_engines (h.engines.trans hd) e) ((h.only.1 .clock (by simp [raising])).trans hc) ((h.only.rd (not_asideRegs_items x _)).trans hr)

theorem sort_whole (hrun : runningOf (s.elapse dt) x e (unitItem cl n).kind = some (unitItem cl n))
    (hf : ((s.elapse dt).side x).dsp.units.find? (fun v => v.number = n) = some v) (hheld : v.held = none) (hbad : v.bad = [])
    (hbehind : unitBehind (s.elapse dt) x v = false) (hacq : v.acq ≠ 2)
    (hroom : assemblyBytes (s.elapse dt) x + 9 * (unitOut cl v v.pre v.words).length ≤ 33554432) :
    Next (fun t => ItemEnds x e (s.elapse dt) (unitItem cl n) t ∧ (t.side x).cmp.outputs =
        ((s.elapse dt).side x).cmp.outputs ++ [unitOutput n (unitOut cl v v.pre v.words)])
      (if cl then exec (.cluster dt x e .none) s else exec (.sliceSort dt x e .none) s) := by
  obtain ⟨k, hk, hleaves⟩ := sortItem_whole hf hheld hbad hbehind hacq hroom
  have hover := over_ended x e (unitItem cl n) k
  exact ⟨_, sortExec_done hrun hk, hleaves.ends rfl rfl rfl hover, by rw [hover.outputs, hleaves.outputs]⟩

theorem sort_substitute {i : Nat} (hrun : runningOf (s.elapse dt) x e (unitItem cl n).kind = some (unitItem cl n))
    (hf : ((s.elapse dt).side x).dsp.units.find? (fun v => v.number = n) = some v) (hheld : v.held = none) (hbad : v.bad = [])
    (hi : i < v.pre.length + v.words.length + v.post.length) (hbehind : unitBehind (s.elapse dt) x v = false) (hacq : v.acq ≠ 2)
    (hroom : assemblyBytes (s.elapse dt) x + 9 * (substituteOf v n 0x11 ⟨v.pre, v.words, some 0x11, [i]⟩).length ≤ 33554432) :
    Next (fun t => ItemEnds x e (s.elapse dt) (unitItem cl n) t ∧ RaisedSide x 575 (s.elapse dt) t ∧
        t.rf (Reg.SE_TRAPS x) 31 16 = min ((s.elapse dt).rf (Reg.SE_TRAPS x) 31 16 + 1) 65535)
      (if cl then exec (.cluster dt x e (.sram i)) s else exec (.sliceSort dt x e (.sram i)) s) := by
  obtain ⟨k, hk, hleaves⟩ := sortItem_substitute (cl := cl) hf hheld hbad hi hbehind hacq hroom
  obtain ⟨honly, hraised, htraps⟩ := substituteNoted_staging x (s.elapse dt)
  have hover := over_ended x e (unitItem cl n) k
  have hitems : ¬ (raiseRegs (Reg.SE_ITEMS x (unitItem cl n).kind) ∨ Reg.SE_ITEMS x (unitItem cl n).kind = Reg.SE_TRAPS x) := by
    rintro (h | h)
    · exact not_raiseRegs (by rw [addrBlock_items]; decide) h
    · simp only [Reg.SE_ITEMS, Reg.SE_TRAPS] at h; omega
  have hreg : ¬ asideRegs x (Reg.SE_TRAPS x) := not_asideRegs_side x (by decide) (by decide) (by decide)
  have hdsp : ((substituteNoted x 0x11 (s.elapse dt)).side x).dsp = ((s.elapse dt).side x).dsp := honly.1 (.dsp x) (by simp [raising])
  have hends := hleaves.ends (cl := cl) (honly.1 .clock (by decide)) (by rw [hdsp]) (honly.rd hitems) hover
  refine ⟨_, sortExec_done hrun hk, hends, ?_, ?_⟩
  · exact hraised.between (Only.refl [] noReg _) (by simp) ((hover.recs 575 (by decide)).trans (hleaves.recs 575 (by decide)))
  · have hrd := hover.rd hreg (by simp only [Reg.SE_ITEMS, Reg.SE_TRAPS]; omega)
    rw [State.rf, hrd, ← State.rf, hleaves.only.rf hreg, htraps]

end

end Sys2Proof.Machine
end

section
/-!
### LACE_MERGE items (R255, R432, R433), and all work items
-/

namespace Sys2Proof.Machine

section
variable {x : Side} {dt : Nat} {s t u k : State} {e : Fin 48}

/-- The engines of a side run on, in the same tick. -/
structure EnginesRun (x : Side) (s t : State) : Prop where
  clock : t.clock = s.clock
  engines : (t.side x).dsp.engines = (s.side x).dsp.engines

namespace EnginesRun

theorem refl (x : Side) (s : State) : EnginesRun x s s := ⟨rfl, rfl⟩

theorem trans (h : EnginesRun x s t) (k : EnginesRun x t u) : EnginesRun x s u := ⟨k.clock.trans h.clock, k.engines.trans h.engines⟩

theorem of_only {ps : List Part} {w : Nat → Prop} (h : Only ps w s t) (hd : .dsp x ∉ ps) (hc : .clock ∉ ps) : EnginesRun x s t :=
  ⟨h.1 .clock hc, by rw [show (t.side x).dsp = (s.side x).dsp from h.1 (.dsp x) hd]⟩

theorem eng (h : EnginesRun x s t) (e : Nat) : t.eng x e = s.eng x e := eng_of_engines h.engines e

/-- A change of a side's ports. -/
theorem lnk {y : Side} {w : Nat → Prop} (h : Only [.lnk y] w s t) : EnginesRun x s t := of_only h (by simp) (by simp)

theorem modLnk (y : Side) (f : Lnk → Lnk) (s : State) : EnginesRun x s (s.modLnk y f) :=
  lnk (Only.modLnk (ps := [.lnk y]) (w := noReg) s y f (by simp))

end EnginesRun

theorem Aside.run (h : Aside x s t) : EnginesRun x s t := ⟨h.only.1 .clock (by simp [raising]), h.engines⟩

/-! Frames sent on -/

theorem returnReply_run (y : Side) (p : Nat) (f : Frame) (s : State) : EnginesRun x s (returnReply y p f s) := by
  unfold returnReply
  split
  · exact .refl x s
  · next r _ =>
    extract_lets s1
    have h1 : EnginesRun x s s1 := by
      have hmgt : Only [.mgt y] noReg s s1 := Only.ite (Only.refl _ _ s) (Only.modMgt s y _ (by simp))
      exact .of_only hmgt (by simp) (by simp)
    split
    · exact h1.trans (.lnk (sendFrame_only _ _ f s1))
    · exact h1.trans (.of_only (deliver_only y .spi _ s1) (by cases x <;> decide) (by decide))
    · exact h1

theorem forwardParcel_run {p : Nat} {a : Parcel} (h : forwardParcel x p s a = some t) : EnginesRun x s t := by
  unfold forwardParcel at h
  extract_lets ahead at h
  split at h
  · cases h
  · split at h
    · next q _ =>
      split at h
      · cases h
      · split at h
        · cases h; exact (EnginesRun.modLnk x _ s).trans (.lnk (portNext_only x q _))
        · cases h; exact .lnk (sendFrame_only x q _ s)
    · split at h
      · extract_lets b at h
        split at h
        · cases h; exact .modLnk x _ s
        · cases h
      · split at h
        · cases h; exact returnReply_run x p _ s
        · obtain ⟨q, -, rfl⟩ := Option.map_eq_some_iff.1 h
          exact .lnk (sendFrame_only x q _ s)

theorem freeFrames_aside (x : Side) (l : List (Nat × Frame)) (s : State) : Aside x s (freeFrames x l s) := by
  unfold freeFrames
  exact Aside.foldl (f := fun t (q : Nat × Frame) => freeItem x q.1 t) (fun t q => Aside.freeItem x q.1 t) l s

theorem forwardAll_run (x : Side) (p : Nat) (l : List Parcel) (s : State) : EnginesRun x s (forwardAll x p l s).1 := by
  induction l generalizing s with
  | nil => exact .refl x s
  | cons a l ih =>
    rw [forwardAll]
    split
    · next t ht => exact ((forwardParcel_run ht).trans (freeFrames_aside x a.frames t).run).trans (ih _)
    · exact .refl x s

theorem fetchFrames_aside (x : Side) (l : List (Nat × Frame)) (s : State) : Aside x s (fetchFrames x l s).1 := by
  refine List.foldlRecOn (motive := fun a : State × Bool => Aside x s a.1) _ _ (Aside.refl x s) fun a ha q _ => ?_
  split
  · exact ha.trans (Aside.fetchItem x 3 _ a.1)
  · exact ha

/-! The item -/

/-- The parcels of a LACE_MERGE item's frames, with what the port holds (R433). -/
def mergeParcels (x : Side) (p : Nat) (l : List (Nat × Frame)) (u : State) : List Parcel × List (Nat × Frame) × List (Nat × Frame) :=
  parcels [] [] (Sparse.get (u.side x).lce.hold p [] ++ l)

/-- The parcels of an item that cannot leave. -/
def mergeRest (x : Side) (p : Nat) (l : List (Nat × Frame)) (u v : State) : List Parcel := (forwardAll x p (mergeParcels x p l u).1 v).2

/-- The state in which the parcels of an item have been sent on as far as they can leave. -/
def mergeSent (x : Side) (p : Nat) (l : List (Nat × Frame)) (u v : State) : State :=
  (freeFrames x (mergeParcels x p l u).2.2 (forwardAll x p (mergeParcels x p l u).1 v).1).modLce x (fun d => { d with
    hold := Sparse.set d.hold p ((mergeRest x p l u v).flatMap Parcel.frames ++ (mergeParcels x p l u).2.1) [] })

theorem mergeFrames_eq (x : Side) (e p : Nat) (l : List (Nat × Frame)) (u : State) :
    let r := fetchFrames x ((mergeParcels x p l u).1.flatMap Parcel.frames ++ (mergeParcels x p l u).2.2) u
    mergeFrames x e p l u = if !r.2 then .waits r.1
      else if mergeRest x p l u r.1 = [] then .done (mergeSent x p l u r.1)
      else .waits ((mergeSent x p l u r.1).modEng x e (fun g => { g with
        item := g.item.map (fun i => ({ i.1 with work := .merge p [] }, i.2)) })) := rfl

theorem mergeSent_run (x : Side) (p : Nat) (l : List (Nat × Frame)) (u v : State) : EnginesRun x v (mergeSent x p l u v) := by
  have hlce : ∀ (f : Lce → Lce) (t : State), EnginesRun x t (t.modLce x f) := fun f t =>
    .of_only (Only.modLce (ps := [.lce x]) (w := noReg) t x f (by simp)) (by simp) (by simp)
  exact ((forwardAll_run x p _ v).trans (freeFrames_aside x _ _).run).trans (hlce _ _)

theorem mergeSent_hold {p : Nat} {l : List (Nat × Frame)} {v : State} (h : mergeRest x p l u v = []) :
    Sparse.get ((mergeSent x p l u v).side x).lce.hold p [] = (mergeParcels x p l u).2.1 := by
  unfold mergeSent
  rw [State.modLce_self, h]
  exact Sparse.get_set_self _ p _ []

theorem laceMerge_ends {p : Nat} {l : List (Nat × Frame)} (hu : s.elapse dt = u) (hrun : runningOf u x e 3 = some (.merge p l)) :
    (∀ k, mergeFrames x e p l u = .waits k → exec (.laceMerge dt x e) s = .next k ∧
      ((k.eng x e).item = (u.eng x e).item ∨
        (k.eng x e).item = (u.eng x e).item.map (fun q => ({ q.1 with work := .merge p [] }, q.2)))) ∧
    (∀ k, mergeFrames x e p l u = .done k → Next (fun t => ItemFree x e u (.merge p l) t ∧ Sparse.get (t.side x).lce.hold p [] =
      (parcels [] [] (Sparse.get (u.side x).lce.hold p [] ++ l)).2.1) (exec (.laceMerge dt x e) s)) := by
  subst hu
  have hfetch := fetchFrames_aside x ((mergeParcels x p l (s.elapse dt)).1.flatMap Parcel.frames ++ (mergeParcels x p l (s.elapse dt)).2.2)
    (s.elapse dt)
  have hsent := hfetch.run.trans (mergeSent_run x p l (s.elapse dt) _)
  refine ⟨fun k hk => ⟨congrArg Host.Outcome.next (complete_waits hrun hk), ?_⟩, fun k hk => ?_⟩
  · rw [mergeFrames_eq] at hk
    split at hk
    · cases hk; exact .inl (by rw [hfetch.eng])
    · split at hk
      · cases hk
      · cases hk; exact .inr (by rw [State.eng_modEng_self, hsent.eng])
  · have hdone : exec (.laceMerge dt x e) s = .next (ended x e (.merge p l) k) := congrArg Host.Outcome.next (complete_done hrun hk)
    rw [mergeFrames_eq] at hk
    split at hk
    · cases hk
    · split at hk
      · next hnone =>
        have hover := over_ended x e (.merge p l) k
        have hlce : ((ended x e (.merge p l) k).side x).lce = (k.side x).lce := hover.only.1 (.lce x) (by simp [raising])
        rw [Passed.done.inj hk] at hsent
        refine ⟨_, hdone, hover.free (hsent.eng e) hsent.clock, ?_⟩
        rw [hlce, ← Passed.done.inj hk]
        exact mergeSent_hold hnone
      · cases hk

end

/-- Settles O45: a work's result is `ended` once its engine is freed (`over_ended`), and what then goes on leaves engines, units, outputs,
ports and the registers of the statement alone (`Aside`); each kind of work has a lemma of its own that says what it leaves. -/
theorem workItemsComplete : Obligations.WorkItemsComplete := by
  intro dt x e bad s u g free done
  refine ⟨?_, ?_, ?_, ?_, ?_, ?_, ?_⟩
  · intro cl n v w o hrun hf
    refine ⟨fun hb => ?_, fun k hk => ⟨sortExec_waits hrun hk, (sortItem_waits hf hk).eng e⟩, fun k hk => sort_free hrun hf hk, ?_, ?_⟩
    · exact sortExec_waits hrun (by rw [sortItem_eq hf, hb, if_pos rfl])
    · intro out hbad hheld hmarks hbehind hacq hroom
      subst hbad
      exact sort_whole hrun hf hheld hmarks hbehind hacq hroom
    · intro i hbad hi hheld hmarks hbehind hacq own hroom
      subst hbad
      exact sort_substitute hrun hf hheld hmarks hi hbehind hacq hroom
  · intro id r hrun hr
    exact recordBuild_ends rfl hrun hr
  · intro p l hrun
    exact laceMerge_ends rfl hrun
  · intro b hrun hd
    exact verify_waits rfl hrun hd
  · intro b hrun hd
    exact verify_ends rfl hrun hd
  · intro ws hrun
    exact telemetry_ends rfl hrun
  · intro i hrun _
    exact calReduce_ends rfl hrun

end Sys2Proof.Machine
end

section
/-!
### FA_CAL: phases, the end of an attempt, and the evaluation of an ADC (R149, R150, R152, R237, R549)
-/

namespace Sys2Proof.Machine

section
variable {dt : Nat} {meas : List AdcMeas} {s u : State} {k : FaCal}

theorem faCalPhaseStart_starts (hu : s.elapse dt = u) (hk : u.frames.cal = some k) (hp : k.phase < 2)
    (ht : k.since + faPhaseAt k.attempt (k.phase + 1) ≤ u.clock.ticks) :
    exec (.faCalPhaseStart dt) s = .next (u.modFrames (fun f => { f with cal := some { k with phase := k.phase + 1 } })) := by
  subst hu
  show execFaCalPhaseStart dt s = _
  simp only [execFaCalPhaseStart, hk, hp, ht, decide_true, Bool.and_true, if_true]

/-! CAL_REDUCE items created -/

/-- What the creation of an item leaves: the items that wait stay, and no event but 573 is raised. -/
structure ItemMade (s t : State) : Prop where
  only : Only reduceParts enqueueRegs s t
  waits : ∀ x i, reduceWaits s x i = true → reduceWaits t x i = true
  record : ∀ x, t.srcRec x 530 = s.srcRec x 530

theorem reduceWaits_of_dsp {s t : State} {x : Side} (h : (t.side x).dsp = (s.side x).dsp) (i : Nat) :
    reduceWaits t x i = reduceWaits s x i := by simp only [reduceWaits, h]

theorem raiseSide_srcRec_base {x : Side} {m n : Nat} (h : n < m) (sev inst : Nat) (y : Side) (s : State) :
    (raiseSide x m sev inst s).srcRec y n = s.srcRec y n := by
  unfold raiseSide
  split
  · exact (raiseAt_srcRec x y (srcOn x m) sev inst n s).trans (if_neg fun k => by have := k.2; unfold srcOn at this; omega)
  · rfl

/-- An item enters the ready list or the producer's hands, behind what is there (R255, R260). -/
theorem enqueueItem_lists (x : Side) (w : Work) (s : State) : ∃ l h,
    ((enqueueItem x w s).side x).dsp.ready = (s.side x).dsp.ready ++ l ∧
    ((enqueueItem x w s).side x).dsp.held = (s.side x).dsp.held ++ h ∧ (w ∈ l.map (·.2.work) ∨ w ∈ h.map (·.work)) := by
  have hraise : ∀ t : State, ((raiseSide x 573 sevNotice noInst t).side x).dsp = (t.side x).dsp := fun t =>
    (raiseSide_only x 573 _ _ t).1 (.dsp x) (by cases x <;> decide)
  unfold enqueueItem
  extract_lets n s1
  have h1 : (s1.side x).dsp = _ := State.modDsp_self _ x _
  split
  · exact ⟨[], [⟨w, s.clock.ticks⟩], by simp, by rw [State.modDsp_self], .inr (by simp)⟩
  · split
    · exact ⟨[(prioOf s x w, ⟨w, s.clock.ticks⟩)], [], by rw [State.high_side, State.modDsp_self], by simp, .inl (by simp)⟩
    · refine ⟨[], [⟨w, s.clock.ticks⟩], ?_, ?_, .inr (by simp)⟩
      · split
        · simp [h1]
        · simp [hraise, h1]
      · split
        · simp [h1]
        · simp [hraise, h1]

theorem enqueueItem_srcRec {n : Nat} (h : n < 573) (x y : Side) (w : Work) (s : State) : (enqueueItem x w s).srcRec y n = s.srcRec y n := by
  have hmod : ∀ (t : State) (f : Dsp → Dsp), (t.modDsp x f).srcRec y n = t.srcRec y n := fun t f =>
    (Only.modDsp (ps := [.dsp x]) (w := noReg) t x f (by simp)).srcRec y (by simp) n
  unfold enqueueItem
  extract_lets c s1
  split
  · exact hmod s _
  · split
    · exact ((Only.high (ps := []) (w := fun _ => True) _ _ _ _ _ trivial).srcRec y (by simp) n).trans (hmod s _)
    · have h1 : s1.srcRec y n = s.srcRec y n :=
        (hmod _ _).trans ((Only.bump (ps := []) (w := fun _ => True) s _ _ _ _ trivial).srcRec y (by simp) n)
      split
      · exact h1
      · exact (raiseSide_srcRec_base h _ _ y s1).trans h1

theorem enqueueItem_waits (x : Side) (w : Work) (s : State) {y : Side} {i : Nat}
    (h : reduceWaits s y i = true ∨ y = x ∧ w = .reduce i) : reduceWaits (enqueueItem x w s) y i = true := by
  rcases eq_or_ne y x with rfl | hy
  · obtain ⟨l, k, hready, hheld, hw⟩ := enqueueItem_lists y w s
    have hnew : w = .reduce i → (l.any (fun q => q.2.work = .reduce i) || k.any (fun q => q.work = .reduce i)) = true := by
      rintro rfl
      simpa using hw
    simp only [reduceWaits, hready, hheld, List.any_append, Bool.or_eq_true] at h hnew ⊢
    tauto
  · have hdsp : ((enqueueItem x w s).side y).dsp = (s.side y).dsp :=
      (enqueueItem_only x w s).1 (.dsp y) (by cases x <;> cases y <;> revert hy <;> decide)
    rw [reduceWaits_of_dsp hdsp]
    exact h.resolve_right fun k => hy k.1

theorem wantReduce_made (i : Nat) (s : State) : ItemMade s (wantReduce i s) := by
  refine ⟨wantReduce_only i s, fun y j h => ?_, fun y => ?_⟩
  · unfold wantReduce
    extract_lets x
    split
    · exact h
    · exact enqueueItem_waits x _ s (.inl h)
  · unfold wantReduce
    extract_lets x
    split
    · rfl
    · exact enqueueItem_srcRec (by decide) x y _ s

/-- A tile's CAL_REDUCE item waits once it has been created (R237, R240). -/
theorem wantReduce_waits {i : Nat} (h : s.serving (reduceSide s) = true) : reduceWaits (wantReduce i s) (reduceSide s) i = true := by
  unfold wantReduce
  extract_lets x
  split
  · next hno =>
    rw [Bool.or_eq_true, Bool.not_eq_true'] at hno
    exact hno.resolve_left (by rw [h]; decide)
  · exact enqueueItem_waits x _ s (.inr ⟨rfl, rfl⟩)

/-! What an attempt measured -/

/-- What an attempt measured on those of its ADCs that a tile has. -/
def measuredOf (included : List Nat) (meas : List AdcMeas) (i : Nat) : List (Nat × Option AdcMeas) :=
  (included.filter (fun d => d / 1024 = i)).map (fun d => (d, meas.find? (fun m => m.gs.val = d)))

/-- What the measurements of tiles kept, and their items created, leave. -/
structure Measured (s t : State) : Prop where
  only : Only (.frames :: reduceParts) enqueueRegs s t
  waits : ∀ x i, reduceWaits s x i = true → reduceWaits t x i = true
  record : ∀ x, t.srcRec x 530 = s.srcRec x 530
  frames : ∃ m, t.frames = { s.frames with measured := m }

theorem Measured.refl (s : State) : Measured s s := ⟨Only.refl _ _ s, fun _ _ => id, fun _ => rfl, _, rfl⟩

theorem Measured.trans {s t v : State} (h : Measured s t) (k : Measured t v) : Measured s v where
  only := h.only.trans k.only
  waits x i hw := k.waits x i (h.waits x i hw)
  record x := (k.record x).trans (h.record x)
  frames := by
    obtain ⟨m, hm⟩ := h.frames
    obtain ⟨n, hn⟩ := k.frames
    exact ⟨n, by rw [hn, hm]⟩

theorem Measured.serving {s t : State} (h : Measured s t) (x : Side) : t.serving x = s.serving x := by
  simp only [State.serving, show t.power = s.power from h.only.1 .power (by decide), show t.arb = s.arb from h.only.1 .arb (by decide)]

theorem Measured.reduceSide {s t : State} (h : Measured s t) : reduceSide t = reduceSide s := by
  simp only [Machine.reduceSide, h.serving, show t.arb = s.arb from h.only.1 .arb (by decide)]

/-- One tile's measurements: kept for it alone, and its item created where there are any. -/
theorem faMeasured_spec (l : List Nat) (meas : List AdcMeas) (s : State) (i : Nat) : let t := faMeasured l meas s i
    Measured s t ∧ (∀ j, Sparse.get t.frames.measured j [] =
      if j = i then Sparse.get s.frames.measured i [] ++ measuredOf l meas i else Sparse.get s.frames.measured j []) ∧
    (l.filter (fun d => d / 1024 = i) ≠ [] → s.serving (reduceSide s) = true → reduceWaits t (reduceSide s) i = true) := by
  intro t
  rcases eq_or_ne (l.filter (fun d => d / 1024 = i)) [] with h | h
  · have ht : t = s := if_pos h
    rw [ht]
    refine ⟨Measured.refl s, fun j => ?_, fun hne => absurd h hne⟩
    rw [measuredOf, h, List.map_nil, List.append_nil]
    split
    · next hj => rw [hj]
    · rfl
  · let v := s.modFrames (fun f => { f with measured := Sparse.upd f.measured i [] (· ++ measuredOf l meas i) })
    have ht : t = wantReduce i v := if_neg h
    have hv : Only [.frames] enqueueRegs s v := Only.setFrames s _ (by simp)
    have hmade := wantReduce_made i v
    have hframes : t.frames = v.frames := ht ▸ hmade.only.1 .frames (by decide)
    refine ⟨⟨?_, fun x j hw => ?_, fun x => ?_, _, hframes⟩, fun j => ?_, fun _ hs => ?_⟩
    · rw [ht]
      exact (hv.mono (by simp) fun _ => id).trans (hmade.only.mono (by simp) fun _ => id)
    · rw [ht]
      exact hmade.waits x j hw
    · rw [ht, hmade.record]
      exact hv.srcRec x (by simp) 530
    · rw [hframes]
      exact Sparse.get_upd s.frames.measured i j [] (· ++ measuredOf l meas i)
    · rw [ht]
      exact wantReduce_waits hs

theorem faMeasured_fold (l : List Nat) (meas : List AdcMeas) (s : State) (n : Nat) :
    let t := (List.range n).foldl (faMeasured l meas) s
    Measured s t ∧ (∀ i, Sparse.get t.frames.measured i [] =
      if i < n then Sparse.get s.frames.measured i [] ++ measuredOf l meas i else Sparse.get s.frames.measured i []) ∧
    (∀ i, i < n → l.filter (fun d => d / 1024 = i) ≠ [] → s.serving (reduceSide s) = true →
      reduceWaits t (reduceSide s) i = true) := by
  induction n with
  | zero => exact ⟨Measured.refl s, fun _ => rfl, fun _ h => absurd h (Nat.not_lt_zero _)⟩
  | succ n ih =>
    intro t
    obtain ⟨hm, hget, hwait⟩ := ih
    obtain ⟨hm', hget', hwait'⟩ := faMeasured_spec l meas ((List.range n).foldl (faMeasured l meas) s) n
    have ht : t = faMeasured l meas ((List.range n).foldl (faMeasured l meas) s) n := by
      simp only [t, List.range_succ, List.foldl_append, List.foldl_cons, List.foldl_nil]
    rw [ht]
    refine ⟨hm.trans hm', fun i => ?_, fun i hi hl hs => ?_⟩
    · rw [hget' i]
      split
      · next h => subst h; rw [hget, if_neg (lt_irrefl _), if_pos (Nat.lt_succ_self _)]
      · next h => rw [hget]; simp only [show i < n ↔ i < n + 1 from by omega]
    · rcases Nat.lt_succ_iff_lt_or_eq.1 hi with h | rfl
      · exact hm'.waits _ _ (hwait i h hl hs)
      · rw [← hm.reduceSide]
        exact hwait' hl (by rw [hm.reduceSide, hm.serving]; exact hs)

/-- The state in which what the present attempt measured is kept (R237). -/
def attemptMeasured (k : FaCal) (meas : List AdcMeas) (s : State) : State := (List.range 64).foldl (faMeasured (faIncluded s k) meas) s

/-- What an attempt measured stands in t, and the items that evaluate it wait there. -/
def MeasuredIn (k : FaCal) (meas : List AdcMeas) (s t : State) : Prop :=
  ∀ i, i < 64 → Sparse.get t.frames.measured i [] = Sparse.get s.frames.measured i [] ++ measuredOf (faIncluded s k) meas i ∧
    ((faIncluded s k).filter (fun d => d / 1024 = i) ≠ [] → s.serving (reduceSide s) = true → reduceWaits t (reduceSide s) i = true)

theorem MeasuredIn.of_eq {t v : State} (h : MeasuredIn k meas s v) (hm : t.frames.measured = v.frames.measured)
    (hd : ∀ x, (t.side x).dsp = (v.side x).dsp) : MeasuredIn k meas s t := fun i hi => by
  rw [hm, reduceWaits_of_dsp (hd _)]
  exact h i hi

theorem attemptMeasured_spec (k : FaCal) (meas : List AdcMeas) (s : State) :
    Measured s (attemptMeasured k meas s) ∧ MeasuredIn k meas s (attemptMeasured k meas s) := by
  obtain ⟨hm, hget, hwait⟩ := faMeasured_fold (faIncluded s k) meas s 64
  exact ⟨hm, fun i hi => ⟨(hget i).trans (if_pos hi), hwait i hi⟩⟩

/-- The state in which the third attempt has ended (R149). -/
def calEnded (s : State) : State := (s.modFrames (fun f => { f with cal := none })).wf Reg.FRM_STATUS 1 0 2

theorem calEnded_only (s : State) : Only [.frames] (fun a => a = Reg.FRM_STATUS) s (calEnded s) :=
  (Only.setFrames s _ (by simp)).trans (Only.wf _ _ _ _ _ rfl)

theorem faCalAttemptEnd_exec (hu : s.elapse dt = u) (hk : u.frames.cal = some k) (ht : k.since + k.attempt * 1800000000 ≤ u.clock.ticks) :
    exec (.faCalAttemptEnd dt meas) s = .next (if k.attempt < 3 then (attemptMeasured k meas u).modFrames (fun f => { f with
        cal := some { k with
          attempt := k.attempt + 1
          phase := 0
          failed := [] } })
      else raiseBase 530 sevInfo noInst (calEnded (attemptMeasured k meas u))) := by
  subst hu
  show execFaCalAttemptEnd dt meas s = _
  simp only [execFaCalAttemptEnd, hk, Nat.not_lt.2 ht, if_false]
  rw [apply_ite Host.Outcome.next]
  rfl

/-- The end of an attempt (R149): what it measured is kept, and the next attempt begins, or the calibration ends. -/
theorem faCalAttemptEnd_ends (hu : s.elapse dt = u) (hk : u.frames.cal = some k) (ht : k.since + k.attempt * 1800000000 ≤ u.clock.ticks) :
    Happens ([.frames] ++ bothOf .evt ++ bothOf .dsp ++ bothOf .tally) (inBlocks [6, 17, 19]) u (fun t =>
      (k.attempt < 3 → t.frames.cal = some { k with attempt := k.attempt + 1, phase := 0, failed := [] }) ∧
      (3 ≤ k.attempt → t.frames.cal = none ∧ t.rf Reg.FRM_STATUS 1 0 = 2 ∧ RaisedBase 530 u t) ∧
      t.frames.faults = u.frames.faults ∧ MeasuredIn k meas u t) (exec (.faCalAttemptEnd dt meas) s) := by
  obtain ⟨hm, hin⟩ := attemptMeasured_spec k meas u
  obtain ⟨n, hframes⟩ := hm.frames
  have honly : Only ([.frames] ++ bothOf .evt ++ bothOf .dsp ++ bothOf .tally) (inBlocks [6, 17, 19]) u (attemptMeasured k meas u) :=
    hm.only.mono (by decide) fun a h => by unfold inBlocks; rcases h with h | h <;> simp [h]
  refine ⟨_, faCalAttemptEnd_exec hu hk ht, ?_⟩
  split
  · next h =>
    exact ⟨⟨fun _ => rfl, fun h3 => absurd h3 (by omega), by rw [State.modFrames_frames, hframes],
      hin.of_eq rfl fun x => by rw [State.modFrames_side]⟩, honly.trans (Only.setFrames _ _ (by simp))⟩
  · next h =>
    have hw := calEnded_only (attemptMeasured k meas u)
    have hr := raiseBase_only 530 sevInfo noInst (calEnded (attemptMeasured k meas u))
    have hfr : (raiseBase 530 sevInfo noInst (calEnded (attemptMeasured k meas u))).frames =
        { (attemptMeasured k meas u).frames with cal := none } := hr.1 .frames (by decide)
    refine ⟨⟨fun h3 => absurd h3 h, fun _ => ⟨by rw [hfr], ?_, ?_⟩, by rw [hfr, hframes], hin.of_eq (by rw [hfr]) fun x => ?_⟩, ?_⟩
    · rw [hr.rf (not_raiseRegs (by decide)), calEnded, State.rf_wf_self _ _ (by decide) (by decide)]
      rfl
    · exact (raiseBase_raisedBase 530 _ _ _).from
        (fun x => (hw.live (by decide) (by decide) x).trans (hm.only.live (by decide) (by decide) x))
        (fun x => (hw.srcRec x (by simp) 530).trans (hm.record x)) ((hw.now (by decide)).trans (hm.only.now (by decide)))
    · exact (hr.1 (.dsp x) (by cases x <;> decide)).trans (hw.1 (.dsp x) (by simp))
    · exact (honly.trans (hw.mono (by simp) fun a h => by subst h; simp [inBlocks, addrBlock, Reg.FRM_STATUS])).trans
        (hr.mono (by decide) fun _ => raiseRegs_inBlocks (by simp))

end

/-! One ADC evaluated -/

theorem faEvaluate_passes {k : AdcMeas} {d : Nat} (hd : k.gs.val = d) (h : faPasses k = true) (s : State) :
    faEvaluate s (d, some k) = s.wr (Reg.FRM_ADC_CAL (d / 1024) (d % 1024)) (faWord k) := by
  subst hd
  simp only [faEvaluate, h, if_true]
  rfl

section
variable {d : Nat} {s : State}

theorem faCounted_frames (d : Nat) (s : State) : (faCounted d s).frames = s.frames := (raiseBase_only _ _ _ _).1 .frames (by decide)

/-- A failed attempt leaves the frames as its note has made them (R150, R152). -/
theorem faFailure_frames (h : s.adcRetired d = false) : (faFailure s d).frames = (faNoted d s).frames := by
  rw [faFailure_eq h]
  split
  · rw [State.bump_frames]; exact (retireAdc_only d _).1 .frames (by decide)
  · rfl

theorem adcRetired_of_bg {s t : State} (h : t.bg = s.bg) (d : Nat) : t.adcRetired d = s.adcRetired d := by simp only [State.adcRetired, h]

theorem faNoted_bg (d : Nat) (s : State) : (faNoted d s).bg = s.bg := (raiseBase_only _ _ _ _).1 .bg (by decide)

/-- An ADC listed as retired, or retired without a place in the list (R152, R552). -/
def adcListed (d : Nat) (s : State) : State :=
  if 4096 ≤ (s.entries (·.adcs)).length then
    raiseBase 524 sevFault noInst { s with bg := { s.bg with unlistedAdcs := insertNat d s.bg.unlistedAdcs } }
  else wantUpdate { s with bg := { s.bg with inForce := { s.bg.inForce with adcs := insertNat d s.bg.inForce.adcs } } }

theorem adcListed_retired (d : Nat) (s : State) : (adcListed d s).adcRetired d = true := by
  unfold adcListed
  split
  · rw [adcRetired_of_bg ((raiseBase_only _ _ _ _).1 .bg (by decide))]
    simp [State.adcRetired, mem_insertNat_self]
  · simp [State.adcRetired, wantUpdate_inForce, mem_insertNat_self]

theorem retireAdc_retired (d : Nat) (s : State) : (retireAdc d s).adcRetired d = true := by
  cases h : s.adcRetired d with
  | true => rw [retireAdc, h, if_pos rfl]; exact h
  | false =>
    have ht : retireAdc d s = raiseTile (d / 1024) 4 sevFault (d % 1024) (adcListed d s) := by
      rw [retireAdc, h, if_neg Bool.false_ne_true]
      rfl
    rw [ht, adcRetired_of_bg ((raiseTile_only _ _ _ _ _).1 .bg (by decide))]
    exact adcListed_retired d s

theorem faFailure_retired (h : s.adcRetired d = false) :
    (faFailure s d).adcRetired d = (Sparse.get s.frames.faults d Faults.clear).third s.now := by
  rw [faFailure_eq h]
  cases (Sparse.get s.frames.faults d Faults.clear).third s.now with
  | true =>
    rw [if_pos rfl, adcRetired_of_bg (State.bump_bg _ _ _ _ _)]
    exact retireAdc_retired d (faNoted d s)
  | false => rw [if_neg Bool.false_ne_true, adcRetired_of_bg (faNoted_bg d s), h]

end

theorem faEvaluate_evaluates (u : State) (d : Nat) (m : Option AdcMeas) : let t := faEvaluate u (d, m)
    (∀ k, m = some k → k.gs.val = d → faPasses k = true → t = u.wr (Reg.FRM_ADC_CAL (d / 1024) (d % 1024)) (faWord k)) ∧
    (m.any faPasses = false → u.adcRetired d = true → t = u) ∧
    (m.any faPasses = false → u.adcRetired d = false → let f := Sparse.get u.frames.faults d Faults.clear
      t.rf Reg.FRM_FA_STATUS 15 0 = min (u.rf Reg.FRM_FA_STATUS 15 0 + 1) 65535 ∧
      (∀ k, u.frames.cal = some k → t.frames.cal = some { k with failed := insertNat d k.failed }) ∧
      (f.third u.now = false → Sparse.get t.frames.faults d Faults.clear = f.push u.now ∧ t.adcRetired d = u.adcRetired d) ∧
      (f.third u.now = true → t.adcRetired d = true)) := by
  intro t
  refine ⟨fun k hm hd hp => ?_, fun hm hr => ?_, ?_⟩
  · subst hm
    exact faEvaluate_passes hd hp u
  · exact (faEvaluate_fails hm).trans (if_pos hr)
  · intro hm hr f
    have ht : t = faFailure u d := faEvaluate_fails hm
    rw [ht, faFailure_retired hr, faFailure_frames hr, faFailure_count, hr]
    refine ⟨rfl, fun k hk => ?_, fun hf => ⟨?_, hf⟩, id⟩
    · rw [faNoted, State.modFrames_frames, faCounted_frames, hk]
      rfl
    · rw [faNoted, State.modFrames_frames, faCounted_frames]
      exact (Sparse.get_set_self _ _ _ _).trans (if_neg (by rw [hf]; exact Bool.false_ne_true))

end Sys2Proof.Machine
end

section
/-!
### The initial pass and the rotation go on (R113, R116–R122, R129)
-/

namespace Sys2Proof.Machine

section
variable {dt : Nat} {s u : State}

theorem calTableTakesEffect_applies {d : Fin 65540} {b : Time} (hu : s.elapse dt = u) (hb : (u.digi d).effectAt = some b)
    (hr : reached u.now b = true) : exec (.calTableTakesEffect dt d) s = .next (u.modDigi d (fun g => { g with
      inUse := g.latest
      coarse := g.coarse || g.coarseNext
      effectAt := none })) := by
  subst hu
  show execCalTableTakesEffect dt d s = _
  simp only [execCalTableTakesEffect, hb, hr, if_true]

/-! The initial pass -/

section
variable {p : InitPass}

theorem tdcInitAttemptStart_starts (hu : s.elapse dt = u) (hp : u.tdc.pass = some p) (ha : p.attempt < 3)
    (ht : p.since + attemptAt p.attempt ≤ u.clock.ticks) : exec (.tdcInitAttemptStart dt) s = .next (u.modTdc (fun k => { k with
      pass := some { p with
        attempt := p.attempt + 1
        again := p.failed
        failed := []
        ended := [] } })) := by
  subst hu
  show execTdcInitAttemptStart dt s = _
  simp only [execTdcInitAttemptStart, hp, ha, ht, decide_true, Bool.and_true, if_true]

theorem State.rotation_modRot (s : State) (i : Nat) (f : Rotation → Rotation) (j : Nat) :
    (s.modRot i f).rotation j = if j = i then f (s.rotation i) else s.rotation j := Sparse.get_upd _ _ _ _ _

theorem rotation_of_tdc {s t : State} (h : t.tdc = s.tdc) (i : Nat) : t.rotation i = s.rotation i := by simp only [State.rotation, h]

/-- The state in which the rotations of some tiles wait their gap from the tick n. -/
def rotationsWait (n : Nat) (l : List Nat) (s : State) : State := l.foldl (fun u i => u.modRot i (fun r => { r with ended := n })) s

theorem rotationsWait_ended (n : Nat) (l : List Nat) (s : State) (i : Nat) :
    ((rotationsWait n l s).rotation i).ended = if i ∈ l then n else (s.rotation i).ended := by
  induction l generalizing s with
  | nil => rfl
  | cons j l ih =>
    rw [rotationsWait, List.foldl_cons, ← rotationsWait, ih, State.rotation_modRot]
    by_cases hi : i = j
    · subst hi; simp
    · simp [hi]

theorem rotationsWait_only (n : Nat) (l : List Nat) (s : State) : Only [.tdc] noReg s (rotationsWait n l s) :=
  Only.foldl (fun t _ => Only.setTdc t _ (by simp)) (Only.refl _ _ s)

theorem rotationsWait_pass (n : Nat) (l : List Nat) (s : State) : (rotationsWait n l s).tdc.pass = s.tdc.pass :=
  List.foldlRecOn (motive := fun t : State => t.tdc.pass = s.tdc.pass) _ _ rfl fun _ h _ _ => h

/-- TDC_INIT_STATUS at the end of a pass that retired n digitizers (R118). -/
def passWord (n : Nat) : Word := BitVec.ofNat 32 (min n 65535 * 2 ^ 16 + 2)

theorem passWord_bits (n : Nat) : bits (passWord n).toNat 31 16 = min n 65535 ∧ bits (passWord n).toNat 1 0 = 2 := by
  simp only [passWord, BitVec.toNat_ofNat, bits, Nat.shiftRight_eq_div_pow]
  omega

/-- The end of the initial pass (R117, R118), from which the rotations of its tiles wait their gap. -/
theorem tdcInitPassEnd_ends (hu : s.elapse dt = u) (hp : u.tdc.pass = some p) (ht : p.since + 900000000 ≤ u.clock.ticks) :
    Happens (.tdc :: raising) (fun a => raiseRegs a ∨ a = Reg.TDC_INIT_STATUS) u
      (fun t => t.tdc.pass = none ∧ (∀ i ∈ p.tiles, (t.rotation i).ended = u.clock.ticks) ∧ RaisedBase 526 u t ∧
        t.rf Reg.TDC_INIT_STATUS 31 16 = min p.retired 65535 ∧ t.rf Reg.TDC_INIT_STATUS 1 0 = 2) (exec (.tdcInitPassEnd dt) s) := by
  let v := rotationsWait u.clock.ticks p.tiles (u.modTdc (fun k => { k with pass := none }))
  let w := v.wr Reg.TDC_INIT_STATUS (passWord p.retired)
  have hexec : exec (.tdcInitPassEnd dt) s = .next (raiseBase 526 sevInfo noInst w) := by
    subst hu
    show execTdcInitPassEnd dt s = _
    simp only [execTdcInitPassEnd, hp, ht, if_true]
    rfl
  have hw : Only [.tdc] (fun a => a = Reg.TDC_INIT_STATUS) u w :=
    ((Only.setTdc u _ (by simp)).trans ((rotationsWait_only _ _ _).mono (fun _ => id) fun _ => False.elim)).trans (Only.wr v _ _ rfl)
  have hr := raiseBase_only 526 sevInfo noInst w
  have htdc : (raiseBase 526 sevInfo noInst w).tdc = v.tdc := by
    rw [show (raiseBase 526 sevInfo noInst w).tdc = w.tdc from hr.1 .tdc (by decide), State.wr_tdc]
  have hword : ∀ hi lo, (raiseBase 526 sevInfo noInst w).rf Reg.TDC_INIT_STATUS hi lo = bits (passWord p.retired).toNat hi lo :=
    fun hi lo => by rw [hr.rf (not_raiseRegs (by decide)), State.rf_wr_self]
  refine ⟨_, hexec, ⟨?_, fun i hi => ?_, ?_, ?_, ?_⟩, (hw.mono (by simp) fun _ => .inr).trans (hr.mono (by simp) fun _ => .inl)⟩
  · rw [htdc]
    exact rotationsWait_pass _ _ _
  · rw [State.rotation, htdc]
    exact (rotationsWait_ended _ _ _ i).trans (if_pos hi)
  · exact (raiseBase_raisedBase 526 sevInfo noInst w).from (fun x => hw.live (by decide) (by decide) x)
      (fun x => hw.srcRec x (by simp) 526) (hw.now (by decide))
  · rw [hword, (passWord_bits _).1]
  · rw [hword, (passWord_bits _).2]

end

/-! What fills a digitizer -/

/-- Whether the pass fills a digitizer rests on the pass, on the digitizer's retirement, and on the pauses of the external ones. -/
theorem passFills_congr {d : Nat} {t : State} (hp : t.tdc.pass = s.tdc.pass) (hr : t.digiRetired d = s.digiRetired d)
    (hb : 65536 ≤ d → t.rd (Reg.TDC_EXT_CTRL (d - 65536)) = s.rd (Reg.TDC_EXT_CTRL (d - 65536))) : passFills t d = passFills s d := by
  unfold passFills
  rw [hp, hr]
  split
  · split
    · rfl
    · simp only [State.rb, hb (by omega)]
  · rfl

theorem passFills_of_only {ps : List Part} {w : Nat → Prop} {t : State} (h : Only ps w s t) (hb : .bg ∉ ps)
    (hp : t.tdc.pass = s.tdc.pass) (d : Nat) (hw : 65536 ≤ d → ¬ w (Reg.TDC_EXT_CTRL (d - 65536))) : passFills t d = passFills s d :=
  passFills_congr hp (h.digiRetired hb d) fun hd => h.rd (hw hd)

theorem digiRetired_of_passFills {d : Nat} (h : passFills s d = true) : s.digiRetired d = false := by
  unfold passFills at h
  split at h
  · simp only [Bool.and_eq_true, Bool.not_eq_true'] at h
    obtain ⟨⟨⟨-, hret⟩, -⟩, -⟩ := h
    exact hret
  · cases h

/-- A pass in which the fill of a digitizer is over; its failure is noted. -/
def InitPass.filled (p : InitPass) (d : Nat) (failed : Bool) : InitPass :=
  { p with
    ended := insertNat d p.ended
    failed := if failed then insertNat d p.failed else p.failed }

theorem fillOver_of_passFills {d : Nat} {p : InitPass} (failed : Bool) (hp : s.tdc.pass = some p) (h : passFills s d = true) :
    fillOver d failed s = (s.modDigi d (fun _ => fillCleared d s)).modTdc (fun k => { k with pass := some (p.filled d failed) }) := by
  simp only [fillOver, hp, h, if_true]
  rfl

/-- A fill that is over is none of the pass any more. -/
theorem passFills_fillOver (d : Nat) (failed : Bool) (s : State) : passFills (fillOver d failed s) d = false := by
  cases h : passFills s d with
  | true =>
    cases hp : s.tdc.pass with
    | none => rw [passFills, hp] at h; cases h
    | some p =>
      rw [fillOver_of_passFills failed hp h]
      simp [passFills, InitPass.filled, mem_insertNat_self]
  | false =>
    have hpass : (fillOver d failed s).tdc.pass = s.tdc.pass := by
      unfold fillOver
      extract_lets s1
      have h1 : (if rotationFills s d = true then rotationEnds (digiTile d) s1 else s1).tdc.pass = s.tdc.pass := by split <;> rfl
      split
      · rw [h, if_neg Bool.false_ne_true]; exact h1
      · exact h1
    rw [passFills_of_only (fillOver_only d failed s) (by simp) hpass d fun _ => id, h]

/-! A digitizer of either kind retired -/

theorem nextBoundary_of_only {ps : List Part} {w : Nat → Prop} {t : State} (h : Only ps w s t) (hc : .clock ∉ ps)
    (hw : ¬ w Reg.TIL_SLICE) : nextBoundary t = nextBoundary s := by
  simp only [nextBoundary, boundaryAfter, State.sliceTicks, h.rf hw, h.now hc]

theorem digiListed_retired (d : Nat) (s : State) : (digiListed d s).digiRetired d = true := by
  unfold digiListed
  split
  · rw [(raiseBase_only _ _ _ _).digiRetired (by decide)]
    simp [State.digiRetired, mem_insertNat_self]
  · simp [State.digiRetired, wantUpdate_inForce, mem_insertNat_self]

theorem retireDigitizer_retired {d : Nat} (h : s.digiRetired d = false) : let t := retireDigitizer d s
    t.digiRetired d = true ∧ (t.digi d).coarseNext = true ∧ (d < 65536 → (t.digi d).effectAt = some (nextBoundary s)) := by
  intro t
  have hleft : (rotationLeft d s (digiListed d s)).digiRetired d = true :=
    ((rotationLeft_spec d s _).1.digiRetired (by simp) d).trans (digiListed_retired d s)
  have ht : t = _ := retireDigitizer_eq d h
  rw [ht]
  split
  · rw [(raiseTile_only _ _ _ _ _).digiRetired (by decide), (raiseTile_only _ _ _ _ _).digi (by decide), State.digi_modDigi_self]
    exact ⟨hleft, rfl, fun _ => rfl⟩
  · next hd =>
    rw [(raiseBase_only _ _ _ _).digiRetired (by decide), (raiseBase_only _ _ _ _).digi (by decide), State.digi_modDigi_self]
    exact ⟨hleft, rfl, fun h => absurd h hd⟩

theorem raiseBase_tdc (n sev inst : Nat) (s : State) : (raiseBase n sev inst s).tdc = s.tdc :=
  (raiseBase_only n sev inst s).1 .tdc (by decide)

theorem retireDigitizer_pass (d : Nat) (s : State) : (retireDigitizer d s).tdc.pass = s.tdc.pass := by
  cases h : s.digiRetired d with
  | true => rw [retireDigitizer, h, if_pos rfl]
  | false =>
    have hleft : (rotationLeft d s (digiListed d s)).tdc.pass = s.tdc.pass := by
      rw [← show (digiListed d s).tdc = s.tdc from (digiListed_only d s).1 .tdc (by decide)]
      unfold rotationLeft
      split <;> rfl
    rw [retireDigitizer_eq d h, ← hleft]
    split
    · rw [raiseTile, raiseBase_tdc]; rfl
    · rw [raiseBase_tdc]; rfl

/-! Calibration failures in the pass -/

section
variable {d : Nat}

theorem failureNoted_pass (d : Nat) (s : State) : (failureNoted d s).tdc.pass = (fillOver d true s).tdc.pass := by
  have htally : ((fillOver d true s).tallyAll .calFail 1).tdc = (fillOver d true s).tdc :=
    (Only.tallyAll (w := noReg) _ _ _).1 .tdc (by decide)
  unfold failureNoted
  split
  · rw [raiseTile, raiseBase_tdc, State.bump_tdc, htally]
  · rw [raiseBase_tdc, htally]

/-- A failure that the pass meets is noted in it, and the digitizer that it retires is counted (R118). -/
theorem calFailure_pass {p : InitPass} (hp : s.tdc.pass = some p) (h : passFills s d = true) :
    (calFailure d s).tdc.pass = some { p.filled d true with retired := p.retired + b2n ((s.digi d).faults.third s.now) } := by
  have hnoted : (failureNoted d s).tdc.pass = some (p.filled d true) := by
    rw [failureNoted_pass, fillOver_of_passFills true hp h]; rfl
  rw [calFailure_eq (digiRetired_of_passFills h)]
  cases (s.digi d).faults.third s.now with
  | true =>
    rw [if_pos rfl, thirdFailure, retireDigitizer_pass, h, if_pos rfl, countRetired, State.modTdc_tdc, hnoted]
    rfl
  | false => exact hnoted

theorem calFailure_kept (h : s.digiRetired d = false) (hf : (s.digi d).faults.third s.now = false) :
    ((calFailure d s).digi d).faults = (s.digi d).faults.push s.now := by
  rw [calFailure_eq h, if_neg (by rw [hf]; exact Bool.false_ne_true), State.digi_modDigi_self, failureNoted_digi]
  rfl

theorem calFailure_third (h : s.digiRetired d = false) (hf : (s.digi d).faults.third s.now = true) : let t := calFailure d s
    t.digiRetired d = true ∧ (t.digi d).coarseNext = true ∧ (d < 65536 → (t.digi d).effectAt = some (nextBoundary s)) := by
  have hn := failureNoted_only d s
  have hc := (countRetired_spec d s).1
  have hslice : ¬ failRegs (digiTile d) Reg.TIL_SLICE := by
    rintro (h | h)
    · exact not_raiseRegs (by decide) h
    · simp only [Reg.TIL_SLICE, Reg.TDC_CAL_FAIL, tileBase] at h; omega
  have hnext := (nextBoundary_of_only hc (by simp) (by simp [noReg])).trans (nextBoundary_of_only hn (by decide) hslice)
  rw [calFailure_eq h, if_pos hf, ← hnext]
  exact retireDigitizer_retired (((hc.digiRetired (by simp) d).trans (hn.digiRetired (by decide) d)).trans h)

theorem addrBlock_ext (hle : 65536 ≤ d) (hd : d < 65540) : addrBlock (Reg.TDC_EXT_CTRL (d - 65536)) = 5 := by
  rw [addrBlock, Reg.TDC_EXT_CTRL, if_pos (by omega)]
  omega

theorem not_failRegs_ext (hle : 65536 ≤ d) (hd : d < 65540) : ¬ failRegs (digiTile d) (Reg.TDC_EXT_CTRL (d - 65536)) := by
  rintro (h | h)
  · exact not_raiseRegs (by rw [addrBlock_ext hle hd]; decide) h
  · simp only [Reg.TDC_EXT_CTRL, Reg.TDC_CAL_FAIL, tileBase] at h; omega

theorem passFills_calFailure (hd : d < 65540) (s : State) : passFills (calFailure d s) d = false := by
  cases h : s.digiRetired d with
  | true => rw [calFailure_retired h]; exact passFills_fillOver d true s
  | false =>
    cases hf : (s.digi d).faults.third s.now with
    | true =>
      by_contra hfills
      have hret := digiRetired_of_passFills (eq_true_of_ne_false hfills)
      rw [(calFailure_third h hf).1] at hret
      cases hret
    | false =>
      have hn := failureNoted_only d s
      have ho := fillOver_only d true s
      rw [calFailure_eq h, if_neg (by rw [hf]; exact Bool.false_ne_true), ← passFills_fillOver d true s]
      exact passFills_congr (failureNoted_pass d s) ((hn.digiRetired (by decide) d).trans (ho.digiRetired (by simp) d).symm)
        fun hle => (hn.rd (not_failRegs_ext hle hd)).trans (ho.rd (by simp [noReg])).symm

/-- A fill that clear codes make complete is the pass's no more. -/
theorem passFills_fillComplete (hd : d < 65540) (s : State) : passFills (fillComplete d s) d = false := by
  cases h : fillAccepted (s.digi d).hist (s.digi d).ovr with
  | true =>
    have hw := wantReduce_only (digiTile d) (fillKept d s)
    have hkept : passFills (fillKept d s) d = passFills (fillOver d false (fillCounted d s)) d := passFills_congr rfl rfl fun _ => rfl
    rw [fillComplete_accepted h, ← passFills_fillOver d false (fillCounted d s), ← hkept]
    refine passFills_of_only hw (by decide) (congrArg Tdc.pass (hw.1 .tdc (by decide))) d fun hle => ?_
    have hb := addrBlock_ext hle hd
    unfold enqueueRegs
    omega
  | false => rw [fillComplete_failed h]; exact passFills_calFailure hd _

/-- Where the pass still fills a digitizer whose clear codes have entered, they have not completed its fill. -/
theorem settleCodes_of_passFills (hd : d < 65540) (h : passFills (settleCodes d s) d = true) :
    Only [.tdc] noReg s (settleCodes d s) ∧ (settleCodes d s).tdc.pass = s.tdc.pass := by
  rcases eq_or_ne ((s.digi d).codes.filter (codeClear s)) [] with hold | hold
  · rw [settleCodes_none hold]
    exact ⟨Only.refl _ _ s, rfl⟩
  · have hset : settleCodes d s = codesSettled d s := by
      rw [settleCodes_some hold] at h ⊢
      split
      · next hfull =>
        rw [if_pos hfull, passFills_fillComplete hd] at h
        cases h
      · rfl
    rw [hset]
    exact ⟨Only.modDigi s d _ (by simp), rfl⟩

/-- A fill of the initial pass that is still in progress at its time-out fails (R118). -/
theorem initFillTimeout_fails {d : Fin 65540} {p : InitPass} (hu : s.elapse dt = u) (hp : u.tdc.pass = some p) :
    let v := settleCodes d u
    passFills v d = true → p.since + attemptAt (p.attempt - 1) + 288000000 ≤ u.clock.ticks →
    Happens ([.tdc, .bg] ++ bothOf .evt ++ bothOf .dsp ++ bothOf .tally) (inBlocks [8, 17, 19]) u
      (fun t => (∃ q, t.tdc.pass = some q ∧ d.val ∈ q.ended ∧ d.val ∈ q.failed ∧
          q.retired = p.retired + b2n ((v.digi d).faults.third u.now)) ∧
        (t.digi d).hist = [] ∧ (t.digi d).ovr = 0 ∧
        (d.val < 65536 → t.rf (Reg.TDC_CAL_FAIL (digiTile d)) 15 0 = min (v.rf (Reg.TDC_CAL_FAIL (digiTile d)) 15 0 + 1) 65535) ∧
        ((v.digi d).faults.third u.now = false → (t.digi d).faults = (v.digi d).faults.push u.now) ∧
        ((v.digi d).faults.third u.now = true → t.digiRetired d = true ∧ (t.digi d).coarseNext = true ∧
          (d.val < 65536 → (t.digi d).effectAt = some (nextBoundary u)))) (exec (.initFillTimeout dt d) s) := by
  intro v hfills ht
  obtain ⟨ho, hpass⟩ := settleCodes_of_passFills d.isLt hfills
  have hclock : v.clock = u.clock := ho.1 .clock (by simp)
  have hnow : v.now = u.now := congrArg Clock.now hclock
  have hret := digiRetired_of_passFills hfills
  have hexec : exec (.initFillTimeout dt d) s = .next (calFailure d v) := by
    subst hu
    show execInitFillTimeout dt d s = _
    have htick : p.since + attemptAt (p.attempt - 1) + 288000000 ≤ v.clock.ticks := by rw [hclock]; exact ht
    simp only [execInitFillTimeout, show (settleCodes d (s.elapse dt)).tdc.pass = some p from hpass.trans hp]
    rw [if_pos (by rw [Bool.and_eq_true]; exact ⟨hfills, decide_eq_true htick⟩)]
  have hparts : Only ([.tdc, .bg] ++ bothOf .evt ++ bothOf .dsp ++ bothOf .tally) (inBlocks [8, 17, 19]) v (calFailure d v) := by
    by_cases hd : d.val < 65536
    · exact (calFailure_only d v).mono (by decide) fun a => failRegs_inBlocks (by unfold digiTile; omega) (by simp) (by simp)
    · exact (calFailure_etd_only (by omega) hret).mono (by decide) fun _ => raiseRegs_inBlocks (by simp)
  obtain ⟨c, n, b, f, hdigi⟩ := calFailure_digi d v
  have hp' := calFailure_pass (hpass.trans hp) hfills
  refine ⟨_, hexec, ⟨⟨_, hp', mem_insertNat_self _ _, mem_insertNat_self _ _, ?_⟩, ?_, ?_, ?_, ?_, ?_⟩,
    (ho.mono (by simp) fun _ => False.elim).trans hparts⟩
  · rw [hnow]
  · rw [hdigi]; rfl
  · rw [hdigi]; rfl
  · exact fun hd => calFailure_counted hd hret
  · intro hf
    rw [← hnow] at hf ⊢
    exact calFailure_kept hret hf
  · intro hf
    rw [← hnow] at hf
    rw [← nextBoundary_of_only ho (by simp) (by simp [noReg])]
    exact calFailure_third hret hf

end

/-! The rotation -/

section
variable {i : Fin 64}

/-- A fill of the rotation that is over, and that the pass does not have, ends the rotation's turn. -/
theorem fillOver_rotation {d : Nat} (failed : Bool) (hp : passFills s d = false) (hr : rotationFills s d = true) :
    fillOver d failed s = rotationEnds (digiTile d) (s.modDigi d (fun _ => fillCleared d s)) := by
  unfold fillOver
  extract_lets s1
  rw [hp, hr, if_pos rfl]
  split
  · rw [if_neg Bool.false_ne_true]; rfl
  · rfl

theorem filling_of_pass {t : State} (hp : t.tdc.pass = s.tdc.pass) (hf : ∀ d, d < 65536 → passFills t d = passFills s d)
    (ha : (t.rotation i).active = false) :
    filling t i = (s.tdc.pass.isSome && (List.range 1024).any (fun k => passFills s (1024 * i.val + k))) := by
  have hany : (List.range 1024).any (fun k => passFills t (1024 * i.val + k)) =
      (List.range 1024).any (fun k => passFills s (1024 * i.val + k)) := by
    rw [Bool.eq_iff_iff, List.any_eq_true, List.any_eq_true]
    refine exists_congr fun k => and_congr_right fun hk => ?_
    rw [hf _ (by have := i.isLt; have := List.mem_range.1 hk; omega)]
  rw [filling, ha, hp, hany, Bool.false_or]

/-- A fill of the rotation that takes longer than a second is abandoned, and the gap counts from there (R120; log entry 31). -/
theorem fillAbandoned_abandons {f : Nat} (hu : s.elapse dt = u) :
    let r := u.rotation i; let e := 1024 * i.val + r.cur; let v := settleCodes e u
    r.first = some f → r.active = true → r.cur < 1024 → v.rotation i = r → f + 3000000000 ≤ u.clock.ticks →
    passFills v e = false →
    Happens ([.tdc, .bg] ++ bothOf .evt ++ bothOf .dsp ++ bothOf .tally) (inBlocks [8, 17, 19]) u
      (fun t => t.rotation i = { r with active := false, first := none, ended := u.clock.ticks } ∧ (t.digi e).hist = [] ∧
        filling t i = (v.tdc.pass.isSome && (List.range 1024).any (fun k => passFills v (1024 * i.val + k))) ∧
        t.rf (Reg.TDC_CAL_FAIL i) 31 16 = min (v.rf (Reg.TDC_CAL_FAIL i) 31 16 + 1) 65535) (exec (.fillAbandoned dt i) s) := by
  intro r e v hfirst hactive hcur hrot ht hfills
  have he : e < 65536 := by have := i.isLt; omega
  have htile : digiTile e = i.val := by unfold digiTile; omega
  have ho := settleCodes_only he u
  have hclock : v.clock = u.clock := ho.1 .clock (by decide)
  let w := rotationEnds i (v.modDigi e (fun _ => fillCleared e v))
  have hover : fillOver e false v = w := by
    have hmod : e % 1024 = r.cur := by omega
    have hturn : rotationFills v e = true := by
      rw [rotationFills, htile, hrot, hmod, decide_eq_true he, hactive]
      simp
    rw [fillOver_rotation false hfills hturn, htile]
  have hexec : exec (.fillAbandoned dt i) s = .next (w.bump (Reg.TDC_CAL_FAIL i) 31 16 1) := by
    subst hu
    have hs : (if ((s.elapse dt).rotation i).active then settleCodes (1024 * i.val + ((s.elapse dt).rotation i).cur) (s.elapse dt)
        else s.elapse dt) = v := if_pos hactive
    have hgo : (r.active && decide (f + 3000000000 ≤ v.clock.ticks)) = true := by
      rw [hclock, hactive, decide_eq_true ht]; rfl
    show execFillAbandoned dt i s = _
    simp only [execFillAbandoned, hs, hrot, hfirst]
    rw [if_pos hgo, hover]
  have hw : Only [.tdc] noReg v w := (Only.modDigi v e _ (by simp)).trans (Only.setTdc _ _ (by simp))
  have hwr : w.rotation i = { r with active := false, first := none, ended := u.clock.ticks } := by
    rw [← hclock, ← hrot]
    exact (State.rotation_modRot _ _ _ _).trans (if_pos rfl)
  have hreg : inBlocks [8, 17, 19] (Reg.TDC_CAL_FAIL i) := inBlocks_tile i.isLt (by omega) (by simp)
  refine ⟨_, hexec, ⟨(rotation_of_tdc (State.bump_tdc _ _ _ _ _) i).trans hwr, ?_, ?_, ?_⟩,
    (ho.trans (hw.mono (by simp) fun _ => False.elim)).trans (Only.bump w _ _ _ _ hreg)⟩
  · rw [State.digi_bump, ← hover, fillOver_digi]
    rfl
  · have hpass : (w.bump (Reg.TDC_CAL_FAIL i) 31 16 1).tdc.pass = v.tdc.pass := by
      rw [State.bump_tdc]; rfl
    have hb : Only [.tdc] (fun a => a = Reg.TDC_CAL_FAIL i) v (w.bump (Reg.TDC_CAL_FAIL i) 31 16 1) :=
      (hw.mono (fun _ => id) fun _ => False.elim).trans (Only.bump w _ _ _ _ rfl)
    exact filling_of_pass hpass (fun d hd => passFills_of_only hb (by simp) hpass d fun hle => absurd hd (by omega))
      (by rw [rotation_of_tdc (State.bump_tdc _ _ _ _ _), hwr])
  · rw [State.rf_bump_self _ _ _ (by omega) (by omega), hw.rf (by simp [noReg])]
    rfl

theorem nextInRotation_lt {k : Nat} (h : nextInRotation s i = some k) : k < 1024 := by
  obtain ⟨j, -, rfl⟩ := List.mem_map.1 (List.mem_of_find?_eq_some h)
  exact Nat.mod_lt _ (by decide)

/-- After its gap the rotation starts the fill of its next digitizer (R119, R121). -/
theorem rotationGapEnd_starts {k : Nat} (hu : s.elapse dt = u) : let r := u.rotation i
    u.power.mode = .active → r.active = false → passHas u i = false → u.rb (Reg.TDC_CAL_CTRL i) 0 = false →
    r.ended + u.rf (Reg.TDC_CAL_CTRL i) 3 1 * 196608000 ≤ u.clock.ticks → nextInRotation u i = some k →
    Happens [.tdc] (inBlocks [8]) u
      (fun t => t.rotation i = { r with cur := k, active := true, first := none } ∧ t.rf (Reg.TDC_CAL_STATUS i) 9 0 = k ∧
        filling t i = true) (exec (.rotationGapEnd dt i) s) := by
  intro r hmode hactive hpass hpause hgap hnext
  let v := u.modRot i (fun r => { r with cur := k, active := true, first := none })
  have hexec : exec (.rotationGapEnd dt i) s = .next (v.wf (Reg.TDC_CAL_STATUS i) 9 0 k) := by
    subst hu
    have hgo : (decide ((s.elapse dt).power.mode ≠ .active) || r.active || passHas (s.elapse dt) i ||
        (s.elapse dt).rb (Reg.TDC_CAL_CTRL i) 0 ||
        decide ((s.elapse dt).clock.ticks < r.ended + (s.elapse dt).rf (Reg.TDC_CAL_CTRL i) 3 1 * 196608000)) = false := by
      rw [hmode, hactive, hpass, hpause, decide_eq_false (Nat.not_lt.2 hgap)]; rfl
    show execRotationGapEnd dt i s = _
    simp only [execRotationGapEnd, hnext]
    rw [if_neg (ne_true_of_eq_false hgo)]
  have hrot : v.rotation i = { r with cur := k, active := true, first := none } := (State.rotation_modRot _ _ _ _).trans (if_pos rfl)
  have hreg : inBlocks [8] (Reg.TDC_CAL_STATUS i) := inBlocks_tile i.isLt (by omega) (by simp)
  refine ⟨_, hexec, ⟨(rotation_of_tdc (State.wf_tdc _ _ _ _ _) i).trans hrot, ?_, ?_⟩,
    (Only.setTdc u _ (by simp)).trans (Only.wf v _ _ _ _ hreg)⟩
  · rw [State.rf_wf_self _ _ (by omega) (by omega)]
    exact Nat.mod_eq_of_lt (nextInRotation_lt hnext)
  · have hact : ((v.wf (Reg.TDC_CAL_STATUS i) 9 0 k).rotation i).active = true := by
      rw [rotation_of_tdc (State.wf_tdc _ _ _ _ _), hrot]
    rw [filling, hact, Bool.true_or]

end

end

/-- Settles O36: an attempt of FA_CAL ends as `faMeasured_fold` says of every tile; where the pass still fills a digitizer at its time-out,
its clear codes have not completed its fill (`settleCodes_of_passFills`), and what fails is what `calFailure` makes of it. -/
theorem calibrationsRunTheirCourse : Obligations.CalibrationsRunTheirCourse := by
  refine ⟨?_, faEvaluate_evaluates, ?_⟩
  · intro dt meas s k u hk
    exact ⟨faCalPhaseStart_starts rfl hk, faCalAttemptEnd_ends rfl hk⟩
  · intro dt i d s u r
    refine ⟨fun p hp => ⟨tdcInitAttemptStart_starts rfl hp, tdcInitPassEnd_ends rfl hp, initFillTimeout_fails rfl hp⟩, ?_, ?_, ?_⟩
    · intro e v f
      exact fillAbandoned_abandons rfl
    · intro k
      exact rotationGapEnd_starts rfl
    · intro b
      exact calTableTakesEffect_applies rfl

end Sys2Proof.Machine
end

section
/-!
### Frame triggers (R139–R144, R213)
-/

namespace Sys2Proof.Machine

section
variable {dt : Nat} {src : FrameSource} {t0 : Time} {s u : State}

/-- A trigger that has been used leaves the bus assertions and the edges of the EXT source, and all else as it is. -/
theorem usedTrigger_eq (src : FrameSource) (t : Time) (s : State) : ∃ b e, usedTrigger src t s = { s with
    trg := { s.trg with bus := b }
    frames := { s.frames with ext := e } } := by
  unfold usedTrigger
  split
  · exact ⟨_, s.frames.ext, rfl⟩
  · unfold usedEdge
    split
    · exact ⟨s.trg.bus, _, rfl⟩
    · exact ⟨s.trg.bus, s.frames.ext, rfl⟩

theorem usedTrigger_only (src : FrameSource) (t : Time) (s : State) : Only [.trg, .frames] noReg s (usedTrigger src t s) := by
  obtain ⟨b, e, h⟩ := usedTrigger_eq src t s
  rw [h]
  have htrg : Only [.trg, .frames] noReg s { s with trg := { s.trg with bus := b } } := Only.setTrg s _ (by simp)
  exact htrg.trans (Only.setFrames _ _ (by simp))

/-- Whether a trigger comes too soon after the last accepted one (R144). -/
def frameTooSoon (f : Frames) (src : FrameSource) (t0 : Time) : Prop :=
  src ≠ .periodic ∧ f.lastTrig.any (fun l => since t0 l < 93750) = true

/-- A trigger of a run is accepted, or ignored where it comes too early (R139, R144). -/
theorem frameTrigger_exec (hu : s.elapse dt = u) (ht : triggerTick u src = some t0) (hrun : u.trg.run = .running)
    (hnew : u.frames.lastTrig.all (fun l => decide (l ≠ t0) && reached t0 l) = true) (hstart : reached t0 u.runStart = true)
    (hstop : beforeStop u t0 = true) :
    (frameTooSoon u.frames src t0 → exec (.frameTrigger dt src) s =
      .next (raiseBase 529 sevNotice noInst ((usedTrigger src t0 u).bump Reg.FRM_STATUS 31 16 1))) ∧
    (¬ frameTooSoon u.frames src t0 → exec (.frameTrigger dt src) s = .next (acceptTrigger t0 (usedTrigger src t0 u))) := by
  subst hu
  have hexec : exec (.frameTrigger dt src) s = if ((s.elapse dt).frames.lastTrig.any (fun l => since t0 l < 93750) &&
        decide (src ≠ .periodic)) = true then
      .next (raiseBase 529 sevNotice noInst ((usedTrigger src t0 (s.elapse dt)).bump Reg.FRM_STATUS 31 16 1))
      else .next (acceptTrigger t0 (usedTrigger src t0 (s.elapse dt))) := by
    show execFrameTrigger dt src s = _
    simp only [execFrameTrigger, ht, hrun, hstart, hstop]
    cases hl : (s.elapse dt).frames.lastTrig with
    | none => simp
    | some l =>
      rw [hl] at hnew
      obtain ⟨hne, hreached⟩ : l ≠ t0 ∧ reached t0 l = true := by simpa using hnew
      simp [hne, hreached]
  rw [hexec]
  constructor
  · rintro ⟨hsrc, hnear⟩
    rw [if_pos (by rw [hnear, decide_eq_true hsrc]; rfl)]
  · intro h
    rw [if_neg]
    rw [Bool.and_eq_true, decide_eq_true_eq]
    exact fun k => h ⟨k.2, k.1⟩

/-- A trigger that comes too early is counted and reported (R144). -/
theorem frameTrigger_early (src : FrameSource) (t0 : Time) (u : State) :
    let t := raiseBase 529 sevNotice noInst ((usedTrigger src t0 u).bump Reg.FRM_STATUS 31 16 1)
    (t.rf Reg.FRM_STATUS 31 16 = min (u.rf Reg.FRM_STATUS 31 16 + 1) 65535 ∧ RaisedBase 529 u t) ∧
      Only (.trg :: .frames :: raising) (fun a => raiseRegs a ∨ a = Reg.FRM_STATUS) u t := by
  have ho := usedTrigger_only src t0 u
  have hb : Only [.trg, .frames] (fun a => a = Reg.FRM_STATUS) u ((usedTrigger src t0 u).bump Reg.FRM_STATUS 31 16 1) :=
    (ho.mono (fun _ => id) fun _ => False.elim).trans (Only.bump _ _ _ _ _ rfl)
  have hr := raiseBase_only 529 sevNotice noInst ((usedTrigger src t0 u).bump Reg.FRM_STATUS 31 16 1)
  refine ⟨⟨?_, ?_⟩, (hb.mono (by simp) fun _ => .inr).trans (hr.mono (by simp) fun _ => .inl)⟩
  · rw [hr.rf (not_raiseRegs (by decide)), State.rf_bump_self _ _ _ (by decide) (by decide), ho.rf (by simp [noReg])]
    rfl
  · exact (raiseBase_raisedBase 529 _ _ _).from (fun x => hb.live (by decide) (by decide) x) (fun x => hb.srcRec x (by simp) 529)
      (hb.now (by decide))

/-! An accepted trigger -/

/-- What an accepted trigger does beside the frame it ends: it is an occurrence, its tiles are active, and the Awl pulses of integrations
that are over are kept no longer (R71, R216). -/
def triggerNoted (t : Time) (s : State) : State :=
  ((frameTiles s t).foldl (fun u k => touchTile k u) (s.modTrg (fun g => { g with hits := g.hits ++ [⟨0xB, 0, t, 0, t⟩] }))).modPix
    (fun x => { x with shots := x.shots.filter (fun k => reached k.at_ t || decide (since s.now k.at_ < 3000)) })

theorem triggerNoted_only (t : Time) (s : State) : Only [.trg, .pix, .tiles] noReg s (triggerNoted t s) := by
  have htrg : Only [.trg, .pix, .tiles] noReg s (s.modTrg (fun g => { g with hits := g.hits ++ [⟨0xB, 0, t, 0, t⟩] })) :=
    Only.setTrg s _ (by simp)
  exact (Only.foldl (fun v k => Only.modTile v k _ (by simp)) htrg).trans (Only.modPix _ _ (by simp))

theorem triggerNoted_hits (t : Time) (s : State) : (triggerNoted t s).trg.hits = s.trg.hits ++ [⟨0xB, 0, t, 0, t⟩] := by
  have htiles : ∀ (l : List Nat) (v : State), Only [.tiles] noReg v (l.foldl (fun u k => touchTile k u) v) := fun l v =>
    Only.foldl (fun v k => Only.modTile v k _ (by simp)) (Only.refl _ _ v)
  exact congrArg Trg.hits ((htiles _ _).1 .trg (by simp))

/-- The frame that an integration from the trigger l to the trigger t gives (R139–R142). -/
def frameSampled (l t : Time) (s : State) : Sampled :=
  ⟨s.frames.next, l, t, s.frames.image, s.frames.holes, s.pix.shots.filter (fun k => reached k.at_ l && !reached k.at_ t),
    s.bg.inForce.adcs ++ s.bg.unlistedAdcs, frameTiles s t⟩

/-- The first trigger of a run starts the integration (R141). -/
theorem acceptTrigger_first {t : Time} (h : s.frames.started = false ∨ s.frames.lastTrig = none) :
    acceptTrigger t s = (triggerNoted t s).modFrames (fun f => { f with
      lastTrig := some t
      image := s.pix.latches
      holes := s.holes
      started := true }) := by
  unfold acceptTrigger
  extract_lets f s1 s2
  split
  · next l hstarted hlast =>
    rcases h with h | h
    · rw [h] at hstarted; cases hstarted
    · rw [h] at hlast; cases hlast
  · rfl

/-- A later trigger ends an input frame (R140, R142). -/
theorem acceptTrigger_next {l t : Time} (hs : s.frames.started = true) (hl : s.frames.lastTrig = some l) :
    acceptTrigger t s = (((triggerNoted t s).modFrames (fun f => { f with
      lastTrig := some t
      image := s.pix.latches
      holes := s.holes
      next := f.next + 1
      hold := holdFrame (frameSampled l t s) f.hold })).count Reg.FRM_NUMBER 31 0 1).wr64 Reg.FRM_LAST_TIME Reg.FRM_LAST_TIME_4 t := by
  simp only [acceptTrigger, hs, hl]
  rfl

/-- The registers that an accepted trigger writes. -/
def triggerRegs (a : Nat) : Prop := a = Reg.FRM_NUMBER ∨ a = Reg.FRM_LAST_TIME ∨ a = Reg.FRM_LAST_TIME_4

/-- What an accepted trigger makes of the state s (R139–R142, R216). -/
structure TriggerTaken (t : Time) (s v : State) : Prop where
  only : Only [.trg, .pix, .frames, .tiles] triggerRegs s v
  last : v.frames.lastTrig = some t
  image : v.frames.image = s.pix.latches
  holes : v.frames.holes = s.holes
  hits : v.trg.hits = s.trg.hits ++ [⟨0xB, 0, t, 0, t⟩]
  first : s.frames.started = false ∨ s.frames.lastTrig = none → v.frames.started = true ∧ v.frames.hold = s.frames.hold ∧
    v.rd Reg.FRM_NUMBER = s.rd Reg.FRM_NUMBER
  later : ∀ l, s.frames.started = true → s.frames.lastTrig = some l → v.frames.next = s.frames.next + 1 ∧
    v.rd Reg.FRM_NUMBER = s.rd Reg.FRM_NUMBER + 1 ∧ v.rd64 Reg.FRM_LAST_TIME Reg.FRM_LAST_TIME_4 = t ∧
    v.frames.hold = holdFrame (frameSampled l t s) s.frames.hold

theorem acceptTrigger_taken (t : Time) (s : State) : TriggerTaken t s (acceptTrigger t s) := by
  have hn := triggerNoted_only t s
  have hframes : (triggerNoted t s).frames = s.frames := hn.1 .frames (by simp)
  have hmod : ∀ f : Frames → Frames, Only [.trg, .pix, .frames, .tiles] triggerRegs s ((triggerNoted t s).modFrames f) := fun f =>
    (hn.mono (by simp) fun _ => False.elim).trans (Only.setFrames _ _ (by simp))
  by_cases h : s.frames.started = false ∨ s.frames.lastTrig = none
  · have ht := acceptTrigger_first (t := t) h
    refine ⟨ht ▸ hmod _, by rw [ht]; rfl, by rw [ht]; rfl, by rw [ht]; rfl, by rw [ht]; exact triggerNoted_hits t s, fun _ => ?_,
      fun l hs hl => ?_⟩
    · rw [ht, State.modFrames_frames, State.modFrames_rd, hframes, hn.rd (by simp [noReg])]
      exact ⟨rfl, rfl, rfl⟩
    · simp [hs, hl] at h
  · obtain ⟨hs, hne⟩ := not_or.1 h
    obtain ⟨l, hl⟩ := Option.ne_none_iff_exists'.1 hne
    have ht := acceptTrigger_next (t := t) (eq_true_of_ne_false hs) hl
    refine ⟨?_, by rw [ht]; rfl, by rw [ht]; rfl, by rw [ht]; rfl, by rw [ht]; exact triggerNoted_hits t s, fun k => absurd k h,
      fun k _ hk => ?_⟩
    · rw [ht]
      exact ((hmod _).trans (Only.count _ _ _ _ _ (.inl rfl))).trans (Only.wr64 _ _ _ _ (.inr (.inl rfl)) (.inr (.inr rfl)))
    · cases hl.symm.trans hk
      rw [ht, State.wr64_frames, State.count_frames, State.modFrames_frames, hframes, State.rd64_wr64 _ (by decide)]
      refine ⟨rfl, ?_, rfl, rfl⟩
      rw [State.wr64, State.rd_wr_ne _ _ (by decide), State.rd_wr_ne _ _ (by decide), State.rd_count_word, State.modFrames_rd,
        hn.rd (by simp [noReg])]

theorem holdFrame_cases (one : Sampled) (h : Two (Option Sampled)) : (one.left = [] → holdFrame one h = h) ∧
    (one.left ≠ [] → one.number % 2 = 0 → holdFrame one h = ⟨some one, h.b⟩) ∧
    (one.left ≠ [] → one.number % 2 = 1 → holdFrame one h = ⟨h.a, some one⟩) := by
  refine ⟨fun h0 => if_pos h0, fun h0 h2 => ?_, fun h0 h2 => ?_⟩
  · exact (if_neg h0).trans (if_pos h2)
  · exact (if_neg h0).trans (if_neg (by omega))

/-- The tick of an edge of the EXT source that is delivered (R143). -/
theorem triggerTick_ext {i : Fin 12} {rising : Bool} {e : Time} (hw : extWanted u i rising = true)
    (hf : u.frames.ext.find? (fun q => q.1 = i.val && q.2.1 = rising) = some (i.val, rising, e)) :
    triggerTick u (.ext i rising) = if reached u.now (e + 12) then some (e + 12) else none := by
  simp only [triggerTick, hw, if_true, extTick, hf]

end

end Sys2Proof.Machine
end

section
/-!
### A tile's decimation window, and what leaves it alone (R155, R161, R165, R172, R182)
-/

namespace Sys2Proof.Machine

/-- Where a tile stands in its decimation: inputs of the window so far, first trigger of the window, output frame number. -/
def Tile.window (k : Tile) : Nat × Time × Nat := (k.phase, k.windowStart, k.outNo)

/-- The registers of tile i that its FIFO and its decimation chain write beside DEC_PHASE, and those of a raise. -/
def feedRegs (i a : Nat) : Prop :=
  raiseRegs a ∨ a ∈ [Reg.TIL_FIFO i, Reg.FRM_FRAMES i, Reg.FRM_SUPP i, Reg.DEC_STATUS i]

theorem feedRegs_inBlocks {i a : Nat} (hi : i < 64) (h : feedRegs i a) : inBlocks [8, 17] a := by
  rcases h with h | h
  · exact raiseRegs_inBlocks (by simp) h
  · simp only [List.mem_cons, List.not_mem_nil, or_false] at h
    rcases h with rfl | rfl | rfl | rfl <;> exact inBlocks_tile hi (by omega) (by simp)

theorem not_feedRegs_ctrl {i : Nat} (hi : i < 64) : ¬ feedRegs i (Reg.DEC_CTRL i) := by
  rintro (h | h)
  · exact not_raiseRegs_tile hi (by omega) h
  · simp only [Reg.DEC_CTRL, Reg.TIL_FIFO, Reg.FRM_FRAMES, Reg.FRM_SUPP, Reg.DEC_STATUS, List.mem_cons, List.not_mem_nil,
      or_false] at h
    omega

theorem not_feedRegs_phase {i : Nat} (hi : i < 64) : ¬ feedRegs i (Reg.DEC_PHASE i) := by
  rintro (h | h)
  · exact not_raiseRegs_tile hi (by omega) h
  · simp only [Reg.DEC_PHASE, Reg.TIL_FIFO, Reg.FRM_FRAMES, Reg.FRM_SUPP, Reg.DEC_STATUS, List.mem_cons, List.not_mem_nil,
      or_false] at h
    omega

/-- What the feeding of a tile's FIFO and errors of its chain leave: where its decimation stands. -/
structure WindowKept (i : Nat) (s t : State) : Prop where
  only : Only fifoParts (feedRegs i) s t
  window : (t.tile i).window = (s.tile i).window

namespace WindowKept

variable {i : Nat} {s t u : State}

theorem refl (i : Nat) (s : State) : WindowKept i s s := ⟨Only.refl _ _ s, rfl⟩

theorem trans (h : WindowKept i s t) (k : WindowKept i t u) : WindowKept i s u := ⟨h.only.trans k.only, k.window.trans h.window⟩

/-- What changes no tile. -/
theorem of_only {ps : List Part} {w : Nat → Prop} (h : Only ps w s t) (hp : ps ⊆ fifoParts) (ht : .tiles ∉ ps)
    (hw : ∀ a, w a → feedRegs i a) : WindowKept i s t := ⟨h.mono hp hw, by rw [h.tile ht]⟩

theorem modTile (s : State) (f : Tile → Tile) (hf : ∀ k, (f k).window = k.window := by intro _; rfl) : WindowKept i s (s.modTile i f) :=
  ⟨Only.modTile s i f (by simp), by rw [State.tile_modTile, if_pos rfl, hf]⟩

theorem ite {p : Prop} [Decidable p] {a b : State} (ha : WindowKept i s a) (hb : WindowKept i s b) :
    WindowKept i s (if p then a else b) := by
  split
  · exact ha
  · exact hb

theorem foldl {α : Type} {f : State → α → State} (h : ∀ t a, WindowKept i t (f t a)) (l : List α) (s : State) :
    WindowKept i s (l.foldl f s) :=
  List.foldlRecOn (motive := WindowKept i s) l f (refl i s) fun t ht a _ => ht.trans (h t a)

theorem raiseTile (k sev inst : Nat) (s : State) : WindowKept i s (raiseTile i k sev inst s) :=
  of_only (raiseTile_only i k sev inst s) (by simp) (by decide) fun _ => .inl

theorem tallyAll (k : Tally) (n : Nat) (s : State) : WindowKept i s (s.tallyAll k n) :=
  of_only (Only.tallyAll (w := noReg) s k n) (by decide) (by decide) fun _ => False.elim

theorem bump {o : Nat} (h : feedRegs i o) (hi lo n : Nat) (s : State) : WindowKept i s (s.bump o hi lo n) :=
  of_only (ps := []) (Only.bump s o hi lo n h) (by simp) (by simp) fun _ => id

theorem levelCheck (s : State) : WindowKept i s (levelCheck i s) := by
  obtain ⟨a, b, c, h⟩ := levelCheck_tile i s
  exact ⟨(levelCheck_only i s).mono (fun _ => id) fun _ => .inl, by rw [h]; rfl⟩

theorem settleBusy (s : State) : WindowKept i s (settleBusy i s) := by
  obtain ⟨b, c, h⟩ := settleBusy_tile i s
  exact ⟨(settleBusy_only i s).mono (by simp) fun _ => False.elim, by rw [h]; rfl⟩

theorem pushSlots (l : List Slot) (n : Nat) (s : State) : WindowKept i s (pushSlots i l n s) := by
  unfold Machine.pushSlots
  extract_lets s1
  have hfifo : feedRegs i (Reg.TIL_FIFO i) := .inr (by simp)
  have h1 : WindowKept i s s1 := modTile s _
  have h2 := of_only (i := i) (ps := []) (Only.high s1 (Reg.TIL_FIFO i) 28 16 (s1.tile i).fifo.length hfifo) (by simp) (by simp) fun _ => id
  exact (h1.trans h2).trans (levelCheck _)

theorem closeFrame (l : List Word72) (s : State) : WindowKept i s (closeFrame i l s) :=
  (modTile s (fun k => { k with frames := k.frames.tail, after := [] })).trans (pushSlots _ _ _)

theorem feedPairs (n : Time) (f : FrameOut) (s : State) : WindowKept i s (feedPairs i n f s) := by
  unfold Machine.feedPairs
  split
  · exact refl i s
  · extract_lets due room want m sent s1
    have h1 : WindowKept i s s1 := pushSlots _ _ s
    split
    · exact ((h1.trans (modTile s1 _)).trans (tallyAll _ _ _)).trans (closeFrame _ _)
    · split
      · exact h1.trans (closeFrame _ s1)
      · exact h1.trans (modTile s1 _)

theorem feedFrame (n : Time) (s : State) : WindowKept i s (feedFrame i n s) := by
  have hcount : ∀ t : State, WindowKept i t (t.count (Reg.FRM_FRAMES i) 31 0 1) := fun t =>
    of_only (ps := []) (Only.count t _ _ _ _ (show feedRegs i _ from .inr (by simp))) (by simp) (by simp) fun _ => id
  unfold Machine.feedFrame
  extract_lets k
  split
  · exact refl i s
  · split
    · exact refl i s
    · split
      · exact feedPairs n _ s
      · split
        · exact refl i s
        · split
          · exact (modTile s _).trans (tallyAll _ _ _)
          · exact (((modTile s _).trans (pushSlots _ _ _)).trans (hcount _)).trans (feedPairs n _ _)

theorem settleTile (s : State) : WindowKept i s (settleTile i s) := by
  have hf : ∀ n s, WindowKept i s (feedTo i n s) := fun n s => (feedFrame n s).trans (feedFrame n _)
  have h1 : WindowKept i s { feedTo i (s.now - 1) s with fresh := s.fresh } := by
    obtain ⟨⟨hp, hr⟩, hw⟩ := hf (s.now - 1) s
    exact ⟨⟨fun p h => by have := hp p h; cases p <;> exact this, fun a ha => ⟨(hr a ha).1, rfl⟩⟩, hw⟩
  exact (h1.trans (hf s.now _)).trans (settleBusy _)

theorem idleCheck (s : State) : WindowKept i s (idleCheck i s) := by
  exact ite (modTile s _) (refl i s)

theorem chainError (lp : Nat) (s : State) : WindowKept i s (chainError i lp s) :=
  ((bump (.inr (by simp)) 15 0 1 s).trans (modTile _ _)).trans (raiseTile _ _ _ _)

theorem frames (h : WindowKept i s t) : t.frames = s.frames := h.only.1 .frames (by decide)

theorem modFrames (h : WindowKept i s t) (f : Frames → Frames) : WindowKept i (s.modFrames f) (t.modFrames f) := by
  refine ⟨⟨fun p hp => ?_, fun a ha => h.only.2 a ha⟩, h.window⟩
  have hs := h.only.1 p hp
  cases p with
  | frames => exact congrArg f hs
  | evt x | mgt x | lnk x | wlt x | lce x | dsp x | cmp x | bst x | tally x => cases x <;> exact hs
  | _ => exact hs

theorem dec_phase (h : WindowKept i s t) (hi : i < 64) : t.rd (Reg.DEC_PHASE i) = s.rd (Reg.DEC_PHASE i) :=
  h.only.rd (not_feedRegs_phase hi)

end WindowKept

end Sys2Proof.Machine
end

section
/-!
### Frame conversions (R147, R154–R166)
-/

namespace Sys2Proof.Machine

/-! Frames held -/

theorem mem_sampled {f : Frames} {e : Sampled} (h : e ∈ f.sampled) : f.hold.a = some e ∨ f.hold.b = some e := by
  unfold Frames.sampled at h
  split at h
  · next p q ha hb =>
    have he : e = p ∨ e = q := by
      split at h
      · simpa using h
      · simpa [or_comm] using h
    exact he.imp (fun k => by rw [ha, k]) fun k => by rw [hb, k]
  · next p ha hb => exact .inl (by rw [ha, List.mem_singleton.1 h])
  · next q ha hb => exact .inr (by rw [hb, List.mem_singleton.1 h])
  · cases h

theorem without_left {i : Nat} {p e : Sampled} (h : p.without i = some e) : i ∉ e.left := by
  unfold Sampled.without at h
  split at h
  · cases h
  · cases h
    simp

/-- A held frame that a tile has converted waits for that tile no more (R140). -/
theorem converted_left {i n : Nat} {f : Frames} {e : Sampled} (h : e ∈ { f with hold := converted i n f.hold }.sampled)
    (hn : e.number = n) : i ∉ e.left := by
  have hone : ∀ o : Option Sampled, (o.bind fun q => if q.number = n then q.without i else some q) = some e → i ∉ e.left := by
    intro o ho
    obtain ⟨q, -, hq⟩ := Option.bind_eq_some_iff.1 ho
    split at hq
    · exact without_left hq
    · next hne => cases hq; exact absurd hn hne
  rcases mem_sampled h with h | h <;> exact hone _ h

section
variable {i : Nat} {dt : Nat} {s u : State}

/-- The parts that a tile's conversion changes. -/
abbrev convertParts : List Part := .frames :: fifoParts

/-- The registers that a tile's conversion writes. -/
def convertRegs (i a : Nat) : Prop := feedRegs i a ∨ a = Reg.DEC_PHASE i

/-- The name of an output frame's span: tile and number (R213). -/
def spanName (i n : Nat) : BitVec 48 := BitVec.ofNat 48 (2 ^ 46 + n % 2 ^ 32 * 64 + i)

/-- What an output frame of a tile, of an integration from a to b, leaves (R155, R213). -/
structure FrameOutput (i : Nat) (a b : Time) (s t : State) : Prop where
  only : Only convertParts (feedRegs i) s t
  frames : t.frames = { s.frames with spans := s.frames.spans ++ [(spanName i (s.tile i).outNo, a, b)] }
  number : (t.tile i).outNo = (s.tile i).outNo + 1
  phase : (t.tile i).phase = (s.tile i).phase

theorem State.tile_modFrames (s : State) (f : Frames → Frames) (i : Nat) : (s.modFrames f).tile i = s.tile i := rfl

theorem emitFrame_output (i preset : Nat) (stamp a b : Time) (sq : Bool) (clamps : Nat) (l : List (Bool × Nat × Int)) (s : State) :
    FrameOutput i a b s (emitFrame i preset stamp a b sq clamps l s) := by
  unfold emitFrame
  extract_lets k zs thresh all kept no tail out s1
  have h1 : WindowKept i s s1 := (WindowKept.bump (.inr (by simp)) _ _ _ s).trans (WindowKept.bump (.inr (by simp)) _ _ _ _)
  have ht : s1.tile i = s.tile i := by simp only [State.tile, s1, State.bump_tiles]
  have hf : s1.frames = s.frames := h1.frames
  refine ⟨((h1.only.mono (by simp) fun _ => id).trans (Only.modTile s1 i _ (by simp))).trans (Only.setFrames _ _ (by simp)), ?_, ?_, ?_⟩
  · rw [State.modFrames_frames, State.modTile_frames, hf]
    rfl
  · rw [State.tile_modFrames, State.tile_modTile, if_pos rfl]
  · rw [State.tile_modFrames, State.tile_modTile, if_pos rfl, ht]

/-- What an input frame q of preset pr makes of a tile's window (R161, R162, R213): the window ends with an output frame, or goes on. -/
structure FrameTaken (i pr : Nat) (q : Sampled) (s t : State) : Prop where
  only : Only convertParts (convertRegs i) s t
  ends : pr = 0 ∨ (s.tile i).phase + 1 = ratioOf pr → (t.tile i).outNo = (s.tile i).outNo + 1 ∧
    t.frames = { s.frames with spans := s.frames.spans ++
      [(spanName i (s.tile i).outNo, if pr = 0 ∨ (s.tile i).phase = 0 then q.t0 else (s.tile i).windowStart, q.t1)] }
  cleared : pr ≠ 0 → (s.tile i).phase + 1 = ratioOf pr → (t.tile i).phase = 0 ∧ t.rd (Reg.DEC_PHASE i) = 0
  goesOn : ¬ (pr = 0 ∨ (s.tile i).phase + 1 = ratioOf pr) → (t.tile i).outNo = (s.tile i).outNo ∧
    (t.tile i).phase = (s.tile i).phase + 1 ∧ t.rd (Reg.DEC_PHASE i) = BitVec.ofNat 32 ((s.tile i).phase + 1) ∧ t.frames = s.frames

theorem WindowKept.phase {s t : State} (h : WindowKept i s t) : (t.tile i).phase = (s.tile i).phase := congrArg Prod.fst h.window

theorem WindowKept.outNo {s t : State} (h : WindowKept i s t) : (t.tile i).outNo = (s.tile i).outNo := congrArg (·.2.2) h.window

theorem WindowKept.windowStart {s t : State} (h : WindowKept i s t) : (t.tile i).windowStart = (s.tile i).windowStart :=
  congrArg (·.2.1) h.window

/-- What keeps the window before and after changes nothing of what a frame makes of it. -/
theorem FrameTaken.around {pr : Nat} {q : Sampled} {s v w t : State} (hi : i < 64) (hv : WindowKept i s v) (h : FrameTaken i pr q v w)
    (ht : WindowKept i w t) : FrameTaken i pr q s t where
  only := ((hv.only.mono (by simp) fun _ => .inl).trans h.only).trans (ht.only.mono (by simp) fun _ => .inl)
  ends := by
    rw [ht.outNo, ht.frames, ← hv.phase, ← hv.outNo, ← hv.windowStart, ← hv.frames]
    exact h.ends
  cleared := by
    rw [ht.phase, ht.dec_phase hi, ← hv.phase]
    exact h.cleared
  goesOn := by
    rw [ht.outNo, ht.phase, ht.dec_phase hi, ht.frames, ← hv.phase, ← hv.outNo, ← hv.frames]
    exact h.goesOn

theorem State.tile_wr (s : State) (a : Nat) (v : Word) (i : Nat) : (s.wr a v).tile i = s.tile i := rfl

theorem decimate_taken (hi : i < 64) {pr : Nat} (hpr : pr ≠ 0) (q : Sampled) (l : List (Bool × Nat × Nat)) (s : State) :
    FrameTaken i pr q s (decimate i pr q l s) := by
  unfold decimate
  extract_lets k r sq u0 fed outs clamps stamp s1
  have hwr : ∀ (f : Tile → Tile) (v : Word), Only convertParts (convertRegs i) s ((s.modTile i f).wr (Reg.DEC_PHASE i) v) := fun f v =>
    (Only.modTile s i f (by simp)).trans (Only.wr _ _ _ (.inr rfl))
  split
  · next hend =>
    have hend' : (s.tile i).phase + 1 = ratioOf pr := hend
    have hs1 : (s1.wr (Reg.DEC_PHASE i) 0).tile i = _ := (State.tile_wr s1 _ _ i).trans ((State.tile_modTile s i _ i).trans (if_pos rfl))
    have hout := emitFrame_output i pr stamp u0 q.t1 sq clamps (outs.map (·.1)) (s1.wr (Reg.DEC_PHASE i) 0)
    have hno := hout.number
    have hph := hout.phase
    have hfr := hout.frames
    rw [hs1] at hno hph hfr
    have hu : u0 = if pr = 0 ∨ (s.tile i).phase = 0 then q.t0 else (s.tile i).windowStart := by simp only [u0, k, hpr, false_or]
    refine ⟨(hwr _ 0).trans (hout.only.mono (fun _ => id) fun _ => .inl), fun _ => ⟨hno, ?_⟩, fun _ _ => ⟨hph, ?_⟩,
      fun h => absurd (.inr hend') h⟩
    · have hs1f : (s1.wr (Reg.DEC_PHASE i) 0).frames = s.frames := by rw [State.wr_frames, State.modTile_frames]
      rw [hfr, hu, hs1f]
    · rw [hout.only.rd (not_feedRegs_phase hi), State.rd_wr_self]
  · next hgo =>
    have hno : ¬ (pr = 0 ∨ (s.tile i).phase + 1 = ratioOf pr) := fun h => h.elim hpr hgo
    refine ⟨hwr _ _, fun h => absurd h hno, fun _ h => absurd h hgo, fun _ => ?_⟩
    rw [State.tile_wr, State.tile_modTile, if_pos rfl, State.rd_wr_self]
    exact ⟨rfl, rfl, rfl, by rw [State.wr_frames, State.modTile_frames]⟩

/-- A frame of a tile that does not decimate is an output frame of its own (R160). -/
theorem emitFrame_taken (stamp : Time) (q : Sampled) (sq : Bool) (l : List (Bool × Nat × Int)) (s : State) :
    FrameTaken i 0 q s (emitFrame i 0 stamp q.t0 q.t1 sq 0 l s) := by
  have hout := emitFrame_output i 0 stamp q.t0 q.t1 sq 0 l s
  refine ⟨hout.only.mono (fun _ => id) fun _ => .inl, fun _ => ⟨hout.number, ?_⟩, fun h => absurd rfl h,
    fun h => absurd (.inl rfl) h⟩
  rw [hout.frames, if_pos (.inl rfl)]

/-- A tile's conversion of a frame q, from the state at its end to the state that it leaves (R147, R161). -/
theorem frameConversionEnd_exec {i : Fin 64} {samples : List Sample} {bad : List (Fin 16384)} {q : Sampled} (hu : s.elapse dt = u)
    (hq : u.frames.sampled.find? (fun q => q.left.contains i.val) = some q) (hr : reached u.now (q.t1 + 6000) = true) :
    ∃ t, exec (.frameConversionEnd dt i samples bad) s = .next t ∧ FrameTaken i (u.rf (Reg.DEC_CTRL i) 1 0) q
      (u.modFrames (fun g => { g with hold := converted i q.number g.hold })) t := by
  subst hu
  let z := settleTile i (s.elapse dt)
  let v := z.modFrames (fun g => { g with hold := converted i q.number g.hold })
  let l := samplesOf z q i samples
  let pr := z.rf (Reg.DEC_CTRL i) 1 0
  let w := (bad.map (·.val)).foldl (fun k lp => chainError i lp k) v
  let out := if pr = 0 then emitFrame i 0 q.t1 q.t0 q.t1 (frameSquall z q) 0 (l.map (fun k => (k.1, k.2.1, (k.2.2 : Int)))) v
    else decimate i pr q l w
  have hz : WindowKept i (s.elapse dt) z := WindowKept.settleTile _
  have hexec : exec (.frameConversionEnd dt i samples bad) s = .next (idleCheck i (settleTile i out)) := by
    have hq' : z.frames.sampled.find? (fun q => q.left.contains i.val) = some q := by rw [hz.frames]; exact hq
    have hr' : reached z.now (q.t1 + 6000) = true := by rw [hz.only.now (by decide)]; exact hr
    show execFrameConversionEnd dt i samples bad s = _
    have hz' : settleTile i (s.elapse dt) = z := rfl
    simp only [execFrameConversionEnd, hz', hq', hr']
    rfl
  have hpr : pr = (s.elapse dt).rf (Reg.DEC_CTRL i) 1 0 := hz.only.rf (not_feedRegs_ctrl i.isLt) 1 0
  have hv : WindowKept i ((s.elapse dt).modFrames (fun g => { g with hold := converted i q.number g.hold })) v := hz.modFrames _
  have hw : WindowKept i v w := WindowKept.foldl (fun k lp => WindowKept.chainError lp k) _ v
  have hout : FrameTaken i pr q v out := by
    simp only [out]
    split
    · next h => rw [h]; exact emitFrame_taken _ q _ _ v
    · next h => exact (decimate_taken i.isLt h q l w).around i.isLt hw (WindowKept.refl _ _)
  rw [← hpr]
  exact ⟨_, hexec, hout.around i.isLt hv ((WindowKept.settleTile out).trans (WindowKept.idleCheck _))⟩

/-- Of the frames an input frame of a tile changes the spans alone. -/
theorem FrameTaken.frames {pr : Nat} {q : Sampled} {t : State} (h : FrameTaken i pr q s t) :
    ∃ l, t.frames = { s.frames with spans := l } := by
  by_cases hend : pr = 0 ∨ (s.tile i).phase + 1 = ratioOf pr
  · exact ⟨_, (h.ends hend).2⟩
  · exact ⟨s.frames.spans, (h.goesOn hend).2.2.2⟩

theorem convertRegs_inBlocks {a : Nat} (hi : i < 64) (h : convertRegs i a) : inBlocks [8, 17] a := by
  rcases h with h | rfl
  · exact feedRegs_inBlocks hi h
  · exact inBlocks_tile hi (by omega) (by simp)

end

/-- A tile converts an input frame (R147, R161): it enters the decimation window, or gives an output frame with the window's span. -/
theorem frameConversionEnd_converts {dt : Nat} {s u : State} {i : Fin 64} {samples : List Sample} {bad : List (Fin 16384)} {q : Sampled}
    (hu : s.elapse dt = u) (hq : u.frames.sampled.find? (fun q => q.left.contains i.val) = some q)
    (hr : reached u.now (q.t1 + 6000) = true) : let k := u.tile i; let preset := u.rf (Reg.DEC_CTRL i) 1 0
    let ends := preset = 0 ∨ k.phase + 1 = ratioOf preset
    Happens ([.frames, .tiles] ++ bothOf .evt ++ bothOf .tally) (inBlocks [8, 17]) u
      (fun t => t.frames.hold = converted i q.number u.frames.hold ∧ (∀ e ∈ t.frames.sampled, e.number = q.number → i.val ∉ e.left) ∧
        (ends → (t.tile i).outNo = k.outNo + 1 ∧ t.frames.spans = u.frames.spans ++
          [(spanName i k.outNo, if preset = 0 ∨ k.phase = 0 then q.t0 else k.windowStart, q.t1)]) ∧
        (ends → preset ≠ 0 → (t.tile i).phase = 0 ∧ t.rd (Reg.DEC_PHASE i) = 0) ∧
        (¬ ends → (t.tile i).outNo = k.outNo ∧ (t.tile i).phase = k.phase + 1 ∧
          t.rd (Reg.DEC_PHASE i) = BitVec.ofNat 32 (k.phase + 1) ∧ t.frames.spans = u.frames.spans))
      (exec (.frameConversionEnd dt i samples bad) s) := by
  intro k preset ends
  obtain ⟨t, hexec, ht⟩ := frameConversionEnd_exec (samples := samples) (bad := bad) hu hq hr
  obtain ⟨l, hframes⟩ := ht.frames
  refine ⟨t, hexec, ⟨by rw [hframes]; rfl, fun e he => ?_, fun h => ?_, fun h hp => ht.cleared hp (h.resolve_left hp), fun h => ?_⟩, ?_⟩
  · rw [hframes] at he
    exact converted_left (f := { u.frames with spans := l }) he
  · obtain ⟨hno, hspans⟩ := ht.ends h
    exact ⟨hno, congrArg Frames.spans hspans⟩
  · obtain ⟨hno, hphase, hreg, hspans⟩ := ht.goesOn h
    exact ⟨hno, hphase, hreg, by rw [hspans]; rfl⟩
  · have hm : Only convertParts (convertRegs i) u (u.modFrames (fun g => { g with hold := converted i q.number g.hold })) :=
      Only.setFrames u _ (by simp)
    exact (hm.trans ht.only).mono (by decide) fun _ => convertRegs_inBlocks i.isLt

/-- An accepted trigger as the state before it has it: what has been used for it bears on none of what it takes in. -/
theorem frameTrigger_accepted (src : FrameSource) (t0 : Time) (u : State) :
    let f := u.frames; let t := acceptTrigger t0 (usedTrigger src t0 u)
    (t.frames.lastTrig = some t0 ∧ t.frames.image = u.pix.latches ∧ t.frames.holes = u.holes ∧ t.trg.hits = u.trg.hits ++
        [⟨0xB, 0, t0, 0, t0⟩] ∧
      (f.started = false ∨ f.lastTrig = none → t.frames.started = true ∧ t.frames.hold = f.hold ∧
        t.rd Reg.FRM_NUMBER = u.rd Reg.FRM_NUMBER) ∧
      (∀ l, f.started = true → f.lastTrig = some l → t.frames.next = f.next + 1 ∧ t.rd Reg.FRM_NUMBER = u.rd Reg.FRM_NUMBER + 1 ∧
        t.rd64 Reg.FRM_LAST_TIME Reg.FRM_LAST_TIME_4 = t0 ∧ t.frames.hold = holdFrame (frameSampled l t0 u) f.hold)) ∧
    Only [.trg, .pix, .frames, .tiles] triggerRegs u t := by
  intro f t
  have ho := usedTrigger_only src t0 u
  have ht := acceptTrigger_taken t0 (usedTrigger src t0 u)
  obtain ⟨b, e, hv⟩ := usedTrigger_eq src t0 u
  refine ⟨⟨ht.last, ?_, ?_, ?_, ?_, ?_⟩, (ho.mono (by simp) fun _ => False.elim).trans ht.only⟩
  · exact ht.image.trans (by rw [hv])
  · exact ht.holes.trans (by rw [hv]; rfl)
  · exact ht.hits.trans (by rw [hv])
  · have hfirst := ht.first
    rw [hv] at hfirst
    simp only [t, hv]
    exact hfirst
  · have hlater := ht.later
    rw [hv] at hlater
    simp only [t, hv]
    exact hlater

/-- Settles O40: a trigger is what `acceptTrigger_taken` says; a conversion makes of its tile's window what `FrameTaken` says, which the
tile's FIFO, its chain's errors and its going idle leave as it is (`WindowKept`). -/
theorem framesAreTriggeredAndConverted : Obligations.FramesAreTriggeredAndConverted := by
  intro dt s u f
  refine ⟨?_, fun i rising e => triggerTick_ext, ?_⟩
  · intro src t0 ht hrun hnew hstart hstop early
    obtain ⟨hearly, haccept⟩ := frameTrigger_exec rfl ht hrun hnew hstart hstop
    refine ⟨fun h => ⟨_, hearly h, frameTrigger_early src t0 u⟩, fun h => ⟨_, haccept h, ?_⟩⟩
    obtain ⟨⟨hlast, himage, hholes, hhits, hfirst, hlater⟩, honly⟩ := frameTrigger_accepted src t0 u
    refine ⟨⟨hlast, himage, hholes, hhits, hfirst, fun l hs hl => ?_⟩, honly⟩
    obtain ⟨hnext, hnumber, htime, hhold⟩ := hlater l hs hl
    obtain ⟨hnone, heven, hodd⟩ := holdFrame_cases (frameSampled l t0 u) u.frames.hold
    exact ⟨hnext, hnumber, htime, fun h => hhold.trans (hnone h), fun h h2 => hhold.trans (heven h h2),
      fun h h2 => hhold.trans (hodd h h2)⟩
  · intro i samples bad q hq hr
    exact frameConversionEnd_converts rfl hq hr


end Sys2Proof.Machine
end

section
/-!
### What the feeding of a tile's FIFO leaves of this tile and of the others (R180, R182, R184, R189)
-/

namespace Sys2Proof.Machine

/-- A tile but for what the feeding of its FIFO changes. -/
def Tile.core (k : Tile) : Tile := { k with
  fifo := []
  words := 0
  lastAct := 0
  gatedAt := none
  full := false
  spans := []
  pllBusy := none
  frames := []
  after := []
  skipping := false
  skipped := 0 }

/-- A tile's PLL keeps BUSY up, and the span of BUSY open, until it has locked again (R531). -/
theorem settleBusy_unlocked {i : Nat} {s : State} (h : (s.tile i).unlocked = true) : settleBusy i s = s := by
  have hpll : (s.tile i).pllBusy = some none := of_decide_eq_true h
  have hbusy : (s.tile i).busy s.clock.ticks = true := by simp [Tile.busy, hpll]
  unfold settleBusy
  extract_lets k
  split
  · exact if_pos hbusy
  · rfl

/-- The FIFO of tile i has been fed: words stand behind those that stood there, and beside the FIFO, the frames on their way into it and
BUSY nothing of the tile has changed, nor any other tile. -/
structure Fed (i : Nat) (s t : State) : Prop where
  only : Only fifoParts (feedRegs i) s t
  others : ∀ j, j ≠ i → t.tile j = s.tile j
  core : (t.tile i).core = (s.tile i).core
  grows : (s.tile i).fifo <+: (t.tile i).fifo
  unlocked : (s.tile i).unlocked = true → (t.tile i).unlocked = true
  recs : i < 64 → ∀ x n, 512 ≤ n → t.srcRec x n = s.srcRec x n

namespace Fed

variable {i : Nat} {s t u : State}

theorem refl (i : Nat) (s : State) : Fed i s s := ⟨Only.refl _ _ s, fun _ _ => rfl, rfl, List.prefix_rfl, id, fun _ _ _ _ => rfl⟩

theorem trans (h : Fed i s t) (k : Fed i t u) : Fed i s u where
  only := h.only.trans k.only
  others j hj := (k.others j hj).trans (h.others j hj)
  core := k.core.trans h.core
  grows := h.grows.trans k.grows
  unlocked := k.unlocked ∘ h.unlocked
  recs hi x n hn := (k.recs hi x n hn).trans (h.recs hi x n hn)

/-- What changes no tile and raises nothing. -/
theorem of_only {ps : List Part} {w : Nat → Prop} (h : Only ps w s t) (hp : ps ⊆ bothOf .tally) (hw : ∀ a, w a → feedRegs i a) :
    Fed i s t := by
  have ht : .tiles ∉ ps := fun hm => by simpa [bothOf] using hp hm
  have he : ∀ x, .evt x ∉ ps := fun x hm => by simpa [bothOf] using hp hm
  refine ⟨h.mono (fun p hm => ?_) hw, fun j _ => h.tile ht j, by rw [h.tile ht], by rw [h.tile ht], by rw [h.tile ht]; exact id,
    fun _ x n _ => h.srcRec x (he x) n⟩
  have hm' := hp hm
  simp only [bothOf, List.mem_cons, List.not_mem_nil, or_false] at hm'
  rcases hm' with rfl | rfl <;> simp [raising]

theorem modTile (s : State) (f : Tile → Tile) (hc : (f (s.tile i)).core = (s.tile i).core := by rfl)
    (hg : (s.tile i).fifo <+: (f (s.tile i)).fifo := by exact List.prefix_rfl)
    (hu : (s.tile i).unlocked = true → (f (s.tile i)).unlocked = true := by exact id) : Fed i s (s.modTile i f) where
  only := Only.modTile s i f (by simp)
  others j hj := by rw [State.tile_modTile, if_neg hj]
  core := by rw [State.tile_modTile, if_pos rfl, hc]
  grows := by rw [State.tile_modTile, if_pos rfl]; exact hg
  unlocked h := by rw [State.tile_modTile, if_pos rfl]; exact hu h
  recs _ x n _ := (Only.modTile (ps := [.tiles]) (w := noReg) s i f (by simp)).srcRec x (by simp) n

theorem raiseTile {k : Nat} (hk : k < 8) (sev inst : Nat) (s : State) : Fed i s (raiseTile i k sev inst s) := by
  have h := raiseTile_only i k sev inst s
  have ht := h.tile_eq i
  exact ⟨h.mono (by simp) fun _ => .inl, fun j _ => h.tile_eq j, by rw [ht], by rw [ht], by rw [ht]; exact id,
    fun hi x n hn => raiseBase_srcRec_ne (by omega) _ _ x s⟩

theorem tallyAll (k : Tally) (n : Nat) (s : State) : Fed i s (s.tallyAll k n) :=
  of_only (Only.tallyAll (w := noReg) s k n) (List.Subset.refl _) fun _ => False.elim

theorem high {a : Nat} (h : feedRegs i a) (hi lo v : Nat) (s : State) : Fed i s (s.high a hi lo v) :=
  of_only (ps := []) (Only.high s a hi lo v h) (by simp) fun _ => id

theorem count {a : Nat} (h : feedRegs i a) (hi lo n : Nat) (s : State) : Fed i s (s.count a hi lo n) :=
  of_only (ps := []) (Only.count s a hi lo n h) (by simp) fun _ => id

theorem settleBusy (s : State) : Fed i s (settleBusy i s) := by
  by_cases hu : (s.tile i).unlocked = true
  · rw [settleBusy_unlocked hu]; exact refl i s
  · unfold Machine.settleBusy
    extract_lets k
    split
    · split
      · exact refl i s
      · exact modTile s _ (hu := fun h => absurd h hu)
    · exact refl i s

theorem withBusy (f : Tile → Tile) (s : State) (hc : ∀ k, (f k).core = k.core := by intro _; rfl)
    (hg : ∀ k, k.fifo <+: (f k).fifo := by intro _; exact List.prefix_rfl)
    (hu : ∀ k, k.unlocked = true → (f k).unlocked = true := by intro _; exact id) : Fed i s (withBusy i f s) := by
  unfold Machine.withBusy
  extract_lets s0 was s1 is
  have h1 : Fed i s s1 := (settleBusy s).trans (modTile s0 f (hc _) (hg _) (hu _))
  split
  · exact (h1.trans (modTile s1 _)).trans (raiseTile (by omega) _ _ _)
  · split
    · exact h1.trans (modTile s1 _)
    · exact h1

theorem levelCheck (s : State) : Fed i s (levelCheck i s) := by
  unfold Machine.levelCheck
  extract_lets k n
  split
  · exact refl i s
  · split
    · exact withBusy _ s
    · split
      · exact withBusy _ s
      · exact refl i s

theorem pushSlots (l : List Slot) (n : Nat) (s : State) : Fed i s (pushSlots i l n s) := by
  unfold Machine.pushSlots
  extract_lets s1
  exact ((modTile s _ (hg := List.prefix_append _ l)).trans (high (.inr (by simp)) _ _ _ s1)).trans (levelCheck _)

theorem closeFrame (l : List Word72) (s : State) : Fed i s (closeFrame i l s) := (modTile s _).trans (pushSlots _ _ _)

theorem feedPairs (n : Time) (f : FrameOut) (s : State) : Fed i s (feedPairs i n f s) := by
  unfold Machine.feedPairs
  split
  · exact refl i s
  · extract_lets due room want m sent s1
    have h1 : Fed i s s1 := pushSlots _ _ s
    split
    · exact ((h1.trans (modTile s1 _)).trans (tallyAll _ _ _)).trans (closeFrame _ _)
    · split
      · exact h1.trans (closeFrame _ s1)
      · exact h1.trans (modTile s1 _)

theorem feedFrame (n : Time) (s : State) : Fed i s (feedFrame i n s) := by
  unfold Machine.feedFrame
  extract_lets k
  split
  · exact refl i s
  · split
    · exact refl i s
    · split
      · exact feedPairs n _ s
      · split
        · exact refl i s
        · split
          · exact (modTile s _).trans (tallyAll _ _ _)
          · exact (((modTile s _).trans (pushSlots _ _ _)).trans (count (.inr (by simp)) _ _ _ _)).trans (feedPairs n _ _)

theorem settleTile (s : State) : Fed i s (settleTile i s) := by
  have hf : ∀ n s, Fed i s (feedTo i n s) := fun n s => (feedFrame n s).trans (feedFrame n _)
  have h1 : Fed i s { feedTo i (s.now - 1) s with fresh := s.fresh } := by
    obtain ⟨⟨hp, hr⟩, ho, hc, hg, hu, hn⟩ := hf (s.now - 1) s
    exact ⟨⟨fun p h => by have := hp p h; cases p <;> exact this, fun a ha => ⟨(hr a ha).1, rfl⟩⟩, ho, hc, hg, hu, hn⟩
  exact (h1.trans (hf s.now _)).trans (settleBusy _)

/-! What is read of a tile that has been fed -/

theorem state (h : Fed i s t) : (t.tile i).state = (s.tile i).state :=
  (congrArg Tile.state h.core :)

theorem slice (h : Fed i s t) : (t.tile i).slice = (s.tile i).slice :=
  (congrArg Tile.slice h.core :)

theorem lost (h : Fed i s t) : (t.tile i).lost = (s.tile i).lost :=
  (congrArg Tile.lost h.core :)

theorem now (h : Fed i s t) : t.now = s.now := h.only.now (by decide)

theorem clock (h : Fed i s t) : t.clock = s.clock := h.only.1 .clock (by decide)

end Fed

end Sys2Proof.Machine
end

section
/-!
### What a tile brought up to now depends on

Two states that show the same of one tile, its mode and the clock show the same of it once it has been brought up to now; whether a squall
has been reported of the tile is not looked at.
-/

namespace Sys2Proof.Machine

/-- A tile but for whether its event of the present squall has been raised (R199). -/
def Tile.plain (k : Tile) : Tile := { k with squallSaid := false }

/-- Two states show the same of tile i: what there is to see of it, its mode and the clock. -/
structure Near (i : Nat) (s t : State) : Prop where
  clock : t.clock = s.clock
  frame : t.frameTile i = s.frameTile i
  tile : (t.tile i).plain = (s.tile i).plain

theorem not_feedRegs_tilCtrl {i j : Nat} (hi : i < 64) : ¬ feedRegs j (Reg.TIL_CTRL i) := by
  rintro (h | h)
  · exact not_raiseRegs_tile hi (by omega) h
  · simp only [Reg.TIL_CTRL, Reg.TIL_FIFO, Reg.FRM_FRAMES, Reg.FRM_SUPP, Reg.DEC_STATUS, tileBase, List.mem_cons, List.not_mem_nil,
      or_false] at h
    omega

namespace Near

variable {i : Nat} {s t u : State}

theorem refl (i : Nat) (s : State) : Near i s s := ⟨rfl, rfl, rfl⟩

theorem symm (h : Near i s t) : Near i t s := ⟨h.clock.symm, h.frame.symm, h.tile.symm⟩

theorem trans (h : Near i s t) (k : Near i t u) : Near i s u := ⟨k.clock.trans h.clock, k.frame.trans h.frame, k.tile.trans h.tile⟩

theorem now (h : Near i s t) : t.now = s.now := congrArg Clock.now h.clock

theorem ticks (h : Near i s t) : t.clock.ticks = s.clock.ticks := congrArg Clock.ticks h.clock

/-- A field of the tile that is no matter of squalls. -/
theorem field {α : Type} (h : Near i s t) (g : Tile → α) (hg : ∀ k : Tile, g k.plain = g k := by intro _; rfl) :
    g (t.tile i) = g (s.tile i) := by rw [← hg, h.tile, hg]

theorem of_only {ps : List Part} {w : Nat → Prop} (h : Only ps w s t) (hc : .clock ∉ ps) (ht : .tiles ∉ ps) (hw : ¬ w (Reg.TIL_CTRL i)) :
    Near i s t := ⟨h.1 .clock hc, by simp only [State.frameTile, State.rb, h.rd hw], by rw [h.tile ht]⟩

/-- The feeding of another tile shows nothing of this one. -/
theorem of_fed {j : Nat} (h : Fed j s t) (hi : i < 64) (hj : i ≠ j) : Near i s t :=
  ⟨h.clock, by simp only [State.frameTile, State.rb, h.only.rd (not_feedRegs_tilCtrl hi)], by rw [h.others i hj]⟩

theorem modTile {f g : Tile → Tile} (h : Near i s t) (hf : (g (t.tile i)).plain = (f (s.tile i)).plain) :
    Near i (s.modTile i f) (t.modTile i g) :=
  ⟨h.clock, h.frame, by rw [State.tile_modTile, State.tile_modTile, if_pos rfl, if_pos rfl, hf]⟩

/-- A change of the tile that treats alike tiles alike. -/
theorem update {f : Tile → Tile} (h : Near i s t) (hf : ∀ k : Tile, (f k).plain = (f k.plain).plain := by intro _; rfl) :
    Near i (s.modTile i f) (t.modTile i f) := h.modTile (by rw [hf, h.tile, ← hf])

theorem squallSaid (b : Bool) (s : State) : Near i s (s.modTile i fun k => { k with squallSaid := b }) :=
  ⟨rfl, rfl, by rw [State.tile_modTile, if_pos rfl]; rfl⟩

theorem ite {p : Prop} [Decidable p] {a b c d : State} (h : Near i a b) (k : Near i c d) : Near i (if p then a else c) (if p then b else d) := by
  split
  · exact h
  · exact k

section
variable (hi : i < 64)
include hi

theorem raiseTile (k sev inst : Nat) (h : Near i s t) : Near i (raiseTile i k sev inst s) (raiseTile i k sev inst t) :=
  have raised (s : State) : Near i s (Machine.raiseTile i k sev inst s) :=
    of_only (raiseTile_only i k sev inst s) (by decide) (by decide) (not_raiseRegs_tile hi (by omega))
  ((raised s).symm.trans h).trans (raised t)

omit hi in
theorem tallyAll (k : Tally) (n : Nat) (h : Near i s t) : Near i (s.tallyAll k n) (t.tallyAll k n) :=
  have counted (s : State) : Near i s (s.tallyAll k n) := of_only (Only.tallyAll (w := noReg) s k n) (by decide) (by decide) id
  ((counted s).symm.trans h).trans (counted t)

omit hi in
theorem high {a : Nat} (ha : a ≠ Reg.TIL_CTRL i) (hb lo v : Nat) (h : Near i s t) : Near i (s.high a hb lo v) (t.high a hb lo v) :=
  have raised (s : State) : Near i s (s.high a hb lo v) :=
    of_only (ps := []) (w := fun b => b = a) (Only.high s a hb lo v rfl) (by simp) (by simp) ha.symm
  ((raised s).symm.trans h).trans (raised t)

omit hi in
theorem count {a : Nat} (ha : a ≠ Reg.TIL_CTRL i) (hb lo n : Nat) (h : Near i s t) : Near i (s.count a hb lo n) (t.count a hb lo n) :=
  have counted (s : State) : Near i s (s.count a hb lo n) :=
    of_only (ps := []) (w := fun b => b = a) (Only.count s a hb lo n rfl) (by simp) (by simp) ha.symm
  ((counted s).symm.trans h).trans (counted t)

omit hi in
theorem settleBusy (h : Near i s t) : Near i (settleBusy i s) (settleBusy i t) := by
  unfold Machine.settleBusy
  simp only [h.field Tile.spans, h.field Tile.pllBusy, h.ticks, h.now, h.field (·.busy s.clock.ticks)]
  split
  · exact ite h h.update
  · exact h

theorem withBusy {f : Tile → Tile} (h : Near i s t) (hf : ∀ k : Tile, (f k).plain = (f k.plain).plain := by intro _; rfl) :
    Near i (withBusy i f s) (withBusy i f t) := by
  have h0 := h.settleBusy
  have h1 := h0.update hf
  unfold Machine.withBusy
  simp only [h.ticks, h.now, h0.field (·.busy s.clock.ticks), h1.field (·.busy s.clock.ticks)]
  exact ite ((h1.update).raiseTile hi _ _ _) (ite h1.update h1)

theorem levelCheck (h : Near i s t) : Near i (levelCheck i s) (levelCheck i t) := by
  unfold Machine.levelCheck
  simp only [h.frame, h.field Tile.full, h.field Tile.fifo]
  exact ite h (ite (h.withBusy hi) (ite (h.withBusy hi) h))

theorem pushSlots (l : List Slot) (n : Nat) (h : Near i s t) : Near i (pushSlots i l n s) (pushSlots i l n t) := by
  have hreg : Reg.TIL_FIFO i ≠ Reg.TIL_CTRL i := by simp only [Reg.TIL_FIFO, Reg.TIL_CTRL]; omega
  unfold Machine.pushSlots
  extract_lets s1 t1
  have h1 : Near i s1 t1 := by
    simp only [s1, t1, h.ticks]
    exact h.update
  rw [h1.field Tile.fifo]
  exact (h1.high hreg _ _ _).levelCheck hi

theorem closeFrame (l : List Word72) (h : Near i s t) : Near i (closeFrame i l s) (closeFrame i l t) := by
  unfold Machine.closeFrame
  simp only [h.field Tile.after]
  exact h.update.pushSlots hi _ _

theorem feedPairs (n : Time) (f : FrameOut) (h : Near i s t) : Near i (feedPairs i n f s) (feedPairs i n f t) := by
  unfold Machine.feedPairs
  simp only [h.field Tile.fifo]
  have h1 (l : List Slot) := h.pushSlots hi l 0
  exact ite h (ite (((h1 _).update.tallyAll _ _).closeFrame hi _) (ite ((h1 _).closeFrame hi _) (h1 _).update))

theorem feedFrame (n : Time) (h : Near i s t) : Near i (feedFrame i n s) (feedFrame i n t) := by
  have hreg : Reg.FRM_FRAMES i ≠ Reg.TIL_CTRL i := by simp only [Reg.FRM_FRAMES, Reg.TIL_CTRL]; omega
  unfold Machine.feedFrame
  simp only [h.field Tile.frames, h.field Tile.waitPll, h.field Tile.skipping, h.field Tile.fifo, h.field Tile.skipped]
  split
  · exact h
  · exact ite h (ite (h.feedPairs hi n _) (ite h (ite (h.update.tallyAll _ _)
      ((((h.update).pushSlots hi _ _).count hreg _ _ _).feedPairs hi n _))))

theorem settleTile (h : Near i s t) : Near i (settleTile i s) (settleTile i t) := by
  have hf : ∀ (n : Time) {s t : State}, Near i s t → Near i (feedTo i n s) (feedTo i n t) := fun n _ _ h => (h.feedFrame hi n).feedFrame hi n
  have h0 := hf (s.now - 1) h
  have h1 : Near i { feedTo i (s.now - 1) s with fresh := s.fresh } { feedTo i (s.now - 1) t with fresh := t.fresh } :=
    ⟨h0.clock, h0.frame, h0.tile⟩
  unfold Machine.settleTile
  rw [h.now]
  exact (hf s.now h1).settleBusy

end

end Near

end Sys2Proof.Machine
end

section
/-!
### A control word written to every tile, and the end of a squall (R178, R179, R198, R199)
-/

namespace Sys2Proof.Machine

/-- What a pass over the tiles makes of one of them: what comes before its turn and what comes after it keep what Q speaks of. -/
theorem foldl_tiles {f : State → Nat → State} {i n : Nat} {Q : State → State → Prop} (hi : i < n) (hrefl : ∀ s, Q s s)
    (htrans : ∀ {s t u}, Q s t → Q t u → Q s u) (hf : ∀ s j, j < n → j ≠ i → Q s (f s j)) (s : State) :
    ∃ v, Q s v ∧ Q (f v i) ((List.range n).foldl f s) := by
  obtain ⟨a, b, hab⟩ := List.append_of_mem (List.mem_range.2 hi)
  have hnodup : (a ++ i :: b).Nodup := hab ▸ List.nodup_range
  have hpass : ∀ l : List Nat, (∀ j ∈ l, j < n ∧ j ≠ i) → ∀ s, Q s (l.foldl f s) := fun l hl s =>
    List.foldlRecOn (motive := Q s) l f (hrefl s) fun t ht j hj => htrans ht (hf t j (hl j hj).1 (hl j hj).2)
  have hmem : ∀ j, j ∈ a ∨ j ∈ b → j < n := fun j hj => List.mem_range.1 (by rw [hab]; simp; tauto)
  rw [List.nodup_append, List.nodup_cons] at hnodup
  obtain ⟨-, ⟨hb, -⟩, hdisjoint⟩ := hnodup
  refine ⟨a.foldl f s, hpass a (fun j hj => ⟨hmem j (.inl hj), hdisjoint j hj i List.mem_cons_self⟩) s, ?_⟩
  rw [hab, List.foldl_append, List.foldl_cons]
  exact hpass b (fun j hj => ⟨hmem j (.inr hj), fun h => hb (h ▸ hj)⟩) _

/-! The word in one tile -/

section
variable {i : Nat} {s t v : State}

theorem writeControl_fed (w : Word72) (s : State) : Fed i s (writeControl i w s) := by
  unfold writeControl
  extract_lets s1 k
  have h1 : Fed i s s1 := Fed.settleTile s
  split
  · exact h1
  · split
    · exact h1.trans (Fed.modTile s1 _)
    · exact h1.trans (Fed.pushSlots _ _ s1)

/-- Outside a frame unit the word stands at the end of the FIFO. -/
theorem writeControl_fifo {w : Word72} (hstate : ((settleTile i s).tile i).state ≠ .idle) (hframes : ((settleTile i s).tile i).frames = []) :
    ((writeControl i w s).tile i).fifo = ((settleTile i s).tile i).fifo ++ [plainSlot w] := by
  have hopen : ((settleTile i s).tile i).frameOpen = false := by simp only [Tile.frameOpen, hframes]
  unfold writeControl
  rw [if_neg hstate, if_neg (by rw [hopen]; decide)]
  exact (pushSlots_fifo i _ _ _).1

/-- A tile without frames is brought up to now in its BUSY alone. -/
theorem settleTile_of_no_frames (h : (s.tile i).frames = []) : settleTile i s = settleBusy i s := by
  have hfeed : ∀ n, feedTo i n s = s := fun n => by simp only [feedTo, feedFrame, h]
  simp only [settleTile, hfeed]

theorem settleBusy_frames (i : Nat) (s : State) :
    ((settleBusy i s).tile i).frames = (s.tile i).frames ∧ ((settleBusy i s).tile i).fifo = (s.tile i).fifo := by
  obtain ⟨b, c, h⟩ := settleBusy_tile i s
  rw [h]
  exact ⟨rfl, rfl⟩

/-- What writes a control word to tile after tile, where a squall may have been reported of the tile or not. -/
def WritesControl (w : Word72) (f : State → Nat → State) : Prop :=
  ∀ s j, ∃ u, (∀ i, Near i s u) ∧ Only [.tiles] noReg s u ∧ f s j = writeControl j w u

/-- The registers that the feeding of all tiles writes. -/
def feedAllRegs (a : Nat) : Prop := ∃ j, j < 64 ∧ feedRegs j a

theorem feedAllRegs_inBlocks {a : Nat} {l : List Nat} (h8 : 8 ∈ l) (h17 : 17 ∈ l) (h : feedAllRegs a) : inBlocks l a := by
  obtain ⟨j, hj, h⟩ := h
  have hb := feedRegs_inBlocks hj h
  simp only [inBlocks, List.mem_cons, List.not_mem_nil, or_false] at hb ⊢
  rcases hb with hb | hb <;> rw [hb] <;> assumption

theorem not_feedAllRegs {a : Nat} (h : addrBlock a ≠ 8 ∧ addrBlock a ≠ 17) : ¬ feedAllRegs a := fun k => by
  have := feedAllRegs_inBlocks (l := [8, 17]) (by simp) (by simp) k
  simp only [inBlocks, List.mem_cons, List.not_mem_nil, or_false] at this
  omega

section
variable {w : Word72} {f : State → Nat → State} (hf : WritesControl w f)
include hf

theorem WritesControl.only (s : State) : Only fifoParts feedAllRegs s ((List.range 64).foldl f s) := by
  refine List.foldlRecOn (motive := Only fifoParts feedAllRegs s) _ f (Only.refl _ _ s) fun t ht j hj => ?_
  obtain ⟨u, -, hu, he⟩ := hf t j
  rw [he]
  exact (ht.trans (hu.mono (by simp) fun _ => False.elim)).trans
    ((writeControl_fed w u).only.mono (fun _ => id) fun _ h => ⟨j, List.mem_range.1 hj, h⟩)

theorem WritesControl.recs (s : State) (x : Side) {n : Nat} (hn : 512 ≤ n) : ((List.range 64).foldl f s).srcRec x n = s.srcRec x n := by
  refine List.foldlRecOn (motive := fun t : State => t.srcRec x n = s.srcRec x n) _ f rfl fun t ht j hj => ?_
  obtain ⟨u, -, hu, he⟩ := hf t j
  rw [he, (writeControl_fed w u).recs (List.mem_range.1 hj) x n hn, hu.srcRec x (by simp), ht]

/-- Every tile that is not idle and has no frame on its way gets the word. -/
theorem WritesControl.said (hi : i < 64) (hv : Near i v s) (hstate : ((settleTile i v).tile i).state ≠ .idle)
    (hframes : ((settleTile i v).tile i).frames = []) :
    (((List.range 64).foldl f s).tile i).fifo = ((settleTile i v).tile i).fifo ++ [plainSlot w] := by
  have hstep : ∀ s j, j < 64 → j ≠ i → Near i s (f s j) := fun s j _ hj => by
    obtain ⟨u, hu, -, he⟩ := hf s j
    rw [he]
    exact (hu i).trans (Near.of_fed (writeControl_fed w u) hi hj.symm)
  obtain ⟨k, hk, hafter⟩ := foldl_tiles hi (Near.refl i) Near.trans hstep s
  obtain ⟨u, hu, -, he⟩ := hf k i
  have hsettled : Near i (settleTile i v) (settleTile i u) := ((hv.trans hk).trans (hu i)).settleTile hi
  rw [hafter.field Tile.fifo, he, writeControl_fifo (by rw [hsettled.field Tile.state]; exact hstate)
    (by rw [hsettled.field Tile.frames, hframes]), hsettled.field Tile.fifo]

end

theorem writesControl_plain (w : Word72) : WritesControl w fun u j => writeControl j w u :=
  fun s _ => ⟨s, fun i => Near.refl i s, Only.refl _ _ s, rfl⟩

/-! SQUALL_END -/

/-- A tile's event of the squall may be raised anew (R199). -/
def unsaid (s : State) (j : Nat) : State :=
  if (s.tile j).squallSaid then s.modTile j (fun k => { k with squallSaid := false }) else s

theorem Near.squallSaid_any (b : Bool) (i j : Nat) (s : State) : Near i s (s.modTile j fun k => { k with squallSaid := b }) := by
  by_cases hij : i = j
  · subst hij; exact Near.squallSaid b s
  · exact ⟨rfl, rfl, by rw [State.tile_modTile, if_neg hij]⟩

theorem writesControl_unsaid (w : Word72) : WritesControl w fun u j => writeControl j w (unsaid u j) := fun s j => by
  refine ⟨unsaid s j, fun i => ?_, ?_, rfl⟩ <;> unfold unsaid
  · split
    · exact Near.squallSaid_any false i j s
    · exact Near.refl i s
  · exact Only.ite (Only.modTile s j _ (by simp)) (Only.refl _ _ s)

theorem unsaid_squallSaid (s : State) (j : Nat) : ((unsaid s j).tile j).squallSaid = false := by
  unfold unsaid
  split
  · rw [State.tile_modTile, if_pos rfl]
  · next h => exact Bool.eq_false_iff.2 h

/-- The tiles with SQUALL_END written. -/
def endSaid (x : Time) (s : State) : State :=
  (List.range 64).foldl (fun u j => writeControl j (controlWord 0x07 x.toNat) (unsaid u j)) s

/-- The detector after X: QUIET, and X is the end of the last squall (R198). -/
def Detector.ended (x : Time) (q : Detector) : Detector := { q with
  active := false
  ending := none
  squalls := match q.squalls with
    | h :: r => { h with x := x } :: r
    | [] => [] }

/-- The detector takes X as the end. -/
def closeSquall (x : Time) (s : State) : State :=
  let v := s.wr64 Reg.TIL_SQ_END Reg.TIL_SQ_END_4 x
  { v with squall := v.squall.ended x }

theorem endSquall_eq (x : Time) (s : State) : endSquall x s = closeSquall x (endSaid x s) := by
  unfold endSquall endSaid unsaid
  generalize (List.range 64).foldl _ s = v
  rfl

theorem closeSquall_squall (x : Time) (s : State) : (closeSquall x s).squall = s.squall.ended x := rfl

theorem closeSquall_end (x : Time) (s : State) : (closeSquall x s).rd64 Reg.TIL_SQ_END Reg.TIL_SQ_END_4 = x :=
  State.rd64_wr64 s (by decide) x

/-- The registers that SQUALL_END writes. -/
def endRegs (a : Nat) : Prop := feedAllRegs a ∨ a = Reg.TIL_SQ_END ∨ a = Reg.TIL_SQ_END_4

abbrev squallParts : List Part := .squall :: fifoParts

theorem closeSquall_only (x : Time) (s : State) : Only [.squall] (regIn [Reg.TIL_SQ_END, Reg.TIL_SQ_END_4]) s (closeSquall x s) :=
  (Only.wr64 s _ _ x (by simp [regIn]) (by simp [regIn])).trans (Only.setSquall _ _ (by simp))

theorem endSquall_only (x : Time) (s : State) : Only squallParts endRegs s (endSquall x s) := by
  have h1 : Only squallParts endRegs s (endSaid x s) := ((writesControl_unsaid _).only s).mono (by simp) fun _ => .inl
  rw [endSquall_eq]
  exact h1.trans ((closeSquall_only x _).mono (by simp) fun a h => .inr (by simpa [regIn] using h))

theorem endRegs_inBlocks {a : Nat} (h : endRegs a) : inBlocks [7, 8, 17] a := by
  rcases h with h | rfl | rfl
  · exact feedAllRegs_inBlocks (by simp) (by simp) h
  · exact List.mem_cons_self
  · exact List.mem_cons_self

theorem endSquall_squall (x : Time) (s : State) : (endSquall x s).squall = s.squall.ended x := by
  have h : (endSaid x s).squall = s.squall := ((writesControl_unsaid _).only s).1 .squall (by decide)
  rw [endSquall_eq, closeSquall_squall, h]

theorem endSquall_end (x : Time) (s : State) : (endSquall x s).rd64 Reg.TIL_SQ_END Reg.TIL_SQ_END_4 = x := by
  rw [endSquall_eq, closeSquall_end]

theorem endSquall_tile (x : Time) (s : State) (i : Nat) : (endSquall x s).tile i = (endSaid x s).tile i := by
  rw [endSquall_eq, (closeSquall_only x _).tile (by simp)]

theorem endSquall_srcRec (x : Time) (s : State) (y : Side) {n : Nat} (hn : 512 ≤ n) : (endSquall x s).srcRec y n = s.srcRec y n := by
  rw [endSquall_eq, (closeSquall_only x _).srcRec y (by simp), endSaid, (writesControl_unsaid _).recs s y hn]

theorem endSquall_said (x : Time) (s : State) (hi : i < 64) (hstate : ((settleTile i s).tile i).state ≠ .idle)
    (hframes : ((settleTile i s).tile i).frames = []) :
    ((endSquall x s).tile i).fifo = ((settleTile i s).tile i).fifo ++ [plainSlot (controlWord 0x07 x.toNat)] := by
  rw [endSquall_tile]
  exact (writesControl_unsaid _).said hi (Near.refl i s) hstate hframes

theorem endSquall_unsaid (x : Time) (s : State) (hi : i < 64) : ((endSquall x s).tile i).squallSaid = false := by
  have hfed : ∀ t j, ((writeControl j (controlWord 0x07 x.toNat) t).tile j).squallSaid = (t.tile j).squallSaid := fun t j =>
    (congrArg Tile.squallSaid (writeControl_fed (controlWord 0x07 x.toNat) t).core :)
  have hother : ∀ t j, j < 64 → j ≠ i → (writeControl j (controlWord 0x07 x.toNat) (unsaid t j)).tile i = t.tile i := fun t j _ hj => by
    rw [(writeControl_fed _ _).others i hj.symm]
    unfold unsaid
    split
    · rw [State.tile_modTile, if_neg hj.symm]
    · rfl
  obtain ⟨k, -, hafter⟩ := foldl_tiles (Q := fun s t => t.tile i = s.tile i) hi (fun _ => rfl) (fun h k => k.trans h) hother s
  rw [endSquall_tile, endSaid, hafter, hfed, unsaid_squallSaid]

end

end Sys2Proof.Machine
end

section
/-!
### Squalls (R197–R203)
-/

namespace Sys2Proof.Machine

/-! The tiles that take part -/

section
variable {i : Nat} {l : List Nat} {s u v : State}

/-- A tile that takes part is reported once (R199). -/
def saySquall (s : State) (j : Nat) : State :=
  if (s.tile j).squallSaid then s else raiseTile j 1 sevNotice noInst (s.modTile j (fun k => { k with squallSaid := true }))

theorem squallTiles_eq (l : List Nat) (s : State) : squallTiles l s = addTiles l (l.foldl saySquall s) := rfl

theorem saySquall_only (s : State) (j : Nat) : Only fifoParts raiseRegs s (saySquall s j) :=
  Only.ite (Only.refl _ _ s) ((Only.modTile s j _ (by simp)).trans ((raiseTile_only _ _ _ _ _).mono (by simp) fun _ => id))

theorem saySquall_near (hi : i < 64) (s : State) (j : Nat) : Near i s (saySquall s j) := by
  unfold saySquall
  split
  · exact Near.refl i s
  · exact (Near.squallSaid_any true i j s).trans
      (Near.of_only (raiseTile_only _ _ _ _ _) (by decide) (by decide) (not_raiseRegs_tile hi (by omega)))

theorem saySquall_srcRec {j n : Nat} (hn : n % 8 ≠ 1) (s : State) (y : Side) : (saySquall s j).srcRec y n = s.srcRec y n := by
  unfold saySquall
  split
  · rfl
  · exact (raiseBase_srcRec_ne (by omega) _ _ y _).trans
      ((Only.modTile (ps := [.tiles]) (w := noReg) s j _ (by simp)).srcRec y (by simp) n)

/-- The registers that the mask of the tiles stands in. -/
abbrev maskRegs : Nat → Prop := regIn [Reg.TIL_SQ_TILES, Reg.TIL_SQ_TILES_4]

theorem addTiles_only (l : List Nat) (s : State) : Only [] maskRegs s (addTiles l s) :=
  Only.wr64 s _ _ _ (by simp [regIn]) (by simp [regIn])

theorem squallTiles_only (l : List Nat) (s : State) : Only fifoParts (fun a => raiseRegs a ∨ maskRegs a) s (squallTiles l s) := by
  have h : Only fifoParts raiseRegs s (l.foldl saySquall s) := Only.foldl (fun t j => saySquall_only t j) (Only.refl _ _ s)
  rw [squallTiles_eq]
  exact (h.mono (fun _ => id) fun _ => .inl).trans ((addTiles_only l _).mono (by simp) fun _ => .inr)

theorem squallTiles_near (hi : i < 64) (l : List Nat) (s : State) : Near i s (squallTiles l s) := by
  have h : Near i s (l.foldl saySquall s) :=
    List.foldlRecOn (motive := Near i s) _ _ (Near.refl i s) fun t ht j _ => ht.trans (saySquall_near hi t j)
  have hreg : ¬ maskRegs (Reg.TIL_CTRL i) := by
    simp only [maskRegs, regIn, Reg.TIL_CTRL, tileBase, Reg.TIL_SQ_TILES, Reg.TIL_SQ_TILES_4, List.mem_cons, List.not_mem_nil, or_false]
    omega
  rw [squallTiles_eq]
  exact h.trans (Near.of_only (addTiles_only l _) (by simp) (by simp) hreg)

theorem squallTiles_srcRec (l : List Nat) (s : State) (y : Side) {n : Nat} (hn : n % 8 ≠ 1) :
    (squallTiles l s).srcRec y n = s.srcRec y n := by
  rw [squallTiles_eq, (addTiles_only l _).srcRec y (by simp)]
  exact List.foldlRecOn (motive := fun t : State => t.srcRec y n = s.srcRec y n) _ _ rfl fun t ht j _ =>
    (saySquall_srcRec hn t y).trans ht

theorem getLsbD_foldl_tiles (hi : i < 64) (l : List Nat) (m : BitVec 64) :
    (l.foldl (fun m t => m ||| (1#64 <<< t)) m).getLsbD i = true ↔ i ∈ l ∨ m.getLsbD i = true := by
  induction l generalizing m with
  | nil => simp
  | cons j l ih =>
    rw [List.foldl_cons, ih, BitVec.getLsbD_or, Bool.or_eq_true, List.mem_cons]
    have hbit : (1#64 <<< j).getLsbD i = true ↔ i = j := by
      simp only [BitVec.getLsbD_shiftLeft, BitVec.getLsbD_one, hi, decide_true, Bool.true_and, Bool.and_eq_true, Bool.not_eq_true',
        decide_eq_false_iff_not, decide_eq_true_eq]
      omega
    rw [hbit]
    tauto

theorem squallTiles_mask (hi : i < 64) (l : List Nat) (s : State) :
    ((squallTiles l s).rd64 Reg.TIL_SQ_TILES Reg.TIL_SQ_TILES_4).getLsbD i = true ↔
      i ∈ l ∨ (s.rd64 Reg.TIL_SQ_TILES Reg.TIL_SQ_TILES_4).getLsbD i = true := by
  have h : Only fifoParts raiseRegs s (l.foldl saySquall s) := Only.foldl (fun t j => saySquall_only t j) (Only.refl _ _ s)
  have hkept : (l.foldl saySquall s).rd64 Reg.TIL_SQ_TILES Reg.TIL_SQ_TILES_4 = s.rd64 Reg.TIL_SQ_TILES Reg.TIL_SQ_TILES_4 := by
    unfold State.rd64
    rw [h.rd (not_raiseRegs (by decide)), h.rd (not_raiseRegs (by decide))]
  rw [squallTiles_eq, addTiles, State.rd64_wr64 _ (by decide), hkept, BitVec.getLsbD_or, Bool.or_eq_true, getLsbD_foldl_tiles hi]
  simp
  tauto

end

end Sys2Proof.Machine
end

section
/-!
### The windows of the detector and its declaration (R197–R203)
-/

namespace Sys2Proof.Machine

/-! The windows (R197, R198) -/

section
variable {dt : Nat} {s u : State}

theorem quietAt_cases (tick : Time) (u : State) : quietAt tick u = u ∨ ∃ q : Detector, quietAt tick u = { u with squall := q } := by
  unfold quietAt
  split
  · exact .inr ⟨_, rfl⟩
  · exact .inl rfl

theorem quietAt_ends {tick x : Time} (h : u.squall.ending = none) (hx : squallX u = some x) (hne : x ≠ tick)
    (hr : reached tick x = true) : quietAt tick u = { u with squall := { u.squall with
      active := false
      ending := some x } } := by
  have he : squallEnded tick u = some x := by simp [squallEnded, h, hx, hne, hr]
  simp only [quietAt, he]

theorem quietAt_keeps {tick : Time} (h : u.squall.ending = none)
    (hx : (squallX u).all (fun x => decide (x = tick) || !reached tick x) = true) : quietAt tick u = u := by
  have he : squallEnded tick u = none := by
    cases hq : squallX u with
    | none => simp [squallEnded, h, hq]
    | some x =>
      rw [hq] at hx
      simp only [Option.all_some, Bool.or_eq_true, decide_eq_true_eq, Bool.not_eq_true'] at hx
      have : ¬ (x ≠ tick ∧ reached tick x = true) := fun ⟨hne, hr⟩ => by
        rcases hx with hx | hx
        · exact hne hx
        · rw [hx] at hr; exact Bool.false_ne_true hr
      simpa [squallEnded, h, hq] using this
  simp only [quietAt, he]

/-- The tick of the window that has ended (R197). -/
def windowTick (u : State) : Time := BitVec.ofNat 64 (20 * (u.now.toNat / 20))

/-- The detector once it has looked at the window. -/
def evaluated (u : State) : State :=
  let v := quietAt (windowTick u) u
  { v with squall := { v.squall with lastEval := windowTick u } }

theorem crowded_evaluated (u : State) (e : Nat) : crowded (evaluated u) e = crowded u e := by
  unfold evaluated
  obtain h | ⟨q, h⟩ := quietAt_cases (windowTick u) u <;> rw [h] <;> rfl

/-- A window that is looked at (R197–R199). -/
theorem exec_squallWindowEval (hu : s.elapse dt = u) (hr : u.trg.run = .running) (hl : u.squall.lastEval ≠ windowTick u) :
    exec (.squallWindowEval dt) s =
      let v := evaluated u
      let l := crowded u (u.now.toNat / 20)
      if l.length < 8 then .next v
      else if v.squall.active then .next (squallTiles l { v with squall := { v.squall with
        squalls := match v.squall.squalls with
          | q :: r => { q with x := windowTick u + 3000 } :: r
          | [] => [] } })
      else if v.squall.declare.isSome then .next v
      else .next { v with squall := { v.squall with declare := some (windowTick u - 60, l) } } := by
  have hgo : ¬ (u.trg.run ≠ .running || u.squall.lastEval = windowTick u) = true := by simp [hr, hl]
  subst hu
  rw [← crowded_evaluated]
  exact if_neg hgo

end

/-! The declaration (R198, R199, R201, R203) -/

/-- The detector in the squall from b on. -/
def Detector.begun (b : Time) (policy : Nat) (q : Detector) : Detector := { q with
  active := true
  declare := none
  squalls := ⟨b, b + 3060, policy, b + 72⟩ :: q.squalls }

/-- The registers of the squall from b on. -/
def noteSquall (b : Time) (policy : Nat) (s : State) : State :=
  ((((s.count Reg.TIL_SQ_STATUS 31 16 1).wf Reg.TIL_SQ_STATUS 2 1 policy).wr64 Reg.TIL_SQ_BEGIN Reg.TIL_SQ_BEGIN_4 b).wr64
    Reg.TIL_SQ_END Reg.TIL_SQ_END_4 0).wr64 Reg.TIL_SQ_TILES Reg.TIL_SQ_TILES_4 0

/-- A squall that is declared, before its word is written: the hits before it that are not flagged are counted (R203). -/
def announced (b : Time) (s : State) : State :=
  let policy := s.rf Reg.TIL_SQ_CTRL 1 0
  let noted := noteSquall b policy { s with squall := s.squall.begun b policy }
  (noted.bump Reg.TIL_SQ_UNFLAGGED 31 0 (s.squall.recent.filter (fun c => reached c b)).length).tallyAll .squalls 1

/-- SQUALL_BEGIN written to the tiles. -/
def begun (b : Time) (s : State) : State := (List.range 64).foldl (fun u t => writeControl t (controlWord 0x06 b.toNat) u) s

/-- The registers of the announcement. -/
abbrev squallRegs : Nat → Prop := regIn [Reg.TIL_SQ_STATUS, Reg.TIL_SQ_BEGIN, Reg.TIL_SQ_BEGIN_4, Reg.TIL_SQ_END, Reg.TIL_SQ_END_4,
  Reg.TIL_SQ_TILES, Reg.TIL_SQ_TILES_4]

theorem State.rf_wr64_ne (s : State) {a b r : Nat} (v : Time) (hi lo : Nat) (h : r ≠ a ∧ r ≠ b) :
    (s.wr64 a b v).rf r hi lo = s.rf r hi lo := by
  rw [State.wr64, State.rf_wr_ne _ _ _ _ h.2, State.rf_wr_ne _ _ _ _ h.1]

theorem Only.rd64 {ps : List Part} {w : Nat → Prop} {s t : State} (h : Only ps w s t) {a b : Nat} (ha : ¬ w a) (hb : ¬ w b) :
    t.rd64 a b = s.rd64 a b := by
  unfold State.rd64
  rw [h.rd ha, h.rd hb]

theorem State.rd64_wr64_ne (s : State) {a b c d : Nat} (v : Time) (hc : c ≠ a ∧ c ≠ b) (hd : d ≠ a ∧ d ≠ b) :
    (s.wr64 a b v).rd64 c d = s.rd64 c d :=
  (Only.wr64 (ps := []) (w := fun r => r = a ∨ r = b) s a b v (.inl rfl) (.inr rfl)).rd64 (by tauto) (by tauto)

section
variable (b : Time) (policy : Nat) (s : State)

theorem noteSquall_only : Only [] squallRegs s (noteSquall b policy s) :=
  ((((Only.count s _ _ _ _ (by simp [regIn])).trans (Only.wf _ _ _ _ _ (by simp [regIn]))).trans
    (Only.wr64 _ _ _ _ (by simp [regIn]) (by simp [regIn]))).trans (Only.wr64 _ _ _ _ (by simp [regIn]) (by simp [regIn]))).trans
    (Only.wr64 _ _ _ _ (by simp [regIn]) (by simp [regIn]))

theorem noteSquall_status (hi lo : Nat) : (noteSquall b policy s).rf Reg.TIL_SQ_STATUS hi lo =
    ((s.count Reg.TIL_SQ_STATUS 31 16 1).wf Reg.TIL_SQ_STATUS 2 1 policy).rf Reg.TIL_SQ_STATUS hi lo := by
  rw [noteSquall, State.rf_wr64_ne _ _ _ _ (by decide), State.rf_wr64_ne _ _ _ _ (by decide), State.rf_wr64_ne _ _ _ _ (by decide)]

theorem noteSquall_count : (noteSquall b policy s).rf Reg.TIL_SQ_STATUS 31 16 = (s.rf Reg.TIL_SQ_STATUS 31 16 + 1) % 65536 := by
  rw [noteSquall_status, State.rf_wf_ne _ _ (by decide) (by decide) (.inr (by decide))]
  exact State.rf_wf_self s _ (by decide) (by decide)

theorem noteSquall_policy : (noteSquall b policy s).rf Reg.TIL_SQ_STATUS 2 1 = policy % 4 := by
  rw [noteSquall_status]
  exact State.rf_wf_self _ _ (by decide) (by decide)

theorem noteSquall_begin : (noteSquall b policy s).rd64 Reg.TIL_SQ_BEGIN Reg.TIL_SQ_BEGIN_4 = b := by
  rw [noteSquall, State.rd64_wr64_ne _ _ (by decide) (by decide), State.rd64_wr64_ne _ _ (by decide) (by decide),
    State.rd64_wr64 _ (by decide)]

theorem noteSquall_end : (noteSquall b policy s).rd64 Reg.TIL_SQ_END Reg.TIL_SQ_END_4 = 0 := by
  rw [noteSquall, State.rd64_wr64_ne _ _ (by decide) (by decide), State.rd64_wr64 _ (by decide)]

theorem noteSquall_tiles : (noteSquall b policy s).rd64 Reg.TIL_SQ_TILES Reg.TIL_SQ_TILES_4 = 0 := State.rd64_wr64 _ (by decide) 0

theorem announced_noted : Only (bothOf .tally) (fun a => a = Reg.TIL_SQ_UNFLAGGED)
    (noteSquall b (s.rf Reg.TIL_SQ_CTRL 1 0) { s with squall := s.squall.begun b (s.rf Reg.TIL_SQ_CTRL 1 0) }) (announced b s) :=
  (Only.bump (ps := bothOf .tally) (w := fun a => a = Reg.TIL_SQ_UNFLAGGED) _ _ _ _ _ rfl).trans (Only.tallyAll _ _ _)

theorem announced_only : Only (.squall :: bothOf .tally) (fun a => squallRegs a ∨ a = Reg.TIL_SQ_UNFLAGGED) s (announced b s) :=
  ((Only.setSquall s _ (by simp)).trans ((noteSquall_only b _ _).mono (by simp) fun _ => .inl)).trans
    ((announced_noted b s).mono (by simp) fun _ => .inr)

theorem announced_squall : (announced b s).squall = s.squall.begun b (s.rf Reg.TIL_SQ_CTRL 1 0) :=
  ((announced_noted b s).1 .squall (by decide)).trans ((noteSquall_only b _ _).1 .squall (by simp))

theorem announced_unflagged : (announced b s).rf Reg.TIL_SQ_UNFLAGGED 31 0 =
    min (s.rf Reg.TIL_SQ_UNFLAGGED 31 0 + (s.squall.recent.filter (fun c => reached c b)).length) 4294967295 := by
  rw [announced, State.rf, (Only.tallyAll (w := noReg) _ _ _).rd id]
  refine (State.rf_bump_self _ _ _ (by decide) (by decide)).trans ?_
  rw [(noteSquall_only b _ _).rf (by unfold squallRegs regIn; decide)]
  rfl

end

/-! SQUALL_BEGIN and the events -/

/-- A squall is declared (R198, R199, R201, R203). -/
def declareSquall (b : Time) (l : List Nat) (s : State) : State :=
  atTime b (raiseBase 531 sevNotice noInst) (squallTiles l (begun b (announced b s)))

/-- The state that a declaration finds: the SQUALL_END of the squall before is written first (R198). -/
def beforeDeclaration (u : State) : State :=
  match u.squall.ending with
  | some x => endSquall x u
  | none => u

section
variable {b : Time} {l : List Nat} {dt : Nat} {s u v : State}

theorem exec_squallDeclaration (hu : s.elapse dt = u) (hd : u.squall.declare = some (b, l)) (hr : reached u.now (b + 72) = true) :
    exec (.squallDeclaration dt) s = .next (declareSquall b l (beforeDeclaration u)) := by
  subst hu
  show execSquallDeclaration dt s = _
  unfold execSquallDeclaration
  simp only [hd, hr]
  rfl

theorem begun_only (b : Time) (s : State) : Only fifoParts feedAllRegs s (begun b s) := (writesControl_plain _).only s

/-- Words, events and the mask of the tiles follow the announcement. -/
theorem declareSquall_announced (b : Time) (l : List Nat) (s : State) :
    Only fifoParts (fun a => feedAllRegs a ∨ raiseRegs a ∨ maskRegs a) (announced b s) (declareSquall b l s) :=
  (((begun_only b _).mono (fun _ => id) fun _ => .inl).trans ((squallTiles_only l _).mono (fun _ => id) fun _ => .inr)).trans
    ((atTime_raiseBase_only _ _ _ _ _).mono (by simp) fun _ h => .inr (.inl h))

end

end Sys2Proof.Machine
end

section
/-!
### The squalls as they are stated (R197–R203)
-/

namespace Sys2Proof.Machine

section
variable {b : Time} {l : List Nat} {i : Nat} {s u v : State}

theorem addrBlock_tilCtrl (hi : i < 64) : addrBlock (Reg.TIL_CTRL i) = 8 := addrBlock_tile hi (by omega)

theorem squallRegs_block {a : Nat} (h : squallRegs a ∨ a = Reg.TIL_SQ_UNFLAGGED) : addrBlock a = 7 := by
  simp only [regIn, List.mem_cons, List.not_mem_nil, or_false] at h
  rcases h with (rfl | rfl | rfl | rfl | rfl | rfl | rfl) | rfl <;> decide

theorem maskRegs_block {a : Nat} (h : maskRegs a) : addrBlock a = 7 :=
  squallRegs_block (.inl (List.mem_of_mem_drop (i := 5) h))

theorem declareSquall_only (b : Time) (l : List Nat) (s : State) :
    Only ([.tiles, .squall] ++ bothOf .evt ++ bothOf .tally) (inBlocks [7, 8, 17]) s (declareSquall b l s) := by
  refine ((announced_only b s).mono (by decide) fun a h => ?_).trans ((declareSquall_announced b l s).mono (by decide) fun a h => ?_)
  · rw [inBlocks, squallRegs_block h]
    exact List.mem_cons_self
  · rcases h with h | h | h
    · exact feedAllRegs_inBlocks (by simp) (by simp) h
    · exact raiseRegs_inBlocks (by simp) h
    · rw [inBlocks, maskRegs_block h]
      exact List.mem_cons_self

/-- The registers of the squall but its mask stand as the announcement left them. -/
theorem not_after_announced {a : Nat} (ha : addrBlock a = 7) (hm : ¬ maskRegs a) : ¬ (feedAllRegs a ∨ raiseRegs a ∨ maskRegs a) := by
  rintro (h | h | h)
  · exact not_feedAllRegs (by omega) h
  · exact not_raiseRegs (by omega) h
  · exact hm h

theorem declareSquall_squall : (declareSquall b l s).squall = s.squall.begun b (s.rf Reg.TIL_SQ_CTRL 1 0) :=
  ((declareSquall_announced b l s).1 .squall (by decide)).trans (announced_squall b s)

/-- A register of the squall but the mask and the count of the hits that are not flagged. -/
theorem declareSquall_rf {a : Nat} (ha : addrBlock a = 7) (hm : ¬ maskRegs a) (hne : a ≠ Reg.TIL_SQ_UNFLAGGED) (hi lo : Nat) :
    (declareSquall b l s).rf a hi lo =
      (noteSquall b (s.rf Reg.TIL_SQ_CTRL 1 0) { s with squall := s.squall.begun b (s.rf Reg.TIL_SQ_CTRL 1 0) }).rf a hi lo :=
  ((declareSquall_announced b l s).rf (not_after_announced ha hm) hi lo).trans ((announced_noted b s).rf hne hi lo)

theorem declareSquall_rd64 {a c : Nat} (ha : addrBlock a = 7) (hm : ¬ maskRegs a) (hne : a ≠ Reg.TIL_SQ_UNFLAGGED)
    (hc : addrBlock c = 7) (hn : ¬ maskRegs c) (hd : c ≠ Reg.TIL_SQ_UNFLAGGED) : (declareSquall b l s).rd64 a c =
      (noteSquall b (s.rf Reg.TIL_SQ_CTRL 1 0) { s with squall := s.squall.begun b (s.rf Reg.TIL_SQ_CTRL 1 0) }).rd64 a c :=
  ((declareSquall_announced b l s).rd64 (not_after_announced ha hm) (not_after_announced hc hn)).trans ((announced_noted b s).rd64 hne hd)

theorem declareSquall_unflagged : (declareSquall b l s).rf Reg.TIL_SQ_UNFLAGGED 31 0 =
    min (s.rf Reg.TIL_SQ_UNFLAGGED 31 0 + (s.squall.recent.filter (fun c => reached c b)).length) 4294967295 :=
  ((declareSquall_announced b l s).rf (not_after_announced (by decide) (by unfold maskRegs regIn; decide)) 31 0).trans
    (announced_unflagged b s)

theorem declareSquall_mask (hi : i < 64) :
    ((declareSquall b l s).rd64 Reg.TIL_SQ_TILES Reg.TIL_SQ_TILES_4).getLsbD i = true ↔ i ∈ l := by
  have hraise := atTime_raiseBase_only b 531 sevNotice noInst (squallTiles l (begun b (announced b s)))
  have hzero : (begun b (announced b s)).rd64 Reg.TIL_SQ_TILES Reg.TIL_SQ_TILES_4 = 0 := by
    rw [(begun_only b _).rd64 (not_feedAllRegs (by decide)) (not_feedAllRegs (by decide)),
      (announced_noted b s).rd64 (by decide) (by decide), noteSquall_tiles]
  rw [declareSquall, hraise.rd64 (not_raiseRegs (by decide)) (not_raiseRegs (by decide)), squallTiles_mask hi, hzero]
  simp

theorem declareSquall_srcRec {y : Side} (hl : s.live y = true) : (declareSquall b l s).srcRec y 531 = (s.srcRec y 531).raise b := by
  have hlive : (squallTiles l (begun b (announced b s))).live y = s.live y :=
    ((squallTiles_only l _).live (by decide) (by decide) y).trans
      (((begun_only b _).live (by decide) (by decide) y).trans ((announced_only b s).live (by decide) (by decide) y))
  rw [declareSquall, atTime_raiseBase_srcRec _ _ _ _ _ (hlive.trans hl), squallTiles_srcRec _ _ _ (by decide), begun,
    (writesControl_plain _).recs _ _ (by decide), (announced_only b s).srcRec y (by cases y <;> decide)]

theorem declareSquall_said (hi : i < 64) (hstate : ((settleTile i s).tile i).state ≠ .idle)
    (hframes : ((settleTile i s).tile i).frames = []) :
    ((declareSquall b l s).tile i).fifo = ((settleTile i s).tile i).fifo ++ [plainSlot (controlWord 0x06 b.toNat)] := by
  have hnear : Near i s (announced b s) :=
    Near.of_only (announced_only b s) (by decide) (by decide) fun h => by
      have := squallRegs_block h
      rw [addrBlock_tilCtrl hi] at this
      omega
  rw [declareSquall, (atTime_raiseBase_only b _ _ _ _).tile_eq i, (squallTiles_near hi l _).field Tile.fifo]
  exact (writesControl_plain _).said hi hnear hstate hframes

/-! The state that a declaration finds -/

theorem beforeDeclaration_only (u : State) : Only squallParts endRegs u (beforeDeclaration u) := by
  unfold beforeDeclaration
  split
  · exact endSquall_only _ u
  · exact Only.refl _ _ u

theorem beforeDeclaration_squall (u : State) : (beforeDeclaration u).squall.ending = none ∧
    (beforeDeclaration u).squall.recent = u.squall.recent := by
  unfold beforeDeclaration
  split
  · rw [endSquall_squall]
    exact ⟨rfl, rfl⟩
  · next h => exact ⟨h, rfl⟩

theorem beforeDeclaration_srcRec (u : State) (y : Side) {n : Nat} (hn : 512 ≤ n) : (beforeDeclaration u).srcRec y n = u.srcRec y n := by
  unfold beforeDeclaration
  split
  · exact endSquall_srcRec _ u y hn
  · rfl

theorem not_endRegs {a : Nat} (h : addrBlock a = 7) (h1 : a ≠ Reg.TIL_SQ_END) (h2 : a ≠ Reg.TIL_SQ_END_4) : ¬ endRegs a := by
  rintro (h | h | h)
  · exact not_feedAllRegs (by omega) h
  · exact h1 h
  · exact h2 h

end

/-! The three moments -/

section
variable {dt : Nat} {s u : State}

theorem squallWindowEval_evaluates (hu : s.elapse dt = u) (hr : u.trg.run = .running) (hq : u.squall.lastEval ≠ windowTick u) :
    let tick := windowTick u; let v := quietAt tick u; let l := crowded u (u.now.toNat / 20); let o := exec (.squallWindowEval dt) s
    (l.length < 8 → o = .next { v with squall := { v.squall with lastEval := tick } }) ∧
    (8 ≤ l.length → v.squall.active = false → o = .next { v with squall := { v.squall with
      lastEval := tick
      declare := if v.squall.declare.isSome then v.squall.declare else some (tick - 60, l) } }) ∧
    (∀ h r, 8 ≤ l.length → v.squall.active = true → v.squall.squalls = h :: r →
      Happens ([.tiles, .squall] ++ bothOf .evt ++ bothOf .tally) (inBlocks [7, 17]) v
        (fun t => t.squall = { v.squall with lastEval := tick, squalls := { h with x := tick + 3000 } :: r } ∧
          ∀ i, i < 64 → ((t.rd64 Reg.TIL_SQ_TILES Reg.TIL_SQ_TILES_4).getLsbD i = true ↔
            i ∈ l ∨ (u.rd64 Reg.TIL_SQ_TILES Reg.TIL_SQ_TILES_4).getLsbD i = true)) o) := by
  intro tick v l o
  have ho : o = _ := exec_squallWindowEval hu hr hq
  refine ⟨fun hl => ?_, fun hl ha => ?_, fun h r hl ha hs => ?_⟩
  · exact ho.trans (if_pos hl)
  · have hn : ¬ l.length < 8 := by omega
    refine ho.trans ((if_neg hn).trans ((if_neg (Bool.not_eq_true _ ▸ ha)).trans ?_))
    cases hd : v.squall.declare with
    | none => exact if_neg (by rw [show (evaluated u).squall.declare = none from hd]; decide)
    | some q =>
      refine (if_pos (by rw [show (evaluated u).squall.declare = some q from hd]; rfl)).trans ?_
      rw [Option.isSome_some, if_pos rfl, ← hd]
      rfl
  · have hn : ¬ l.length < 8 := by omega
    have hmask : v.rd64 Reg.TIL_SQ_TILES Reg.TIL_SQ_TILES_4 = u.rd64 Reg.TIL_SQ_TILES Reg.TIL_SQ_TILES_4 := by
      obtain he | ⟨q, he⟩ := quietAt_cases tick u <;> rw [show v = _ from he]
      rfl
    let w : State := { v with squall := { v.squall with lastEval := tick, squalls := { h with x := tick + 3000 } :: r } }
    refine ⟨squallTiles l w, ?_, ⟨(squallTiles_only l w).1 .squall (by decide), fun i hi => ?_⟩, ?_⟩
    · refine ho.trans ((if_neg hn).trans ((if_pos ha).trans ?_))
      rw [show (evaluated u).squall.squalls = h :: r from hs]
      rfl
    · rw [squallTiles_mask hi, ← hmask]
      rfl
    · refine (Only.setSquall v _ (by simp)).trans ((squallTiles_only l w).mono (by decide) fun a k => ?_)
      rcases k with k | k
      · exact raiseRegs_inBlocks (by simp) k
      · rw [inBlocks, maskRegs_block k]
        exact List.mem_cons_self

theorem squallDeclaration_declares {b : Time} {m : List Nat} (hu : s.elapse dt = u) (hd : u.squall.declare = some (b, m))
    (hr : reached u.now (b + 72) = true) : let v := beforeDeclaration u; let policy := u.rf Reg.TIL_SQ_CTRL 1 0
    Happens ([.tiles, .squall] ++ bothOf .evt ++ bothOf .tally) (inBlocks [7, 8, 17]) v
      (fun t => t.squall.active = true ∧ t.squall.declare = none ∧ t.squall.ending = none ∧
        t.squall.squalls = ⟨b, b + 3060, policy, b + 72⟩ :: v.squall.squalls ∧
        t.rf Reg.TIL_SQ_STATUS 31 16 = (u.rf Reg.TIL_SQ_STATUS 31 16 + 1) % 65536 ∧ t.rf Reg.TIL_SQ_STATUS 2 1 = policy ∧
        t.rd64 Reg.TIL_SQ_BEGIN Reg.TIL_SQ_BEGIN_4 = b ∧ t.rd64 Reg.TIL_SQ_END Reg.TIL_SQ_END_4 = 0 ∧
        (∀ i, i < 64 → ((t.rd64 Reg.TIL_SQ_TILES Reg.TIL_SQ_TILES_4).getLsbD i = true ↔ i ∈ m)) ∧
        t.rf Reg.TIL_SQ_UNFLAGGED 31 0 =
          min (u.rf Reg.TIL_SQ_UNFLAGGED 31 0 + (u.squall.recent.filter (fun c => reached c b)).length) 4294967295 ∧
        (∀ y, u.live y = true → t.srcRec y 531 = (u.srcRec y 531).raise b) ∧
        ∀ i, i < 64 → ((settleTile i v).tile i).state ≠ .idle → ((settleTile i v).tile i).frames = [] →
          (t.tile i).fifo = ((settleTile i v).tile i).fifo ++ [plainSlot (controlWord 0x06 b.toNat)])
      (exec (.squallDeclaration dt) s) := by
  intro v policy
  have hv := beforeDeclaration_only u
  obtain ⟨hending, hrecent⟩ := beforeDeclaration_squall u
  have hkept (a : Nat) (ha : addrBlock a = 7) (h1 : a ≠ Reg.TIL_SQ_END) (h2 : a ≠ Reg.TIL_SQ_END_4) (hi lo : Nat) :
      v.rf a hi lo = u.rf a hi lo := hv.rf (not_endRegs ha h1 h2) hi lo
  have hpolicy : v.rf Reg.TIL_SQ_CTRL 1 0 = policy := hkept _ (by decide) (by decide) (by decide) 1 0
  refine ⟨_, exec_squallDeclaration hu hd hr, ⟨?_, ?_, ?_, ?_, ?_, ?_, ?_, ?_, fun i hi => declareSquall_mask hi, ?_, fun y hy => ?_,
    fun i hi => declareSquall_said hi⟩, declareSquall_only b m v⟩
  · rw [declareSquall_squall]; rfl
  · rw [declareSquall_squall]; rfl
  · rw [declareSquall_squall]; exact hending
  · rw [declareSquall_squall, hpolicy]; rfl
  · rw [declareSquall_rf (by decide) (by unfold maskRegs regIn; decide) (by decide), noteSquall_count]
    exact congrArg (fun n => (n + 1) % 65536) (hkept _ (by decide) (by decide) (by decide) 31 16)
  · rw [declareSquall_rf (by decide) (by unfold maskRegs regIn; decide) (by decide), noteSquall_policy, hpolicy]
    exact Nat.mod_eq_of_lt (State.rf_lt u _)
  · rw [declareSquall_rd64 (by decide) (by unfold maskRegs regIn; decide) (by decide) (by decide) (by unfold maskRegs regIn; decide)
      (by decide), noteSquall_begin]
  · rw [declareSquall_rd64 (by decide) (by unfold maskRegs regIn; decide) (by decide) (by decide) (by unfold maskRegs regIn; decide)
      (by decide), noteSquall_end]
  · rw [declareSquall_unflagged, hrecent, hkept _ (by decide) (by decide) (by decide)]
  · rw [declareSquall_srcRec ((hv.live (by decide) (by decide) y).trans hy), beforeDeclaration_srcRec u y (by decide)]

theorem squallEnd_ends {x : Time} (hu : s.elapse dt = u) (hx : squallEnded u.now u = some x) (hr : reached u.now (x + 12) = true) :
    Happens ([.tiles, .squall] ++ bothOf .evt ++ bothOf .tally) (inBlocks [7, 8, 17]) u
      (fun t => t.squall.active = false ∧ t.squall.ending = none ∧ t.squall.declare = u.squall.declare ∧
        (∀ h r, u.squall.squalls = h :: r → t.squall.squalls = { h with x := x } :: r) ∧
        t.rd64 Reg.TIL_SQ_END Reg.TIL_SQ_END_4 = x ∧ (∀ i, i < 64 → (t.tile i).squallSaid = false) ∧
        ∀ i, i < 64 → ((settleTile i u).tile i).state ≠ .idle → ((settleTile i u).tile i).frames = [] →
          (t.tile i).fifo = ((settleTile i u).tile i).fifo ++ [plainSlot (controlWord 0x07 x.toNat)])
      (exec (.squallEnd dt) s) := by
  have ho : exec (.squallEnd dt) s = .next (endSquall x u) := by
    subst hu
    show execSquallEnd dt s = _
    unfold execSquallEnd
    simp only [hx, hr, if_true]
  refine ⟨_, ho, ⟨?_, ?_, ?_, fun h r hs => ?_, endSquall_end x u, fun i hi => endSquall_unsaid x u hi, fun i hi => endSquall_said x u hi⟩,
    (endSquall_only x u).mono (by decide) fun _ => endRegs_inBlocks⟩
  · rw [endSquall_squall]; rfl
  · rw [endSquall_squall]; rfl
  · rw [endSquall_squall]; rfl
  · rw [endSquall_squall, Detector.ended, hs]

end

/-- Settles O42: the windows and the end by what the detector becomes; a word written to all tiles by what one tile shows of the writing
to the others, which is nothing. -/
theorem squallsAreDeclaredAndEnded : Obligations.SquallsAreDeclaredAndEnded := by
  intro dt s u q tick said
  refine ⟨⟨fun he => ⟨fun x hx hne hr => quietAt_ends he hx hne hr, quietAt_keeps he⟩, squallWindowEval_evaluates rfl⟩,
    fun b m hd hr => squallDeclaration_declares rfl hd hr, fun x hx hr => squallEnd_ends rfl hx hr⟩

end Sys2Proof.Machine
end

section
/-!
### What an output that is put into the store writes (R284, R306, R321)
-/

namespace Sys2Proof.Machine

/-- The parts of side x that an output entered into its assembly buffer or its store changes. -/
abbrev entryParts (x : Side) : List Part := .cmp x :: .bst x :: raising

/-- The registers that it writes: those of events, compression and store. -/
abbrev entryRegs : Nat → Prop := inBlocks [17, 20, 21]

theorem entryRegs_side (x : Side) {o : Nat} (h : 0x40000 ≤ o ∧ o < 0x60000) : entryRegs (sideBase x + o) := by
  unfold entryRegs inBlocks
  rw [addrBlock_side x (by omega)]
  have : o / 0x10000 = 4 ∨ o / 0x10000 = 5 := by omega
  rcases this with this | this <;> rw [this] <;> decide

/-! Where granules lie -/

theorem locChan_mapGranule (k1 k2 : Nat) {g : Nat} (h : g < 3 * 2 ^ 27) : locChan (mapGranule k1 k2 g) ≤ 16 := by
  have hfold : keyFold k1 k2 (g / 512) < 2 ^ 9 := by unfold keyFold; omega
  have hm : (g % 512) ^^^ keyFold k1 k2 (g / 512) < 2 ^ 9 := Nat.xor_lt_two_pow (by omega) hfold
  unfold locChan mapGranule
  simp only
  generalize (g % 512) ^^^ keyFold k1 k2 (g / 512) = m at hm
  omega

theorem findFree_lt {ok : Nat → Bool} {base size n g h : Nat} (hs : 0 < size) (hf : findFree ok base size n g = some h) :
    h < base + size := by
  induction n generalizing g with
  | zero => cases hf
  | succ n ih =>
    rw [findFree] at hf
    have hk : (if g < base || base + size ≤ g then base else g) < base + size := by
      simp only [Bool.or_eq_true, decide_eq_true_eq]
      split <;> omega
    generalize (if g < base || base + size ≤ g then base else g) = k at hk hf
    split at hf
    · cases hf
      exact hk
    · exact ih hf

theorem allocate_lt {ok : Nat → Bool} {base size n g : Nat} {q : List Nat × Nat} (ha : allocate ok base size n g = some q) :
    ∀ h ∈ q.1, h < base + size := by
  induction n generalizing ok g q with
  | zero => cases ha; simp
  | succ n ih =>
    rw [allocate] at ha
    split at ha
    · cases ha
    · next h hf =>
      have hs : 0 < size := Nat.pos_of_ne_zero fun h0 => by subst h0; cases hf
      split at ha
      · cases ha
      · next r hr =>
        cases ha
        exact List.forall_mem_cons.2 ⟨findFree_lt hs hf, ih hr⟩

section
variable {x : Side} {s t : State}

theorem ringPlace_lt {r n : Nat} {q : List Nat × Nat} (h : ringPlace s x r n = some q) : ∀ g ∈ q.1, g < 3 * 2 ^ 27 := by
  have hfits := (Option.filter_eq_some_iff.1 h).1
  unfold ringFits at hfits
  extract_lets k used at hfits
  split at hfits
  · cases hfits
  · intro g hg
    have hlt := allocate_lt hfits g hg
    have hb : s.rf (Reg.BST_RING_BASE x r) 26 0 < 2 ^ 27 := State.rf_lt _ _
    have hz : s.rf (Reg.BST_RING_SIZE x r) 27 0 < 2 ^ 28 := State.rf_lt _ _
    omega

theorem ringOf_lt (s : State) (x : Side) (st : Nat) : ringOf s x st < 8 := by
  unfold ringOf
  cases h : (List.range 8).find? (fun r => s.rb (Reg.BST_RING_CTRL x r) 0 && s.rb (Reg.BST_RING_CTRL x r) (4 + streamSlot st)) with
  | none => decide
  | some r => exact List.mem_range.1 (List.mem_of_find?_eq_some h)

/-! Writes -/

theorem accessLoc_only (x : Side) (cls : Nat) {loc : Nat} (h : locChan loc ≤ 16) (s : State) :
    Only (entryParts x) entryRegs s (accessLoc x cls loc s) := by
  unfold accessLoc
  extract_lets k r s1
  have h1 : Only (entryParts x) entryRegs s s1 := (Only.modBst s x _ (by simp)).trans (Only.modBst _ x _ (by simp))
  refine Only.ite (h1.trans (Only.bump _ _ _ _ _ ?_)) h1
  rw [Reg.BST_REFRESH_8, Nat.add_assoc]
  exact entryRegs_side x (by omega)

theorem writeGranule_only (x : Side) {q : Queued} (h : locChan q.loc ≤ 16) (s : State) :
    Only (entryParts x) entryRegs s (writeGranule x q s) := by
  have hreg : entryRegs (Reg.BST_REFRESH_C x (locChan q.loc)) := by
    rw [Reg.BST_REFRESH_C, Nat.add_assoc]
    exact entryRegs_side x (by omega)
  unfold writeGranule
  extract_lets ch s1 n
  have h1 : Only (entryParts x) entryRegs s s1 := Only.ite (Only.modBst s x _ (by simp)) (Only.refl _ _ s)
  exact Only.ite ((h1.trans (Only.modBst s1 x _ (by simp))).trans (Only.high _ _ _ _ _ hreg))
    ((h1.trans (accessLoc_only x _ h s1)).trans (Only.modBst _ x _ (by simp)))

theorem writeItem_only (x : Side) (cls kind : Nat) {gs : List Nat} (ws : List Word72) (h : ∀ g ∈ gs, g < 3 * 2 ^ 27) (s : State) :
    Only (entryParts x) entryRegs s (writeItem x cls kind gs ws s) := by
  refine List.foldlRecOn (motive := Only (entryParts x) entryRegs s) _ _ (Only.refl _ _ s) fun t ht q hq => ht.trans (writeGranule_only x ?_ t)
  exact locChan_mapGranule _ _ (h _ (List.fst_mem_of_mem_zipIdx hq))

theorem storeWords_only {st cls : Nat} {what : Stored} {ws : List Word72} {q : State × Nat} (h : storeWords x st cls what ws s = some q) :
    Only (entryParts x) entryRegs s q.1 := by
  have hring := ringOf_lt s x st
  unfold storeWords at h
  extract_lets r at h
  split at h
  · next p hp =>
    cases h
    refine (((writeItem_only x cls 1 ws (ringPlace_lt hp) s).trans (Only.modBst _ x _ (by simp))).trans
      (Only.modBst _ x _ (by simp))).trans (Only.high _ _ _ _ _ ?_)
    rw [Reg.BST_RING_MAX, Nat.add_assoc]
    exact entryRegs_side x (by omega)
  · cases h

theorem ringFull_only (x : Side) (r n : Nat) (s : State) : Only (entryParts x) entryRegs s (ringFull x r n s) :=
  Only.ite (Only.refl _ _ s) ((Only.modBst s x _ (by simp)).trans
    ((raiseSide_only x _ _ _ _).mono (by simp) fun _ => raiseRegs_inBlocks (by simp)))

theorem enterAs_entry {member : Bool} {o : Output} (h : enterAs x member o s = some t) : Only (entryParts x) entryRegs s t := by
  cases member with
  | true =>
    obtain ⟨q, hq, rfl⟩ := Option.map_eq_some_iff.1 h
    exact (storeWords_only hq).trans (Only.modCmp _ x _ (by simp))
  | false =>
    change enterOutput x o s = some t at h
    unfold enterOutput at h
    split at h
    · cases h
      exact (Only.modCmp s x _ (by simp)).trans (Only.high _ _ _ _ _ (entryRegs_side x (by omega)))
    · split at h
      · next q hq =>
        cases h
        exact ((storeWords_only hq).trans (Only.bump _ _ _ _ _ (entryRegs_side x (by omega)))).trans (Only.modCmp _ x _ (by simp))
      · cases h

theorem enterLater_only (x : Side) (member : Bool) (o : Output) (s : State) : Only (entryParts x) entryRegs s (enterLater x member o s) := by
  unfold enterLater
  split
  · next t ht => exact enterAs_entry ht
  · exact (ringFull_only x _ _ s).trans (Only.modCmp _ x _ (by simp))

theorem scanReady_only (x : Side) (s : State) : Only [.cmp x] noReg s (scanReady x s) :=
  have noted (t : State) (k : SeqKey) : Only [.cmp x] noReg t (noteReady x t k) := by
    unfold noteReady
    exact Only.modCmp t x _ (List.mem_singleton_self _)
  Only.foldl noted (Only.refl _ _ s)

/-- Words behind a tile's last unit change the intake and the units of their side, and enter its outputs (R241). -/
theorem trailing_only (x : Side) (i : Nat) (s : State) : Only (.dsp x :: entryParts x) entryRegs s (trailing x i s) := by
  unfold trailing
  extract_lets l s1
  have h1 : Only (.dsp x :: entryParts x) entryRegs s s1 := Only.modDsp s x _ List.mem_cons_self
  refine Only.ite (Only.refl _ _ s) ?_
  split
  · exact h1
  · refine Only.ite h1 (Only.ite (h1.trans (Only.modDsp s1 x _ List.mem_cons_self)) ?_)
    have hput : ∀ (t : State) (q : Bool × Output), Only (.dsp x :: entryParts x) entryRegs t (enterLater x q.1 q.2 t) := fun t q =>
      (enterLater_only x q.1 q.2 t).mono (List.subset_cons_self _ _) fun _ => id
    exact (Only.foldl hput h1).trans ((scanReady_only x _).mono (by simp) fun _ => False.elim)

end

end Sys2Proof.Machine
end

section
/-!
### The entry actions of the first state of a run (R222–R225, R254)

At S no record is open. Four actions open four records at most, which leaves so many accumulators free that none of them sets a stop time.
-/

namespace Sys2Proof.Machine

/-! What is done at another time and on every side -/

/-- What is done as at another time leaves the clock as it was. -/
theorem Only.atTime {ps : List Part} {w : Nat → Prop} {f : State → State} (b : Time) (s : State)
    (h : Only ps w { s with clock := { s.clock with now := b } } (f { s with clock := { s.clock with now := b } })) (hc : .clock ∉ ps) :
    Only ps w s (atTime b f s) := by
  have hk : Only (.clock :: ps) w s (Machine.atTime b f s) :=
    ((Only.setClock s { s.clock with now := b } (by simp)).trans (h.mono (List.subset_cons_self _ _) fun _ => id)).trans
      (Only.setClock _ _ (by simp))
  have hclock := h.1 .clock hc
  refine ⟨fun p hp => ?_, hk.2⟩
  by_cases he : p = .clock
  · subst he
    change ({ (f { s with clock := { s.clock with now := b } }).clock with now := s.clock.now } : Clock) = s.clock
    rw [show (f { s with clock := { s.clock with now := b } }).clock = { s.clock with now := b } from hclock]
  · exact hk.1 p (by simp [he, hp])

theorem Only.onLive {ps : List Part} {w : Nat → Prop} {f : Side → State → State} (h : ∀ x t, Only ps w t (f x t)) (s : State) :
    Only ps w s (onLive f s) := Only.both (fun x t => Only.ite (h x t) (Only.refl _ _ t)) (Only.refl _ _ s)

theorem Only.trg {ps : List Part} {w : Nat → Prop} {s t : State} (h : Only ps w s t) (k : .trg ∉ ps) : t.trg = s.trg := h.1 .trg k

theorem Only.tileOn {ps : List Part} {w : Nat → Prop} {s t : State} (h : Only ps w s t) (k : .bg ∉ ps) {i : Nat} (hw : ¬ w (Reg.TIL_CTRL i)) :
    t.tileOn i = s.tileOn i := by
  have hbg : t.bg = s.bg := h.1 .bg k
  simp only [State.tileOn, State.rb, State.tileRetired, h.rd hw, hbg]

/-- The parts of both sides that an entry action changes, and the lace. -/
abbrev actionParts : List Part := .lace :: bothOf .lce ++ bothOf .lnk ++ bothOf .dsp ++ bothOf .cmp ++ bothOf .bst ++ raising

/-- The registers that an entry action writes: those of events and of outputs, and the engine's counters, counts and tables. -/
def actionRegs (a : Nat) : Prop := entryRegs a ∨ ∃ x o, 0x202C0 ≤ o ∧ o < 0x30000 ∧ a = sideBase x + o

theorem actionRegs_trg (x : Side) {o : Nat} (h : 0x202C0 ≤ o ∧ o < 0x30000) : actionRegs (sideBase x + o) := .inr ⟨x, o, h.1, h.2, rfl⟩

theorem actionRegs_inBlocks {a : Nat} (h : actionRegs a) : inBlocks [17, 18, 20, 21] a := by
  obtain h | ⟨x, o, hl, hh, rfl⟩ := h
  · simp only [inBlocks, List.mem_cons, List.not_mem_nil, or_false] at h ⊢
    tauto
  · have : o / 0x10000 = 2 := by omega
    rw [inBlocks, addrBlock_side x (by omega), this]
    decide

theorem not_actionRegs (x : Side) {o : Nat} (h : 0x20000 ≤ o ∧ o < 0x202C0) : ¬ actionRegs (sideBase x + o) := by
  rintro (h | ⟨y, p, hl, hh, he⟩)
  · have : o / 0x10000 = 2 := by omega
    rw [entryRegs, inBlocks, addrBlock_side x (by omega), this] at h
    revert h; decide
  · cases x <;> cases y <;> simp only [sideBase] at he <;> omega

section
variable {s u : State}

theorem raiseEach (n sev : Nat) (s : State) : Only raising raiseRegs s (s.both (raiseSide · n sev noInst)) :=
  Only.both (fun x t => raiseSide_only x n sev noInst t) (Only.refl _ _ s)

theorem loneMark_only (m : Trigger) (s : State) : Only actionParts actionRegs s (loneMark m s) := by
  unfold loneMark
  extract_lets o
  refine Only.both (fun x t => Only.ite (Only.refl _ _ t) ?_) (Only.refl _ _ s)
  exact ((enterLater_only x false o t).mono (by cases x <;> decide) fun _ => .inl).trans
    ((scanReady_only x _).mono (by cases x <;> decide) fun _ => False.elim)

/-- A BUS block on its way leaves the engine alone. -/
theorem sendTiming_only (x : Side) (l : List (Nat × BitVec 56)) (s : State) : Only actionParts actionRegs s (sendTiming x l s) := by
  have hport : ∀ (f : Port → Port) (p : Nat) (t : State), Only actionParts actionRegs t (t.modPort x p f) := fun f p t =>
    Only.modLnk t x _ (by cases x <;> decide)
  unfold sendTiming
  exact Only.foldl (fun t p => hport _ p t) (Only.modLce s x _ (by cases x <;> decide))

theorem busAssert_only (c : Time) (line : Nat) (s : State) : Only actionParts actionRegs s (busAssert c line s) := by
  have hmerge : ∀ l t s, Only actionParts actionRegs s (mergeAssertion l t s) := fun l t s => by
    unfold mergeAssertion
    extract_lets keep
    exact Only.ite (Only.refl _ _ s) (Only.setLace s _ (by decide))
  have hroot : ∀ blk s, Only actionParts actionRegs s (busAtRoot blk s) := fun blk s =>
    (Only.both (fun x t => sendTiming_only x _ t) (Only.refl _ _ s)).trans (hmerge _ _ _)
  have hup : ∀ x blk s, Only actionParts actionRegs s (busUp x blk s) := fun x blk s => by
    unfold busUp
    split
    · exact sendTiming_only x _ s
    · exact Only.refl _ _ s
  unfold busAssert
  extract_lets y eff blk
  exact Only.ite (Only.atTime c s (hroot blk _) (by decide)) (Only.both (fun x t => hup x blk t) (Only.refl _ _ s))

theorem tableWrite_only (p : Nat) (s : State) : Only actionParts actionRegs s (tableWrite p s) := by
  refine Only.onLive (fun x t => ?_) s
  have hn : t.rf (Reg.TRG_PATCH_14 x p) 3 0 < 16 := State.rf_lt _ _
  refine List.foldlRecOn (motive := Only actionParts actionRegs t) _ _ (Only.refl _ _ t) fun v hv d hd => hv.trans (Only.wr v _ _ ?_)
  have := List.mem_range.1 hd
  rw [Reg.TRG_LIVE, Nat.add_assoc, Nat.add_assoc]
  exact actionRegs_trg x (by omega)

theorem commitTable_only (s : State) : Only actionParts actionRegs s (commitTable s) := by
  refine Only.onLive (fun x t => ?_) s
  refine List.foldlRecOn (motive := Only actionParts actionRegs t) _ _ (Only.refl _ _ t) fun v hv n hn => ?_
  refine List.foldlRecOn (motive := Only actionParts actionRegs t) _ _ hv fun v hv d hd => hv.trans (Only.wr v _ _ ?_)
  have := List.mem_range.1 hn
  have := List.mem_range.1 hd
  rw [Reg.TRG_LIVE, Nat.add_assoc, Nat.add_assoc]
  exact actionRegs_trg x (by omega)

end

/-! The engine in the first entry -/

/-- An engine steered as g is, with no stop time, k records open at most and none closed. -/
structure Early (k : Nat) (g h : Trg) : Prop where
  run : h.run = g.run
  startAt : h.startAt = g.startAt
  seq : h.seq = g.seq
  due : h.due = g.due
  stopAt : h.stopAt = none
  opened : h.opened.length ≤ k
  closed : h.closed = []

theorem Early.mono {k n : Nat} {g h : Trg} (e : Early k g h) (hn : k ≤ n) : Early n g h :=
  ⟨e.run, e.startAt, e.seq, e.due, e.stopAt, e.opened.trans hn, e.closed⟩

/-- Entry actions have led from s to t, where k records are open at most, and the engine is steered as g is. -/
structure Acted (k : Nat) (g : Trg) (s t : State) : Prop where
  only : Only (.trg :: actionParts) actionRegs s t
  early : Early k g t.trg

namespace Acted

variable {k n : Nat} {g : Trg} {s t u : State}

theorem mono (h : Acted k g s t) (hn : k ≤ n) : Acted n g s t := ⟨h.only, h.early.mono hn⟩

/-- What leaves the engine alone. -/
theorem beside (h : Acted k g s t) (j : Only actionParts actionRegs t u) : Acted k g s u :=
  ⟨h.only.trans (j.mono (List.subset_cons_self _ _) fun _ => id), by rw [j.trg (by decide)]; exact h.early⟩

/-- A change of the engine. -/
theorem modTrg (h : Acted k g s t) {f : Trg → Trg} (e : Early k g t.trg → Early n g (f t.trg)) : Acted n g s (t.modTrg f) :=
  ⟨h.only.trans (Only.setTrg t _ (by simp)), e h.early⟩

/-- A change of what Early does not look at. -/
theorem modRest (h : Acted k g s t) {f : Trg → Trg}
    (e : ∀ q : Trg, ((f q).run, (f q).startAt, (f q).seq, (f q).due, (f q).stopAt, (f q).opened, (f q).closed) =
      (q.run, q.startAt, q.seq, q.due, q.stopAt, q.opened, q.closed) := by intro _; rfl) : Acted k g s (t.modTrg f) :=
  h.modTrg fun ⟨h1, h2, h3, h4, h5, h6, h7⟩ => by
    have := e t.trg
    simp only [Prod.mk.injEq] at this
    obtain ⟨e1, e2, e3, e4, e5, e6, e7⟩ := this
    exact ⟨e1.trans h1, e2.trans h2, e3.trans h3, e4.trans h4, e5.trans h5, by rw [e6]; exact h6, e7.trans h7⟩

theorem ite {c : Prop} [Decidable c] {a b : State} (ha : Acted k g s a) (hb : Acted k g s b) : Acted k g s (if c then a else b) := by
  split
  · exact ha
  · exact hb

/-- A counter of the engine on every side that serves. -/
theorem bumpLive (h : Acted k g s t) {o : Nat} (ho : 0x202C0 ≤ o ∧ o < 0x30000) (n : Nat) :
    Acted k g s (onLive (fun x u => u.bump (sideBase x + o) 31 0 n) t) :=
  h.beside (Only.onLive (fun x t => Only.bump t _ _ _ _ (actionRegs_trg x ho)) t)

/-- So few records leave accumulators free. -/
theorem checkAccs (c : Time) (h : Acted k g s t) (hk : k < 61440) : Acted k g s (checkAccs c t) := by
  have hfree : ∀ x, ¬ freeAccs t x ≤ 4096 := fun x => by
    have hle : ((liveRecs t).filter fun r => r.alloc.get x).length ≤ (liveRecs t).length := List.length_filter_le _ _
    have hlive : (liveRecs t).length ≤ k := by rw [liveRecs, h.early.closed, List.append_nil]; exact h.early.opened
    unfold freeAccs
    omega
  have hno : Machine.checkAccs c t = t := by
    unfold Machine.checkAccs
    simp [hfree]
  rw [hno]
  exact h

theorem mergeWindow (into : Rec) (a : Time) (e : Option Time) (m : Trigger) (byHull : Bool) (h : Acted k g s t) :
    Acted k g s (mergeWindow into a e m byHull t) := by
  unfold Machine.mergeWindow
  extract_lets r hit gone r1 s1 s2
  have hjoin : ∀ (v : State) (q : Rec), Only actionParts actionRegs v (joinAccs into.id q.id v) := fun v q =>
    Only.both (fun x t => Only.modDsp t x _ (by cases x <;> decide)) (Only.refl _ _ v)
  have h1 : Acted k g s s1 := h.beside (Only.foldl hjoin (Only.refl _ _ t))
  have h2 : Acted k g s s2 := h1.modTrg fun e => ⟨e.run, e.startAt, e.seq, e.due, e.stopAt, by
    rw [List.length_map]
    exact (List.length_filter_le _ _).trans e.opened, e.closed⟩
  exact h2.bumpLive (by omega) _

theorem openWindow (c : Time) (m w : Nat) (a : Time) (fine : Nat) (h : Acted k g s t) (hk : k < 61439) :
    Acted (k + 1) g s (openWindow c m w a fine t) := by
  unfold Machine.openWindow
  extract_lets y p step m0 s1 note m1 b e m2 m3 r s2
  have hnote : ∀ {n : Nat} {v : State} (q : Trigger), Acted n g s v → Acted n g s (note q v) := fun q hv => hv.modRest
  have h1 : Acted k g s s1 := (h.bumpLive (o := 0x20400) (by omega) 1).modRest
  split
  · exact (((hnote m1 (h1.bumpLive (o := 0x20404) (by omega) 1).modRest).beside (loneMark_only _ _))).mono (by omega)
  · split
    · exact (((hnote _ h1).mergeWindow _ _ _ _ _).checkAccs c (by omega)).mono (by omega)
    · split
      · split
        · refine (checkAccs c (((hnote _ h1).mergeWindow _ _ _ _ _).beside (Only.onLive (fun x u => ?_) _)) (by omega)).mono (by omega)
          exact ((Only.bump u _ _ _ _ (actionRegs_trg x (by omega))).trans (Only.tally _ x _ _ (by cases x <;> decide))).trans
            ((raiseSide_only x _ _ _ _).mono (by decide) fun _ h => .inl (raiseRegs_inBlocks (by simp) h))
        · exact h1.mono (by omega)
      · have h2 : Acted (k + 1) g s s2 := (hnote m0 h1).modTrg fun e => ⟨e.run, e.startAt, e.seq, e.due, e.stopAt, by
          rw [List.length_append]
          exact Nat.add_le_add_right e.opened 1, e.closed⟩
        exact checkAccs c (h2.beside (Only.onLive (fun x t => Only.high t _ _ _ _ (actionRegs_trg x (by omega))) s2)) (by omega)

theorem closeGated (c : Time) (h : Acted k g s t) : Acted k g s (closeGated c t) := by
  unfold Machine.closeGated
  exact ite h (h.modTrg fun e => ⟨e.run, e.startAt, e.seq, e.due, e.stopAt, by rw [List.length_map]; exact e.opened, e.closed⟩)

theorem action (c : Time) (m : Nat) (a : Time) (fine act : Nat) (h : Acted k g s t) (hk : k < 61439) :
    Acted (k + 1) g s (action c m a fine t act) := by
  unfold Machine.action
  extract_lets i
  have hi : i < 8 := Nat.mod_lt _ (by decide)
  split
  · exact h.openWindow c _ _ _ _ hk
  · exact (h.closeGated c).mono (by omega)
  · exact h.modRest.mono (by omega)
  · exact h.modRest.mono (by omega)
  · refine (h.beside (Only.onLive (fun x u => Only.wr u _ _ ?_) t)).modRest.mono (by omega)
    rw [Reg.TRG_CNT, Nat.add_assoc]
    exact actionRegs_trg x (by omega)
  · exact h.modRest.mono (by omega)
  · exact (h.beside (busAssert_only c _ t)).mono (by omega)
  · unfold mpPulse
    exact (ite h h.modRest).mono (by omega)
  · exact (h.beside (tableWrite_only _ t)).mono (by omega)
  · exact h.mono (by omega)

theorem landCommit (c : Time) (h : Acted k g s t) : Acted k g s (landCommit c t) := by
  unfold Machine.landCommit
  split
  · exact ite ((h.modRest.beside (commitTable_only _)).beside
      ((raiseEach 561 sevInfo _).mono (by decide) fun _ h => .inl (raiseRegs_inBlocks (by simp) h))) h
  · exact h

end Acted

/-- The steering of an engine that enters state n with nothing due. -/
def Trg.entered (n : Nat) (g : Trg) : Trg := { g with
  seq := n
  due := none }

/-- The first entry of a run: into state n with nothing due, whatever its actions do (R219). -/
theorem enterState_early (c : Time) (n : Nat) (e : List Nat) (t : Time) (fine : Nat) {s : State} (hs : s.trg.stopAt = none)
    (ho : s.trg.opened = []) (hc : s.trg.closed = []) :
    Acted 4 (s.trg.entered n) s (enterState c n e t fine s) := by
  unfold enterState
  extract_lets s1
  have h1 : Acted 0 (s.trg.entered n) s s1 :=
    ⟨Only.setTrg s _ (by simp), ⟨rfl, rfl, rfl, rfl, hs, by simp only [s1, State.modTrg_trg, ho, List.length_nil, le_refl], hc⟩⟩
  exact ((((h1.action c n t fine _ (by omega)).action c n t fine _ (by omega)).action c n t fine _ (by omega)).action c n t fine _
    (by omega)).landCommit c

end Sys2Proof.Machine
end

section
/-!
### The beginning of a run at S (R172, R173, R207)
-/

namespace Sys2Proof.Machine

/-! The sides -/

/-- The registers that a side begins a run with, but S. -/
def beginRegs (a : Nat) : Prop := entryRegs a ∨ a = Reg.TRG_RUN .a ∨ a = Reg.TRG_RUN .b

/-- The registers that S stands in. -/
abbrev runStartRegs (x : Side) : Nat → Prop := regIn [Reg.TRG_RUN_START x, Reg.TRG_RUN_START_4 x]

abbrev sideStartParts : List Part := .freeCount :: bothOf .dsp ++ bothOf .cmp ++ bothOf .lnk ++ bothOf .wlt ++ bothOf .bst

theorem drawKey_only (x : Side) (s : State) : Only sideStartParts beginRegs s (drawKey x s) := by
  have hreg : ∀ {o : Nat}, 0x50000 ≤ o ∧ o < 0x60000 → beginRegs (sideBase x + o) := fun h => .inl (entryRegs_side x (by omega))
  exact (((Only.setFreeCount s _ (by simp)).trans (Only.modBst _ x _ (by cases x <;> decide))).trans
    (Only.wr _ _ _ (hreg (by omega)))).trans (Only.wr _ _ _ (hreg (by omega)))

/-- A side begins: its registers, and S in its own. -/
theorem startSide_only (b : Time) (x : Side) (s : State) :
    Only sideStartParts (fun a => beginRegs a ∨ runStartRegs x a) s (startSide b x s) := by
  unfold startSide
  extract_lets s1 s2 s3
  have hreg : ∀ {o : Nat}, 0x40000 ≤ o ∧ o < 0x60000 → beginRegs (sideBase x + o) := fun h => .inl (entryRegs_side x (by omega))
  have h0 : Only sideStartParts beginRegs s s1 := by
    refine List.foldlRecOn (motive := Only sideStartParts beginRegs s) _ _ (drawKey_only x s) fun t ht a ha => ht.trans (Only.wr t a 0 ?_)
    simp only [List.mem_cons, List.not_mem_nil, or_false] at ha
    rcases ha with rfl | rfl | rfl | rfl | rfl <;> exact hreg (by omega)
  have h1 : Only sideStartParts (fun a => beginRegs a ∨ runStartRegs x a) s s1 := h0.mono (fun _ => id) fun _ => .inl
  have h2 : Only sideStartParts (fun a => beginRegs a ∨ runStartRegs x a) s1 s2 :=
    (Only.count s1 _ _ _ _ (.inl (.inr (by cases x <;> simp)))).trans
      (Only.wr64 _ _ _ _ (.inr (by simp [regIn])) (.inr (by simp [regIn])))
  have h3 : Only sideStartParts (fun a => beginRegs a ∨ runStartRegs x a) s2 s3 := Only.modDsp s2 x _ (by cases x <;> decide)
  exact ((((h1.trans h2).trans h3).trans (Only.modCmp s3 x _ (by cases x <;> decide))).trans
    (Only.modLnk _ x _ (by cases x <;> decide))).trans (Only.modWlt _ x _ (by cases x <;> decide))

theorem startSide_start (b : Time) (x : Side) (s : State) :
    (startSide b x s).rd64 (Reg.TRG_RUN_START x) (Reg.TRG_RUN_START_4 x) = b := by
  unfold startSide
  extract_lets s1 s2 s3
  have h : Only sideStartParts noReg s2 ((((s3.modCmp x fun c => { c with progress := [] }).modLnk x fun l => { l with cutSeen := false })).modWlt x
      fun w => { w with retransSeen := false }) :=
    (((Only.modDsp s2 x _ (by cases x <;> decide)).trans (Only.modCmp s3 x _ (by cases x <;> decide))).trans
      (Only.modLnk _ x _ (by cases x <;> decide))).trans (Only.modWlt _ x _ (by cases x <;> decide))
  rw [h.rd64 id id]
  exact State.rd64_wr64 _ (by cases x <;> decide) b

theorem not_beginRegs (x : Side) : ¬ beginRegs (Reg.TRG_RUN_START x) ∧ ¬ beginRegs (Reg.TRG_RUN_START_4 x) := by
  unfold beginRegs entryRegs inBlocks
  cases x <;> decide

/-- A time that every side that serves or resynchronises writes into registers of its own. -/
theorem onLive_rd64 {ps : List Part} {w : Side → Nat → Prop} {f : Side → State → State} {a b : Side → Nat} {v : Time} {s : State}
    (h : ∀ x t, Only ps (w x) t (f x t)) (hp : .power ∉ ps) (ha : .arb ∉ ps) (hv : ∀ x t, (f x t).rd64 (a x) (b x) = v)
    (hw : ∀ x y, x ≠ y → ¬ w y (a x) ∧ ¬ w y (b x)) {x : Side} (hl : s.live x = true) : (onLive f s).rd64 (a x) (b x) = v := by
  have hkeep : ∀ y (t : State), x ≠ y → (if t.live y then f y t else t).rd64 (a x) (b x) = t.rd64 (a x) (b x) := fun y t hxy => by
    split
    · exact (h y t).rd64 (hw x y hxy).1 (hw x y hxy).2
    · rfl
  have hlive : ∀ y (t : State), (if t.live y then f y t else t).live x = t.live x := fun y t => by
    split
    · exact (h y t).live hp ha x
    · rfl
  unfold onLive State.both
  beta_reduce
  cases x with
  | a => rw [hkeep .b _ (by decide), if_pos hl, hv]
  | b => rw [if_pos ((hlive .a s).trans hl), hv]

/-- All sides that serve begin. -/
theorem startSides_only (b : Time) (s : State) :
    Only sideStartParts (fun a => beginRegs a ∨ runStartRegs .a a ∨ runStartRegs .b a) s (onLive (startSide b) s) :=
  Only.onLive (fun x t => (startSide_only b x t).mono (fun _ => id) fun a k => by cases x <;> tauto) s

theorem startSides_start (b : Time) {s : State} {x : Side} (hl : s.live x = true) :
    (onLive (startSide b) s).rd64 (Reg.TRG_RUN_START x) (Reg.TRG_RUN_START_4 x) = b := by
  refine onLive_rd64 (a := Reg.TRG_RUN_START) (b := Reg.TRG_RUN_START_4) (startSide_only b) (by decide) (by decide)
    (startSide_start b) (fun x y hxy => ?_) hl
  have hother : ¬ runStartRegs y (Reg.TRG_RUN_START x) ∧ ¬ runStartRegs y (Reg.TRG_RUN_START_4 x) := by
    unfold runStartRegs regIn
    revert hxy
    cases x <;> cases y <;> decide
  obtain ⟨h1, h2⟩ := not_beginRegs x
  exact ⟨not_or.2 ⟨h1, hother.1⟩, not_or.2 ⟨h2, hother.2⟩⟩

/-! The tiles -/

/-- The registers that a tile begins a run with. -/
def tileStartRegs (i a : Nat) : Prop := feedRegs i a ∨ a = Reg.TIL_WORDS i ∨ a = Reg.DEC_PHASE i

section
variable {i : Nat} {s t : State}

theorem tileStartRegs_inBlocks {a : Nat} (hi : i < 64) (h : tileStartRegs i a) : inBlocks [8, 17] a := by
  have hb : ∀ {o : Nat}, o < 0x10000 → inBlocks [8, 17] (tileBase i + o) := fun ho => by
    rw [inBlocks, addrBlock_tile hi ho]; decide
  rcases h with h | rfl | rfl
  · exact feedRegs_inBlocks hi h
  · exact hb (by omega)
  · exact hb (by omega)

theorem not_tileStartRegs_ctrl {k : Nat} (hk : k < 64) : ¬ tileStartRegs i (Reg.TIL_CTRL k) := by
  rintro (h | h | h)
  · exact not_feedRegs_tilCtrl hk h
  · simp only [Reg.TIL_CTRL, Reg.TIL_WORDS, tileBase] at h; omega
  · simp only [Reg.TIL_CTRL, Reg.DEC_PHASE, tileBase] at h; omega

theorem Fed.next (h : Fed i s t) : (t.tile i).next = (s.tile i).next := (congrArg Tile.next h.core :)

theorem Fed.startAt (h : Fed i s t) : (t.tile i).startAt = (s.tile i).startAt := (congrArg Tile.startAt h.core :)

/-- A unit opened on a tile whose next-slice buffer is empty is its head in the FIFO. -/
theorem openUnit_fresh (n : Nat) (found : List Upset) (h : (s.tile i).next = []) : openUnit i n found s =
    pushSlots i [plainSlot (unitHead s i n)] 0 (s.modTile i (fun k => { k with slice := some n, words := 0, lossy := false })) := by
  have hnext : ∀ v, Fed i (s.modTile i (fun k => { k with slice := some n, words := 0, lossy := false })) v → moveGroups i found v = v :=
    fun v hv => by
      have hn : (v.tile i).next = [] := by
        rw [hv.next, State.tile_modTile, if_pos rfl]
        exact h
      unfold moveGroups
      simp only [hn]
      split <;> simp [movable]
  exact hnext _ (Fed.pushSlots _ _ _)

/-- A unit opened on such a tile leaves the other tiles, and this one in its state. -/
theorem openUnit_opens (n : Nat) (found : List Upset) (h : (s.tile i).next = []) :
    Only fifoParts (feedRegs i) s (openUnit i n found s) ∧ (∀ j, j ≠ i → (openUnit i n found s).tile j = s.tile j) ∧
    ((openUnit i n found s).tile i).state = (s.tile i).state ∧ ((openUnit i n found s).tile i).startAt = (s.tile i).startAt := by
  have hf := Fed.pushSlots (i := i) [plainSlot (unitHead s i n)] 0 (s.modTile i (fun k => { k with slice := some n, words := 0, lossy := false }))
  rw [openUnit_fresh n found h]
  refine ⟨(Only.modTile s i _ (by simp)).trans hf.only, fun j hj => ?_, ?_, ?_⟩
  · rw [hf.others j hj, State.tile_modTile, if_neg hj]
  · rw [hf.state, State.tile_modTile, if_pos rfl]
  · rw [hf.startAt, State.tile_modTile, if_pos rfl]

/-- Tile i has begun a run at b, when it takes part (R172). -/
structure TileStarted (b : Time) (i : Nat) (s t : State) : Prop where
  only : Only fifoParts (tileStartRegs i) s t
  others : ∀ j, j ≠ i → t.tile j = s.tile j
  own : s.tileOn i = true → (t.tile i).state = .running ∧ (t.tile i).startAt = b

theorem startTile_started (b : Time) (hi : i < 64) (s : State) : TileStarted b i s (startTile b s i) := by
  have hframes : tileStartRegs i (Reg.FRM_FRAMES i) := .inl (.inr (by simp))
  have hwords : tileStartRegs i (Reg.TIL_WORDS i) := .inr (.inl rfl)
  have h0 : Only [] (tileStartRegs i) s ((s.wr (Reg.TIL_WORDS i) 0).wr (Reg.FRM_FRAMES i) 0) :=
    (Only.wr s _ _ hwords).trans (Only.wr _ _ _ hframes)
  unfold startTile
  extract_lets v old idle k s1 s2 s3
  split
  · next hoff =>
    refine ⟨h0.mono (by simp) fun _ => id, fun j _ => h0.tile (by simp) j, fun hon => ?_⟩
    rw [← h0.tileOn (by simp) (not_tileStartRegs_ctrl hi)] at hon
    rw [hon] at hoff
    cases hoff
  · have h1 : Only fifoParts (tileStartRegs i) s s1 := (h0.mono (by simp) fun _ => id).trans (Only.setTiles v _ (by simp))
    have h2 : Only fifoParts (tileStartRegs i) s1 s2 := Only.wr s1 _ _ (.inr (.inr rfl))
    have hown : s2.tile i = k := Sparse.get_set_self v.tiles i k Tile.idle
    have hothers : ∀ j, j ≠ i → s2.tile j = s.tile j := fun j hj => by
      rw [← h0.tile (by simp) j]
      exact Sparse.get_set_ne v.tiles k Tile.idle hj Tile.idle
    have hf : Fed i s2 s3 := Fed.pushSlots _ _ s2
    have h3 : TileStarted b i s s3 := by
      refine ⟨(h1.trans h2).trans (hf.only.mono (fun _ => id) fun _ => .inl), fun j hj => (hf.others j hj).trans (hothers j hj),
        fun _ => ⟨?_, ?_⟩⟩
      · rw [hf.state, hown]
      · rw [hf.startAt, hown]
    split
    · exact h3
    · have hnext : (s3.tile i).next = [] := by rw [hf.next, hown]; rfl
      obtain ⟨ho, hj, hstate, hstart⟩ := openUnit_opens (sliceOf v b) [] hnext
      exact ⟨h3.only.trans (ho.mono (fun _ => id) fun _ => .inl), fun j hne => (hj j hne).trans (h3.others j hne),
        fun h => ⟨hstate.trans (h3.own h).1, hstart.trans (h3.own h).2⟩⟩

end

/-- All tiles begin. -/
theorem startTiles_only (b : Time) (s : State) :
    Only fifoParts (fun a => ∃ i, i < 64 ∧ tileStartRegs i a) s ((List.range 64).foldl (startTile b) s) :=
  List.foldlRecOn (motive := Only fifoParts _ s) _ _ (Only.refl _ _ s) fun t ht i hi =>
    ht.trans ((startTile_started b (List.mem_range.1 hi) t).only.mono (fun _ => id) fun _ h => ⟨i, List.mem_range.1 hi, h⟩)

theorem startTiles_own (b : Time) {i : Nat} (hi : i < 64) {s : State} (hon : s.tileOn i = true) :
    (((List.range 64).foldl (startTile b) s).tile i).state = .running ∧
    (((List.range 64).foldl (startTile b) s).tile i).startAt = b := by
  obtain ⟨v, ⟨-, hv⟩, hafter, -⟩ := foldl_tiles (f := startTile b) (Q := fun s t => t.tile i = s.tile i ∧ t.tileOn i = s.tileOn i) hi
    (fun _ => ⟨rfl, rfl⟩) (fun h k => ⟨k.1.trans h.1, k.2.trans h.2⟩)
    (fun t j hj hne => ⟨(startTile_started b hj t).others i hne.symm,
      (startTile_started b hj t).only.tileOn (by decide) (not_tileStartRegs_ctrl hi)⟩) s
  rw [hafter]
  exact (startTile_started b hi v).own (hv.trans hon)

end Sys2Proof.Machine
end

section
/-!
### The moments of a run (R172, R207, R227, R275)
-/

namespace Sys2Proof.Machine

section
variable {s t u : State}

theorem setRun_only (r : RunState) (s : State) : Only (.trg :: raising) raiseRegs s (setRun r s) :=
  (Only.setTrg s _ (by simp)).trans ((raiseEach 562 sevInfo _).mono (by simp) fun _ => id)

theorem setRun_trg (r : RunState) (s : State) : (setRun r s).trg = { s.trg with run := r } := (raiseEach 562 sevInfo _).trg (by decide)

/-! S -/

abbrev startParts : List Part := [.frames, .tiles, .squall, .trg, .bg, .lace, .freeCount] ++ bothOf .evt ++ bothOf .lnk ++ bothOf .wlt ++
  bothOf .lce ++ bothOf .dsp ++ bothOf .cmp ++ bothOf .bst ++ bothOf .tally

/-- The sides, the engine and the detector as the run begins. -/
def sidesBegun (b : Time) (s : State) : State :=
  { (onLive (startSide b) s).modTrg (fun g => g.start b) with
    squall := ⟨false, none, none, [], b, (b - 1) - BitVec.ofNat 64 ((b - 1).toNat % 32), []⟩ }

/-- The tiles and the frames as well. -/
def tilesBegun (b : Time) (s : State) : State := startFrames b ((List.range 64).foldl (startTile b) (sidesBegun b s))

theorem startRun_eq (b : Time) (s : State) : startRun b s =
    let v := setRun .running (tilesBegun b s)
    let n := v.rf (Reg.TRG_CTRL v.arb.primary) 7 4
    enterState b n (liveEntry v n) b 0 v := by
  unfold startRun tilesBegun sidesBegun
  rfl

theorem sidesBegun_only (b : Time) (s : State) :
    Only (.trg :: .squall :: sideStartParts) (fun a => beginRegs a ∨ runStartRegs .a a ∨ runStartRegs .b a) s (sidesBegun b s) :=
  (((startSides_only b s).mono (by simp) fun _ => id).trans (Only.setTrg _ _ (by simp))).trans (Only.setSquall _ _ (by simp))

theorem sidesBegun_trg (b : Time) (s : State) : (sidesBegun b s).trg = s.trg.start b :=
  congrArg (Trg.start · b) ((startSides_only b s).trg (by decide))

theorem startFrames_only (b : Time) (s : State) : Only [.frames] (fun a => a = Reg.FRM_NUMBER) s (startFrames b s) :=
  (Only.setFrames s _ (by simp)).trans (Only.wr _ _ _ rfl)

/-- The registers that the tiles, the frames and the event of the run state change. -/
def tilesBegunRegs (a : Nat) : Prop := (∃ i, i < 64 ∧ tileStartRegs i a) ∨ a = Reg.FRM_NUMBER ∨ raiseRegs a

theorem tilesBegun_only (b : Time) (s : State) : Only (.frames :: fifoParts) tilesBegunRegs (sidesBegun b s) (tilesBegun b s) := by
  have h1 : Only (.frames :: fifoParts) tilesBegunRegs (sidesBegun b s) ((List.range 64).foldl (startTile b) (sidesBegun b s)) :=
    (startTiles_only b _).mono (List.subset_cons_self _ _) fun _ => .inl
  exact h1.trans ((startFrames_only b _).mono (by simp) fun _ h => .inr (.inl h))

theorem tilesBegunRegs_inBlocks {a : Nat} (h : tilesBegunRegs a) : inBlocks [6, 8, 17] a := by
  rcases h with ⟨i, hi, h⟩ | rfl | h
  · have := tileStartRegs_inBlocks hi h
    simp only [inBlocks, List.mem_cons, List.not_mem_nil, or_false] at this ⊢
    tauto
  · unfold inBlocks; decide
  · exact raiseRegs_inBlocks (by simp) h

/-- From the sides to the first entry the registers of the engine stand. -/
theorem runBegun_rd (b : Time) (s : State) {a : Nat} (h : addrBlock a = 18) :
    (setRun .running (tilesBegun b s)).rd a = (sidesBegun b s).rd a := by
  have hno : ¬ tilesBegunRegs a := fun k => by
    have := tilesBegunRegs_inBlocks k
    rw [inBlocks, h] at this
    revert this; decide
  rw [(setRun_only _ _).rd (not_raiseRegs (by omega)), (tilesBegun_only b s).rd hno]

theorem beginRegs_inBlocks {a : Nat} (h : beginRegs a ∨ runStartRegs .a a ∨ runStartRegs .b a) : inBlocks [17, 18, 20, 21] a := by
  simp only [beginRegs, entryRegs, runStartRegs, regIn, inBlocks, List.mem_cons, List.not_mem_nil, or_false] at h ⊢
  rcases h with ((h | h | h) | rfl | rfl) | (rfl | rfl) | (rfl | rfl)
  · omega
  · omega
  · omega
  all_goals decide

/-- What stands of a run once the first entry has been made. -/
theorem startRun_starts (b : Time) (s : State) :
    let t := startRun b s
    Only startParts (inBlocks [6, 8, 17, 18, 20, 21]) s t ∧
    (t.trg.run = .running ∧ t.trg.startAt = none ∧ t.trg.stopAt = none ∧ t.trg.due = none ∧
      t.trg.seq = s.rf (Reg.TRG_CTRL s.arb.primary) 7 4) ∧
    (∀ x, s.live x = true → t.rd64 (Reg.TRG_RUN_START x) (Reg.TRG_RUN_START_4 x) = b) ∧
    ∀ i, i < 64 → s.tileOn i = true → (t.tile i).state = .running ∧ (t.tile i).startAt = b := by
  intro t
  let v := setRun .running (tilesBegun b s)
  have hsides := sidesBegun_only b s
  have htiles := tilesBegun_only b s
  have hset := setRun_only .running (tilesBegun b s)
  have htrg : v.trg = { s.trg.start b with run := .running } := by
    rw [setRun_trg, htiles.trg (by decide), sidesBegun_trg]
  have hearly : Acted 4 (v.trg.entered (v.rf (Reg.TRG_CTRL v.arb.primary) 7 4)) v t := by
    rw [show t = _ from startRun_eq b s]
    exact enterState_early b _ _ b 0 (by rw [htrg]; rfl) (by rw [htrg]; rfl) (by rw [htrg]; rfl)
  have harb : v.arb = s.arb := (hset.1 .arb (by decide)).trans ((htiles.1 .arb (by decide)).trans (hsides.1 .arb (by decide)))
  have hinit : v.rf (Reg.TRG_CTRL v.arb.primary) 7 4 = s.rf (Reg.TRG_CTRL s.arb.primary) 7 4 := by
    rw [harb, State.rf, runBegun_rd b s (by cases s.arb.primary <;> decide), hsides.rd]
    · rfl
    · unfold beginRegs entryRegs runStartRegs regIn inBlocks
      cases s.arb.primary <;> decide
  refine ⟨?_, ⟨?_, ?_, hearly.early.stopAt, hearly.early.due, ?_⟩, fun x hl => ?_, fun i hi hon => ?_⟩
  · have hblocks : ∀ {a : Nat} {l : List Nat}, l ⊆ [6, 8, 17, 18, 20, 21] → inBlocks l a → inBlocks [6, 8, 17, 18, 20, 21] a := fun h k => h k
    exact (((hsides.mono (by decide) fun _ h => hblocks (by decide) (beginRegs_inBlocks h)).trans
      (htiles.mono (by decide) fun _ h => hblocks (by decide) (tilesBegunRegs_inBlocks h))).trans
      (hset.mono (by decide) fun _ => raiseRegs_inBlocks (by simp))).trans
      (hearly.only.mono (by decide) fun _ h => hblocks (by decide) (actionRegs_inBlocks h))
  · rw [hearly.early.run, Trg.entered, htrg]
  · rw [hearly.early.startAt, Trg.entered, htrg]; rfl
  · rw [hearly.early.seq, Trg.entered, hinit]
  · have hno : ¬ actionRegs (Reg.TRG_RUN_START x) := not_actionRegs x (by omega)
    have hno4 : ¬ actionRegs (Reg.TRG_RUN_START_4 x) := not_actionRegs x (by omega)
    rw [hearly.only.rd64 hno hno4, State.rd64, runBegun_rd b s (by cases x <;> decide), runBegun_rd b s (by cases x <;> decide)]
    exact startSides_start b hl
  · have hon' : (sidesBegun b s).tileOn i = true := by
      refine (hsides.tileOn (by decide) fun h => ?_).trans hon
      have hb := beginRegs_inBlocks h
      rw [inBlocks, addrBlock_tilCtrl hi] at hb
      revert hb; decide
    have htile : t.tile i = (((List.range 64).foldl (startTile b) (sidesBegun b s)).tile i) := by
      rw [hearly.only.tile (by decide), hset.tile (by decide)]
      exact (startFrames_only b _).tile (by decide) i
    rw [htile]
    exact startTiles_own b hi hon'

/-! P -/

abbrev stopParts : List Part := [.tiles, .squall, .trg] ++ bothOf .evt ++ bothOf .tally

theorem quiet_only (p : Time) (s : State) : Only squallParts endRegs s (quiet p s) := by
  have h1 : Only squallParts endRegs s (quietAt p { s with squall := { s.squall with declare := none } }) := by
    refine (Only.setSquall s { s.squall with declare := none } (by simp)).trans ?_
    obtain he | ⟨r, he⟩ := quietAt_cases p { s with squall := { s.squall with declare := none } }
    · rw [he]; exact Only.refl _ _ _
    · rw [he]; exact Only.setSquall _ r (by simp)
  exact Only.ite (h1.trans (endSquall_only p _)) h1

/-- Records closed are counted; those that were not to close stay open (R227). -/
theorem closeRecs_closes (gone : Rec → Bool) (f : Rec → Rec) (s : State) :
    Only (.trg :: bothOf .tally) (inBlocks [18]) s (closeRecs gone f s) ∧
    (closeRecs gone f s).trg.opened = s.trg.opened.filter (fun r => !gone r) := by
  unfold closeRecs
  extract_lets l
  refine List.foldlRecOn (motive := fun t : State => Only (.trg :: bothOf .tally) (inBlocks [18]) s t ∧
    t.trg.opened = s.trg.opened.filter (fun r => !gone r)) l _ ⟨Only.setTrg s _ (by simp), rfl⟩ fun t ht r _ => ?_
  have hcount : Only (bothOf .tally) (inBlocks [18]) t (onLive (fun x u => (u.count (Reg.TRG_RECORDS x) 31 0 1).tally x .records 1) t) :=
    Only.onLive (fun x v => (Only.count v _ _ _ _ (by cases x <;> unfold inBlocks <;> decide)).trans
      (Only.tally _ x _ _ (by cases x <;> decide))) t
  exact ⟨(ht.1.trans (hcount.mono (by simp) fun _ => id)).trans (Only.setTrg _ _ (by simp)), by
    rw [← ht.2, ← hcount.trg (by decide)]
    rfl⟩

theorem stopTile_only (p : Time) (s : State) (i : Nat) : Only fifoParts (feedRegs i) s (stopTile p s i) := by
  unfold stopTile
  split
  · exact (Fed.settleTile s).only.trans (Only.modTile _ i _ (by simp))
  · exact Only.modTile s i _ (by simp)
  · exact Only.refl _ _ s

theorem idleCheck_only (i : Nat) (s : State) : Only [.tiles] noReg s (idleCheck i s) := by
  unfold idleCheck
  extract_lets k
  exact Only.ite (Only.modTile s i _ (by simp)) (Only.refl _ _ s)

/-- The tiles stop, and those that are empty go idle at once. -/
theorem stopTiles_only (p : Time) (s : State) :
    Only fifoParts feedAllRegs s ((List.range 64).foldl (fun t k => idleCheck k t) ((List.range 64).foldl (stopTile p) s)) := by
  have h1 : Only fifoParts feedAllRegs s ((List.range 64).foldl (stopTile p) s) :=
    List.foldlRecOn (motive := Only fifoParts feedAllRegs s) _ _ (Only.refl _ _ s) fun t ht i hi =>
      ht.trans ((stopTile_only p t i).mono (fun _ => id) fun _ h => ⟨i, List.mem_range.1 hi, h⟩)
  exact Only.foldl (fun t k => (idleCheck_only k t).mono (by simp) fun _ => False.elim) h1

/-- The engine at P, with its records closed (R227). -/
def engineStopped (p : Time) (s : State) : State :=
  (closeRecs (fun _ => true) (Rec.cutOff p) (quiet p s)).modTrg (fun g => { g with
    stopAt := none
    commitAt := none
    due := none })

/-- P written on every side that serves. -/
def stopNoted (p : Time) (s : State) : State :=
  onLive (fun x t => t.wr64 (Reg.TRG_RUN_STOP x) (Reg.TRG_RUN_STOP_4 x) p) (engineStopped p s)

theorem stopRun_eq (p : Time) (s : State) : stopRun p s =
    setRun .stopping ((List.range 64).foldl (fun t k => idleCheck k t) ((List.range 64).foldl (stopTile p) (stopNoted p s))) := by
  unfold stopRun stopNoted engineStopped
  rfl

theorem engineStopped_only (p : Time) (s : State) : Only stopParts (inBlocks [7, 8, 17, 18]) s (engineStopped p s) := by
  have hw : ∀ {a : Nat} {l : List Nat}, l ⊆ [7, 8, 17, 18] → inBlocks l a → inBlocks [7, 8, 17, 18] a := fun h k => h k
  exact (((quiet_only p s).mono (by decide) fun _ h => hw (by decide) (endRegs_inBlocks h)).trans
    ((closeRecs_closes _ _ _).1.mono (by decide) fun _ h => hw (by decide) h)).trans (Only.setTrg _ _ (by decide))

theorem noteStop_only (p : Time) (x : Side) (t : State) :
    Only [] (regIn [Reg.TRG_RUN_STOP x, Reg.TRG_RUN_STOP_4 x]) t (t.wr64 (Reg.TRG_RUN_STOP x) (Reg.TRG_RUN_STOP_4 x) p) :=
  Only.wr64 t _ _ p (by simp [regIn]) (by simp [regIn])

theorem stopNoted_only (p : Time) (s : State) : Only [] (inBlocks [18]) (engineStopped p s) (stopNoted p s) :=
  Only.onLive (fun x t => (noteStop_only p x t).mono (fun _ => id) fun a h => by
    simp only [regIn, List.mem_cons, List.not_mem_nil, or_false] at h
    rcases h with rfl | rfl <;> cases x <;> unfold inBlocks <;> decide) _

theorem stopRun_stops (p : Time) (s : State) : let t := stopRun p s
    Only stopParts (inBlocks [7, 8, 17, 18]) s t ∧ t.trg.run = .stopping ∧ t.trg.stopAt = none ∧ t.trg.commitAt = none ∧ t.trg.due = none ∧
    t.trg.opened = [] ∧ ∀ x, s.live x = true → t.rd64 (Reg.TRG_RUN_STOP x) (Reg.TRG_RUN_STOP_4 x) = p := by
  intro t
  let v := (List.range 64).foldl (fun t k => idleCheck k t) ((List.range 64).foldl (stopTile p) (stopNoted p s))
  have hengine := engineStopped_only p s
  have hnoted := stopNoted_only p s
  have htiles : Only fifoParts feedAllRegs (stopNoted p s) v := stopTiles_only p _
  have hset : Only (.trg :: raising) raiseRegs v t := by
    rw [show t = _ from stopRun_eq p s]
    exact setRun_only .stopping v
  have htrg : t.trg = { (engineStopped p s).trg with run := .stopping } := by
    rw [show t = _ from stopRun_eq p s, setRun_trg, htiles.trg (by decide), hnoted.trg (by simp)]
  have hopened : (engineStopped p s).trg.opened = [] := by
    rw [engineStopped, State.modTrg_trg]
    simp only [(closeRecs_closes _ _ _).2]
    simp
  refine ⟨?_, by rw [htrg], by rw [htrg]; rfl, by rw [htrg]; rfl, by rw [htrg]; rfl, by rw [htrg]; exact hopened, fun x hl => ?_⟩
  · have hw : ∀ {a : Nat} {l : List Nat}, l ⊆ [7, 8, 17, 18] → inBlocks l a → inBlocks [7, 8, 17, 18] a := fun h k => h k
    exact ((hengine.trans (hnoted.mono (by simp) fun _ h => hw (by decide) h)).trans
      (htiles.mono (by decide) fun _ h => feedAllRegs_inBlocks (by simp) (by simp) h)).trans
      (hset.mono (by decide) fun _ => raiseRegs_inBlocks (by simp))
  · have hblock : addrBlock (Reg.TRG_RUN_STOP x) = 18 ∧ addrBlock (Reg.TRG_RUN_STOP_4 x) = 18 := by cases x <;> decide
    rw [hset.rd64 (not_raiseRegs (by omega)) (not_raiseRegs (by omega)),
      htiles.rd64 (not_feedAllRegs (by omega)) (not_feedAllRegs (by omega))]
    refine onLive_rd64 (a := Reg.TRG_RUN_STOP) (b := Reg.TRG_RUN_STOP_4) (noteStop_only p) (by simp) (by simp)
      (fun y t => State.rd64_wr64 t (by cases y <;> decide) p) (fun x y hxy => ?_) ((hengine.live (by decide) (by decide) x).trans hl)
    unfold regIn
    revert hxy
    cases x <;> cases y <;> decide

/-! The end of the run and a cut -/

theorem raiseSide_both_raised (n sev inst : Nat) (s : State) (x : Side) : RaisedSide x n s (s.both (raiseSide · n sev inst)) := by
  have hother : ∀ (y : Side) (t : State), x ≠ y → (raiseSide y n sev inst t).srcRec x (srcOn x n) = t.srcRec x (srcOn x n) := fun y t hxy => by
    unfold raiseSide
    split
    · rw [raiseAt_srcRec, if_neg fun k => hxy k.1]
    · rfl
  have hb : ∀ (t : State), RaisedSide x n t (raiseSide x n sev inst t) := raiseSide_raisedSide x n sev inst
  unfold State.both
  cases x with
  | a => exact fun hl => (hother .b _ (by decide)).trans (hb s hl)
  | b =>
    intro hl
    have h1 := raiseSide_only .a n sev inst s
    have harb : (raiseSide .a n sev inst s).arb = s.arb := h1.1 .arb (by decide)
    have hlogs : (raiseSide .a n sev inst s).logsEvents .b = true := by
      rw [State.logsEvents, h1.live (by decide) (by decide), harb]
      exact hl
    have hr := hb (raiseSide .a n sev inst s) hlogs
    unfold Raised at hr ⊢
    rw [hr, h1.now (by decide)]
    exact congrArg (·.raise s.now) (hother .a s (by decide))

/-- Words behind the last units of all tiles taken up (R241). -/
def trailed (s : State) : State := s.both (fun x t => if t.serving x then (List.range 64).foldl (fun v i => trailing x i v) t else t)

theorem trailed_only (s : State) : Only (bothOf .dsp ++ bothOf .cmp ++ bothOf .bst ++ raising) entryRegs s (trailed s) :=
  Only.both (fun x t => Only.ite
    (Only.foldl (fun v i => (trailing_only x i v).mono (by cases x <;> decide) fun _ => id) (Only.refl _ _ t)) (Only.refl _ _ t))
    (Only.refl _ _ s)

/-! What is done at another time reads as it does where it is done -/

/-- A state at another time. -/
def clockAt (b : Time) (s : State) : State := { s with clock := { s.clock with now := b } }

theorem atTime_trg (b : Time) (f : State → State) (s : State) :
    (atTime b f s).trg = (f (clockAt b s)).trg := rfl

theorem atTime_tile (b : Time) (f : State → State) (s : State) (i : Nat) :
    (atTime b f s).tile i = (f (clockAt b s)).tile i := rfl

theorem atTime_rd64 (b : Time) (f : State → State) (s : State) (a c : Nat) :
    (atTime b f s).rd64 a c = (f (clockAt b s)).rd64 a c := rfl

theorem runStartEffect_starts {dt : Nat} {b : Time} (hu : s.elapse dt = u) (hr : u.trg.run = .armed) (hs : u.trg.startAt = some b)
    (hb : reached u.now b = true) :
    Happens startParts (inBlocks [6, 8, 17, 18, 20, 21]) u
      (fun t => t.trg.run = .running ∧ t.trg.startAt = none ∧ t.trg.stopAt = none ∧ t.trg.due = none ∧
        t.trg.seq = u.rf (Reg.TRG_CTRL u.arb.primary) 7 4 ∧
        (∀ x, u.live x = true → t.rd64 (Reg.TRG_RUN_START x) (Reg.TRG_RUN_START_4 x) = b) ∧
        (∀ k : Fin 64, u.tileOn k = true → (t.tile k).state = .running ∧ (t.tile k).startAt = b))
      (exec (.runStartEffect dt) s) := by
  have ho : exec (.runStartEffect dt) s = .next (atTime b (startRun b) u) := by
    subst hu
    show execRunStartEffect dt s = _
    unfold execRunStartEffect
    simp only [hs, hr, hb]
    rfl
  obtain ⟨honly, ⟨hrun, hstart, hstop, hdue, hseq⟩, hregs, htiles⟩ := startRun_starts b (clockAt b u)
  refine ⟨_, ho, ?_, Only.atTime b u honly (by decide)⟩
  simp only [atTime_trg, atTime_tile, atTime_rd64]
  exact ⟨hrun, hstart, hstop, hdue, hseq, hregs, fun k => htiles k k.isLt⟩

theorem runStopEffect_stops {dt : Nat} {p : Time} (hu : s.elapse dt = u) (hr : u.trg.run = .running) (hs : u.trg.stopAt = some p)
    (hp : reached u.now p = true) :
    Happens stopParts (inBlocks [7, 8, 17, 18]) u
      (fun t => t.trg.run = .stopping ∧ t.trg.stopAt = none ∧ t.trg.commitAt = none ∧ t.trg.due = none ∧ t.trg.opened = [] ∧
        ∀ x, u.live x = true → t.rd64 (Reg.TRG_RUN_STOP x) (Reg.TRG_RUN_STOP_4 x) = p)
      (exec (.runStopEffect dt) s) := by
  have ho : exec (.runStopEffect dt) s = .next (atTime p (stopRun p) u) := by
    subst hu
    show execRunStopEffect dt s = _
    unfold execRunStopEffect
    simp only [hs, hr, hp]
    rfl
  obtain ⟨honly, hrun, hstop, hcommit, hdue, hopen, hregs⟩ := stopRun_stops p (clockAt p u)
  refine ⟨_, ho, ?_, Only.atTime p u honly (by decide)⟩
  simp only [atTime_trg, atTime_rd64]
  exact ⟨hrun, hstop, hcommit, hdue, hopen, hregs⟩

/-- Whether a state is at its end of STOPPING (R207, R326). -/
def stoppingOver (k : State) : Bool :=
  k.trg.run = .stopping && (List.range 64).all (fun i => (k.tile i).state = .idle) && k.trg.opened = []
    && k.trg.closed = [] && [Side.a, Side.b].all (fun x => !k.serving x || sideDone k x)

theorem stoppingOver_of_trailed {k : State} (hk : Only (bothOf .dsp ++ bothOf .cmp ++ bothOf .bst ++ raising) entryRegs u k)
    (hrun : u.trg.run = .stopping) (htiles : ∀ i : Fin 64, (u.tile i).state = .idle) (hopen : u.trg.opened = []) (hclosed : u.trg.closed = [])
    (hdone : ∀ x, u.serving x = true → sideDone k x = true) : stoppingOver k = true := by
  have hidle : (List.range 64).all (fun i => (k.tile i).state = .idle) = true := List.all_eq_true.2 fun i hi => by
    rw [hk.tile (by decide)]
    exact decide_eq_true (htiles ⟨i, List.mem_range.1 hi⟩)
  have hpower : k.power = u.power := hk.1 .power (by decide)
  have harb : k.arb = u.arb := hk.1 .arb (by decide)
  have hside : ∀ x, (!k.serving x || sideDone k x) = true := fun x => by
    rw [show k.serving x = u.serving x by simp only [State.serving, hpower, harb]]
    cases hs : u.serving x with
    | false => rfl
    | true => rw [hdone x hs]; rfl
  unfold stoppingOver
  rw [hk.trg (by decide), hrun, hopen, hclosed, hidle, List.all_cons, List.all_cons, hside, hside]
  rfl

theorem exec_runStoppingComplete {dt : Nat} (hu : s.elapse dt = u) (h : stoppingOver (trailed u) = true) :
    exec (.runStoppingComplete dt) s = .next (setRun .idle ((trailed u).modTrg (fun g => { g with commitAt := none }))) := by
  subst hu
  show execRunStoppingComplete dt s = _
  unfold execRunStoppingComplete trailed
  unfold stoppingOver trailed at h
  exact if_pos h

/-- A run that goes idle, its commit dropped. -/
theorem setRun_idle_raised (k : State) (x : Side) :
    RaisedSide x 562 k (setRun .idle (k.modTrg (fun g => { g with commitAt := none }))) :=
  raiseSide_both_raised 562 sevInfo noInst ((k.modTrg (fun g => { g with commitAt := none })).modTrg fun g => { g with run := .idle }) x

theorem runStoppingComplete_ends {dt : Nat} (hu : s.elapse dt = u) (hrun : u.trg.run = .stopping)
    (htiles : ∀ i : Fin 64, (u.tile i).state = .idle) (hopen : u.trg.opened = []) (hclosed : u.trg.closed = [])
    (hdone : ∀ x, u.serving x = true → sideDone (trailed u) x = true) :
    Happens (.trg :: raising) raiseRegs (trailed u) (fun t => t.trg.run = .idle ∧ ∀ x, RaisedSide x 562 (trailed u) t)
      (exec (.runStoppingComplete dt) s) :=
  ⟨_, exec_runStoppingComplete hu (stoppingOver_of_trailed (trailed_only u) hrun htiles hopen hclosed hdone),
    ⟨congrArg Trg.run (setRun_trg .idle _), setRun_idle_raised _⟩, (Only.setTrg _ _ (by simp)).trans (setRun_only _ _)⟩

theorem flushCut_cuts {dt : Nat} {b : Time} (hu : s.elapse dt = u) (hc : u.trg.cuts.find? (reached u.now) = some b) :
    Happens ([.trg] ++ bothOf .cmp) (inBlocks [20]) u
      (fun t => t.trg.cuts = u.trg.cuts.erase b ∧ t.trg.cutsMade = u.trg.cutsMade ++ [b] ∧
        ∀ x, u.live x = true → t.rd64 (Reg.CMP_FLUSH_LAST x) (Reg.CMP_FLUSH_LAST_4 x) = b)
      (exec (.flushCut dt) s) := by
  let s1 := u.modTrg (fun g => { g with
    cuts := g.cuts.erase b
    cutsMade := g.cutsMade ++ [b] })
  let noted (x : Side) (v : State) : State := scanReady x (v.wr64 (Reg.CMP_FLUSH_LAST x) (Reg.CMP_FLUSH_LAST_4 x) b)
  have ho : exec (.flushCut dt) s = .next (onLive noted s1) := by
    subst hu
    show execFlushCut dt s = _
    unfold execFlushCut
    simp only [hc]
    rfl
  have hnoted : ∀ x t, Only (bothOf .cmp) (regIn [Reg.CMP_FLUSH_LAST x, Reg.CMP_FLUSH_LAST_4 x]) t (noted x t) := fun x t =>
    (Only.wr64 t _ _ b (by simp [regIn]) (by simp [regIn])).trans
      ((scanReady_only x _).mono (by cases x <;> decide) fun _ => False.elim)
  have hall : Only (bothOf .cmp) (inBlocks [20]) s1 (onLive noted s1) := Only.onLive (fun x t => (hnoted x t).mono (fun _ => id) fun a h => by
    simp only [regIn, List.mem_cons, List.not_mem_nil, or_false] at h
    rcases h with rfl | rfl <;> cases x <;> unfold inBlocks <;> decide) s1
  refine ⟨_, ho, ⟨?_, ?_, fun x hl => ?_⟩, (Only.setTrg u _ (by simp)).trans (hall.mono (by decide) fun _ => id)⟩
  · rw [hall.trg (by decide)]; rfl
  · rw [hall.trg (by decide)]; rfl
  · refine onLive_rd64 (a := Reg.CMP_FLUSH_LAST) (b := Reg.CMP_FLUSH_LAST_4) hnoted (by decide) (by decide) (fun y t => ?_)
      (fun x y hxy => ?_) hl
    · rw [(scanReady_only y _).rd64 id id]
      exact State.rd64_wr64 t (by cases y <;> decide) b
    · unfold regIn
      revert hxy
      cases x <;> cases y <;> decide

end

/-- Settles O22, moment by moment: at S the entry actions are too few to reach the limit of R254; at P all records close; a raise on one
side leaves the log of the other. -/
theorem runMomentsMoveTheRunState : Obligations.RunMomentsMoveTheRunState := by
  intro dt s u
  exact ⟨fun b hr hs hb => runStartEffect_starts rfl hr hs hb, fun p hr hs hp => runStopEffect_stops rfl hr hs hp,
    fun hr ht ho hc hd => runStoppingComplete_ends rfl hr ht ho hc hd, fun b hc => flushCut_cuts rfl hc⟩

end Sys2Proof.Machine
end

section
/-!
### What a tile's faults and the groups that enter its FIFO leave of it (R177, R190–R192)
-/

namespace Sys2Proof.Machine

/-- The parts that tile i changes beside what stands on the sides' intakes. -/
abbrev workParts : List Part := .bg :: fifoParts

/-- Tile i has gone on: words stand behind those that stood in its FIFO, the unit that is open and what is lost of its slices are the same,
and a tile that was not idle is not while a unit is open. -/
structure Worked (w : Nat → Prop) (i : Nat) (s t : State) : Prop where
  only : Only workParts w s t
  grows : (s.tile i).fifo <+: (t.tile i).fifo
  slice : (t.tile i).slice = (s.tile i).slice
  lost : (t.tile i).lost = (s.tile i).lost
  unlocked : (s.tile i).unlocked = true → (t.tile i).unlocked = true
  inUnit : (s.tile i).state ≠ .idle → (s.tile i).slice.isSome = true → (t.tile i).state ≠ .idle
  recs : i < 64 → ∀ x n, 512 ≤ n → n ≠ 541 → t.srcRec x n = s.srcRec x n

namespace Worked

variable {w v : Nat → Prop} {i : Nat} {s t u : State}

theorem refl (w : Nat → Prop) (i : Nat) (s : State) : Worked w i s s :=
  ⟨Only.refl _ _ s, List.prefix_rfl, rfl, rfl, id, fun h _ => h, fun _ _ _ _ _ => rfl⟩

theorem trans (h : Worked w i s t) (k : Worked w i t u) : Worked w i s u where
  only := h.only.trans k.only
  grows := h.grows.trans k.grows
  slice := k.slice.trans h.slice
  lost := k.lost.trans h.lost
  unlocked := k.unlocked ∘ h.unlocked
  inUnit hs hl := k.inUnit (h.inUnit hs hl) (by rw [h.slice]; exact hl)
  recs hi x n hn hne := (k.recs hi x n hn hne).trans (h.recs hi x n hn hne)

theorem mono (h : Worked v i s t) (k : ∀ a, v a → w a) : Worked w i s t := { h with only := h.only.mono (fun _ => id) k }

theorem ite {c : Prop} [Decidable c] {a b : State} (ha : Worked w i s a) (hb : Worked w i s b) : Worked w i s (if c then a else b) := by
  split
  · exact ha
  · exact hb

theorem of_fed (h : Fed i s t) (k : ∀ a, feedRegs i a → w a) : Worked w i s t where
  only := h.only.mono (by simp) k
  grows := h.grows
  slice := h.slice
  lost := h.lost
  unlocked := h.unlocked
  inUnit hs _ := by rw [h.state]; exact hs
  recs hi x n hn _ := h.recs hi x n hn

/-- A change of the tile that leaves its FIFO, its unit and its PLL; it goes idle outside a unit only. -/
theorem modTile (s : State) (f : Tile → Tile) (hg : (f (s.tile i)).fifo = (s.tile i).fifo := by rfl)
    (hc : (f (s.tile i)).slice = (s.tile i).slice := by rfl) (hl : (f (s.tile i)).lost = (s.tile i).lost := by rfl)
    (hp : (f (s.tile i)).pllBusy = (s.tile i).pllBusy := by rfl)
    (hu : (s.tile i).state ≠ .idle → (s.tile i).slice.isSome = true → (f (s.tile i)).state ≠ .idle) : Worked w i s (s.modTile i f) := by
  have ht : (s.modTile i f).tile i = f (s.tile i) := by rw [State.tile_modTile, if_pos rfl]
  refine ⟨Only.modTile s i f (by simp), by rw [ht, hg], by rw [ht, hc], by rw [ht, hl], fun h => ?_, by rw [ht]; exact hu,
    fun _ x n _ _ => (Only.modTile (ps := [.tiles]) (w := noReg) s i f (by simp)).srcRec x (by simp) n⟩
  rw [ht, Tile.unlocked, hp]
  exact h

/-- What touches neither the tiles nor the events. -/
theorem of_only {ps : List Part} (h : Only ps v s t) (hp : ps ⊆ .bg :: bothOf .tally) (k : ∀ a, v a → w a) : Worked w i s t := by
  have ht : t.tile i = s.tile i := h.tile (fun hm => by simpa [bothOf] using hp hm) i
  refine ⟨h.mono (fun p hm => ?_) k, by rw [ht], by rw [ht], by rw [ht], by rw [ht]; exact id, by rw [ht]; exact fun h _ => h,
    fun _ x n _ _ => h.srcRec x (fun hm => by simpa [bothOf] using hp hm) n⟩
  have := hp hm
  simp only [bothOf, List.mem_cons, List.not_mem_nil, or_false] at this
  rcases this with rfl | rfl | rfl <;> simp [raising]

theorem bump {a : Nat} (h : w a) (hi lo n : Nat) (s : State) : Worked w i s (s.bump a hi lo n) :=
  of_only (ps := []) (Only.bump s a hi lo n h) (by simp) fun _ => id

theorem tallyAll (k : Tally) (n : Nat) (s : State) : Worked w i s (s.tallyAll k n) :=
  of_only (Only.tallyAll (w := noReg) s k n) (List.subset_cons_self _ _) fun _ => False.elim

section
variable (hw : ∀ a, feedRegs i a → w a)
include hw

theorem stopTile (p : Time) (s : State) : Worked w i s (stopTile p s i) := by
  unfold Machine.stopTile
  split
  · exact (of_fed (Fed.settleTile s) hw).trans (modTile _ _ (hu := fun _ _ => by simp))
  · exact modTile s _ (hu := fun h _ => h)
  · exact refl w i s

omit hw in
theorem idleCheck (s : State) : Worked w i s (idleCheck i s) := by
  unfold Machine.idleCheck
  extract_lets k
  by_cases hs : k.slice.isNone = true
  · refine ite (modTile s _ (hu := fun _ h => ?_)) (refl w i s)
    rw [Option.isNone_iff_eq_none.1 hs] at h
    cases h
  · rw [if_neg (by simp [hs])]
    exact refl w i s

/-- A tile retired is listed, whatever follows of that. -/
theorem retireTile (s : State) : Worked w i s (retireTile i s) ∧ (retireTile i s).tileRetired i = true := by
  unfold Machine.retireTile
  split
  · next h => exact ⟨refl w i s, h⟩
  · extract_lets bg0 listed s1 s2 k s3
    have hbg : Only [.bg] noReg s s1 := (Only.setBg s _ (by simp)).trans (wantUpdate_only _)
    have hlisted : s1.tileRetired i = true := by
      simp only [s1, State.tileRetired, wantUpdate_inForce, List.contains_iff_mem]
      exact mem_insertNat_self i _
    have hraise := raiseBase_only 541 sevFault i s1
    have h2 : Worked w i s s2 := by
      have htile : s2.tile i = s.tile i := (hraise.tile_eq i).trans (hbg.tile (by simp) i)
      refine ⟨(hbg.mono (by simp) fun _ => False.elim).trans (hraise.mono (by simp) fun a h => hw a (.inl h)), by rw [htile], by rw [htile],
        by rw [htile], by rw [htile]; exact id, by rw [htile]; exact fun h _ => h, fun _ x n _ hne => ?_⟩
      exact (raiseBase_srcRec_ne hne _ _ x s1).trans (hbg.srcRec x (by simp) n)
    have hbg2 : s2.tileRetired i = true := by
      rw [State.tileRetired, show s2.bg = s1.bg from hraise.1 .bg (by decide)]
      exact hlisted
    have h3 : Worked w i s2 s3 := ite (stopTile hw _ s2) (refl w i s2)
    have hb3 : s3.bg = s2.bg := by
      simp only [s3]
      split
      · exact (stopTile_only _ s2 i).1 .bg (by decide)
      · rfl
    have hb4 : (Machine.idleCheck i s3).bg = s3.bg := (idleCheck_only i s3).1 .bg (by simp)
    have hlist : ∀ {q : State}, q.bg = s2.bg → q.tileRetired i = true := fun he => by
      rw [State.tileRetired, he]
      exact hbg2
    split
    · exact ⟨h2, hbg2⟩
    · split
      · exact ⟨(h2.trans h3).trans (modTile s3 _ (hu := fun h _ => h)), hlist hb3⟩
      · exact ⟨(h2.trans h3).trans (idleCheck s3), hlist (hb4.trans hb3)⟩

theorem tileFault (s : State) : Worked w i s (tileFault i s) := by
  unfold Machine.tileFault
  extract_lets f s1
  have h1 : Worked w i s s1 := of_fed (Fed.raiseTile (by omega) _ _ s) hw
  exact ite h1 (ite (h1.trans (retireTile hw s1).1) (h1.trans (modTile s1 _ (hu := fun h _ => h))))

variable (hecc : w (Reg.TIL_ECC i))

/-- A group that enters the FIFO: of words that read sound, its words alone. -/
theorem moveGroup_sound (g : List Word72) (s : State) : Worked w i s (moveGroup i g [] s) := of_fed (Fed.pushSlots _ _ s) hw

include hecc

theorem moveGroup (g : List Word72) (found : List Upset) (s : State) : Worked w i s (moveGroup i g found s) := by
  unfold Machine.moveGroup
  extract_lets bad good s1 s2
  have h1 : Worked w i s s1 := ite (refl w i s) ((bump hecc _ _ _ s).trans (tallyAll _ _ _))
  refine ite (h1.trans (of_fed (Fed.pushSlots _ _ s1) hw)) ?_
  have h2 : Worked w i s s2 := (h1.trans (modTile s1 _ (hu := fun h _ => h))).trans (of_fed (Fed.pushSlots _ _ _) hw)
  exact ((h2.trans (bump hecc _ _ _ s2)).trans (tallyAll _ _ _)).trans (tileFault hw _)

theorem moveAll (l : List (List Word72)) (found : List Upset) (s : State) : Worked w i s (moveAll i l found s) := by
  induction l generalizing found s with
  | nil => exact refl w i s
  | cons g r ih => exact (moveGroup hw hecc g _ s).trans (ih _ _)

theorem moveGroups (found : List Upset) (s : State) : Worked w i s (moveGroups i found s) := by
  unfold Machine.moveGroups
  extract_lets k
  split
  · extract_lets q
    exact ite (refl w i s) ((modTile s _ (hu := fun h _ => h)).trans (moveAll hw hecc _ _ _))
  · exact refl w i s

omit hecc

theorem moveAll_sound (l : List (List Word72)) (s : State) : Worked w i s (Machine.moveAll i l [] s) := by
  induction l generalizing s with
  | nil => exact refl w i s
  | cons g r ih =>
    rw [Machine.moveAll, List.drop_nil, List.take_nil]
    exact (moveGroup_sound hw g s).trans (ih _)

theorem moveGroups_sound (s : State) : Worked w i s (Machine.moveGroups i [] s) := by
  unfold Machine.moveGroups
  extract_lets k
  split
  · extract_lets q
    exact ite (refl w i s) ((modTile s _ (hu := fun h _ => h)).trans (moveAll_sound hw _ _))
  · exact refl w i s

end

end Worked

/-- The registers that a tile writes whose words read with errors. -/
def eccRegs (i a : Nat) : Prop := feedRegs i a ∨ a = Reg.TIL_ECC i

theorem eccRegs_inBlocks {i a : Nat} (hi : i < 64) (h : eccRegs i a) : inBlocks [8, 17] a := by
  rcases h with h | rfl
  · exact feedRegs_inBlocks hi h
  · rw [inBlocks, Reg.TIL_ECC, addrBlock_tile hi (by omega)]; decide

end Sys2Proof.Machine
end

section
/-!
### Units, EPOCH words, summaries and the clock of a tile (R174–R180, R193, R195)
-/

namespace Sys2Proof.Machine

section
variable {i n : Nat} {dt : Nat} {moved : List Upset} {s u v : State}

/-! A unit closes -/

theorem unitHead_only {ps : List Part} {w : Nat → Prop} {t : State} (h : Only ps w s t) (hw : ¬ w Reg.TIL_SLICE) (i n : Nat) :
    unitHead t i n = unitHead s i n := by
  unfold unitHead
  rw [h.rf hw]

/-- A unit opened: its head stands in the FIFO, and groups of it behind that. -/
theorem openUnit_head (i n : Nat) (found : List Upset) (s : State) : let t := openUnit i n found s
    Only workParts (eccRegs i) s t ∧ (∃ post, (t.tile i).fifo = (s.tile i).fifo ++ plainSlot (unitHead s i n) :: post) ∧
    (t.tile i).slice = some n ∧ (t.tile i).lost = (s.tile i).lost := by
  intro t
  let s1 := s.modTile i (fun k => { k with slice := some n, words := 0, lossy := false })
  have ht1 : s1.tile i = { s.tile i with slice := some n, words := 0, lossy := false } := by rw [State.tile_modTile, if_pos rfl]
  have h1 := Fed.pushSlots (i := i) [plainSlot (unitHead s i n)] 0 s1
  have h2 : Worked (eccRegs i) i (pushSlots i [plainSlot (unitHead s i n)] 0 s1) t :=
    Worked.moveGroups (fun _ => .inl) (.inr rfl) found _
  refine ⟨((Only.modTile s i _ (by simp)).trans (h1.only.mono (by simp) fun _ => .inl)).trans h2.only, ?_, ?_, ?_⟩
  · obtain ⟨post, hpost⟩ := h2.grows
    refine ⟨post, ?_⟩
    rw [← hpost, (pushSlots_fifo i _ _ _).1, ht1, List.append_assoc]
    rfl
  · rw [h2.slice, h1.slice, ht1]
  · rw [h2.lost, h1.lost, ht1]

/-- What a unit ends with (R178, R180, R188). -/
def closing (v : State) (i n : Nat) : List Word72 :=
  let k := v.tile i
  let e := unitEnd v k n
  let ep := epochDue v k n
  let ls := lossWords i (Sparse.get k.lost n Lost.zero)
  ep ++ ls ++ [unitTail i n (k.words + ep.length + ls.length) (squallIn v (sliceStart v n) e) (k.lossy || decide (ls ≠ []))
    (busyIn k (sliceStart v n) e v.now)]

/-- A unit closed, before the next opens. -/
def unitClosed (i n : Nat) (v : State) : State :=
  let k := v.tile i
  let e := unitEnd v k n
  let ep := epochDue v k n
  (pushSlots i ((closing v i n).map plainSlot) 0 v).modTile i (fun k => { k with
    lost := Sparse.del k.lost n
    epoch := if ep = [] then k.epoch else e
    slice := none
    spans := k.spans.filter (fun q => match q.2 with
      | some b => !reached e b
      | none => true) })

theorem closeUnit_eq (i n : Nat) (found : List Upset) (v : State) : closeUnit i n found v =
    if lastUnit v (v.tile i) n then unitClosed i n v else openUnit i (n + 1) found (unitClosed i n v) := rfl

theorem unitClosed_closes (i n : Nat) (v : State) : let t := unitClosed i n v
    Only fifoParts (feedRegs i) v t ∧ (t.tile i).fifo = (v.tile i).fifo ++ (closing v i n).map plainSlot ∧ (t.tile i).slice = none ∧
    Sparse.get (t.tile i).lost n Lost.zero = Lost.zero := by
  intro t
  have hf := Fed.pushSlots (i := i) ((closing v i n).map plainSlot) 0 v
  have ht : t.tile i = _ := (State.tile_modTile ..).trans (if_pos rfl)
  refine ⟨hf.only.trans (Only.modTile _ i _ (by simp)), ?_, by rw [ht], ?_⟩
  · rw [ht]
    exact (pushSlots_fifo i _ _ _).1
  · rw [ht]
    exact Sparse.get_del_self _ _ _

theorem exec_unitClose {i : Fin 64} (hv : settleTile i (s.elapse dt) = v) (hs : (v.tile i).slice = some n)
    (hgo : (v.tile i).state ≠ .idle ∧ reached v.now (unitEnd v (v.tile i) n + 72) = true ∧ (v.tile i).waitPll = none ∧
      holdsCluster v i n = false ∧ (v.tile i).next.any (fun g => g.1 = n) = false ∧ (v.tile i).fifo.length + 6 ≤ 4096) :
    exec (.unitClose dt i moved) s = .next (closeUnit i n moved v) := by
  subst hv
  obtain ⟨h1, h2, h3, h4, h5, h6⟩ := hgo
  show execUnitClose dt i moved s = _
  unfold execUnitClose
  simp only [hs]
  refine if_pos ?_
  rw [h2, h3, h4, h5]
  simp [h1, h6]

theorem unitClose_closes {i : Fin 64} (hv : settleTile i (s.elapse dt) = v) (hs : (v.tile i).slice = some n)
    (hgo : (v.tile i).state ≠ .idle ∧ reached v.now (unitEnd v (v.tile i) n + 72) = true ∧ (v.tile i).waitPll = none ∧
      holdsCluster v i n = false ∧ (v.tile i).next.any (fun g => g.1 = n) = false ∧ (v.tile i).fifo.length + 6 ≤ 4096) :
    Happens ([.tiles, .bg] ++ bothOf .evt ++ bothOf .tally) (inBlocks [8, 17]) v
      (fun t => ∃ post, (t.tile i).fifo = (v.tile i).fifo ++ (closing v i n).map plainSlot ++ post ∧
        (lastUnit v (v.tile i) n = true → post = [] ∧ (t.tile i).slice = none) ∧
        (lastUnit v (v.tile i) n = false → post.head? = some (plainSlot (unitHead v i (n + 1))) ∧ (t.tile i).slice = some (n + 1)) ∧
        Sparse.get (t.tile i).lost n Lost.zero = Lost.zero)
      (exec (.unitClose dt i moved) s) := by
  obtain ⟨ho, hfifo, hslice, hlost⟩ := unitClosed_closes i n v
  rw [exec_unitClose hv hs hgo, closeUnit_eq]
  cases hl : lastUnit v (v.tile i) n with
  | true =>
    rw [if_pos rfl]
    exact ⟨_, rfl, ⟨[], by rw [List.append_nil]; exact hfifo, fun _ => ⟨rfl, hslice⟩, fun h => (by cases h), hlost⟩,
      ho.mono (by decide) fun _ => feedRegs_inBlocks i.isLt⟩
  | false =>
    obtain ⟨hopen, ⟨post, hpost⟩, hnew, hkept⟩ := openUnit_head i (n + 1) moved (unitClosed i n v)
    rw [if_neg (by decide)]
    refine ⟨_, rfl, ⟨plainSlot (unitHead v i (n + 1)) :: post, ?_, fun h => (by cases h), fun _ => ⟨rfl, hnew⟩, by rw [hkept]; exact hlost⟩,
      (ho.mono (by decide) fun _ => feedRegs_inBlocks i.isLt).trans (hopen.mono (by decide) fun _ => eccRegs_inBlocks i.isLt)⟩
    rw [hpost, hfifo, unitHead_only ho fun h => ?_]
    have := feedRegs_inBlocks i.isLt h
    revert this
    unfold inBlocks
    decide

/-! An EPOCH word -/

/-- An EPOCH written, and noted by its tile. -/
def epochWritten (i : Nat) (e : Time) (v : State) : State :=
  writeControl i (epochWord e) (v.modTile i (fun k => { k with epoch := e }))

theorem epochWritten_only (i : Nat) (e : Time) (v : State) : Only fifoParts (feedRegs i) v (epochWritten i e v) ∧
    ∀ j, j ≠ i → (epochWritten i e v).tile j = v.tile j := by
  have hw := writeControl_fed (i := i) (epochWord e) (v.modTile i (fun k => { k with epoch := e }))
  refine ⟨(Only.modTile v i _ (by simp)).trans hw.only, fun j hj => ?_⟩
  rw [epochWritten, hw.others j hj, State.tile_modTile, if_neg hj]

theorem epochWritten_writes {e : Time} (hstate : (v.tile i).state ≠ .idle) : ((epochWritten i e v).tile i).epoch = e ∧
    ((v.tile i).frames = [] → ((epochWritten i e v).tile i).fifo = (v.tile i).fifo ++ [plainSlot (epochWord e)]) := by
  unfold epochWritten
  generalize hv : v.modTile i (fun k => { k with epoch := e }) = w
  have hk : w.tile i = { v.tile i with epoch := e } := by rw [← hv, State.tile_modTile, if_pos rfl]
  have hw := writeControl_fed (i := i) (epochWord e) w
  have hepoch : ((writeControl i (epochWord e) w).tile i).epoch = (w.tile i).epoch := (congrArg Tile.epoch hw.core :)
  refine ⟨by rw [hepoch, hk], fun hframes => ?_⟩
  have hno : (w.tile i).frames = [] := by rw [hk]; exact hframes
  obtain ⟨hf, hq⟩ := settleBusy_frames i w
  have hset := settleTile_of_no_frames hno
  rw [writeControl_fifo (by rw [hset, (Fed.settleBusy w).state, hk]; exact hstate) (by rw [hset, hf, hno]), hset, hq, hk]

/-- Whether a tile brought up to now writes no EPOCH (R5, R178, R179). -/
def skipsEpoch (i : Nat) (s : State) : Bool :=
  let k := s.tile i
  let e := lastEpoch s.now
  let has := reached e k.startAt && (s.frameTile i || (match k.stopAt with | some p => reached p e | none => true))
  let place := s.frameTile i || (match k.slice with | some n => unitEnd s k n = e | none => false)
  k.state = .idle || e = k.epoch || !has || !place || 4096 ≤ k.fifo.length || k.waitPll.isSome

theorem writeEpoch_eq (s : State) (i : Nat) : writeEpoch s i =
    if skipsEpoch i (settleTile i s) then settleTile i s else epochWritten i (lastEpoch (settleTile i s).now) (settleTile i s) := by
  unfold writeEpoch epochWritten skipsEpoch
  rfl

theorem writeEpoch_only (s : State) (i : Nat) : Only fifoParts (feedRegs i) s (writeEpoch s i) ∧
    ∀ j, j ≠ i → (writeEpoch s i).tile j = s.tile j := by
  have hf := Fed.settleTile (i := i) s
  obtain ⟨ho, hother⟩ := epochWritten_only i (lastEpoch (settleTile i s).now) (settleTile i s)
  rw [writeEpoch_eq]
  split
  · exact ⟨hf.only, hf.others⟩
  · exact ⟨hf.only.trans ho, fun j hj => (hother j hj).trans (hf.others j hj)⟩

/-- Whether a tile has an EPOCH of now to write, and stands where it writes it (R178, R179). -/
structure EpochHere (i : Nat) (v : State) : Prop where
  state : (v.tile i).state ≠ .idle
  start : reached (lastEpoch v.now) (v.tile i).startAt = true
  pll : (v.tile i).waitPll = none
  room : (v.tile i).fifo.length < 4096
  place : v.frameTile i = true ∨ ((v.tile i).stopAt.all (fun p => reached p (lastEpoch v.now)) = true ∧
    (v.tile i).slice.any (fun n => decide (unitEnd v (v.tile i) n = lastEpoch v.now)) = true)

theorem EpochHere.notSkips (h : EpochHere i v) (hne : lastEpoch v.now ≠ (v.tile i).epoch) : skipsEpoch i v = false := by
  obtain ⟨hstate, hstart, hpll, hroom, hplace⟩ := h
  have hplace' : (v.frameTile i || (match (v.tile i).stopAt with | some p => reached p (lastEpoch v.now) | none => true)) = true ∧
      (v.frameTile i || (match (v.tile i).slice with | some n => unitEnd v (v.tile i) n = lastEpoch v.now | none => false)) = true := by
    rcases hplace with hf | ⟨hstop, hslice⟩
    · simp [hf]
    · constructor
      · cases hs : (v.tile i).stopAt <;> simp_all
      · cases hs : (v.tile i).slice <;> simp_all
  unfold skipsEpoch
  simp only [hplace'.1, hplace'.2, hstart, hpll]
  simp [hstate, hne, hroom]

theorem writeEpoch_writes (h : EpochHere i (settleTile i s)) :
    ((writeEpoch s i).tile i).epoch = lastEpoch (settleTile i s).now ∧
    (((settleTile i s).tile i).frames = [] → lastEpoch (settleTile i s).now ≠ ((settleTile i s).tile i).epoch →
      ((writeEpoch s i).tile i).fifo = ((settleTile i s).tile i).fifo ++ [plainSlot (epochWord (lastEpoch (settleTile i s).now))]) := by
  rw [writeEpoch_eq]
  generalize settleTile i s = v at h ⊢
  by_cases he : lastEpoch v.now = (v.tile i).epoch
  · have hno : skipsEpoch i v = true := by simp [skipsEpoch, he]
    rw [hno, if_pos rfl]
    exact ⟨he.symm, fun _ hne => absurd he hne⟩
  · rw [h.notSkips he, if_neg (by decide)]
    obtain ⟨hepoch, hfifo⟩ := epochWritten_writes (e := lastEpoch v.now) h.state
    exact ⟨hepoch, fun hframes _ => hfifo hframes⟩

theorem unitEnd_congr {t : State} (h : t.sliceTicks = s.sliceTicks) (k : Tile) (n : Nat) : unitEnd t k n = unitEnd s k n := by
  unfold unitEnd sliceOf sliceStart
  rw [h]

/-- What a tile's EPOCH depends on: what there is to see of the tile, and the length of the slices. -/
theorem EpochHere.near {t : State} (h : EpochHere i v) (hn : Near i v t) (hs : t.sliceTicks = v.sliceTicks) : EpochHere i t where
  state := by rw [hn.field Tile.state]; exact h.state
  start := by rw [hn.field Tile.startAt, hn.now]; exact h.start
  pll := by rw [hn.field Tile.waitPll]; exact h.pll
  room := by rw [hn.field Tile.fifo]; exact h.room
  place := by
    have hend : ∀ n, unitEnd t (t.tile i) n = unitEnd v (v.tile i) n := fun n =>
      (unitEnd_congr hs _ n).trans (hn.field (fun k => unitEnd v k n))
    simp only [hn.frame, hn.field Tile.stopAt, hn.field Tile.slice, hn.now, hend]
    exact h.place

theorem sliceTicks_only {ps : List Part} {w : Nat → Prop} {t : State} (h : Only ps w s t) (hw : ¬ w Reg.TIL_SLICE) :
    t.sliceTicks = s.sliceTicks := by
  unfold State.sliceTicks
  rw [h.rf hw]

theorem writeEpochs_only (s : State) : Only fifoParts feedAllRegs s ((List.range 64).foldl writeEpoch s) :=
  List.foldlRecOn (motive := Only fifoParts feedAllRegs s) _ _ (Only.refl _ _ s) fun t ht j hj =>
    ht.trans ((writeEpoch_only t j).1.mono (fun _ => id) fun _ h => ⟨j, List.mem_range.1 hj, h⟩)

/-- The EPOCH words of all tiles: the words of the others are nothing to a tile. -/
theorem writeEpochs_writes (hi : i < 64) (hv : settleTile i u = v) (h : EpochHere i v) : let t := (List.range 64).foldl writeEpoch u
    (t.tile i).epoch = lastEpoch v.now ∧ ((v.tile i).frames = [] → lastEpoch v.now ≠ (v.tile i).epoch →
      (t.tile i).fifo = (v.tile i).fifo ++ [plainSlot (epochWord (lastEpoch v.now))]) := by
  intro t
  have hslice : ∀ j, j < 64 → ¬ feedRegs j Reg.TIL_SLICE := fun j hj hf => by
    have := feedRegs_inBlocks hj hf
    revert this
    unfold inBlocks
    decide
  obtain ⟨w, ⟨hw, hticks⟩, hafter, -⟩ := foldl_tiles (f := writeEpoch)
    (Q := fun s t => Near i s t ∧ t.sliceTicks = s.sliceTicks) hi (fun s => ⟨Near.refl i s, rfl⟩)
    (fun h k => ⟨h.1.trans k.1, k.2.trans h.2⟩)
    (fun s j hj hne => by
      obtain ⟨ho, hother⟩ := writeEpoch_only s j
      refine ⟨⟨ho.1 .clock (by decide), ?_, by rw [hother i hne.symm]⟩, sliceTicks_only ho (hslice j hj)⟩
      simp only [State.frameTile, State.rb, ho.rd (not_feedRegs_tilCtrl hi)]) u
  have hn : Near i v (settleTile i w) := hv ▸ hw.settleTile hi
  have hs : (settleTile i w).sliceTicks = v.sliceTicks := by
    rw [← hv, sliceTicks_only (Fed.settleTile w).only (hslice i hi), sliceTicks_only (Fed.settleTile u).only (hslice i hi), hticks]
  obtain ⟨hepoch, hfifo⟩ := writeEpoch_writes (h.near hn hs)
  rw [hn.now] at hepoch hfifo
  rw [hn.field Tile.frames, hn.field Tile.epoch, hn.field Tile.fifo] at hfifo
  exact ⟨(hafter.field Tile.epoch).trans hepoch, fun hf hne => (hafter.field Tile.fifo).trans (hfifo hf hne)⟩

/-! Summaries and clocks -/

/-- Tiles brought up to now. -/
theorem settleAll_only (s : State) : Only fifoParts feedAllRegs s ((List.range 64).foldl (fun k j => settleTile j k) s) :=
  List.foldlRecOn (motive := Only fifoParts feedAllRegs s) _ _ (Only.refl _ _ s) fun t ht j hj =>
    ht.trans ((Fed.settleTile t).only.mono (fun _ => id) fun _ h => ⟨j, List.mem_range.1 hj, h⟩)

/-- The counts of every tile begin anew (R193). -/
def countsCleared (s : State) : State :=
  (List.range 64).foldl (fun u j => u.modTile j (fun k => { k with counts := [0, 0, 0, 0], refused := 0 })) s

theorem countsCleared_only (s : State) : Only [.tiles] noReg s (countsCleared s) :=
  Only.foldl (fun t j => Only.modTile t j _ (by simp)) (Only.refl _ _ s)

theorem countsCleared_tile (hi : i < 64) (s : State) :
    ((countsCleared s).tile i).counts = [0, 0, 0, 0] ∧ ((countsCleared s).tile i).refused = 0 := by
  obtain ⟨w, -, hafter⟩ := foldl_tiles (f := fun (u : State) j => u.modTile j (fun k => { k with counts := [0, 0, 0, 0], refused := 0 }))
    (Q := fun s t => t.tile i = s.tile i) hi (fun _ => rfl) (fun h k => k.trans h)
    (fun s j _ hne => by rw [State.tile_modTile, if_neg hne.symm]) s
  rw [countsCleared, hafter, State.tile_modTile, if_pos rfl]
  exact ⟨rfl, rfl⟩

/-- The summaries of a tick leave together (R193). -/
def summariesSent (m : Time) (l : List Nat) (s : State) : State :=
  { s with squall := { s.squall with lastSummary := m } }.modTrg (fun g => { g with coming := g.coming ++ [(m, l)] })

theorem summariesSent_only (m : Time) (l : List Nat) (s : State) : Only [.squall, .trg] noReg s (summariesSent m l s) :=
  (Only.setSquall s _ (by simp)).trans (Only.setTrg _ _ (by simp))

theorem summariesSent_sends (m : Time) (l : List Nat) (s : State) : (summariesSent m l s).trg.coming = s.trg.coming ++ [(m, l)] ∧
    (summariesSent m l s).squall.lastSummary = m := ⟨rfl, rfl⟩

theorem exec_occupancySummary {w : State} (hw : (List.range 64).foldl (fun k j => settleTile j k) (s.elapse dt) = w)
    (hm : w.now - BitVec.ofNat 64 (w.now.toNat % 32) ≠ w.squall.lastSummary) (hr : w.trg.run = .running ∨ w.trg.run = .stopping) :
    exec (.occupancySummary dt) s =
      .next (summariesSent (w.now - BitVec.ofNat 64 (w.now.toNat % 32)) ((List.range 64).map (summaryOf w)) (countsCleared w)) := by
  have hgo : ¬ (w.now - BitVec.ofNat 64 (w.now.toNat % 32) = w.squall.lastSummary || (w.trg.run ≠ .running && w.trg.run ≠ .stopping)) = true := by
    rcases hr with hr | hr <;> simp [hm, hr]
  show execOccupancySummary dt s = _
  unfold execOccupancySummary
  rw [hw]
  exact if_neg hgo

theorem occupancySummary_sends (hu : s.elapse dt = u) {w : State} (hw : (List.range 64).foldl (fun k j => settleTile j k) u = w)
    (i : Fin 64) (hm : u.now - BitVec.ofNat 64 (u.now.toNat % 32) ≠ u.squall.lastSummary)
    (hr : u.trg.run = .running ∨ u.trg.run = .stopping) : let m := u.now - BitVec.ofNat 64 (u.now.toNat % 32)
    Happens ([.tiles, .squall, .trg] ++ bothOf .evt ++ bothOf .tally) (inBlocks [8, 17]) w
      (fun t => t.trg.coming = u.trg.coming ++ [(m, (List.range 64).map (summaryOf w))] ∧ t.squall.lastSummary = m ∧
        (t.tile i).counts = [0, 0, 0, 0] ∧ (t.tile i).refused = 0) (exec (.occupancySummary dt) s) := by
  intro m
  have hset : Only fifoParts feedAllRegs u w := hw ▸ settleAll_only u
  have hnow : w.now = u.now := hset.now (by decide)
  have htrg : w.trg = u.trg := hset.trg (by decide)
  have hsquall : w.squall = u.squall := hset.1 .squall (by decide)
  have ho := exec_occupancySummary (dt := dt) (s := s) (w := w) (hu ▸ hw) (by rw [hnow, hsquall]; exact hm) (by rw [htrg]; exact hr)
  rw [hnow] at ho
  have hclear := countsCleared_only w
  have hsent := summariesSent_only m ((List.range 64).map (summaryOf w)) (countsCleared w)
  obtain ⟨hcoming, hlast⟩ := summariesSent_sends m ((List.range 64).map (summaryOf w)) (countsCleared w)
  refine ⟨_, ho, ⟨?_, hlast, ?_⟩, (hclear.mono (by decide) fun _ => False.elim).trans (hsent.mono (by decide) fun _ => False.elim)⟩
  · rw [hcoming, hclear.trg (by simp), htrg]
  · rw [hsent.tile (by simp)]
    exact countsCleared_tile i.isLt w

theorem tileClockGate_gates (hu : s.elapse dt = u) (i : Fin 64) (hv : settleTile i u = v) (hmode : u.power.mode = .active)
    (hoff : u.rb (Reg.TIL_CTRL i) 2 = false) (hfifo : (v.tile i).fifo = []) (hnext : (v.tile i).next = []) (hframes : (v.tile i).frames = [])
    (hact : (v.tile i).lastAct + 3000 ≤ u.clock.ticks) (hslice : lastBoundary u + 3000 ≤ u.clock.ticks) :
    exec (.tileClockGate dt i) s = .next (v.modTile i (fun k => { k with gatedAt := some u.clock.ticks })) := by
  have hf : Fed i u v := hv ▸ Fed.settleTile u
  have hclock : v.clock = u.clock := hf.clock
  have hpower : v.power = u.power := hf.only.1 .power (by decide)
  have hctrl : v.rb (Reg.TIL_CTRL i) 2 = false := by
    rw [State.rb, hf.only.rd (not_feedRegs_tilCtrl i.isLt)]
    exact hoff
  have hbound : lastBoundary v = lastBoundary u := by
    have hticks : v.sliceTicks = u.sliceTicks := sliceTicks_only hf.only fun h => by
      have := feedRegs_inBlocks i.isLt h
      revert this
      unfold inBlocks
      decide
    unfold lastBoundary
    rw [hclock, hticks, hf.now]
  have hgo : ¬ (v.power.mode ≠ .active || v.rb (Reg.TIL_CTRL i) 2 || (v.tile i).fifo ≠ [] || (v.tile i).next ≠ [] || (v.tile i).frames ≠ []
      || v.clock.ticks < (v.tile i).lastAct + 3000 || v.clock.ticks < lastBoundary v + 3000) = true := by
    rw [hpower, hmode, hctrl, hfifo, hnext, hframes, hclock, hbound]
    simp [hact, hslice]
  subst hu
  rw [← hclock]
  show execTileClockGate dt i s = _
  unfold execTileClockGate
  rw [hv]
  exact if_neg hgo

end

end Sys2Proof.Machine
end

section
/-!
### The PLL of a tile (R192, R531)
-/

namespace Sys2Proof.Machine

section
variable {i : Nat} {s u : State}

/-- A tile whose PLL has lost lock, after BUSY has been looked at. -/
theorem withBusy_unlocked {f : Tile → Tile} (hf : ∀ k, (f k).pllBusy = some none) (s : State) : ((withBusy i f s).tile i).unlocked = true := by
  unfold withBusy
  extract_lets s0 was s1 is
  have h1 : (s1.tile i).pllBusy = some none := by rw [State.tile_modTile, if_pos rfl, hf]
  have hmod : ∀ g : Tile → Tile, (∀ k, (g k).pllBusy = k.pllBusy) → ((s1.modTile i g).tile i).pllBusy = some none := fun g hg => by
    rw [State.tile_modTile, if_pos rfl, hg, h1]
  refine decide_eq_true ?_
  split
  · rw [(raiseTile_only i 0 _ _ _).tile_eq]
    exact hmod _ fun _ => rfl
  · split
    · exact hmod _ fun _ => rfl
    · exact h1

/-- A tile's PLL has lost lock: BUSY rises, and the loss is counted and reported (R531). -/
def lockLost (i : Nat) (u : State) : State :=
  let s1 := withBusy i (fun k => { k with pllBusy := some none }) u
  let s2 := { s1 with power := { s1.power with tileLock := s1.power.tileLock.filter (· ≠ i) } }
  raiseBase 516 sevFault i (s2.bump Reg.PWR_CLK_LOSS 15 0 1)

/-- The registers of a loss of lock. -/
def lockRegs (i a : Nat) : Prop := eccRegs i a ∨ a = Reg.PWR_CLK_LOSS

theorem lockRegs_inBlocks {a : Nat} (hi : i < 64) (h : lockRegs i a) : inBlocks [1, 8, 17] a := by
  rcases h with h | rfl
  · have := eccRegs_inBlocks hi h
    simp only [inBlocks, List.mem_cons, List.not_mem_nil, or_false] at this ⊢
    tauto
  · unfold inBlocks; decide

theorem not_eccRegs_base {a : Nat} (hi : i < 64) (h8 : addrBlock a ≠ 8) (h17 : addrBlock a ≠ 17) : ¬ eccRegs i a := fun h => by
  have := eccRegs_inBlocks hi h
  simp only [inBlocks, List.mem_cons, List.not_mem_nil, or_false] at this
  omega

theorem lockLost_loses (hi : i < 64) (u : State) : let t := lockLost i u
    Only (.power :: fifoParts) (lockRegs i) u t ∧ (t.tile i).unlocked = true ∧ (t.tile i).faults = (u.tile i).faults ∧
    i ∉ t.power.tileLock ∧ RaisedBase 516 u t ∧ t.rf Reg.PWR_CLK_LOSS 15 0 = min (u.rf Reg.PWR_CLK_LOSS 15 0 + 1) 65535 := by
  unfold lockLost
  extract_lets s1 p s2 t
  have h1 : Fed i u s1 := Fed.withBusy _ u (hu := fun _ _ => rfl)
  have hs2 : Only [.power] noReg s1 s2 := Only.setPower s1 _ (by simp)
  have hb : Only [] (fun a => a = Reg.PWR_CLK_LOSS) s2 (s2.bump Reg.PWR_CLK_LOSS 15 0 1) := Only.bump s2 _ _ _ _ rfl
  have hr := raiseBase_only 516 sevFault i (s2.bump Reg.PWR_CLK_LOSS 15 0 1)
  have htile : t.tile i = s1.tile i := (hr.tile_eq i).trans ((hb.tile (by simp) i).trans (hs2.tile (by simp) i))
  have hpower : t.power = s2.power := (hr.1 .power (by decide)).trans (hb.1 .power (by simp))
  have hlive : ∀ x, (s2.bump Reg.PWR_CLK_LOSS 15 0 1).live x = u.live x := fun x => by
    have hp : s1.power = u.power := h1.only.1 .power (by decide)
    have ha : s1.arb = u.arb := h1.only.1 .arb (by decide)
    show (s1.power.booted && _) = (u.power.booted && _)
    rw [hp]
    show (_ && (s1.arb.svc.get x = .inService || s1.arb.svc.get x = .resync : Bool)) = _
    rw [ha]
  refine ⟨?_, ?_, ?_, ?_, ?_, ?_⟩
  · exact (((h1.only.mono (by simp) fun _ h => .inl (.inl h)).trans (hs2.mono (by simp) fun _ => False.elim)).trans
      (hb.mono (by simp) fun _ h => .inr h)).trans (hr.mono (by simp) fun _ h => .inl (.inl (.inl h)))
  · rw [htile]
    exact withBusy_unlocked (fun _ => rfl) u
  · rw [htile]
    exact (congrArg Tile.faults h1.core :)
  · rw [hpower]
    simp [s2]
  · refine (raiseBase_raisedBase 516 sevFault i (s2.bump Reg.PWR_CLK_LOSS 15 0 1)).from hlive (fun x => ?_) ?_
    · rw [hb.srcRec x (by simp), hs2.srcRec x (by simp)]
      exact h1.recs hi x 516 (by omega)
    · rw [hb.now (by simp), hs2.now (by simp), h1.now]
  · rw [hr.rf (not_raiseRegs (by decide)), State.rf_bump_self _ _ _ (by decide) (by decide), hs2.rf id, h1.only.rf]
    · rfl
    · intro h
      exact not_eccRegs_base hi (by decide) (by decide) (.inl h)

theorem exec_tilePllLockLost {dt : Nat} {i : Fin 64} (hu : s.elapse dt = u) (hon : u.power.mode = .active ∨ u.power.on.contains i.val = true)
    (hk : (u.tile i).unlocked = false) : exec (.tilePllLockLost dt i) s = .next
      (if u.tileRetired i then lockLost i u
      else if (u.tile i).faults.third u.now then retireTile i (lockLost i u)
      else (lockLost i u).modTile i (fun k => { k with faults := k.faults.push u.now })) := by
  have hgo : ¬ ((u.power.mode ≠ .active && !u.power.on.contains i.val) || (u.tile i).unlocked) = true := by
    rcases hon with hon | hon <;> rw [hon, hk] <;> simp
  subst hu
  show execTilePllLockLost dt i s = _
  unfold execTilePllLockLost
  refine (if_neg hgo).trans ?_
  unfold lockLost
  split
  · rfl
  · split <;> rfl

theorem tilePllLockLost_loses {dt : Nat} {i : Fin 64} (hu : s.elapse dt = u)
    (hon : u.power.mode = .active ∨ u.power.on.contains i.val = true) (hk : (u.tile i).unlocked = false) :
    Happens ([.tiles, .power, .bg] ++ bothOf .evt ++ bothOf .tally) (inBlocks [1, 8, 17]) u
      (fun t => (t.tile i).unlocked = true ∧ i.val ∉ t.power.tileLock ∧ RaisedBase 516 u t ∧
        t.rf Reg.PWR_CLK_LOSS 15 0 = min (u.rf Reg.PWR_CLK_LOSS 15 0 + 1) 65535 ∧
        (u.tileRetired i = false → (u.tile i).faults.third u.now = false → (t.tile i).faults = (u.tile i).faults.push u.now) ∧
        (u.tileRetired i = false → (u.tile i).faults.third u.now = true → t.tileRetired i = true))
      (exec (.tilePllLockLost dt i) s) := by
  obtain ⟨ho, hunlocked, hfaults, hlock, hraised, hcount⟩ := lockLost_loses i.isLt u
  have hafter : ∀ t, Worked (eccRegs i) i (lockLost i u) t →
      Only ([.tiles, .power, .bg] ++ bothOf .evt ++ bothOf .tally) (inBlocks [1, 8, 17]) u t ∧ (t.tile i).unlocked = true ∧
      i.val ∉ t.power.tileLock ∧ RaisedBase 516 u t ∧ t.rf Reg.PWR_CLK_LOSS 15 0 = min (u.rf Reg.PWR_CLK_LOSS 15 0 + 1) 65535 := fun t ht =>
    ⟨(ho.mono (by decide) fun _ => lockRegs_inBlocks i.isLt).trans
      (ht.only.mono (by decide) fun _ h => lockRegs_inBlocks i.isLt (.inl h)), ht.unlocked hunlocked,
      by rw [show t.power = _ from ht.only.1 .power (by decide)]; exact hlock,
      hraised.to fun x => ht.recs i.isLt x 516 (by omega) (by omega),
      (ht.only.rf (not_eccRegs_base i.isLt (by decide) (by decide)) 15 0).trans hcount⟩
  rw [exec_tilePllLockLost hu hon hk]
  cases hretired : u.tileRetired i with
  | true =>
    obtain ⟨h1, h2, h3, h4, h5⟩ := hafter _ (Worked.refl _ i _)
    exact ⟨_, rfl, ⟨h2, h3, h4, h5, fun h => (by cases h), fun h => (by cases h)⟩, h1⟩
  | false =>
    cases hthird : (u.tile i).faults.third u.now with
    | true =>
      obtain ⟨hw, hlisted⟩ := Worked.retireTile (w := eccRegs i) (i := i) (fun _ => .inl) (lockLost i u)
      obtain ⟨h1, h2, h3, h4, h5⟩ := hafter _ hw
      exact ⟨_, rfl, ⟨h2, h3, h4, h5, fun _ h => (by cases h), fun _ _ => hlisted⟩, h1⟩
    | false =>
      obtain ⟨h1, h2, h3, h4, h5⟩ := hafter _ (Worked.modTile (lockLost i u) (fun k => { k with faults := k.faults.push u.now })
        (hu := fun h _ => h))
      refine ⟨_, rfl, ⟨h2, h3, h4, h5, fun _ _ => ?_, fun _ h => (by cases h)⟩, h1⟩
      rw [if_neg (by decide), if_neg (by decide), State.tile_modTile, if_pos rfl, hfaults]

/-- A tile whose PLL has locked again: BUSY drops later, and what waited for the PLL goes on (R192, R531). -/
def Tile.relocked (u : State) (k : Tile) : Tile := { k with
  pllBusy := some (some (u.clock.ticks + 3000))
  frames := if k.waitPll.isSome then k.frames.map (fun f => { f with at_ := if reached u.now f.at_ then u.now else f.at_ }) else k.frames
  waitPll := none }

theorem exec_tilePllRelock {dt : Nat} {i : Fin 64} (hu : s.elapse dt = u) (hk : (u.tile i).unlocked = true) :
    let v := u.modTile i (Tile.relocked u)
    exec (.tilePllRelock dt i) s = .next { v with power := { v.power with tileLock := insertNat i.val v.power.tileLock } } := by
  have hgo : ¬ (!(u.tile i).unlocked) = true := by rw [hk]; decide
  subst hu
  exact (if_neg hgo : execTilePllRelock dt i s = _)

theorem tilePllRelock_relocks {dt : Nat} {i : Fin 64} (hu : s.elapse dt = u) (hk : (u.tile i).unlocked = true) :
    Happens [.tiles, .power] noReg u
      (fun t => (t.tile i).pllBusy = some (some (u.clock.ticks + 3000)) ∧ (t.tile i).waitPll = none ∧ i.val ∈ t.power.tileLock ∧
        (t.tile i).fifo = (u.tile i).fifo ∧ (t.tile i).next = (u.tile i).next ∧ (t.tile i).state = (u.tile i).state)
      (exec (.tilePllRelock dt i) s) := by
  let v := u.modTile i (Tile.relocked u)
  have hset : Only [.power] noReg v { v with power := { v.power with tileLock := insertNat i.val v.power.tileLock } } :=
    Only.setPower v _ (by simp)
  have htile : v.tile i = (u.tile i).relocked u := (State.tile_modTile ..).trans (if_pos rfl)
  refine ⟨_, exec_tilePllRelock hu hk, ?_, (Only.modTile u i.val _ (by simp)).trans (hset.mono (by simp) fun _ => id)⟩
  have hfifo : (v.tile i).fifo = (u.tile i).fifo := by rw [htile, Tile.relocked]
  have hnext : (v.tile i).next = (u.tile i).next := by rw [htile, Tile.relocked]
  have hstate : (v.tile i).state = (u.tile i).state := by rw [htile, Tile.relocked]
  exact ⟨congrArg Tile.pllBusy htile, congrArg Tile.waitPll htile, mem_insertNat_self i.val _, hfifo, hnext, hstate⟩

end

end Sys2Proof.Machine
end

section
/-!
### A retired tile whose PLL stays away (R192)
-/

namespace Sys2Proof.Machine

/-- The parts of the sides that their intakes, stores and compressors change. -/
abbrev restParts : List Part := .trg :: bothOf .dsp ++ bothOf .lnk ++ bothOf .cmp ++ bothOf .bst ++ raising

/-- The sides go on by themselves. -/
abbrev SidesGo (s t : State) : Prop := Only restParts onSides s t

section
variable {x : Side} {s t u : State}

theorem Aside.sidesGo (h : Aside x s t) : SidesGo s t :=
  h.only.mono (by cases x <;> decide) fun a ha => by
    rcases ha with h | rfl | rfl | rfl | rfl | h
    · exact raiseRegs_side h
    · exact onSides_add x _
    · exact onSides_add x _
    · exact onSides_add x _
    · exact onSides_add x _
    · unfold onSides; cases x <;> simp only [sideBase] at h <;> omega

theorem modDsp_sidesGo (x : Side) (f : Dsp → Dsp) (s : State) : SidesGo s (s.modDsp x f) := Only.modDsp s x f (by cases x <;> decide)

theorem bump_sidesGo (x : Side) (o hi lo n : Nat) (s : State) : SidesGo s (s.bump (sideBase x + o) hi lo n) :=
  Only.bump s _ _ _ _ (onSides_add x o)

theorem removeUnit_sidesGo (x : Side) (v : UnitIn) (s : State) : SidesGo s (removeUnit x v s) := by
  unfold removeUnit
  extract_lets s1
  have h1 : SidesGo s s1 := modDsp_sidesGo x _ s
  split
  · exact h1.trans (Aside.freeItem x _ s1).sidesGo
  · exact h1

theorem decideUnit_sidesGo (x : Side) (v : UnitIn) (s : State) : SidesGo s (decideUnit x v s) := by
  unfold decideUnit
  extract_lets claimed s1
  have h1 : SidesGo s s1 := Only.ite (Only.refl _ _ s) (bump_sidesGo x _ _ _ _ s)
  refine Only.ite ((h1.trans (modDsp_sidesGo x _ s1)).trans (Aside.enqueueItem x _ _).sidesGo) ?_
  exact (((bump_sidesGo x _ _ _ _ s).trans (modDsp_sidesGo x _ _)).trans (removeUnit_sidesGo x v _)).trans (Aside.scanReady x _).sidesGo

theorem holdUnits_sidesGo (x : Side) (l : List UnitIn) (s : State) : SidesGo s (holdUnits x l s) := by
  induction l generalizing s with
  | nil => exact Only.refl _ _ s
  | cons v r ih =>
    rw [holdUnits]
    split
    · next q hq => exact ((Aside.storeWords hq).sidesGo.trans (modDsp_sidesGo x _ q.1)).trans (ih _)
    · exact (Aside.ringFull x _ _ s).sidesGo

/-- The substitutes of what a side has not received of a tile are units of that side. -/
theorem substituteRest_sidesGo (i : Nat) (x : Side) (s : State) : SidesGo s (substituteRest i x s) := by
  unfold substituteRest
  split
  · exact Only.refl _ _ s
  · extract_lets l lost s1 s2
    have h1 : SidesGo s s1 := modDsp_sidesGo x _ s
    have h2 : SidesGo s1 s2 := by
      refine Only.foldl (fun t v => ?_) (Only.refl _ _ s1)
      extract_lets k1
      have hk : SidesGo t k1 := modDsp_sidesGo x _ t
      refine Only.ite (hk.trans (modDsp_sidesGo x _ k1)) (Only.ite ((hk.trans (bump_sidesGo x _ _ _ _ k1)).trans (modDsp_sidesGo x _ _)) ?_)
      exact (hk.trans (modDsp_sidesGo x _ k1)).trans (Only.tally _ x _ _ (by cases x <;> decide))
    refine Only.foldl (fun t v => ?_) ((h1.trans h2).trans (holdUnits_sidesGo x _ s2))
    split
    · exact Only.ite (decideUnit_sidesGo x _ t) (Only.refl _ _ t)
    · exact Only.refl _ _ t

theorem not_onSides_tilCtrl {i : Nat} (hi : i < 64) : ¬ onSides (Reg.TIL_CTRL i) := by
  unfold onSides Reg.TIL_CTRL tileBase
  omega

/-! The tile emptied -/

/-- A tile given up: nothing of its run is left. -/
def Tile.emptied (n : Nat) (k : Tile) : Tile := { k with
  state := .idle
  fifo := []
  next := []
  slice := none
  frames := []
  after := []
  sending := false
  waitPll := none
  lastAct := if k.fifo = [] && k.next = [] then k.lastAct else n }

/-- The frames wait for that tile no more. -/
def Frames.without (i : Nat) (f : Frames) : Frames := { f with
  hold := ⟨f.hold.a.bind (Sampled.without i), f.hold.b.bind (Sampled.without i)⟩ }

theorem exec_tilePllRelockTimeout {dt : Nat} {i : Fin 64} {r : Nat} (hu : s.elapse dt = u) (hr : (u.tile i).waitPll = some r)
    (hd : r + 30000000 ≤ u.clock.ticks) (hk : (u.tile i).unlocked = true) : exec (.tilePllRelockTimeout dt i) s = .next
      ((levelCheck i (((u.both (substituteRest i)).modTile i (Tile.emptied u.clock.ticks)).modFrames (Frames.without i))).both
        (fun x k => if k.serving x then scanReady x k else k)) := by
  have hgo : ¬ (u.clock.ticks < r + 30000000 || !(u.tile i).unlocked) = true := by
    rw [hk]
    simp [hd]
  subst hu
  show execTilePllRelockTimeout dt i s = _
  unfold execTilePllRelockTimeout
  simp only [hr]
  exact if_neg hgo

theorem without_sampled {i : Nat} {f : Frames} {q : Sampled} (h : q ∈ (f.without i).sampled) : i ∉ q.left := by
  rcases mem_sampled h with h | h
  · obtain ⟨p, -, hp⟩ := Option.bind_eq_some_iff.1 h
    exact without_left hp
  · obtain ⟨p, -, hp⟩ := Option.bind_eq_some_iff.1 h
    exact without_left hp

/-- BUSY by level drops once the FIFO is empty (R184). -/
theorem levelCheck_empty {i : Nat} (hfifo : (s.tile i).fifo = []) (hf : s.frameTile i = false) : ((levelCheck i s).tile i).full = false := by
  unfold levelCheck
  extract_lets k n
  have hn : n = 0 := by simp only [n, k, hfifo, List.length_nil]
  rw [if_neg (by rw [hf]; decide), if_neg (by rw [hn]; simp)]
  cases hfull : k.full with
  | true =>
    obtain ⟨b, c, ht⟩ := withBusy_tile i false s
    rw [if_pos (by rw [hn]; decide), ht]
  | false =>
    rw [if_neg (by simp)]
    exact hfull

theorem tilePllRelockTimeout_empties {dt : Nat} {i : Fin 64} {r : Nat} (hu : s.elapse dt = u) (hr : (u.tile i).waitPll = some r)
    (hd : r + 30000000 ≤ u.clock.ticks) (hk : (u.tile i).unlocked = true) :
    Next (fun t => (t.tile i).state = .idle ∧ (t.tile i).fifo = [] ∧ (t.tile i).next = [] ∧ (t.tile i).slice = none ∧
      (t.tile i).frames = [] ∧ (t.tile i).waitPll = none ∧
      (u.frameTile i = false → (t.tile i).full = false) ∧ ((u.tile i).fifo ≠ [] → (t.tile i).lastAct = u.clock.ticks) ∧
        ∀ q ∈ t.frames.sampled, i.val ∉ q.left) (exec (.tilePllRelockTimeout dt i) s) := by
  have h1 : SidesGo u (u.both (substituteRest i)) := Only.both (fun x t => substituteRest_sidesGo i x t) (Only.refl _ _ u)
  rw [exec_tilePllRelockTimeout hu hr hd hk]
  generalize u.both (substituteRest i) = v at h1
  generalize hwd : (v.modTile i (Tile.emptied u.clock.ticks)).modFrames (Frames.without i) = w
  have hw : w.tile i = (u.tile i).emptied u.clock.ticks := by
    rw [← hwd, ← h1.tile (by decide)]
    exact (State.tile_modTile ..).trans (if_pos rfl)
  have hheld : w.frames = v.frames.without i := hwd ▸ rfl
  have hframe : w.frameTile i = u.frameTile i := by
    have hc : w.rd (Reg.TIL_CTRL i) = v.rd (Reg.TIL_CTRL i) := hwd ▸ rfl
    simp only [State.frameTile, State.rb, hc, h1.rd (not_onSides_tilCtrl i.isLt)]
  have hscan : Only (bothOf .cmp) noReg (levelCheck i w) ((levelCheck i w).both (fun x k => if k.serving x then scanReady x k else k)) :=
    Only.both (fun x t => Only.ite ((scanReady_only x t).mono (by cases x <;> decide) fun _ => id) (Only.refl _ _ t)) (Only.refl _ _ _)
  refine ⟨_, rfl, ?_⟩
  generalize (levelCheck i w).both (fun x k => if k.serving x then scanReady x k else k) = t at hscan
  have htile : t.tile i = (levelCheck i w).tile i := hscan.tile (by decide) i
  have hframes : t.frames = v.frames.without i :=
    (hscan.1 .frames (by decide)).trans (((Fed.levelCheck (i := i.val) w).only.1 .frames (by decide)).trans hheld)
  obtain ⟨a, b, c, ht⟩ := levelCheck_tile i w
  rw [hw] at ht
  have hk : t.tile i = _ := htile.trans ht
  refine ⟨by rw [hk]; rfl, by rw [hk]; rfl, by rw [hk]; rfl, by rw [hk]; rfl, by rw [hk]; rfl, by rw [hk]; rfl, fun hf => ?_, fun hne => ?_,
    fun q hq => without_sampled (hframes ▸ hq)⟩
  · rw [htile]
    exact levelCheck_empty (by rw [hw]; rfl) (hframe.trans hf)
  · rw [hk]
    exact if_neg (by simp [hne])

end

end Sys2Proof.Machine
end

section
/-!
### A word over a tile's link (R183, R190, R191)
-/

namespace Sys2Proof.Machine

/-- The parts that a word over the link changes. -/
abbrev linkParts : List Part := workParts ++ bothOf .dsp

/-- The registers that it writes. -/
def sentRegs (i a : Nat) : Prop := eccRegs i a ∨ a = Reg.TIL_WORDS i

/-- The link and the tile's faults leave the lower fields of TIL_ECC as they are. -/
structure EccKept (i : Nat) (s t : State) : Prop where
  only : Only linkParts (sentRegs i) s t
  ecc : ∀ hi lo, hi < 24 → t.rf (Reg.TIL_ECC i) hi lo = s.rf (Reg.TIL_ECC i) hi lo

/-- They leave the words of the FIFO and the count of words as well. -/
structure LinkKept (i : Nat) (s t : State) : Prop extends EccKept i s t where
  grows : (s.tile i).fifo <+: (t.tile i).fifo
  words : t.rd (Reg.TIL_WORDS i) = s.rd (Reg.TIL_WORDS i)

section
variable {i : Nat} {s t u : State}

theorem sentRegs_inBlocks {a : Nat} (hi : i < 64) (h : sentRegs i a) : inBlocks [8, 17] a := by
  rcases h with h | rfl
  · exact eccRegs_inBlocks hi h
  · rw [inBlocks, Reg.TIL_WORDS, addrBlock_tile hi (by omega)]; decide

theorem not_feedRegs_ecc (hi : i < 64) : ¬ feedRegs i (Reg.TIL_ECC i) := by
  rintro (h | h)
  · exact not_raiseRegs_tile hi (by omega) h
  · simp only [Reg.TIL_ECC, Reg.TIL_FIFO, Reg.FRM_FRAMES, Reg.FRM_SUPP, Reg.DEC_STATUS, List.mem_cons, List.not_mem_nil, or_false] at h
    omega

theorem not_eccRegs_words (hi : i < 64) : ¬ eccRegs i (Reg.TIL_WORDS i) := by
  rintro ((h | h) | h)
  · exact not_raiseRegs_tile hi (by omega) h
  · simp only [Reg.TIL_WORDS, Reg.TIL_FIFO, Reg.FRM_FRAMES, Reg.FRM_SUPP, Reg.DEC_STATUS, List.mem_cons, List.not_mem_nil, or_false] at h
    omega
  · simp only [Reg.TIL_WORDS, Reg.TIL_ECC] at h
    omega

theorem not_entryRegs_tile (hi : i < 64) {o : Nat} (ho : o < 0x10000) : ¬ entryRegs (tileBase i + o) := by
  rw [entryRegs, inBlocks, addrBlock_tile hi ho]
  decide

/-- A word received is the receiving side's. -/
theorem receiveWord_only (x : Side) (i : Nat) (w : Word72) (within : Bool) (s : State) :
    Only [.dsp x, .tally x] noReg s (receiveWord x i w within s) := by
  have hd : Part.dsp x ∈ [.dsp x, .tally x] := by simp
  have ht : Part.tally x ∈ [.dsp x, .tally x] := by simp
  unfold receiveWord
  extract_lets s1 s2
  have h1 : Only [.dsp x, .tally x] noReg s s1 := Only.tally s x _ _ ht
  have h2 : Only [.dsp x, .tally x] noReg s1 s2 := Only.ite (Only.tally s1 x _ _ ht) (Only.ite (Only.tally s1 x _ _ ht) (Only.refl _ _ s1))
  exact Only.ite (h1.trans (Only.modDsp s1 x _ hd)) ((h1.trans h2).trans (Only.modDsp s2 x _ hd))

namespace EccKept

theorem refl (i : Nat) (s : State) : EccKept i s s := ⟨Only.refl _ _ s, fun _ _ _ => rfl⟩

theorem trans (h : EccKept i s t) (k : EccKept i t u) : EccKept i s u :=
  ⟨h.only.trans k.only, fun hi lo hh => (k.ecc hi lo hh).trans (h.ecc hi lo hh)⟩

/-- What does not write TIL_ECC. -/
theorem of_only {w : Nat → Prop} (h : Only linkParts w s t) (k : ∀ a, w a → sentRegs i a) (hn : ¬ w (Reg.TIL_ECC i)) : EccKept i s t :=
  ⟨h.mono (fun _ => id) k, fun hi lo _ => h.rf hn hi lo⟩

end EccKept

namespace LinkKept

theorem refl (i : Nat) (s : State) : LinkKept i s s := ⟨EccKept.refl i s, List.prefix_rfl, rfl⟩

theorem trans (h : LinkKept i s t) (k : LinkKept i t u) : LinkKept i s u :=
  ⟨h.toEccKept.trans k.toEccKept, h.grows.trans k.grows, k.words.trans h.words⟩

/-- What the tile does without an error of its FIFO. -/
theorem of_worked (hi : i < 64) (h : Worked (feedRegs i) i s t) : LinkKept i s t :=
  ⟨EccKept.of_only (h.only.mono (by decide) fun _ => id) (fun _ k => .inl (.inl k)) (not_feedRegs_ecc hi), h.grows,
    h.only.rd fun k => not_eccRegs_words hi (.inl k)⟩

/-- What changes no register and leaves the FIFO. -/
theorem of_only {ps : List Part} (h : Only ps noReg s t) (hp : ps ⊆ linkParts) (hf : (t.tile i).fifo = (s.tile i).fifo) : LinkKept i s t :=
  ⟨EccKept.of_only (h.mono hp fun _ => id) (fun _ => False.elim) id, by rw [hf], h.rd id⟩

theorem receiveWord (x : Side) (w : Word72) (within : Bool) (s : State) : LinkKept i s (receiveWord x i w within s) :=
  of_only (receiveWord_only x i w within s) (by cases x <;> decide) (by rw [(receiveWord_only x i w within s).tile (by simp)])

theorem linkWord (hi : i < 64) (x : Side) (w : Word72) (within : Bool) (found : Upset) (s : State) :
    LinkKept i s (linkWord x i w within found s) := by
  unfold Machine.linkWord
  split
  · have hb : LinkKept i s (s.bump (Reg.TIL_ECC i) 31 24 1) := by
      have ho : Only linkParts (fun a => a = Reg.TIL_ECC i) s (s.bump (Reg.TIL_ECC i) 31 24 1) := Only.bump s _ _ _ _ rfl
      exact ⟨⟨ho.mono (fun _ => id) fun _ k => .inl (.inr k), fun hi lo hh => State.rf_bump_ne s _ _ (by decide) (by decide) (.inl hh)⟩,
        by rw [(Only.bump (ps := []) (w := fun a => a = Reg.TIL_ECC i) s _ _ _ _ rfl).tile (by simp)],
        ho.rd fun k => not_eccRegs_words hi (.inr k)⟩
    have ht : Only [.tally x] noReg (s.bump (Reg.TIL_ECC i) 31 24 1) ((s.bump (Reg.TIL_ECC i) 31 24 1).tally x .linkSubst 1) :=
      Only.tally _ x _ _ (by simp)
    exact ((hb.trans (of_only ht (by cases x <;> decide) (by rw [ht.tile (by simp)]))).trans (receiveWord x _ within _)).trans
      (of_worked hi (Worked.tileFault (fun _ => id) _))
  · exact receiveWord x w within s

end LinkKept

/-- A word that leaves, in its tile's account and in the count of words (R190). -/
def wordCounted (i : Nat) (w : Word72) (s : State) : State :=
  (s.modTile i (fun k => k.sent (s.frameTile i) w)).count (Reg.TIL_WORDS i) 31 0 1

theorem wordCounted_only (i : Nat) (w : Word72) (s : State) : Only [.tiles] (fun a => a = Reg.TIL_WORDS i) s (wordCounted i w s) :=
  (Only.modTile s i _ (by simp)).trans (Only.count _ _ _ _ _ rfl)

theorem wordCounted_words (i : Nat) (w : Word72) (s : State) :
    (wordCounted i w s).rd (Reg.TIL_WORDS i) = s.rd (Reg.TIL_WORDS i) + 1 := by
  have hmod : Only [.tiles] noReg s (s.modTile i (fun k => k.sent (s.frameTile i) w)) := Only.modTile s i _ (by simp)
  exact (State.rd_count_word _ _).trans (by rw [hmod.rd id])

theorem Tile.sent_keeps (k : Tile) (frame : Bool) (w : Word72) : (k.sent frame w).fifo = k.fifo ∧ (k.sent frame w).state = k.state := by
  unfold Tile.sent
  split
  · exact ⟨rfl, rfl⟩
  · split
    · exact ⟨rfl, rfl⟩
    · split <;> exact ⟨rfl, rfl⟩

theorem wordCounted_tile (i : Nat) (w : Word72) (s : State) :
    ((wordCounted i w s).tile i).fifo = (s.tile i).fifo ∧ ((wordCounted i w s).tile i).state = (s.tile i).state := by
  have ht : (wordCounted i w s).tile i = (s.tile i).sent (s.frameTile i) w :=
    ((Only.count (ps := []) _ _ _ _ _ rfl : Only [] (fun a => a = Reg.TIL_WORDS i) _ (wordCounted i w s)).tile (by simp) i).trans
      ((State.tile_modTile ..).trans (if_pos rfl))
  rw [ht]
  exact Tile.sent_keeps _ _ w

/-- A word that leaves is counted, and nothing but that and the tile's account of it. -/
theorem sendWord_sends (hi : i < 64) (w : Word72) (linkA linkB : Upset) (s : State) : let t := sendWord i w linkA linkB s
    EccKept i s t ∧ (s.tile i).fifo <+: (t.tile i).fifo ∧ t.rd (Reg.TIL_WORDS i) = s.rd (Reg.TIL_WORDS i) + 1 := by
  have h1 : EccKept i s (wordCounted i w s) := EccKept.of_only ((wordCounted_only i w s).mono (by decide) fun _ => id) (fun _ => .inr)
    (by simp only [Reg.TIL_WORDS, Reg.TIL_ECC]; omega)
  have hfifo := (wordCounted_tile i w s).1
  have hwords := wordCounted_words i w s
  unfold sendWord
  extract_lets s1 within back gets s2 t
  have hlink : ∀ x found v, LinkKept i v (if gets x then linkWord x i w within found v else v) := fun x found v => by
    split
    · exact LinkKept.linkWord hi x w within found v
    · exact LinkKept.refl i v
  have h2 : LinkKept i s1 t := (hlink .a linkA s1).trans (hlink .b linkB s2)
  exact ⟨h1.trans h2.toEccKept, hfifo ▸ h2.grows, h2.words.trans hwords⟩

end

end Sys2Proof.Machine
end

section
/-!
### What the sides receive of a word that leaves, and what follows it (R183, R190–R192, R241)
-/

namespace Sys2Proof.Machine

/-- The parts that the release of a word changes. -/
abbrev releaseParts : List Part := [.tiles, .bg] ++ bothOf .evt ++ bothOf .dsp ++ bothOf .cmp ++ bothOf .bst ++ bothOf .tally

/-- The registers that it writes. -/
def releaseRegs (i a : Nat) : Prop := sentRegs i a ∨ entryRegs a

section
variable {i : Nat} {x : Side} {s t u : State} {w : Word72} {linkA linkB : Upset}

theorem releaseRegs_inBlocks {a : Nat} (hi : i < 64) (h : releaseRegs i a) : inBlocks [8, 17, 20, 21] a := by
  rcases h with h | h
  · have := sentRegs_inBlocks hi h
    simp only [inBlocks, List.mem_cons, List.not_mem_nil, or_false] at this ⊢
    omega
  · simp only [entryRegs, inBlocks, List.mem_cons, List.not_mem_nil, or_false] at h ⊢
    omega

/-! A word received -/

theorem intake_only {ps : List Part} {r : Nat → Prop} (h : Only ps r s t) (hd : .dsp x ∉ ps) (i : Nat) : t.intake x i = s.intake x i := by
  unfold State.intake State.dsp
  rw [show (t.side x).dsp = (s.side x).dsp from h.1 (.dsp x) hd]

/-- Whether a side gives up words depends on its service, its tiles and the time. -/
theorem givesUp_only {ps : List Part} {r : Nat → Prop} (h : Only ps r s t) (hd : .dsp x ∉ ps) (ha : .arb ∉ ps) (hc : .clock ∉ ps) (i : Nat) :
    givesUp t x i = givesUp s x i := by
  unfold givesUp tooEarly State.dsp
  rw [show (t.side x).dsp = (s.side x).dsp from h.1 (.dsp x) hd, show t.arb = s.arb from h.1 .arb ha, h.now hc]

theorem takers_only {ps : List Part} {r : Nat → Prop} (h : Only ps r s t) (ha : .arb ∉ ps) (hp : .power ∉ ps) (i : Nat) :
    takers t i = takers s i := by
  unfold takers State.serving
  rw [show t.arb = s.arb from h.1 .arb ha, show t.power = s.power from h.1 .power hp]

theorem intake_modIntake (x : Side) (i : Nat) (f : List Word72 → List Word72) (s : State) :
    (s.modIntake x i f).intake x i = f (s.intake x i) := by
  unfold State.modIntake State.modDsp State.intake State.dsp
  rw [State.modSide_self, Sparse.get_upd, if_pos rfl]

/-- A side that does not give it up has the word behind those that it holds. -/
theorem receiveWord_intake (within : Bool) (h : givesUp s x i = false) :
    (receiveWord x i w within s).intake x i = s.intake x i ++ [w] := by
  have htally : ∀ c (t : State), (t.tally x c 1).intake x i = t.intake x i := fun c t =>
    intake_only (ps := [.tally x]) (r := noReg) (Only.tally t x c 1 (by simp)) (by simp) i
  unfold receiveWord
  extract_lets s1 s2
  have hs2 : s2.intake x i = s.intake x i := by
    simp only [s2]
    split
    · exact (htally _ _).trans (htally _ _)
    · split
      · exact (htally _ _).trans (htally _ _)
      · exact htally _ _
  rw [if_neg (by rw [h]; decide), intake_modIntake, hs2]

/-- What is done for both sides, as one of them sees it. -/
theorem State.both_around {f : Side → State → State} (hf : ∀ y t, Only [.dsp y, .tally y] noReg t (f y t)) (x : Side) (s : State) :
    ∃ u, Only [.dsp (peerOf x), .tally (peerOf x)] noReg s u ∧ Only [.dsp (peerOf x), .tally (peerOf x)] noReg (f x u) (s.both f) := by
  cases x with
  | a => exact ⟨s, Only.refl _ _ s, hf .b _⟩
  | b => exact ⟨f .a s, hf .a s, Only.refl _ _ _⟩

/-- Whether a word of a tile reaches a side (R183, R398). -/
def reaches (s : State) (i : Nat) (x : Side) : Bool :=
  (takers s i).contains x || (s.arb.svc.get x = .resync && (!s.arb.twin || x = (if i < 32 then .a else .b)))

/-- A word that the link does not lose reaches the sides as it is. -/
theorem sendWord_sound (hA : linkA ≠ .uncorrectable) (hB : linkB ≠ .uncorrectable) : sendWord i w linkA linkB s =
    (wordCounted i w s).both (fun x t => if reaches s i x then receiveWord x i w ((wordCounted i w s).tile i).sending t else t) := by
  unfold sendWord linkWord
  simp only [if_neg hA, if_neg hB]
  rfl

theorem received_only (i : Nat) (w : Word72) (within : Bool) (s : State) (x : Side) (t : State) :
    Only [.dsp x, .tally x] noReg t (if reaches s i x then receiveWord x i w within t else t) :=
  Only.ite (receiveWord_only x i w within t) (Only.refl _ _ t)

theorem sendWord_delivers (hA : linkA ≠ .uncorrectable) (hB : linkB ≠ .uncorrectable) (hx : x ∈ takers s i)
    (hg : givesUp s x i = false) : (sendWord i w linkA linkB s).intake x i = s.intake x i ++ [w] := by
  have hgets : reaches s i x = true := by simp [reaches, hx]
  have hcount := wordCounted_only i w s
  rw [sendWord_sound hA hB]
  obtain ⟨u, hu, ht⟩ := State.both_around (received_only i w ((wordCounted i w s).tile i).sending s) x (wordCounted i w s)
  have hother : Part.dsp x ∉ [Part.dsp (peerOf x), .tally (peerOf x)] := by cases x <;> decide
  rw [intake_only ht hother, if_pos hgets, receiveWord_intake, intake_only hu hother, intake_only hcount (by simp)]
  rw [givesUp_only hu hother (by simp) (by simp), givesUp_only hcount (by simp) (by simp) (by simp), hg]

theorem sendWord_state (hA : linkA ≠ .uncorrectable) (hB : linkB ≠ .uncorrectable) :
    ((sendWord i w linkA linkB s).tile i).state = (s.tile i).state := by
  have hboth : Only (bothOf .dsp ++ bothOf .tally) noReg (wordCounted i w s) (sendWord i w linkA linkB s) := by
    rw [sendWord_sound hA hB]
    exact Only.both (fun x t => (received_only i w _ s x t).mono (by cases x <;> decide) fun _ => id) (Only.refl _ _ _)
  rw [hboth.tile (by decide), (wordCounted_tile i w s).2]

/-! What follows the release of a word -/

/-- A tile's BUSY, its groups that wait and the end of its run. -/
def tileFollows (i : Nat) (moved : List Upset) (s : State) : State := idleCheck i (moveGroups i moved (levelCheck i s))

theorem tileFollows_worked (moved : List Upset) (s : State) : Worked (eccRegs i) i s (tileFollows i moved s) :=
  ((Worked.of_fed (Fed.levelCheck s) fun _ => .inl).trans (Worked.moveGroups (fun _ => .inl) (.inr rfl) moved _)).trans (Worked.idleCheck _)

theorem tileFollows_sound (s : State) : Worked (feedRegs i) i s (tileFollows i [] s) :=
  ((Worked.of_fed (Fed.levelCheck s) fun _ => id).trans (Worked.moveGroups_sound (fun _ => id) _)).trans (Worked.idleCheck _)

/-- A tile that runs does not go idle of itself. -/
theorem tileFollows_running (moved : List Upset) (h : (s.tile i).state = .running) : ((tileFollows i moved s).tile i).state ≠ .idle := by
  cases hs : (s.tile i).slice with
  | some n => exact (tileFollows_worked moved s).inUnit (by rw [h]; decide) (by rw [hs]; rfl)
  | none =>
    have hf := Fed.levelCheck (i := i) s
    have hslice : ((levelCheck i s).tile i).slice = none := hf.slice.trans hs
    have hstate : ((levelCheck i s).tile i).state = .running := hf.state.trans h
    have hmove : moveGroups i moved (levelCheck i s) = levelCheck i s := by
      unfold moveGroups
      simp only [hslice]
    have hidle : idleCheck i (levelCheck i s) = levelCheck i s := by
      unfold idleCheck
      simp [hstate]
    rw [tileFollows, hmove, hidle, hstate]
    decide

theorem trailing_busy (h : (s.tile i).state ≠ .idle) : trailing x i s = s := by
  unfold trailing
  exact if_pos (by simp [h])

/-- Trailing words of a tile taken up by the sides that serve. -/
def trailingBoth (i : Nat) (s : State) : State := s.both (fun x k => if k.serving x then trailing x i k else k)

theorem trailingBoth_only (i : Nat) (s : State) :
    Only (bothOf .dsp ++ bothOf .cmp ++ bothOf .bst ++ raising) entryRegs s (trailingBoth i s) :=
  Only.both (fun x t => Only.ite ((trailing_only x i t).mono (by cases x <;> decide) fun _ => id) (Only.refl _ _ t)) (Only.refl _ _ s)

theorem trailingBoth_busy (h : (s.tile i).state ≠ .idle) : trailingBoth i s = s := by
  have hside : ∀ x, (if s.serving x then trailing x i s else s) = s := fun x => by rw [trailing_busy h, ite_self]
  show (fun k : State => if k.serving .b then trailing .b i k else k) (if s.serving .a then trailing .a i s else s) = s
  rw [hside .a]
  exact hside .b

theorem afterWord_eq (moved : List Upset) (s : State) : afterWord i moved s = trailingBoth i (tileFollows i moved s) := rfl

theorem afterWord_goes (hi : i < 64) (moved : List Upset) (s : State) : let t := afterWord i moved s
    Only releaseParts (releaseRegs i) s t ∧ (s.tile i).fifo <+: (t.tile i).fifo ∧ t.rd (Reg.TIL_WORDS i) = s.rd (Reg.TIL_WORDS i) := by
  have h1 := tileFollows_worked (i := i) moved s
  have h2 := trailingBoth_only i (tileFollows i moved s)
  rw [afterWord_eq]
  refine ⟨(h1.only.mono (by decide) fun _ h => .inl (.inl h)).trans (h2.mono (by decide) fun _ => .inr), ?_, ?_⟩
  · rw [h2.tile (by decide)]
    exact h1.grows
  · exact (h2.rd (not_entryRegs_tile hi (by decide))).trans (h1.only.rd (not_eccRegs_words hi))

/-- Nothing that read with errors: TIL_ECC stands. -/
theorem afterWord_ecc (hi : i < 64) (h l : Nat) (s : State) : (afterWord i [] s).rf (Reg.TIL_ECC i) h l = s.rf (Reg.TIL_ECC i) h l := by
  rw [afterWord_eq]
  exact ((trailingBoth_only i _).rf (not_entryRegs_tile hi (by decide)) h l).trans ((tileFollows_sound s).only.rf (not_feedRegs_ecc hi) h l)

theorem afterWord_intake (moved : List Upset) (h : (s.tile i).state = .running) (x : Side) :
    (afterWord i moved s).intake x i = s.intake x i := by
  rw [afterWord_eq, trailingBoth_busy (tileFollows_running moved h)]
  exact intake_only (tileFollows_worked moved s).only (by cases x <;> decide) i

/-! A word that reads wrong -/

/-- The words of a group that have crossed, taken back. -/
theorem retract_only (i n : Nat) (s : State) :
    Only (bothOf .dsp ++ bothOf .tally) (fun a => a = Reg.TIL_WORDS i) s (retract i n s) := by
  unfold retract
  extract_lets gone
  refine (Only.both (fun x t => Only.ite ?_ (Only.refl _ _ t)) (Only.refl _ _ s)).trans (Only.wr _ _ _ rfl)
  have ht : ∀ k : State, Only [.tally x] noReg k (gone x k) := fun k => Only.modSide k x _ (by simp)
  exact (Only.modDsp t x _ (by cases x <;> decide)).trans ((ht _).mono (by cases x <;> decide) fun _ => False.elim)

/-- An uncorrectable word is counted once in TIL_ECC (R190). -/
theorem badSlot_counts (hi : i < 64) (q : Slot) (linkA linkB : Upset) (s : State) : let t := badSlot i q linkA linkB s
    Only linkParts (sentRegs i) s t ∧ t.rf (Reg.TIL_ECC i) 23 16 = min (s.rf (Reg.TIL_ECC i) 23 16 + 1) 255 := by
  unfold badSlot
  extract_lets loss s1 mark s2 s3 t
  let b := s.bump (Reg.TIL_ECC i) 23 16 1
  have hb : Only linkParts (sentRegs i) s b := Only.bump s _ _ _ _ (.inl (.inr rfl))
  have hcount : b.rf (Reg.TIL_ECC i) 23 16 = min (s.rf (Reg.TIL_ECC i) 23 16 + 1) 255 := State.rf_bump_self s _ 1 (by decide) (by decide)
  have h1 : EccKept i b s1 := (LinkKept.of_worked hi
    ((Worked.tallyAll .fifoUncorr 1 b).trans (Worked.tileFault (fun _ => id) _))).toEccKept
  have hmod : ∀ (t : State) f, EccKept i t (t.modTile i f) := fun t f =>
    EccKept.of_only (w := noReg) (Only.modTile t i f (by decide)) (fun _ => False.elim) id
  have hsend : ∀ w lA lB t, EccKept i t (sendWord i w lA lB t) := fun w lA lB t => (sendWord_sends hi w lA lB t).1
  have hretract : EccKept i s1 (retract i q.place s1) := EccKept.of_only ((retract_only i q.place s1).mono (by decide) fun _ => id)
    (fun _ => .inr) (by simp only [Reg.TIL_WORDS, Reg.TIL_ECC]; omega)
  have h2 : EccKept i b t := by
    unfold t
    split
    · exact ((h1.trans (hsend _ _ _ s1)).trans (hsend _ _ _ s2)).trans (hmod _ _)
    · exact (((h1.trans hretract).trans (hmod _ _)).trans (hsend _ _ _ s3)).trans (hmod _ _)
  exact ⟨hb.trans h2.only, (h2.ecc 23 16 (by decide)).trans hcount⟩

end

end Sys2Proof.Machine
end

section
/-!
### TILE_LINK_WORD (R183, R184, R190–R192)
-/

namespace Sys2Proof.Machine

section
variable {dt : Nat} {i : Fin 64} {fifo linkA linkB : Upset} {moved : List Upset} {q : Slot} {rest : List Slot} {s v : State}

/-- The first word taken out of a tile's FIFO. -/
def wordTaken (i : Nat) (rest : List Slot) (v : State) : State := v.modTile i (fun k => { k with fifo := rest, lastAct := v.clock.ticks })

/-- A word that was corrected as it was read is counted (R190). -/
def readNoted (i : Nat) (fifo : Upset) (s : State) : State :=
  if fifo = .corrected then (s.bump (Reg.TIL_ECC i) 15 0 1).tallyAll .fifoCorr 1 else s

theorem wordTaken_only (i : Nat) (rest : List Slot) (v : State) : Only [.tiles] noReg v (wordTaken i rest v) := Only.modTile v i _ (by simp)

theorem wordTaken_tile (i : Nat) (rest : List Slot) (v : State) :
    (wordTaken i rest v).tile i = { v.tile i with fifo := rest, lastAct := v.clock.ticks } := (State.tile_modTile ..).trans (if_pos rfl)

theorem readNoted_only (i : Nat) (fifo : Upset) (s : State) :
    Only (bothOf .tally) (fun a => a = Reg.TIL_ECC i) s (readNoted i fifo s) := by
  have hb : Only (bothOf .tally) (fun a => a = Reg.TIL_ECC i) s (s.bump (Reg.TIL_ECC i) 15 0 1) := Only.bump s _ _ _ _ rfl
  exact Only.ite (hb.trans (Only.tallyAll _ _ _)) (Only.refl _ _ s)

theorem readNoted_ecc (i : Nat) (fifo : Upset) (s : State) :
    (readNoted i fifo s).rf (Reg.TIL_ECC i) 15 0 = min (s.rf (Reg.TIL_ECC i) 15 0 + b2n (fifo = .corrected)) 65535 := by
  unfold readNoted
  by_cases h : fifo = .corrected
  · have ht : Only (bothOf .tally) noReg _ ((s.bump (Reg.TIL_ECC i) 15 0 1).tallyAll .fifoCorr 1) := Only.tallyAll _ _ _
    rw [if_pos h, ht.rf id, State.rf_bump_self _ _ _ (by decide) (by decide)]
    simp [h, b2n]
  · have hlt : s.rf (Reg.TIL_ECC i) 15 0 < 65536 := State.rf_lt s _
    rw [if_neg h, show b2n (fifo = .corrected) = 0 by simp [b2n, h]]
    omega

/-- A tile's link passes a word (R183): the tile's words are not held back, and every side for which its FIFO waits takes words. -/
structure LinkOpen (i : Nat) (v : State) : Prop where
  speaks : tileSilent v i = false
  taken : takers v i ≠ []
  room : ∀ x ∈ takers v i, intakeOpen v x i = true

theorem exec_tileLinkWord (hv : settleTile i (s.elapse dt) = v) (hfifo : (v.tile i).fifo = q :: rest) (h : LinkOpen i v) :
    exec (.tileLinkWord dt i fifo linkA linkB moved) s = .next (afterWord i moved
      (if fifo = .uncorrectable then badSlot i q linkA linkB (wordTaken i rest v)
      else sendWord i (fixClose (v.tile i) q.word) linkA linkB (readNoted i fifo (wordTaken i rest v)))) := by
  obtain ⟨hspeaks, hsome, hroom⟩ := h
  have hgo : ¬ (tileSilent v i || takers v i = [] || !(takers v i).all (fun x => intakeOpen v x i)) = true := by
    rw [hspeaks, List.all_eq_true.2 hroom]
    simp [hsome]
  have hfix : fixClose ((wordTaken i rest v).tile i) q.word = fixClose (v.tile i) q.word := by
    rw [wordTaken_tile]
    rfl
  subst hv
  show execTileLinkWord dt i fifo linkA linkB moved s = _
  unfold execTileLinkWord
  simp only [hfifo]
  rw [if_neg hgo, ← hfix]
  cases fifo <;> rfl

/-- A word that can be read crosses to the sides that take it (R183, R190). -/
theorem tileLinkWord_crosses (hv : settleTile i (s.elapse dt) = v) (hfifo : (v.tile i).fifo = q :: rest) (h : LinkOpen i v)
    (hread : fifo ≠ .uncorrectable) : Happens releaseParts (inBlocks [8, 17, 20, 21]) v
      (fun t => t.rd (Reg.TIL_WORDS i) = v.rd (Reg.TIL_WORDS i) + 1 ∧ (∃ post, (t.tile i).fifo = rest ++ post) ∧
        (moved = [] → t.rf (Reg.TIL_ECC i) 15 0 = min (v.rf (Reg.TIL_ECC i) 15 0 + b2n (fifo = .corrected)) 65535) ∧
        ((v.tile i).state = .running → linkA ≠ .uncorrectable → linkB ≠ .uncorrectable → ∀ x ∈ takers v i, givesUp v x i = false →
          t.intake x i = v.intake x i ++ [fixClose (v.tile i) q.word]))
      (exec (.tileLinkWord dt i fifo linkA linkB moved) s) := by
  rw [exec_tileLinkWord hv hfifo h, if_neg hread]
  have h1 := wordTaken_only i rest v
  have h2 := readNoted_only i fifo (wordTaken i rest v)
  have h12 : Only (.tiles :: bothOf .tally) (fun a => a = Reg.TIL_ECC i) v (readNoted i fifo (wordTaken i rest v)) :=
    (h1.mono (by simp) fun _ => False.elim).trans (h2.mono (by simp) fun _ => id)
  have htile : (readNoted i fifo (wordTaken i rest v)).tile i = _ := (h2.tile (by decide) i).trans (wordTaken_tile i rest v)
  have hecc := readNoted_ecc i fifo (wordTaken i rest v)
  rw [h1.rf id] at hecc
  generalize readNoted i fifo (wordTaken i rest v) = u at *
  obtain ⟨hkept, hgrows, hwords⟩ := sendWord_sends i.isLt (fixClose (v.tile i) q.word) linkA linkB u
  have hsent := fun hA hB x => sendWord_delivers (i := i) (x := x) (s := u) (w := fixClose (v.tile i) q.word)
    (linkA := linkA) (linkB := linkB) hA hB
  have hstate := sendWord_state (i := i) (s := u) (w := fixClose (v.tile i) q.word) (linkA := linkA) (linkB := linkB)
  generalize sendWord i (fixClose (v.tile i) q.word) linkA linkB u = t at *
  obtain ⟨ho, hfollow, hsame⟩ := afterWord_goes i.isLt moved t
  refine ⟨_, rfl, ⟨?_, ?_, fun hm => ?_, fun hrun hA hB x hx hg => ?_⟩, ?_⟩
  · rw [hsame, hwords, h12.rd (by simp only [Reg.TIL_WORDS, Reg.TIL_ECC]; omega)]
  · obtain ⟨post, hpost⟩ := hgrows.trans hfollow
    exact ⟨post, by rw [← hpost, htile]⟩
  · subst hm
    rw [afterWord_ecc i.isLt, hkept.ecc 15 0 (by decide), hecc]
  · have hdsp : Part.dsp x ∉ Part.tiles :: bothOf .tally := by cases x <;> decide
    have hru : (u.tile i).state = .running := by rw [htile]; exact hrun
    rw [afterWord_intake moved ((hstate hA hB).trans hru), hsent hA hB x, intake_only h12 hdsp]
    · rw [takers_only h12 (by decide) (by decide)]
      exact hx
    · rw [givesUp_only h12 hdsp (by decide) (by decide)]
      exact hg
  · refine ((h12.mono (by decide) fun a k => ?_).trans (hkept.only.mono (by decide) fun a k => releaseRegs_inBlocks i.isLt (.inl k))).trans
      (ho.mono (fun _ => id) fun a k => releaseRegs_inBlocks i.isLt k)
    exact releaseRegs_inBlocks i.isLt (.inl (.inl (.inr k)))

/-- A word that cannot be read is counted (R190). -/
theorem tileLinkWord_bad (hv : settleTile i (s.elapse dt) = v) (hfifo : (v.tile i).fifo = q :: rest) (h : LinkOpen i v) :
    Happens releaseParts (inBlocks [8, 17, 20, 21]) v
      (fun t => t.rf (Reg.TIL_ECC i) 23 16 = min (v.rf (Reg.TIL_ECC i) 23 16 + 1) 255)
      (exec (.tileLinkWord dt i .uncorrectable linkA linkB []) s) := by
  rw [exec_tileLinkWord hv hfifo h, if_pos rfl]
  have h1 := wordTaken_only i rest v
  obtain ⟨h2, hecc⟩ := badSlot_counts i.isLt q linkA linkB (wordTaken i rest v)
  rw [h1.rf id] at hecc
  generalize badSlot i q linkA linkB (wordTaken i rest v) = t at *
  have h3 := (afterWord_goes i.isLt [] t).1
  refine ⟨_, rfl, (afterWord_ecc i.isLt 23 16 t).trans hecc, ?_⟩
  exact ((h1.mono (by decide) fun _ => False.elim).trans
    (h2.mono (by decide) fun a k => releaseRegs_inBlocks i.isLt (.inl k))).trans
    (h3.mono (fun _ => id) fun a k => releaseRegs_inBlocks i.isLt k)

end

end Sys2Proof.Machine
end

section
/-!
### The readout of a tile
-/

namespace Sys2Proof.Machine

/-- Settles O41: a clause for each of the tile's instructions, on the tile brought up to now. What a word of the FIFO and a group that
enters it leave of the tile (`Worked`) carries the units and the link; the EPOCH words of the other tiles are nothing to a tile (`Near`). -/
theorem tilesAreReadOut : Obligations.TilesAreReadOut := by
  unfold Obligations.TilesAreReadOut
  intro dt i moved s u v k
  have hf : Fed i u v := Fed.settleTile u
  have hnow : v.now = u.now := hf.now
  refine ⟨fun n hs h1 h2 h3 h4 h5 h6 => unitClose_closes rfl hs ⟨h1, by rw [hnow]; exact h2, h3, h4, h5, h6⟩, ?_,
    fun hm hr => occupancySummary_sends rfl rfl i hm hr,
    fun h1 h2 h3 h4 h5 h6 h7 => tileClockGate_gates rfl i rfl h1 h2 h3 h4 h5 h6 h7, ?_,
    fun hon hk => tilePllLockLost_loses rfl hon hk, fun hk => tilePllRelock_relocks rfl hk,
    fun r hr hd hk => tilePllRelockTimeout_empties rfl hr hd hk⟩
  · refine ⟨(List.range 64).foldl writeEpoch u, rfl, ?_,
      (writeEpochs_only u).mono (by decide) fun a => feedAllRegs_inBlocks (by simp) (by simp)⟩
    intro hstate hstart hpll hroom hplace
    have hframe : v.frameTile i = u.frameTile i := by
      simp only [State.frameTile, State.rb, hf.only.rd (not_feedRegs_tilCtrl i.isLt)]
    have hhere : EpochHere i v := ⟨hstate, hnow ▸ hstart, hpll, hroom, by rw [hframe, hnow]; exact hplace⟩
    have hw := writeEpochs_writes i.isLt (u := u) rfl hhere
    rw [hnow] at hw
    exact hw
  · intro fifo linkA linkB q rest hq hspeaks hsome hroom o
    have hopen : LinkOpen i v := ⟨hspeaks, hsome, hroom⟩
    refine ⟨fun hread => tileLinkWord_crosses rfl hq hopen hread, fun hbad hm => ?_⟩
    subst hbad hm
    exact tileLinkWord_bad rfl hq hopen

end Sys2Proof.Machine
end
